-- ==== Sys2Proof/Word.lean ====
section
/-! DEFINITION. The word types of the MJX-9648 and the plainest arithmetic on numbers held in fields. -/

namespace Sys2Proof

/-- A byte of memory, of a frame or of a record. -/
abbrev Byte := BitVec 8

/-- A 64-bit register or memory word. -/
abbrev Word := BitVec 64

/-- Bits `lo` to `lo + width - 1` of `n`, as a number (R2: ranges are inclusive at both ends). -/
def bitsOf (n lo width : Nat) : Nat := n / 2 ^ lo % 2 ^ width

/-- `n` placed at bit `lo` of a field of `width` bits. -/
def placed (n lo width : Nat) : Nat := n % 2 ^ width * 2 ^ lo

/-- The two's complement value of the low `width` bits of `n`. -/
def signedOf (n width : Nat) : Int :=
  if 2 * (n % 2 ^ width) < 2 ^ width then (n % 2 ^ width : Nat) else (n % 2 ^ width : Nat) - (2 ^ width : Nat)

/-- The low `width` bits of the two's complement coding of `z`. -/
def unsignedOf (z : Int) (width : Nat) : Nat := (z % (2 ^ width : Nat)).toNat

/-- The little-endian bytes of `n`, `len` of them (R2). -/
def leBytes : Nat → Nat → List Byte
  | 0, _ => []
  | len + 1, n => BitVec.ofNat 8 n :: leBytes len (n / 256)

/-- The number whose little-endian bytes are the list (R2). -/
def leNat : List Byte → Nat
  | [] => 0
  | b :: bs => b.toNat + 256 * leNat bs

/-- 1 for true, 0 for false. -/
def bit (b : Bool) : Nat := if b then 1 else 0

end Sys2Proof
end

