-- ==== Sys2Proof/Units.lean ====
section
/-! DEFINITION. The units of the package by name, the operating modes and the builds. -/

namespace Sys2Proof

/-- A unit that presents the 64-byte header (R16, R536, R537); `fn` is the host view of a function, numbers
0 to 1,023 the virtual functions and 1,024 + port the physical functions (R225, R233). -/
inductive UnitId where
  | tile (p : Fin 36) | core (p : Fin 36) (c : Fin 8)
  | hub | home (k : Fin 8) | pcie (k : Fin 2) | fnmgr | headgate | mbox | stripe (k : Fin 4) | key | sweep
  | wmap | iow | irq | rme | mc (k : Fin 8) | memmap | xbar | therm | aon | pwr | cfg | stest | err | pmu | trace
  | vz (k : Fin 45) | med (m : Fin 4) | act (a : Fin 96) | keep | fn (f : Fin 1026)
  deriving DecidableEq, Repr

/-- The page layouts of R548, by the unit that holds them. -/
inductive PageKind where
  | tile | core | hub | home | pcie | fnmgr | headgate | mbox | stripe | key | sweep | wmap | iow | irq | rme | mc
  | memmap | xbar | therm | aon | pwr | cfg | stest | err | pmu | trace | vz | die | act | keep | fn
  deriving DecidableEq, Repr

/-- The twelve operating modes (R17). -/
inductive Mode where
  | off | keep | waking | loading | twelve | serve | still | sanitise | format | shutdownTest | recovery | diagnostic
  deriving DecidableEq, Repr

/-- The builds shipped (R21). -/
inductive Build where
  | b01 | b02 | b03
  deriving DecidableEq, Repr

/-- The two worlds of execution and of bus requests (chapter Cores, Worlds and Translation). -/
inductive World where
  | secure | normal
  deriving DecidableEq, Repr

end Sys2Proof
end

