-- ==== Sys2Proof/Types/Cache.lean ====
section
/-! DEFINITION. The coherent memory: copies, the directory, transactions and the messages under way (R332–R356, R385–R395),
and what a memory controller holds beyond its registers. Agents and ports are numbered as R335 and R387 number them. -/

namespace Sys2Proof

/-- The owner record of a dirty copy (R353). -/
structure Own where
  w : Bool := false
  h : Bool := false
  m : Bool := false
  hart : Nat := 0
  deriving DecidableEq, Repr

/-- The contents of a line: its 64 bytes, a mask of the bytes that are poisoned, its owner record while dirty, and whether the copy
has bad parity that no access has met yet, with whether it is the second of its way within one second (R354). -/
structure LineData where
  bytes : List Byte := []
  pmask : Nat := 0
  own : Own := {}
  bad : Option Bool := none
  deriving DecidableEq, Repr

/-- The state of a copy that is not invalid (R336). -/
inductive CopySt where
  | s | uc | ud
  deriving DecidableEq, Repr

/-- A copy held by an agent, or by a core within a tile. -/
structure Copy where
  st : CopySt
  d : LineData
  deriving DecidableEq, Repr

/-- The directory state of a line (R338). -/
inductive DirSt where
  | i | s | u
  deriving DecidableEq, Repr

/-- Where a core holds a line beside its L2: in its L1I, in its L1D (R332). -/
structure L1s where
  i : Bool := false
  d : Bool := false
  deriving DecidableEq, Repr

/-- What a request asks of a home: the requests of R339 with WB and EVICT, the visits of the range maintenance engine (R356), and the
home's own recall of a directory victim (R334). -/
inductive ReqOp where
  | rdS | rdU | upg | rdOnce | wrFull | wrPtl | amo | wb | evict | clean | cleanInv | inv | recall | dirVictim
  deriving DecidableEq, Repr

/-- A far atomic's operation (R388). -/
inductive AmoOp where
  | swap | add | xor | and | or | min | max | minu | maxu | pteA | pteAD
  deriving DecidableEq, Repr

/-- A request as a home orders it: its port and transaction, its world, the data and byte mask of a write, and the operation,
byte offset, size, operand and hart of an atomic; for RECALL the agent; the directory victim that the home chooses should the
request need one; and for a victim's recall the line that waits for its entry. -/
structure HReq where
  op : ReqOp
  port : Nat
  txn : Nat
  w : Bool := false
  data : List Byte := []
  mask : Nat := 0
  own : Own := {}
  aop : AmoOp := .swap
  off : Nat := 0
  wide : Bool := true
  operand : Nat := 0
  hart : Nat := 0
  agent : Nat := 0
  victim : Option Nat := none
  forLine : Nat := 0
  deriving DecidableEq, Repr

/-- An open transaction of a line (R342): the request, the agents whose answers are awaited, dirty data gathered, whether the
owner sent the data, write-backs that joined it, whether COMP was sent, whether an agent other than the requester's was
snooped, and whether the owner was found without the line; the agents that answered WB_PENDING and whose WB is awaited (R345); the
directory victim whose entry the request waits for (R334); and whether the requester's link is lost (R408). -/
structure HTxn where
  r : HReq
  wait : List Nat := []
  got : Option LineData := none
  sent : Bool := false
  state : CopySt := .uc
  wbs : List (Nat × LineData) := []
  comp : Bool := false
  others : Bool := false
  missed : Bool := false
  wbWait : List Nat := []
  dir : Option Nat := none
  gone : Bool := false
  deriving DecidableEq, Repr

/-- A line at its home (R338): directory state and presence, the LLC's copy, the open transaction, the requests that wait,
and the accepted offers that await their data, cancelled or not (R344). -/
structure HLine where
  d : DirSt := .i
  p : List Nat := []
  llc : Option LineData := none
  dirty : Bool := false
  txn : Option HTxn := none
  waitq : List HReq := []
  offers : List (Nat × Bool) := []
  deriving DecidableEq, Repr

/-- An operation that runs on a channel of the range maintenance engine (R356, R357): what it does, in which world, to which agent,
and the lines that the engine has not reached. -/
structure RmeRun where
  op : ReqOp
  w : Bool
  agent : Nat
  todo : List Nat
  deriving DecidableEq, Repr

/-- A snoop (R339). -/
inductive SnpOp where
  | s | u | inv | once | clean
  deriving DecidableEq, Repr

/-- The answer of an ACK (R339). -/
inductive AckKind where
  | miss | hit | dataSent | wbPending
  deriving DecidableEq, Repr

/-- The answer to an EVICT (R344). -/
inductive EvAns where
  | accept | decline | stale
  deriving DecidableEq, Repr

/-- A message of a tile L3 to one of its cores (R337). -/
inductive TileOp where
  | inv | down | fetch
  deriving DecidableEq, Repr

/-- A core's request to its tile L3 (R337). -/
inductive CoreOp where
  | getS | getU | upg
  deriving DecidableEq, Repr

/-- A message under way (R339, R337). `src` and `dst` are ports; `core` is the core of a tile message. -/
inductive MsgKind where
  | req (r : HReq)
  | wb (d : LineData)
  | evict (offer : Bool)
  | snp (op : SnpOp) (req rtxn : Nat)
  | ack (k : AckKind) (dirty : Option LineData) (st : CopySt)
  | data (st : CopySt) (d : LineData)
  | comp (st : CopySt) (contended : Bool)
  | compAck
  | wbAck (consumed : Bool)
  | evAck (a : EvAns)
  | odata (d : LineData)
  | err (cause : Nat)
  | tile (op : TileOp)
  | tdata (d : Option LineData) (dirty : Bool)
  | ncData (v : List Byte) (poison : Bool)
  | ncAck
  | ncErr (cause : Nat)
  deriving DecidableEq, Repr

/-- A message under way: its line (or byte address for an NC message), ends, transaction and core. -/
structure Msg where
  kind : MsgKind
  line : Nat
  src : Nat := 0
  dst : Nat := 0
  txn : Nat := 0
  core : Nat := 0
  deriving DecidableEq, Repr

/-- A request outstanding at its initiator (R387, R394): whom it serves, and what has come back. -/
structure OReq where
  port : Nat
  txn : Nat
  line : Nat
  op : Option ReqOp               -- none for an NC request
  nc : Bool := false              -- an NC write, where `op` is none
  core : Option (Nat × CoreOp) := none
  hart : Option Nat := none       -- the hart whose request this is
  got : Option (CopySt × LineData) := none
  comp : Option CopySt := none
  contended : Bool := false       -- CONTENDED of the COMP of a far atomic
  deriving DecidableEq, Repr

/-- What a tile L3 does for a line: a core's request that waits for its cores or for the hub, and a hub snoop that waits for
its cores, with those of them that have held it once (R337, R343). -/
structure TileTxn where
  req : Option (Nat × CoreOp) := none
  reqWait : List Nat := []
  hub : Bool := false             -- the matching hub request is out
  snp : Option (SnpOp × Nat × Nat) := none
  snpWait : List Nat := []
  held : List Nat := []
  deriving DecidableEq, Repr

/-- A write-back or poison rewrite queued at a memory controller (R375): the line, the bytes that it changes, whether it stores poison,
whether the scrubber found it, and the first failing byte with its syndrome as they were found. -/
structure WbEnt where
  line : Nat
  bytes : List Nat
  poison : Bool
  scrub : Bool
  first : Nat
  syn : Nat
  deriving DecidableEq, Repr

/-- A region of the memory map in force (R368). -/
structure MRegion where
  strong : Bool
  base : Nat
  limit : Nat
  annex : Nat
  deriving DecidableEq, Repr

/-- A range of DRAM whose contents a commit left undefined (R371): bytes `lo` to `hi - 1`, the number drawn for it, and, as first and last
byte, the ranges of data filled since, whose check bits in the range are good (R378). -/
structure LostRange where
  lo : Nat
  hi : Nat
  draw : Nat
  fills : List (Nat × Nat) := []
  deriving DecidableEq, Repr

/-- What an access or a snoop finds wrong at the copy that it meets: nothing; bad parity of its data (R354, R355), `again`
where its way gives the second such error within one second and is locked out; or an error of its tag or directory entry, which
is corrected or cannot be (R332, R355). -/
inductive Parity where
  | none
  | bad (again : Bool)
  | tag (corrected : Bool)
  deriving DecidableEq, Repr

/-- A TXN held after its request was ended by a timeout (R395), and the answers that are still to come: data, and the last word. -/
structure HeldTxn where
  port : Nat
  txn : Nat
  data : Bool
  comp : Bool
  deriving DecidableEq, Repr

/-- A unit of 128 bits on one of the four networks (R385, R388). -/
structure VzUnit where
  net : Fin 4
  bits : BitVec 128
  deriving DecidableEq, Repr

/-- A flit sent and not acknowledged (R398): its SEQ, how often it was sent, its units. -/
structure VzFlit where
  seq : Nat
  sends : Nat
  units : List VzUnit
  deriving DecidableEq, Repr

/-- A flit as it is sent (R397): its SEQ where it carries units, and its units. -/
structure VzSend where
  seq : Option Nat
  units : List VzUnit
  deriving DecidableEq, Repr

/-- A flit as it arrives at a link end: with its ACK, NAK and credit totals, and whether its CRC is bad. -/
structure VzIn where
  flit : VzSend
  ack : Nat
  nak : Bool
  freed : List Nat
  bad : Bool
  deriving DecidableEq, Repr

/-- A crossing between clocks that are not phase-locked, in one direction (R411): each core's path to its tile's link, a link end,
the two clocks of a medium die, a port's clock, and the always-on clock. -/
inductive Crossing where
  | core (p : Fin 36) (c : Fin 8) (toFab : Bool)
  | link (n : Fin 45) (hubEnd : Bool)
  | med (m : Fin 4) (toFab : Bool)
  | port (k : Fin 2) (toFab : Bool)
  | aon (toFab : Bool)
  deriving DecidableEq, Repr

/-- One end of a Valiez link (R397, R398): the next SEQ, the flits sent and not acknowledged,
the next of them to send again, the last SEQ accepted, whether NAK is to be sent, whether a NAK was received and not yet
acted on, the times of bad flits, units sent, units that the other end reported freed, and units freed here, per
network; the data units still to be sent and still to be received of the data messages under way (R385, R388); and the flits in its
receive culvert (R410, R411). -/
structure VzEnd where
  seq : Nat := 0
  replay : List VzFlit := []
  again : Option Nat := none
  rx : Nat := 255
  nak : Bool := false
  nakSeen : Bool := false
  badAt : List Nat := []
  sent : List Nat := [0, 0, 0, 0]
  seen : List Nat := [0, 0, 0, 0]
  freed : List Nat := [0, 0, 0, 0]
  dataOut : Nat := 0
  dataIn : Nat := 0
  culvert : List VzIn := []
  deriving DecidableEq, Repr

/-- A Valiez link (R396–R402): its two ends; whether each end trains in full; the masks that each end kept, hub-to-die first;
the lanes that passed step 3; mismatches in a row; whether it has been Active since it was last lost; and whether the other link
of its medium die carries its traffic until the next start (R406). -/
structure VzLink where
  hub : VzEnd := {}
  die : VzEnd := {}
  hubFast : Bool := false
  dieFast : Bool := false
  hubKept : Option (Nat × Nat) := none
  dieKept : Option (Nat × Nat) := none
  good : Nat × Nat := (0, 0)
  mism : Nat := 0
  wasUp : Bool := false
  moved : Bool := false
  deriving DecidableEq, Repr

/-- What a training step of a Valiez link finds: the lanes that pass the test, hub-to-die and die-to-hub, and the round trip. -/
structure VzObs where
  tx : BitVec 34
  rx : BitVec 34
  rtt : BitVec 12
  deriving DecidableEq, Repr

/-- Who makes an NC access: a world, and for a hart's own access the hart. -/
structure NcBy where
  w : World
  hart : Option (Fin 256)
  deriving DecidableEq, Repr

/-- A core that a T_ message reaches, and whether it holds the message for its LR reservation or near AMO (R343). -/
structure CoreAsk where
  core : Fin 8
  hold : Bool
  deriving DecidableEq, Repr

/-- A request or snoop whose timer expires (R394). -/
inductive TmoWhat where
  | req (port : Fin 60) (txn : Fin 1024)
  | wb (agent : Fin 42) (line : BitVec 46)
  | evict (agent : Fin 42) (line : BitVec 46)
  | snoop (line : BitVec 46) (agent : Fin 42)
  deriving DecidableEq, Repr

end Sys2Proof
end

