-- ==== Sys2Proof/Types/Core.lean ====
section
/-! DEFINITION. What a hart holds (R292–R328, R516–R528), and the operands of its commands. -/

namespace Sys2Proof

/-- A translation held by a TLB (R316, R317): tags, the page (its size as a power of two), where it leads, and the leaf's
permission bits. -/
structure TlbEnt where
  w : Bool
  v : Bool
  asid : Nat
  vmid : Nat
  global : Bool
  guest : Bool                    -- a G-stage mapping takes part
  vpn : Nat                       -- virtual page number of 4 KiB
  gpn : Nat                       -- guest-physical page number
  ppn : Nat
  perm : Nat                      -- PTE bits 7 to 0 of the stage-1 leaf
  gperm : Nat                     -- PTE bits 7 to 0 of the G-stage leaf
  stage : Nat                     -- the last stage that took part (R315), and its leaf's level
  level : Nat
  modes : Nat                     -- the levels of stage 1 and of the G-stage as it was filled, 8 times the first and the second
  deriving DecidableEq, Repr

/-- An asynchronous machine check that waits (R516–R518): KIND, W, H, level and address. -/
structure MceRec where
  kind : Nat
  w : Bool
  h : Bool
  level : Nat
  addr : Nat
  deriving DecidableEq, Repr

/-- The architectural state of a hart. Levels are 0 U, 1 S (HS, VS), 3 M. CSRs that differ from their reset values are listed
by number, plus 4,096 for the secure bank (R298). -/
structure Hart where
  run : Bool := false             -- started, and not stopped
  w : Bool := true                -- the world bit
  priv : Nat := 3
  v : Bool := false
  pc : Nat := 0
  x : List (Nat × Nat) := []
  f : List (Nat × Nat) := []
  vr : List (Nat × Nat) := []     -- vector register bytes, by 32 × register + byte
  csr : List (Nat × Nat) := []
  tlb : List TlbEnt := []
  resv : Option Nat := none       -- the line reserved by LR (R293)
  tumbler : List (Nat × Nat) := []        -- counters that differ from 1 (R349)
  mce : List MceRec := []         -- asynchronous machine checks pending
  halted : Bool := false          -- in debug mode (R531)
  deriving DecidableEq, Repr

/-- The instruction that a hart command executes: the hart, the instruction's address, whether it is a 16-bit one (R292) and
its bits, which an illegal-instruction exception reports. -/
structure At where
  hart : Fin 256
  pc : Nat
  short : Bool
  inst : Nat
  deriving DecidableEq, Repr

/-- Where a load puts its value: an integer register, sign-extended or not, a floating-point register, element `elem` of the
vector register group at `vd` (of a fault-only-first load or not), or the fetch of the instruction itself. -/
inductive Dest where
  | x (rd : Fin 32) (signed : Bool)
  | f (rd : Fin 32)
  | vec (vd : Fin 32) (elem : Fin 256) (faultFirst : Bool)
  | fetch
  deriving DecidableEq, Repr

/-- Where a store takes its value from: an integer register, a floating-point register, or a vector element. -/
inductive Src where
  | x (rs2 : Fin 32)
  | f (rs2 : Fin 32)
  | vec (vs : Fin 32) (elem : Fin 256)
  deriving DecidableEq, Repr

/-- How a load or store reaches memory: as the hart's own context, or as a guest's (HLV, HLVX, HSV). -/
inductive Via where
  | own | hlv | hlvx
  deriving DecidableEq, Repr

/-- A hart's memory access: virtual address, size (2 to the power `lg` bytes), how it reaches memory, and whether its translation
must be walked because no TLB holds it. -/
structure MemArg where
  va : BitVec 64
  lg : Fin 4
  via : Via
  walk : Bool
  deriving DecidableEq, Repr

/-- The operation of an AMO instruction (R347, R388). -/
inductive HartAmo where
  | swap | add | xor | and | or | min | max | minu | maxu
  deriving DecidableEq, Repr

/-- What a register write reaches (R3, R323): a unit's page by its physical address, with a size of 2 to the power `lg` bytes and
the world of the writer; or a CSR, by an instruction of a hart that also reads the old value into `rd`; `only` says that the instruction writes nothing (a
set or clear of no bit). -/
inductive RegTarget where
  | mem (addr : BitVec 52) (lg : Fin 4) (w : World)
  | csr (a : At) (num : Fin 4096) (rd : Fin 32) (only : Bool)
  deriving DecidableEq, Repr

/-- An exception as an instruction raises it (TRAP): its cause code and what it reports (R315, R316). `impl` is 1 for an implicit PTE
read and 2 for an A or D write; `off` is the distance of the fault from the access's first byte. -/
structure ExcArg where
  cause : Fin 64
  tval : Nat
  tval2 : Nat
  impl : Fin 3
  off : Fin 32
  gva : Bool
  jfault : Nat
  deriving DecidableEq, Repr

/-- What a walk or an access asks for. -/
inductive AccKind where
  | fetch | load | store | hlvx
  deriving DecidableEq, Repr

end Sys2Proof
end

