-- ==== Sys2Proof/Types/Disc.lean ====
section
/-! DEFINITION. Disc-side data: what the head link, the medium and the servo field show the package (operands of
events), and the state that the lane, the channel engine, the servo engine, the sluice and the medium die hold beyond
their registers. -/

namespace Sys2Proof

/-- One uplink frame as it arrives (R27): its 1,120 PAM4 levels, symbol k as digit k to the base 4. -/
structure UplinkFrame where
  levels : Nat
  deriving DecidableEq, Repr

/-- A sideband message from the bridge (R41): its TAG and its payload. -/
structure SbIn where
  tag : Nat
  payload : Nat
  deriving DecidableEq, Repr

/-- What a decoder makes of one codeword (R68, R72): a zero syndrome or not, the iterations after which the syndrome was
zero, the 4,108 data bytes, and the detector's 36,960 soft values in position order, as numbers of 5 bits (R65, R87). -/
structure CwRead where
  synZero : Bool
  iters : Nat
  data : List Byte
  soft : List Nat
  deriving DecidableEq, Repr

/-- What the samples of one read pass over a sector show (R62, R64, R67, R84): where the best match of the sync mark ends,
in channel bits from the start of the search, and its bit errors (none where no sample was taken), the mean squared error,
the bit errors of the best match of each resync mark that was met, in order, the runs of payload bits beside a lost sample whose
interpolation used it (first bit and length, R59), and the eight codewords. -/
structure PassObs where
  syncAt : Option (Nat × Nat)
  mse : Nat
  resync : List Nat
  erased : List (Nat × Nat)
  cws : List CwRead
  deriving DecidableEq, Repr

/-- The result of a deep decode of one codeword (R73): the pass after which it decoded and the iterations used. -/
structure DeepObs where
  synZero : Bool
  passes : Nat
  iters : Nat
  data : List Byte
  deriving DecidableEq, Repr

/-- What the line-rate decoder makes of one codeword of a verify (R76): a zero syndrome or not, the iterations after which
it was zero, and the 4,108 data bytes. -/
structure VerifyCw where
  synZero : Bool
  iters : Nat
  data : List Byte
  deriving DecidableEq, Repr

/-- What a verify shows (R146, R147): the bit errors of the best match of the sync mark, if any, and the eight codewords. -/
structure VerifyObs where
  sync : Option Nat
  cws : List VerifyCw
  deriving DecidableEq, Repr

/-- What the samples of one servo gate show (R100, R101, R112): the 16 bits that correlate best with the address mark and
their sample index, the wedge number, the Gray-coded track number, the four burst amplitudes, the gate's first and last
sample index, and whether the command missed its frame (R103). -/
structure WedgeObs where
  mark : Nat
  markAt : Nat
  wedge : Nat
  gray : Nat
  burstA : Nat
  burstB : Nat
  burstC : Nat
  burstD : Nat
  first : Nat
  last : Nat
  late : Bool
  deriving DecidableEq, Repr

/-- An SV_CMD as written (R123), without its OP. -/
structure SvArgs where
  prof : Nat
  head : Nat
  track : Nat
  offset : Int
  deriving DecidableEq, Repr

/-- Who sent a tagged sideband message of the package (R43). -/
inductive SbSrc where
  | port | servo | spindle | sluice | firmware
  deriving DecidableEq, Repr

/-- A tagged message outstanding at the bridge (R42): sends made so far. -/
structure SbTx where
  tag : Nat
  op : Nat
  payload : Nat
  src : SbSrc
  sends : Nat
  deriving DecidableEq, Repr

/-- A message of the package that waits for one of the 4 outstanding places (R42). -/
structure SbMsg where
  op : Nat
  payload : Nat
  src : SbSrc
  deriving DecidableEq, Repr

/-- The repeat record of a TAG of the bridge (R42): the uplink frame of its last acceptance and the status given. -/
structure SbSeen where
  frame : Nat
  stat : Nat
  deriving DecidableEq, Repr

/-- What the head-link port holds beyond its registers. -/
structure Lane where
  badRun : Nat := 0               -- consecutive bad uplink frames (R28)
  goodRun : Nat := 0              -- consecutive good uplink frames (T3 of R35)
  testBad : Bool := false         -- a bad frame seen in T6
  testCorr : Nat := 0             -- corrected symbols in T6
  testTx : Nat := 0               -- idle frames sent in T6
  testRx : Nat := 0               -- good frames received in T6
  ceil : Nat := 0                 -- the package ceiling in force in the present T4 (R39, R54)
  capSeen : Bool := false         -- T4: CAP received
  idSeen : Bool := false          -- T4: ID received
  verAcked : Bool := false        -- T4: VER_SET acknowledged
  echoSeen : Bool := false        -- T5: the ECHO came back
  fastWake : Bool := false        -- waking from lane sleep (R51)
  txSeq : Nat := 0                -- SEQ of the next downlink frame (R30)
  hbSeq : Nat := 0                -- HB_SEQ (R45)
  idleFrames : Nat := 0           -- downlink frames since the heartbeat last advanced (R45)
  scrambler : Nat := 0            -- transmit scrambler register, 31 bits (R27)
  descrambler : Nat := 0          -- receive scrambler register (R27)
  upData : Nat := 0               -- data bits of the last good uplink frame (R29)
  gateOpen : Bool := false        -- that frame lay in a servo gate and was not its last: SG without SEND
  gateBad : Bool := false         -- a bad frame has fallen into the present servo gate (R49, R112)
  rxFrames : Nat := 0             -- uplink frames since T0, the time base of TAG records (R42)
  txFrames : Nat := 0             -- downlink frames since T0
  lastTag : Nat := 0              -- TAG assigned last
  out : List SbTx := []           -- tagged messages outstanding, at most 4 (R42)
  waiting : List SbMsg := []      -- messages waiting for a place
  slots : List (Nat × Nat × Nat) := []   -- OP, TAG and PAYLOAD waiting for a downlink frame
  acks : List (Nat × Nat) := []   -- ACK_TAG and ACK_STAT waiting for a downlink frame
  tagSent : List (Nat × Nat) := []       -- TAG and the downlink frame that carried it last (R42)
  tagSeen : List (Nat × SbSeen) := []    -- TAG records of the bridge's messages (R42)
  sentWg : List (Nat × Bool) := []       -- WG of the last frame sent with each SEQ, latest first (R49)
  actCmd : Option (Int × Int) := none    -- VCM and MA waiting for a downlink frame (R33)
  lastVcm : Int := 0
  lastMa : Int := 0
  wrate : Nat := 0                -- acknowledged write rate, 0 none (R143)
  deriving DecidableEq, Repr

/-- A read entry as fetched (R78). -/
structure ReadEntry where
  tag : Nat
  op : Nat
  head : Nat
  kslot : Nat
  raw : Bool
  band : Nat
  sect : Nat
  expSeq : Nat
  addr : Nat
  wedge : Nat
  zset : Nat
  window : Nat
  daddr : Nat
  reserved : Bool
  deriving DecidableEq, Repr

/-- A zone set as latched for one sector (R61, R96). -/
structure ZoneSet where
  rate : Nat := 0
  joint : Bool := false           -- JOINT of the set
  readers : Nat := 0              -- readers in use as the sector starts (R60)
  tgtAdapt : Bool := false
  llr : Nat := 0
  delays : Nat × Nat := (0, 0)    -- DLY_L and DLY_C
  taps : List Nat := []           -- FFE0, FFE1 and FFE2
  target : Nat := 0
  mu : Nat × Nat := (0, 0)        -- MU_FFE and MU_TGT
  gains : List Nat := []          -- KP_ACQ, KI_ACQ, KP_TRK, KI_TRK and ACQ_LEN
  np : List Nat := []             -- the noise predictors
  deriving DecidableEq, Repr

/-- CH_DEC and CH_SYNC as latched for one sector, with the values that act (R94). -/
structure DecSet where
  localMax : Nat := 8
  deepLocal : Nat := 20
  deepGlobal : Nat := 4
  estop : Bool := true
  tol : Nat := 6
  win : Nat := 64
  deriving DecidableEq, Repr

/-- What a DECODE_MEM entry takes from its input record (R87, R88): CWMASK, ZSET, LLR_SCALE, SEQ, BAND and SECT. -/
structure MemRec where
  mask : Nat
  zset : Nat
  llr : Nat
  seq : Nat
  band : Nat
  sect : Nat
  deriving DecidableEq, Repr

/-- Where a read entry stands: fetched, waiting for its window, in its sync search or sector, deep decoding,
waiting for a key-cache fill before it decrypts (R185). -/
inductive ReadPhase where
  | fetched | window | pass | deep | decrypt
  deriving DecidableEq, Repr

/-- A read entry that the channel engine holds (R79, R85). -/
structure ChEntry where
  idx : Nat
  e : ReadEntry
  phase : ReadPhase := .fetched
  cancelled : Bool := false
  passes : Nat := 0
  rereads : Nat := 0
  reread : Bool := false          -- waits for a re-read (takes the medium first, R79)
  syncSeen : Bool := false
  headSeen : Bool := false
  offAll : Bool := true           -- every pass so far failed on off-track
  tried : Nat := 0                -- mask of codewords tried
  done : List (Nat × List Byte) := []     -- codeword index and its 4,108 data bytes, once decoded
  soft : List (Nat × List Nat) := []      -- soft values of the last pass, of the codewords tried in it
  deepLeft : List Nat := []       -- codewords queued for or in a deep decoder
  recovered : Bool := false       -- a deep decode or re-read was needed
  iterOf : List (Nat × Nat) := [] -- iterations used per codeword over the whole ladder
  mse : Nat := 0
  dec : DecSet := {}              -- CH_DEC and CH_SYNC latched for the sector (R94)
  zone : ZoneSet := {}            -- the zone set latched for the sector (R61)
  mem : Option MemRec := none     -- the input record of a DECODE_MEM (R88)
  deriving DecidableEq, Repr

/-- What a channel engine holds beyond its registers. -/
structure Chan where
  ents : List ChEntry := []       -- fetched entries, in ring order
  cancels : List (Nat × Nat) := []        -- pending cancels: TAG and the ring TAIL at the write (R83)
  medium : Option Nat := none     -- ring index of the entry that holds the medium (R79)
  zcopy : Option Nat := none      -- zone set latched for the sector under way (R61)
  off : Bool := false             -- the servo reported off-track since the pass began (R79)
  headSeen : Bool := false        -- samples of the entry's head have come since the pass began (R59, R81)
  frames : Nat := 0               -- uplink frames since the pass began
  lostAt : List Nat := []         -- those of them that were bad, outside a gate (R59)
  missAt : List Nat := []         -- those that brought samples of another head (R59)
  zdirty : Bool := false          -- firmware wrote that zone set since the latch (R62)
  wrap : Bool := false            -- completion phase: false while P is 1 (R80)
  fetchRun : Bool := false        -- entry processing started (R90)
  deriving DecidableEq, Repr

/-- A section's past inputs and outputs (R104), in 1/256 track and command units. -/
structure SecState where
  x1 : Int := 0
  x2 : Int := 0
  y1 : Int := 0
  y2 : Int := 0
  deriving DecidableEq, Repr

/-- A motion command that runs (R108). -/
inductive Motion where
  | seek | offset | load | unload | halt
  deriving DecidableEq, Repr

/-- A spindle command that runs (R108). -/
inductive SpinOp where
  | up | down
  deriving DecidableEq, Repr

/-- What a servo engine holds beyond its registers. -/
structure Servo where
  motion : Option Motion := none
  spin : Option SpinOp := none
  held : Option (Nat × SvArgs) := none    -- SEEK or OFFSET waiting for the sectors being written (R108)
  heldFor : List Nat := []        -- fetch orders of those sectors
  stopping : Bool := false        -- a HALT or UNLOAD decelerates a seek (R108, R120)
  parkStop : Bool := false        -- RETRACT sent for a lost servo; PARKED follows PARK_STAT (R112)
  track : Nat := 0                -- target track
  offset : Int := 0               -- target offset, 1/256 track
  aAcc : Nat := 0                 -- latched profile (R111)
  aDec : Nat := 0
  vMax : Nat := 0
  settleN : Nat := 0
  settleWin : Nat := 0
  refPos : Int := 0               -- reference position, 1/256 track
  vel : Int := 0                  -- reference velocity, 1/256 track per wedge
  pos : Int := 0                  -- position at the last wedge
  pes : Int := 0                  -- PES of the last wedge (R104)
  secs : List SecState := List.replicate 12 {}
  lostRun : Nat := 0              -- consecutive lost wedges (R112)
  settleRun : Nat := 0            -- consecutive wedges within SETTLE_WIN
  settleAll : Nat := 0            -- wedges spent in SETTLE for the command
  acq : List Nat := []            -- wedge numbers read in ACQUIRE, latest first
  shockOn : Bool := false         -- a shock hold runs (R113)
  shockLeft : Nat := 0            -- wedges of the hold left
  trims : List Int := []          -- offsets beyond TRIM_THR, latest first (R102)
  trimOut : Bool := false         -- a trim is not yet acknowledged
  repMark : Nat := 0              -- address-mark sample index reported last (R101)
  repFirst : Nat := 0
  repLast : Nat := 0
  wedges : Nat := 0               -- wedge reports since the heads flew
  deriving DecidableEq, Repr

/-- A write entry as fetched (R133). -/
structure WriteEntry where
  tag : Nat
  op : Nat
  head : Nat
  kslot : Nat
  order : Bool
  par : Bool
  band : Nat
  sect : Nat
  column : Nat
  track : Nat
  addr : Nat
  wedge : Nat
  zset : Nat
  start : Nat
  reserved : Bool
  deriving DecidableEq, Repr

/-- The life of a write entry (R135): `waiting`, `filling` and `intent` all count as FILLING. -/
inductive WrPhase where
  | waiting | filling | intent | filled | writing | verifying | committing | closing
  deriving DecidableEq, Repr

/-- A write entry that the sluice holds. -/
structure SlEntry where
  idx : Nat
  order : Nat                     -- fetch order on the actuator
  e : WriteEntry
  rate : Nat
  slot : Nat                      -- furrow slot
  ph : WrPhase := .waiting
  started : Bool := false         -- its fill has started: a sequence number is assigned
  seq : Nat := 0
  slips : Nat := 0
  rewrites : Nat := 0
  released : Bool := false        -- released once (R156)
  holds : Bool := true            -- holds its furrow slot
  vmode : Bool := false           -- revolution verify (R146)
  reading : Bool := false         -- revolution verify under way
  off : Bool := false             -- the servo reported off-track during the read-back (R146)
  dec : DecSet := {}              -- CH_DEC and CH_SYNC latched for its sector (R94)
  zone : ZoneSet := {}            -- the zone set latched for it, which its verify uses (R61, R76, R146)
  rel : Nat := 0                  -- number of its last release on the actuator
  verified : Bool := false        -- verify passed
  viter : Nat := 0
  status : Nat := 0
  touched : Bool := false
  burst : Bool := false           -- a burst is being sent
  sent : Nat := 0                 -- channel bits of the sector handed to frames so far
  left : Nat := 0                 -- bits of the present burst still to send
  pre : Nat := 0                  -- bits of its resync field still to send (R67)
  acc : Nat := 0                  -- accumulator of R140, in 1/25 bit
  frames : Nat := 0               -- frames of the present burst sent
  gates : Nat := 0                -- gates crossed so far in this release
  jidx : Nat := 0
  deriving DecidableEq, Repr

/-- What a sluice holds beyond its registers. -/
structure Sluice where
  ents : List SlEntry := []
  cancels : List (Nat × Nat) := []
  nextOrder : Nat := 0
  wrap : Bool := false
  lead : Nat := 2                 -- LEAD in force since the last wedge report (R165)
  guard : Nat := 32               -- GUARD likewise
  iterMax : Nat := 6              -- ITER_MAX likewise
  nextRel : Nat := 0              -- releases so far
  passed : List Nat := []         -- entries completed after a passed verify whose frames wgSeqs still names (R158)
  jwaited : Bool := false         -- a record waited since the last wedge report (R151)
  wgSeqs : List (Nat × Nat) := []        -- SEQ of frames sent with WG and the entry whose bits they carried (R144)
  deriving DecidableEq, Repr

/-- A journal record on its way (R149, R150): the actuator and ring index of its entry, TYPE and the record's fields. -/
structure JRec where
  act : Nat
  idx : Nat
  type : Nat
  jidx : Nat
  seq : Nat
  tag : Nat
  e : WriteEntry
  status : Nat
  touched : Bool
  slips : Nat
  rewrites : Nat
  deriving DecidableEq, Repr

/-- A codeword waiting for, or in, a deep decoder (R73): the actuator, the ring index and the codeword. -/
structure DeepJob where
  act : Nat
  idx : Nat
  cw : Nat
  deriving DecidableEq, Repr

/-- What a medium die holds beyond its registers. -/
structure Die where
  deepQ : List DeepJob := []
  deepRun : List (Option DeepJob) := [none, none, none, none]
  jwait : List JRec := []         -- records waiting for journal space, in order (R151)
  jfly : List JRec := []          -- records sent and not yet acknowledged, in JIDX order (R150)
  spinQ : List Nat := []          -- assemblies queued, oldest first (R118)
  spinRun : List Nat := []        -- assemblies granted and accelerating
  locked : List Nat := []         -- assemblies whose last spindle report says LOCK (R118)
  keyCache : List Nat := []       -- key slots cached, most recent first, at most 128 (R185)
  deriving DecidableEq, Repr

end Sys2Proof
end

