-- ==== Sys2Proof/Types/Host.lean ====
section
/-! DEFINITION. Host-side data: what a host and a port exchange, and what the ports, functions, queues, headgate and
mailboxes hold beyond their registers. A function is numbered 0 to 1,023 (FN) or 1,024 + port (the physical function). -/

namespace Sys2Proof

/-- The status of a completion TLP (R239). -/
inductive CplStatus where
  | success | ur | ca
  /-- A completion whose ECRC does not match, and which is otherwise successful (R221). -/
  | badEcrc
  deriving DecidableEq, Repr

/-- The errors that this spec has a port log in a function's AER (R221, R233, R242). -/
inductive AerErr where
  | completionTimeout | unexpectedCompletion | poisonedTlp | unsupportedRequest | ecrcError
  deriving DecidableEq, Repr

/-- The options that R221 lists as supported or not, each with a capability bit of PCI Express's own. -/
inductive PcieCap where
  | flitMode | tag10 | tag14 | idOrdering | noSnoop | ari | sriov | msix | msi | intx | pme | auxPower | l0s | l0p | l1 | l11 | l12
  | ltr | aer | ecrcGeneration | ecrcChecking | timeoutDisable | flr | serialNumber | dataLinkFeature | phy16 | phy32 | phy64
  | laneMargining | l1Substates | ats | pasid | pri | atomicOps | resizableBar | tph | doe | ide | multicast
  deriving DecidableEq, Repr

/-- The registers of a function's configuration space that this spec names (R221–R227, R230, R233, R242–R245), by name: their
offsets are PCI Express's own. -/
inductive CfgReg where
  | vendorId | deviceId | revisionId | classCode | subsystemVendorId | subsystemId | serialNumber
  | busMaster | powerState | maxPayload | maxRead | relaxedOrdering | completionTimeout
  | vfEnable | numVfs | totalVfs | initialVfs | firstVfOffset | vfStride | vfDeviceId
  | msixEnable | msixMask | msixTableSize | functionLevelReset | aerStatus
  | aerHeaderLog (dw : Fin 4) | aerPrefixLog (dw : Fin 4) | ecrcGeneration | ecrcChecking
  | memorySpace | vfMemorySpace | bar0 (high : Bool) | vfBar0 (high : Bool) | otherBar (n : Fin 4)
  | supportedPageSizes | systemPageSize | ariHierarchy
  | aspm | l1Substates | ltrThreshold | ltrEnable | l0pEnable
  | capability (c : PcieCap) | maxPayloadCap | maxRateCap | maxWidthCap | l1ExitLatency | tPowerOn | commonModeRestore
  | completionTimeoutRanges
  deriving DecidableEq, Repr

/-- A configuration request (R224): a read, or a write with its value. -/
inductive CfgReq where
  | read (r : CfgReg)
  | write (r : CfgReg) (v : Nat)
  deriving DecidableEq, Repr

/-- What a fetch of a submission-queue entry returned (R265): the entry, or an error. -/
inductive FetchRes where
  | entry (bytes : List Byte)
  | error
  deriving DecidableEq, Repr

/-- A memory request to a function's BAR0 (R233): its offset and size, a write's value or none, poison (EP), and an ECRC that does not
match (R221). -/
structure BarReq where
  off : Nat
  size : Nat
  write : Option Nat
  poisoned : Bool
  badEcrc : Bool
  deriving DecidableEq, Repr

/-- A live setting of a function-table entry (R228, R232). -/
inductive LiveField where
  | classes | weight | quota
  deriving DecidableEq, Repr

/-- An endpoint of a mailbox (R282, R289): the host's and the firmware's of a tenant mailbox, the two worlds' of a world
mailbox, the firmware's and the board management controller's of the SMBus mailbox. -/
inductive MbEnd where
  | host (f : Fin 1024) | fw (f : Fin 1024) | normal (w : Fin 16) | secure (w : Fin 16) | smbFw | bmc
  deriving DecidableEq, Repr

/-- An MSI-X table entry with its Pending bit. -/
structure MsixVec where
  addr : Nat := 0
  data : Nat := 0
  masked : Bool := true
  pending : Bool := false
  deriving DecidableEq, Repr

/-- What a function holds in its configuration space and BAR beyond registers with an offset in this spec. The fields
from `vfEnable` on are used in physical functions only. -/
structure FnS where
  bme : Bool := false             -- Bus Master Enable
  d3 : Bool := false              -- D3hot
  resetting : Bool := false       -- a function level reset has not ended (R245)
  msixEnable : Bool := false
  msixMask : Bool := false
  vecs : List (Nat × MsixVec) := []
  aer : List AerErr := []
  logCnt : Nat := 0               -- ELOG_CNT (R279)
  vfEnable : Bool := false
  numVfs : Nat := 0
  maxPayload : Nat := 128
  maxRead : Nat := 512
  relaxed : Bool := true
  cplRange : Nat := 0
  mse : Bool := false             -- Memory Space Enable
  vfMse : Bool := false           -- VF Memory Space Enable
  bar0 : Nat := 0                 -- address in BAR0, 64 bits
  vfBar0 : Nat := 0               -- address in VF BAR0
  pageSize : Nat := 1             -- System Page Size
  ariHier : Bool := false         -- ARI Capable Hierarchy
  aspm : Nat := 0                 -- ASPM Control: bit 0 L0s, bit 1 L1
  l1ss : Nat := 0                 -- L1 PM Substates enables: PCI-PM L1.2, PCI-PM L1.1, ASPM L1.2, ASPM L1.1
  ltrThr : Nat := 0               -- LTR_L1.2_THRESHOLD: value in bits 9:0, scale in bits 12:10
  ltrEn : Bool := false           -- LTR Mechanism Enable
  l0pEn : Bool := false           -- L0p Enable
  ecrcGen : Bool := false
  ecrcChk : Bool := false
  hdr : Option Nat := none        -- a TLP's header is in AER's Header Log, and the number drawn for it
  deriving DecidableEq, Repr

/-- A transfer descriptor as fetched (R236). -/
structure XferDesc where
  tag : Nat
  op : Nat
  fn : Nat
  pf : Bool
  ro : Bool
  len : Nat
  haddr : Nat
  daddr : Nat
  reserved : Bool
  deriving DecidableEq, Repr

/-- A write request of a HOST_WRITE (R236, R239). -/
structure HostTlp where
  addr : Nat
  data : List Byte
  ep : Bool
  ro : Bool
  deriving DecidableEq, Repr

/-- An active transfer (R240): `next` is the first offset with no request yet, `missing` the offsets of bytes that ended
requests did not deliver. -/
structure Xfer where
  idx : Nat
  d : XferDesc
  fn : Nat                        -- the function that it uses
  next : Nat := 0
  missing : List Nat := []
  stop : Bool := false            -- no request not yet issued is issued
  status : Nat := 0
  deriving DecidableEq, Repr

/-- What a transfer ring holds beyond its registers. -/
structure XRing where
  active : List Xfer := []
  fetched : Option (Nat × XferDesc) := none
  doom : Option Nat := none       -- the status under which the fetched descriptor completes once there is a place
  wrap : Bool := false
  run : Bool := false
  deriving DecidableEq, Repr

/-- A read request issued and not completed (R236, R239). -/
structure HostReqS where
  tag : Nat
  fn : Nat
  ring : Nat
  idx : Nat
  off : Nat
  len : Nat
  got : Nat := 0
  deriving DecidableEq, Repr

/-- What a port holds beyond its registers: requests issued, tags held after a timeout with the function that used them
(R242), tags held after a function level reset with the bytes still due (R245), the last LTR values sent (R243), and the arbiter's
account of the functions that have work (R241). -/
structure PortS where
  reqs : List HostReqS := []
  timedOut : List (Nat × Nat) := []
  orphans : List (Nat × Nat × Nat) := []          -- tag, function, bytes still due
  ltr : Option (Nat × Nat) := none
  served : List (Nat × Nat) := []                 -- function, and its bytes over its SHARE
  deriving DecidableEq, Repr

/-- A command entry fetched and not admitted (R263, R265, R270). -/
structure CmdEntry where
  tag : Nat
  fence : Bool
  bytes : List Byte
  time : Nat
  deriving DecidableEq, Repr

/-- A completion that waits for a free place in its CQ (R273). -/
structure HeldPost where
  tag : Nat
  status : Nat
  result : Nat
  deriving DecidableEq, Repr

/-- What a command queue holds beyond its registers. -/
structure QueueS where
  fetched : List CmdEntry := []   -- in SQ order, at most 4
  admitted : List Nat := []       -- tags held by firmware, in order of admission
  held : List HeldPost := []      -- completions that wait for a place
  sqTail : Nat := 0
  cqTail : Nat := 0
  cqHead : Nat := 0
  wrap : Bool := false
  draining : Bool := false        -- disabled, and some tag is still busy (R262)
  coal : Nat := 0                 -- completions written since the last interrupt (R273)
  deriving DecidableEq, Repr

/-- What the headgate holds beyond its registers: the credits of R266 by class (high, normal, bulk), by class and function
(1,026 × class + function), the queue served last, and the urgent run. -/
structure HeadgateS where
  credit : List Int := [0, 0, 0]
  fcredit : List (Nat × Int) := []
  served : List (Nat × Nat) := []
  urgRun : Nat := 0
  run : Bool := false
  deriving DecidableEq, Repr

end Sys2Proof
end

