-- ==== Sys2Proof/Types/Keys.lean ====
section
/-! DEFINITION. What the stripe engines, the key engine and the sweep hold beyond their registers. -/

namespace Sys2Proof

/-- A stripe descriptor as fetched (R172). -/
structure StripeDesc where
  tag : Nat
  op : Nat
  k : Nat
  p : Nat
  auto : Bool
  len : Nat
  erase : Nat
  list : Nat
  reserved : Bool
  deriving DecidableEq, Repr

/-- An active stripe descriptor (R174–R178): how it will complete. -/
structure StripeJob where
  idx : Nat
  tag : Nat
  status : Nat
  mismatch : Nat := 0
  used : Nat := 0
  deriving DecidableEq, Repr

/-- What a stripe engine holds beyond its registers. -/
structure StripeEng where
  active : List StripeJob := []
  fetched : Option (Nat × StripeDesc) := none   -- fetched and not started
  wrap : Bool := false
  run : Bool := false             -- started by EN with both rings in range (R194)
  rate : Nat := 32                -- GB/s of its last source read (R196, R456)
  deriving DecidableEq, Repr

/-- What marks the state word of a wrapped copy (R187, R190). -/
inductive KeyMark where
  | empty | active | suspended | erasing
  deriving DecidableEq, Repr

/-- A body of a wrapped copy that this package has written (R189): it authenticates for this slot and for nothing
else. -/
structure Wrapped where
  slot : Nat
  fn : Nat
  ns : Nat
  key : List Byte
  deriving DecidableEq, Repr

/-- A LOAD under way (R188, R190): what it wraps, the GEN that its copy keeps and the address of its source. -/
structure KeyLoadJob where
  body : Wrapped
  gen : Nat
  src : Nat
  deriving DecidableEq, Repr

/-- A key command that runs (R188, R190): the slots still to suspend or to erase, the result to report, and for a LOAD what
it has still to make durable. -/
structure KeyJob where
  op : Nat
  slots : List Nat
  result : Nat
  drained : Bool
  load : Option KeyLoadJob := none
  deriving DecidableEq, Repr

/-- The use of a key by an encryption under way (R190 step 3): the slot, the actuator and the entry. -/
structure KeyUse where
  slot : Nat
  act : Nat
  idx : Nat
  write : Bool
  deriving DecidableEq, Repr

/-- What the key engine holds beyond its registers: the keys in hub SRAM by slot, the state words and bodies of wrapped
copies that this package has ever written, the command that runs and the uses of keys under way. -/
structure KeyEng where
  slots : List (Nat × List Byte) := []
  marks : List (Nat × KeyMark × Nat) := []      -- slot, mark and GEN of every state word written
  issued : List Wrapped := []
  job : Option KeyJob := none
  uses : List KeyUse := []
  secret : Bool := true           -- the fused device secret is intact (R489)
  deriving DecidableEq, Repr

/-- An in-scope actuator of a sweep (R214): its record's fields, and where its track stands. -/
structure SwpAct where
  state : Nat := 0                -- 0 out of scope; 1 waiting; 2 running; 3 done; 4 stopped
  gidx : Nat := 0
  track : Nat := 0
  seqNext : Nat := 0
  tracks : Nat := 0
  defects : Nat := 0
  sectors : Nat := 0
  step : Nat := 0                 -- 1 spinning up, 2 loading, 3 waiting for the track's first decision, 4 writing it
  startWedge : Nat := 0
  sect : Nat := 0                 -- sectors of the track whose result is in
  slips : Nat := 0
  next : Nat := 0                 -- sectors of the track that have been begun
  fills : List SlEntry := []      -- those begun whose result is not in (R210, R212): a `status` other than 0 is a defect's cause
  deriving DecidableEq, Repr

/-- A geometry entry (R209). -/
structure GeomEntry where
  act : Nat
  head : Nat
  zset : Nat
  first : Nat
  last : Nat
  reserved : Bool
  deriving DecidableEq, Repr

/-- What the sweep holds beyond its registers; `area` and `store` are where the progress area and the keystore were when the
operation began. -/
structure Sweep where
  op : Nat := 0
  method : Nat := 0
  passes : Nat := 1
  verify : Bool := false
  shelf : Bool := false
  asm : Nat := 0
  seed : Nat := 0
  starts : Nat := 0
  began : Nat := 0                -- AON_SECONDS at the start, or when the header was read again
  before : Nat := 0               -- seconds that the header already recorded then
  geomCrc : Nat := 0
  geomN : Nat := 0
  geom : List GeomEntry := []
  acts : List (Nat × SwpAct) := []
  wrap : Bool := false
  begun : Bool := false           -- the present phase has taken its first action
  retMode : Mode := .twelve       -- mode after the operation (R206)
  sealStop : Bool := false        -- the seal opened during a FORMAT (R219)
  boot : Bool := false            -- Sanitise was entered under R216
  area : Nat := 0
  store : Nat := 0
  deriving DecidableEq, Repr

end Sys2Proof
end

