-- ==== Sys2Proof/Types/Power.lean ====
section
/-! DEFINITION. Data of the package as a whole: the wake, PMBus exchanges, weirs, loading, lifecycle, tile operations and
self-test (R427–R511), and the operands of their commands. -/

namespace Sys2Proof

/-! ## Supply and wake -/

/-- What the package sends to a regulator (R451, R459): CLEAR_FAULTS, ON_OFF_CONFIG for enable-pin control, VOUT_COMMAND with a voltage in
mV, or a read of STATUS_WORD. -/
inductive PmbSend where
  | clearFaults | enablePin | vout (mv : Nat) | statusWord
  deriving DecidableEq, Repr

/-- The PMBus command code (R428; PRESUMED: those of PMBus 1.3, see the log). -/
def PmbSend.code : PmbSend → Nat
  | .clearFaults => 0x03
  | .enablePin => 0x02
  | .vout _ => 0x21
  | .statusWord => 0x79

/-- Where a PMBus exchange of the package stands (R460): the regulator 0x40 + q, what it is sent, the attempts that failed, and whether the
wait of 1 ms after one runs. -/
structure PmbS where
  q : Nat
  send : PmbSend
  fails : Nat := 0
  wait : Bool := false
  deriving DecidableEq, Repr

/-- A wake (R457–R463): the step that runs (0: none), whether step 1 waits for VR_PG of quarter `quarter`, whether every
quarter is up, the attempts made, whether RETRY_S runs before the next, and sources that wait for Keep or for the end of a
trip hold. -/
structure WakeS where
  step : Nat := 0
  quarter : Nat := 0
  pgWait : Bool := false
  regsUp : Bool := false
  attempt : Nat := 0
  retry : Bool := false
  held : Nat := 0
  deriving DecidableEq, Repr

/-- What ends or stops a wake step (R459, R461, R379): the regulator or the logic does not answer in time; PKGCLK is absent or
off frequency; a PLL does not lock; a stack's channel does not train; a checker test fails. -/
inductive WakeFail where
  | late | pkgclk | pll | untrained (k : Fin 8) | checker (k : Fin 8)
  deriving DecidableEq, Repr

/-- The identification that a stack's mode registers hold (R364, R381). -/
structure StackId where
  vendor : BitVec 16
  density : BitVec 8
  rev : BitVec 8
  serial : BitVec 32
  deriving DecidableEq, Repr

/-- Where a quarter's change of VIN stands (R451): VOUT_COMMAND is sent, the slew is waited for, STATUS_WORD is read. -/
inductive VinStage where
  | command | slew | status
  deriving DecidableEq, Repr

/-- A change of VIN in service (R451): the voltage commanded, in mV, the quarter in turn and its stage, and the voltage of a change that
follows. -/
structure VinS where
  mv : Nat
  quarter : Nat
  stage : VinStage
  next : Option Nat := none
  deriving DecidableEq, Repr

/-- PRESENT_N as accepted, and what it gives (R490): the accepted level is low; a press window is open; the level counts as a
jumper. -/
structure Presence where
  low : Bool := false
  window : Bool := false
  jumper : Bool := false
  deriving DecidableEq, Repr

/-- A kind of die with a trip value (R432). -/
inductive DieKind where
  | tile | hub | medium | keep | stack (k : Fin 8)
  deriving DecidableEq, Repr

/-- A unit of R453 whose clocks are gated as one. -/
inductive ClockUnit where
  | tile (p : Fin 36) | hub | med (m : Fin 4)
  deriving DecidableEq, Repr

/-- What the weirs hold beyond registers (R454–R456): the last 100 samples, newest first, each the quarters' currents in mA and the package
power in µW; the sustained average, in pW; tests still to pass before caps may be raised again; and how often the stripe engines' source rate is halved. -/
structure WeirS where
  samples : List (List Nat × Nat) := []
  avg : Nat := 0
  calm : Nat := 0
  halve : Nat := 0
  deriving DecidableEq, Repr

/-! ## Loading and tiles -/

/-- A read mode of the flash, by the lines of its command, address and data (R469), slowest first. -/
inductive FlashRead where
  | r111 | r112 | r122 | r114 | r144
  deriving DecidableEq, Repr

/-- What the flash answered when its parameter table and the image header were read (R469, R470): whether it answered every read, the
signature of its table and the read modes that the table advertises, and the 256 header bytes. -/
structure FlashHead where
  answered : Bool
  signature : BitVec 32
  reads : List FlashRead
  bytes : List Byte
  deriving DecidableEq, Repr

/-- A REG record held for step 7 (R471, R474). -/
structure RegRec where
  addr : Nat
  mask : Nat
  value : Nat
  deriving DecidableEq, Repr

/-- What Loading holds (R469–R477): whether it follows RESTART, whether its head has been read, the read mode chosen, the image length and the header
bytes, whether the fill and the image are done, the first condition that failed, and the REG records still to write. -/
structure LoadS where
  warm : Bool := false
  begun : Bool := false
  read : FlashRead := .r111
  len : Nat := 0
  head : List Byte := []
  filled : Bool := false
  judged : Bool := false
  cause : Nat := 0
  regs : List RegRec := []
  deriving DecidableEq, Repr

/-- The recovery segment as stored: its length and its CRC-32C (R482). -/
structure RecSeg where
  len : Nat
  crc : Nat
  deriving DecidableEq, Repr

/-- Where the harts of Twelve start and what a1 holds there (R477, R521). -/
structure BootAt where
  pc : Nat
  a1 : Nat
  deriving DecidableEq, Repr

/-- A tile operation (R485): 1 RETIRE, 2 ADD, 3 SWAP, its logical tile, the physical tile that leaves and the one that
comes. -/
structure TileOpS where
  op : Nat
  tile : Nat
  out : Nat
  inn : Nat
  deriving DecidableEq, Repr

/-- The lifecycle fuses and the Diagnostic flag (R488). -/
structure Life where
  prov : Bool := false
  deploy : Bool := false
  retire : Bool := false
  diag : Bool := false
  deriving DecidableEq, Repr

/-- A lifecycle command that runs (R489): its OP. -/
structure LcJob where
  op : Nat
  deriving DecidableEq, Repr

/-! ## Self-test -/

/-- A self-test class (R497). -/
inductive TestClass where
  | ana | arr | log | init
  deriving DecidableEq, Repr

/-- A result entry (R504). -/
structure TestEnt where
  ana : Nat := 0
  arr : Nat := 0
  log : Nat := 0
  init : Nat := 0
  suspect : Bool := false
  soft : Nat := 0
  fused : Nat := 0
  run : Nat := 1
  misr : Nat := 0
  lanes : Nat := 0
  array : Nat := 0
  time : Nat := 0
  deriving DecidableEq, Repr

/-- A failing cell that ARR finds (R506): its array, whether its row or its column fails and which, whether a spare of that kind is left,
and in a cache array its way. -/
structure CellFail where
  array : Fin 4096
  column : Bool
  index : BitVec 18
  spare : Bool
  way : Option (BitVec 18)
  deriving DecidableEq, Repr

/-- What a class finds on its unit (R497, R504): it passes, failing lanes, failing cells, signature. -/
structure ClassObs where
  pass : Bool
  lanes : BitVec 24
  cells : List CellFail
  misr : BitVec 64
  deriving DecidableEq, Repr

/-- A shutdown program or direct test that runs (R500, R508): the program or none, its run number, and the classes left per
unit, in the order in which they run. -/
structure TestRun where
  prog : Option Nat
  run : Nat
  todo : List (Nat × List TestClass)
  deriving DecidableEq, Repr

/-- The self-test records (R503): RUN and PROG of the valid result set, RUN of the marker, the entries that differ from those of
a new part, the entries that a running test has so far, those that UNIT_TEST took at the last Loading (R546), the soft-repair maps
and fuse banks, the repairs that each unit applied at its last cold reset (R506), the pending list, and what runs. -/
structure SelfTest where
  run : Nat := 1
  prog : Nat := 3
  marker : Nat := 1
  ents : List (Nat × TestEnt) := []
  draft : List (Nat × TestEnt) := []
  seen : List (Nat × TestEnt) := []
  soft : List (Nat × List Nat) := []
  fuses : List (Nat × List Nat) := []
  applied : List (Nat × Option (List Nat)) := []
  arrPend : List Nat := []
  suspect : List Nat := []
  active : Option TestRun := none
  fuse : Option Nat := none       -- a burn under way: its unit
  iso : List (Nat × List Nat) := []       -- units isolated for a test, with the links whose ISOLATE the test set (R498)
  deriving DecidableEq, Repr

/-! ## Debug -/

/-- An access through the test port (R530): a DMI read, a DMI write with its value, or a read of IDCODE or of dtmcs, which name no DMI
register. -/
inductive DmiOp where
  | read
  | write (v : BitVec 32)
  | idcode
  | dtmcs
  deriving DecidableEq, Repr

/-- The debug module (R530), with the registers of the RISC-V Debug Specification 1.0 by name; `resumeack` and `hamask` list
harts. -/
structure DebugS where
  active : Bool := false
  hartsel : Nat := 0
  hasel : Bool := false
  hawindowsel : Nat := 0
  hamask : List Nat := []
  resumeack : List Nat := []
  resetSeen : List Nat := []      -- harts whose last reset has been acknowledged
  data : Nat := 0                 -- data1 and data0
  progbuf : List Nat := [0, 0, 0, 0, 0, 0, 0, 0]
  cmderr : Nat := 0
  command : Nat := 0
  autoexec : Nat := 0
  sbaddr : Nat := 0
  sbdata : Nat := 0
  sbaccess : Nat := 2
  sbreadonaddr : Bool := false
  sbreadondata : Bool := false
  sbautoinc : Bool := false
  sberror : Nat := 0
  deriving DecidableEq, Repr

end Sys2Proof
end

