-- ==== Sys2Proof/Syntax.lean ====
section
/-! DEFINITION. The commands of the package: one constructor for each row of the opcode table. -/

namespace Sys2Proof

/-- A command (an operation written from outside, or an event the package meets), one constructor per row of the
table. -/
inductive Instr where
  /-- REGISTER_WRITE (R3). A write to any register field that has no row of its own, applied under its access code, including lock, /S and denied-access handling. -/
  | registerWrite (t : RegTarget) (v : BitVec 64)
  /-- UNIT_ERR_CLEAR (R513). A W1C write to UNIT_ERR clears summary bits, and CNT returns to 0 once bits [3:0] are all zero. -/
  | unitErrClear (u : UnitId) (mask : Fin 16)
  /-- LANE_ENABLE (R35). A write of YL_CTRL.EN = 1 starts lane training from T0. -/
  | laneEnable (a : Fin 96)
  /-- LANE_DISABLE (R54). A write of YL_CTRL.EN = 0 stops the heartbeat, sends idle for 1 µs, declares the lane down and drops it to STATE 0. -/
  | laneDisable (a : Fin 96)
  /-- RETRAIN (R54). A write of YL_CTRL.RETRAIN restarts training from T0, clears the restart count and declares an up lane down. -/
  | retrain (a : Fin 96)
  /-- RETRACT (R54). A write of YL_CTRL.RETRACT sends the RETRACT sideband message to the bridge. -/
  | retract (a : Fin 96)
  /-- SLEEP_REQUEST (R51). Setting YL_CTRL.SLEEP under Yelaz 4 makes the port send SLEEP to the bridge. -/
  | sleepRequest (a : Fin 96)
  /-- SLEEP_WAKE (R51). Clearing YL_CTRL.SLEEP wakes the lane through T1, T3, T5 and a short T6, or through full training when the wake fails. -/
  | sleepWake (a : Fin 96)
  /-- YL_T0_DETECT (R35). The package locks to the bridge's clock pattern in T0 and enters T1. -/
  | ylT0Detect (a : Fin 96)
  /-- YL_STEP_EXIT (R35). A training step T1–T6 meets its exit condition and the lane moves to the next step, setting UP on entry to T7. -/
  | ylStepExit (a : Fin 96) (rtt : Nat)
  /-- YL_STEP_TIMEOUT (R35). A training step exceeds its limit and training restarts from T0, or enters Failed after three restarts. -/
  | ylStepTimeout (a : Fin 96)
  /-- YL_DETECT_BURST (R35). Every 1 ms in T0 the package sends a 1 µs burst of clock pattern. -/
  | ylDetectBurst (a : Fin 96)
  /-- UPLINK_FRAME (R28). An uplink frame is received whole, judged good or bad, and its samples, flags and sideband field are delivered. -/
  | uplinkFrame (a : Fin 96) (f : UplinkFrame)
  /-- LANE_DOWN (R36). LOSS_FRAMES consecutive bad frames, or loss of lock or energy for that long in T1–T2, declare the lane down and return it to T0. -/
  | laneDown (a : Fin 96)
  /-- DOWNLINK_FRAME (R30). The port sends the next downlink frame at the R32 phase, carrying write bits, sideband, and any ready servo command. -/
  | downlinkFrame (a : Fin 96)
  /-- HEARTBEAT_IDLE_FRAME (R45). After 384 frames without servo commands the port sends a frame with ACT_VALID = 0 and an advanced HB_SEQ. -/
  | heartbeatIdleFrame (a : Fin 96)
  /-- SIDEBAND_ACKNOWLEDGEMENT (R42). An ACK_TAG received from the bridge ends the matching tagged message with its status. -/
  | sidebandAcknowledgement (a : Fin 96) (tag : Nat) (stat : Nat)
  /-- SB_RESEND_TIMER (R42). A tagged message unacknowledged for 32 frames is resent with the same TAG. -/
  | sbResendTimer (a : Fin 96) (tag : Nat)
  /-- CAP (R43). The bridge's CAP message is stored into YL_BRIDGE. -/
  | cap (a : Fin 96) (m : SbIn)
  /-- ID (R43). The bridge's ID message is stored into YL_SERIAL. -/
  | id (a : Fin 96) (m : SbIn)
  /-- ECHO (R43). An ECHO is returned unchanged, and in T5 the round trip is measured into YL_RTT. -/
  | echo (a : Fin 96) (m : SbIn)
  /-- SPIN_STAT (R116). A spindle status report updates SV_STAT and drives spin-up and spin-down completion. -/
  | spinStat (a : Fin 96) (m : SbIn)
  /-- PARK_STAT (R112). A park report updates head state, completes unloads, and may force the servo to PARKED. -/
  | parkStat (a : Fin 96) (m : SbIn)
  /-- PREAMP_VAL (R44). A preamplifier value is delivered to YL_SB_RXC and YL_SB_RXD. -/
  | preampVal (a : Fin 96) (m : SbIn)
  /-- ENV (R43). A bridge temperature report is delivered to firmware through YL_SB_RXC. -/
  | env (a : Fin 96) (m : SbIn)
  /-- FAULT (R43). A bridge fault code is delivered to firmware and sets YL_EVT.FAULT. -/
  | fault (a : Fin 96) (m : SbIn)
  /-- WRITE_ABORT (R49). A WRITE_ABORT from the bridge either is discarded or sets WABORT and fails the sector's verify. -/
  | writeAbort (a : Fin 96) (m : SbIn)
  /-- SHOCK (R113). A SHOCK message starts a shock hold, drops WRITE_OK and sets YL_EVT.SHOCK. -/
  | shock (a : Fin 96) (m : SbIn)
  /-- HEALTH (R43). A HEALTH message of reader bias resistances is delivered to firmware. -/
  | health (a : Fin 96) (m : SbIn)
  /-- BRIDGE_MAKER_MESSAGE (R44). A bridge-maker message of OP 0x80–0xFF is delivered to YL_SB_RXC, or left unacknowledged while FULL is 1. -/
  | bridgeMakerMessage (a : Fin 96) (op : Nat) (m : SbIn)
  /-- GO (R58). Setting YL_SB_TXC.GO sends TXD with TX_OP, or fails at once under R44 or when the lane is not in T7. -/
  | go (a : Fin 96)
  /-- SB_RX_RELEASE (R58). Clearing YL_SB_RXC.FULL releases the receive slot so that further messages can be acknowledged. -/
  | sbRxRelease (a : Fin 96)
  /-- CH_ENABLE (R90). A write of CH_CTRL.EN = 1 starts read-entry processing, or sets CFG_ERR when a ring is out of range. -/
  | chEnable (a : Fin 96)
  /-- CH_DISABLE (R90). A write of CH_CTRL.EN = 0 stops fetching and cancels fetched entries that have not started. -/
  | chDisable (a : Fin 96)
  /-- READ_ENTRY_FETCH (R79). The engine fetches the next read entry in ring order when fewer than 4 are active and the completion ring has room. -/
  | readEntryFetch (a : Fin 96)
  /-- READ (R78). A READ entry starts, runs the retry ladder and delivers decrypted data. -/
  | read (a : Fin 96)
  /-- READ_SOFT (R78). A READ_SOFT entry starts, runs one pass without the ladder and writes a soft record. -/
  | readSoft (a : Fin 96)
  /-- DECODE_MEM (R88). A DECODE_MEM entry deep-decodes a soft record from memory and writes the decrypted sector to DADDR. -/
  | decodeMem (a : Fin 96)
  /-- SCAN (R78). A SCAN entry runs the ladder without writing data or decrypting. -/
  | scan (a : Fin 96)
  /-- READ_PASS_START (R79). At the gate of its WEDGE, with the medium free, an entry latches its zone set and starts the sync search. -/
  | readPassStart (a : Fin 96) (idx : Nat)
  /-- SYNC_WINDOW_EXPIRY (R84). The sync window ends without a sync mark, so the pass fails as a pass without sync. -/
  | syncWindowExpiry (a : Fin 96)
  /-- READ_PASS_END (R85). A sector's pass ends, its codewords are decoded, and the entry completes, queues deep decodes, or waits for a re-read. -/
  | readPassEnd (a : Fin 96) (obs : PassObs)
  /-- DEEP_DECODE_DONE (R73). A deep decoder finishes a codeword, decoded or not. -/
  | deepDecodeDone (m : Fin 4) (d : Fin 4) (obs : DeepObs)
  /-- CH_CANCEL (R83). A write to CH_CANCEL marks entries with that TAG to complete CANCELLED, or is denied when four cancels are pending. -/
  | chCancel (a : Fin 96) (tag : Fin 65536)
  /-- SERVO_WEDGE (R104). At the end of a servo gate the engine reads the field, computes and sends the VCM and MA commands, and reports the wedge. -/
  | servoWedge (a : Fin 96) (obs : WedgeObs)
  /-- ACQUIRE_TIMEOUT (R110). No wedge triple within 540 wedge intervals makes the servo lost. -/
  | acquireTimeout (a : Fin 96)
  /-- SERVO_LOST (R112). LOST_MAX consecutive lost wedges send RETRACT, complete motion commands with 0x07 and lead to PARKED. -/
  | servoLost (a : Fin 96)
  /-- SETTLE_TIMEOUT (R111). After SETTLE_MAX wedges without meeting the settle test, the command completes with 0x0A. -/
  | settleTimeout (a : Fin 96)
  /-- SHOCK_HOLD_END (R113). SHOCK_HOLD wedges after the last shock report, the shock hold ends. -/
  | shockHoldEnd (a : Fin 96)
  /-- COEF_SWAP (R105). A write of SV_LIM.SWAP switches coefficient banks at the next wedge, or at once when the loop is not running. -/
  | coefSwap (a : Fin 96)
  /-- SV_ENABLE (R122). A write of SV_CTRL.EN = 1 moves OFF or HALTED to PARKED once the lane is in T7. -/
  | svEnable (a : Fin 96)
  /-- SV_DISABLE (R122). A write of SV_CTRL.EN = 0 completes running commands with 0x07 and enters HALTED or OFF. -/
  | svDisable (a : Fin 96)
  /-- SEEK (R108). SV_CMD SEEK latches a profile and target and moves the actuator under the seek profile. -/
  | seek (a : Fin 96) (args : SvArgs)
  /-- OFFSET (R108). SV_CMD OFFSET sets a new offset on the present target and enters SETTLE. -/
  | offset (a : Fin 96) (args : SvArgs)
  /-- SV_LOAD (R108). SV_CMD LOAD sends LOAD to the bridge when the spindle is locked, and completes in FOLLOW. -/
  | svLoad (a : Fin 96) (args : SvArgs)
  /-- UNLOAD (R108). SV_CMD UNLOAD decelerates any seek, sends RETRACT and completes when the heads are parked. -/
  | unload (a : Fin 96)
  /-- SPIN_UP (R118). SV_CMD SPIN_UP queues the assembly on the die's spindle scheduler. -/
  | spinUp (a : Fin 96)
  /-- SPIN_DOWN (R119). SV_CMD SPIN_DOWN withdraws any spin-up request and sends SPIN_CMD with ACTION 2. -/
  | spinDown (a : Fin 96)
  /-- HALT (R120). SV_CMD HALT drops WRITE_OK, stops any seek, sends RETRACT and completes when parked. -/
  | halt (a : Fin 96)
  /-- SV_CMD_RESERVED (R123). SV_CMD with OP 8–15 completes with 0x03. -/
  | svCmdReserved (a : Fin 96) (op : Nat)
  /-- SPIN_GRANT (R118). When a slot is free, the scheduler grants the oldest request and sends SPIN_CMD ACTION 1. -/
  | spinGrant (m : Fin 4)
  /-- SPIN_TIMEOUT (R118). LOCK not reached within SPIN_TMO sends ACTION 2, frees the slot and completes SPIN_UP commands with 0x08. -/
  | spinTimeout (m : Fin 4) (asm : Fin 12)
  /-- SL_ENABLE (R131). A write of SL_CTRL.EN = 1 checks the furrow, rings and journal and starts the sluice, or sets CFG_ERR. -/
  | slEnable (a : Fin 96)
  /-- SL_DISABLE (R157). A write of SL_CTRL.EN = 0 stops fetching and cancels every entry that has never been released. -/
  | slDisable (a : Fin 96)
  /-- WRITE (R136). The sluice fetches a WRITE entry when it has room, checking it for BAD_ENTRY and OVERLAP. -/
  | write (a : Fin 96)
  /-- FILL_START (R136). The next entry's fill starts, assigning SL_SEQ_NEXT and reading, encrypting and encoding the source. -/
  | fillStart (a : Fin 96)
  /-- FILL_DONE (R136). Encoding ends, the sector is in the furrow, and the INTENT record is sent or waits for journal space. -/
  | fillDone (a : Fin 96)
  /-- JOURNAL_RECORD_ACK (R150). The keep die acknowledges a durable record, making an entry FILLED or ending its COMMITTING or CLOSING state. -/
  | journalRecordAck (m : Fin 4)
  /-- BURST_START (R139). At its place after a gate, a burst of the released sector begins with WG = 1. -/
  | burstStart (a : Fin 96)
  /-- SECTOR_WRITE_END (R139). The postamble is sent and the sector enters VERIFYING. -/
  | sectorWriteEnd (a : Fin 96)
  /-- REVOLUTION_VERIFY_START (R146). One revolution after writing, the sluice starts reading the sector back for a revolution verify. -/
  | revolutionVerifyStart (a : Fin 96)
  /-- VERIFY_RESULT (R147). The verify results arrive, and the sector either sends its COMMIT record or waits for a rewrite. -/
  | verifyResult (a : Fin 96) (obs : VerifyObs)
  /-- WRATE_SET (R143). When the next entry needs another rate and no sector is writing, the sluice sends WRATE_SET. -/
  | wrateSet (a : Fin 96)
  /-- SL_CANCEL (R156). A write to SL_CANCEL marks never-released entries with that TAG to complete CANCELLED. -/
  | slCancel (a : Fin 96) (tag : Fin 65536)
  /-- SLD_JHEAD_WRITE (R151). A write of SLD_JHEAD frees journal space and lets a waiting record be sent, or is denied when it would over-run. -/
  | sldJheadWrite (m : Fin 4) (v : Fin 4294967296)
  /-- SLD_JTAIL_WRITE (R159). A write of SLD_JTAIL restores the journal tail while every actuator of the die has EN 0. -/
  | sldJtailWrite (m : Fin 4) (v : Fin 4294967296)
  /-- ENCODE (R174). A stripe ENCODE descriptor starts and computes the parity columns. -/
  | encode (k : Fin 4)
  /-- REBUILD (R174). A stripe REBUILD descriptor starts and rebuilds the erased columns, or finds too many erasures. -/
  | rebuild (k : Fin 4)
  /-- CHECK (R174). A stripe CHECK descriptor starts and compares the stripe's parity. -/
  | check (k : Fin 4)
  /-- STRIPE_DESC_DONE (R177). A stripe descriptor finishes and its completion is posted once its outputs are visible. -/
  | stripeDescDone (k : Fin 4) (idx : Nat)
  /-- STR_ENABLE (R194). A write of STR_CTRL.EN = 1 starts the engine, or sets CFG_ERR when a ring is out of range. -/
  | strEnable (k : Fin 4)
  /-- STR_DISABLE (R194). A write of STR_CTRL.EN = 0 stops fetching and cancels fetched descriptors that have not started. -/
  | strDisable (k : Fin 4)
  /-- STR_DOWN_CLEAR (R180). A W1C write to STR_DOWN clears actuator bits for all four engines. -/
  | strDownClear (mask : Nat)
  /-- KEY_LOAD (R188). KEY_CMD LOAD reads, wraps and stores a key and makes the slot ACTIVE. -/
  | keyLoad (w : World) (slot : Fin 4096) (fn : Fin 1024) (ns : Fin 4)
  /-- KEY_RESTORE (R188). KEY_CMD RESTORE unwraps stored copies into the hub, finishing interrupted erases. -/
  | keyRestore (w : World) (scope : Fin 3) (slot : Fin 4096)
  /-- KEY_SUSPEND (R188). KEY_CMD SUSPEND purges the slot from the die caches and marks it SUSPENDED. -/
  | keySuspend (w : World) (scope : Fin 3) (slot : Fin 4096) (fn : Fin 1024)
  /-- KEY_RESUME (R188). KEY_CMD RESUME returns a SUSPENDED slot to ACTIVE. -/
  | keyResume (w : World) (scope : Fin 3) (slot : Fin 4096) (fn : Fin 1024)
  /-- KEY_ERASE (R190). KEY_CMD ERASE marks slots erasing, refuses their use, purges them and zeroes the keys. -/
  | keyErase (w : World) (scope : Fin 3) (slot : Fin 4096) (fn : Fin 1024)
  /-- KEY_CMD_RESERVED (R199). KEY_CMD with OP 0 or 6–15, or with SCOPE 3, completes with result 0x02. -/
  | keyCmdReserved (w : World) (op : Nat) (scope : Nat)
  /-- KEY_ERASE_DRAINED (R190). Every encryption or decryption that started with the erased key has finished, and step 4 zeroes the key. -/
  | keyEraseDrained
  /-- KEY_CMD_DONE (R188). A key command finishes, setting KEY_STAT.RESULT and KEY_EVT.DONE. -/
  | keyCmdDone
  /-- KEY_CACHE_FILL (R185). A key-cache miss on a medium die is filled from the key engine. -/
  | keyCacheFill (m : Fin 4) (slot : Fin 4096)
  /-- FORMAT (R204). SWP_CMD FORMAT starts a format operation when its conditions hold. -/
  | format (w : World) (verify : Bool) (shelf : Bool) (asm : Nat)
  /-- SANITISE (R204). SWP_CMD SANITISE starts a sanitise operation when its conditions hold. -/
  | sanitise (w : World) (method : Fin 4) (passes : Fin 4) (verify : Bool) (shelf : Bool) (asm : Nat)
  /-- RESUME (R217). SWP_CMD RESUME continues a pending operation from its recorded pass and tracks. -/
  | resume (w : World)
  /-- ABORT (R205). SWP_CMD ABORT stops a running or pending FORMAT. -/
  | abort (w : World)
  /-- SWP_CMD_RESERVED (R220). SWP_CMD with an undefined OP completes with 0x02. -/
  | swpCmdReserved (w : World) (op : Nat)
  /-- SWP_PHASE_BEGIN (R207). Once the progress header with the new PHASE is durable, the phase takes its first action. -/
  | swpPhaseBegin
  /-- SWP_QUIESCE_DONE (R207). Every in-scope actuator reports SL and CH IDLE, and the Quiesce phase ends. -/
  | swpQuiesceDone
  /-- SWP_CRYPTO_DONE (R208). The key engine finishes erasing all 4,096 slots, and the Crypto phase ends. -/
  | swpCryptoDone
  /-- SWP_METADATA_DONE (R207). The journals, and for a sanitise the keystore, have been zeroed, and the Metadata phase ends. -/
  | swpMetadataDone
  /-- SWP_FILL_SECTOR_RESULT (R212). A fill sector's verify or abort result arrives, and a defect is posted when it fails. -/
  | swpFillSectorResult (a : Fin 96) (obs : VerifyObs)
  /-- SWP_TRACK_DONE (R215). After a track's last verify result, the actuator's progress record is updated and it seeks to the next track. -/
  | swpTrackDone (a : Fin 96)
  /-- SWP_REPORT (R207). The Report phase writes RESULT, sets DONE, clears BUSY and returns the mode. -/
  | swpReport
  /-- PERST_ASSERT (R247). Assertion of PERSTn_N resets the port's functions and abandons its transfers as on link loss. -/
  | perstAssert (k : Fin 2)
  /-- PERST_DEASSERT (R222). Deassertion of PERSTn_N lets an enabled port leave Detect.Quiet within 1 ms. -/
  | perstDeassert (k : Fin 2)
  /-- PCIE_LINK_UP (R252). The port's link enters L0 after training. -/
  | pcieLinkUp (k : Fin 2) (rate : Fin 6) (width : Nat) (flit : Bool)
  /-- PCIE_LINK_DOWN (R247). The link leaves L0 without a request from the port, and every function is treated as on removal. -/
  | pcieLinkDown (k : Fin 2)
  /-- PCIE_ENABLE (R226). A write of PCIE_CTRL.EN = 1 lets the port train, or is denied while FNM_CTRL.LOCK is 0. -/
  | pcieEnable (k : Fin 2)
  /-- CFG_READY (R224). Setting PCIE_CTRL.CFG_READY ends Request Retry Status on the port. -/
  | cfgReady (k : Fin 2)
  /-- CONFIG_REQUEST (R224). A host configuration request is answered, with Request Retry Status while CFG_READY is 0. -/
  | configRequest (f : Fin 1026) (r : CfgReq)
  /-- BUS_MASTER_DISABLE (R244). Clearing a function's Bus Master Enable stops its requests, drains its transfers and freezes its queues. -/
  | busMasterDisable (f : Fin 1026)
  /-- BUS_MASTER_ENABLE (R244). Setting Bus Master Enable again lets requests be issued, without restarting queues. -/
  | busMasterEnable (f : Fin 1026)
  /-- FUNCTION_LEVEL_RESET (R245). A function level reset ends the function's transfers with FN_RESET and freezes its queues. -/
  | functionLevelReset (f : Fin 1026)
  /-- VF_ENABLE_SET (R230). The host sets VF Enable, and entries that are CREATED become LIVE. -/
  | vfEnableSet (k : Fin 2) (n : Nat)
  /-- VF_ENABLE_CLEAR (R245). Clearing VF Enable resets every virtual function of the port. -/
  | vfEnableClear (k : Fin 2)
  /-- D3HOT_ENTRY (R243). A function enters D3hot and holds no transfer. -/
  | d3hotEntry (f : Fin 1026)
  /-- BAR_ACCESS (R233). A host memory request to a function's BAR0 is served, or completes with Unsupported Request when invalid. -/
  | barAccess (f : Fin 1026) (r : BarReq)
  /-- FN_CREATE (R229). A write of STATE = CREATED checks the pools and shares and creates the function, or sets REFUSED. -/
  | fnCreate (f : Fin 1024)
  /-- FN_FREE (R230). A write of STATE = FREE destroys a non-LIVE, idle function, or fails with REFUSED. -/
  | fnFree (f : Fin 1024)
  /-- FN_LIVE_FIELD_WRITE (R232). A write to CLASSES, WEIGHT or QUOTA sets FN_INFO.CHANGED and sends MSI-X vector 0. -/
  | fnLiveFieldWrite (f : Fin 1024) (field : LiveField) (v : Nat)
  /-- XFER_RING_ENABLE (R254). A write of a transfer ring's EN starts or stops the ring. -/
  | xferRingEnable (k : Fin 2) (r : Fin 16) (en : Bool)
  /-- HOST_READ (R236). A HOST_READ descriptor starts and issues read requests to host memory. -/
  | hostRead (k : Fin 2) (r : Fin 16)
  /-- HOST_WRITE (R236). A HOST_WRITE descriptor starts and sends DRAM data to host memory. -/
  | hostWrite (k : Fin 2) (r : Fin 16)
  /-- HOST_COMPLETION (R239). A completion TLP from the host is received and its data written, or discarded when it comes late. -/
  | hostCompletion (k : Fin 2) (tag : Fin 1024) (st : CplStatus) (ep : Bool) (data : List Byte)
  /-- XFER_DONE (R240). A transfer's last request completes or is handed over, and its completion is posted. -/
  | xferDone (k : Fin 2) (r : Fin 16) (idx : Nat)
  /-- HOST_READ_TIMEOUT (R242). A read request reaches its completion timeout, and the transfer ends with HOST_TIMEOUT. -/
  | hostReadTimeout (k : Fin 2) (tag : Fin 1024)
  /-- TAG_HOLD_EXPIRY (R242). 64 ms after a timeout, the timed-out tag is released. -/
  | tagHoldExpiry (k : Fin 2) (tag : Fin 1024)
  /-- L0P_ENTRY (R243). Low utilisation for L0P_IDLE makes the port ask for L0p at half width. -/
  | l0pEntry (k : Fin 2)
  /-- L1_ENTRY (R243). No TLP for L1_IDLE and no outstanding request make the port ask for L1. -/
  | l1Entry (k : Fin 2)
  /-- CLKREQ_RELEASE (R243). Release of CLKREQn_N lets the port enter the allowed L1 substate. -/
  | clkreqRelease (k : Fin 2)
  /-- VER_REQ_WRITE (R258). A write of QP_CTRL.VER_REQ sets VER to the smaller of VER_REQ and PROTO. -/
  | verReqWrite (f : Fin 1026) (v : Fin 256)
  /-- QUEUE_ENABLE (R259). A write of QCTRL.EN = 1 enables the queue, or is refused under R259. -/
  | queueEnable (f : Fin 1026) (q : Fin 8)
  /-- QUEUE_DISABLE (R262). A write of QCTRL.EN = 0 stops fetching, drops fetched entries and logs cause 0. -/
  | queueDisable (f : Fin 1026) (q : Fin 8)
  /-- QUEUE_DISABLE_DRAINED (R262). When no tag of a disabled queue is busy, QSTAT.ENABLED falls to 0. -/
  | queueDisableDrained (f : Fin 1026) (q : Fin 8)
  /-- SQ_TAIL (R261). An SQ_TAIL doorbell advances the submission tail, or is discarded or freezes the queue. -/
  | sqTail (f : Fin 1026) (q : Fin 8) (v : Fin 65536)
  /-- CQ_HEAD (R260). A CQ_HEAD doorbell frees completion entries and releases a held completion. -/
  | cqHead (f : Fin 1026) (q : Fin 8) (v : Fin 65536)
  /-- SQ_FETCH (R265). The port fetches a queue's next entries while fewer than 32 tags are busy. -/
  | sqFetch (f : Fin 1026) (q : Fin 8) (res : FetchRes)
  /-- HG_ADMISSION (R266). Every 2 fab cycles the headgate picks a candidate by class and weight and places it in an intake ring. -/
  | hgAdmission
  /-- POST_CONSUME (R273). The headgate takes a post entry and writes, holds or discards the completion, or rejects the post. -/
  | postConsume (p : Fin 4)
  /-- COALESCE_TIMEOUT (R273). COAL_US after the first uncoalesced completion, the queue's vector is sent. -/
  | coalesceTimeout (f : Fin 1026) (q : Fin 8)
  /-- HG_FREEZE (R277). A write of HG_FREEZE freezes the named queues with cause 10. -/
  | hgFreeze (fn : Fin 1024) (pf : Bool) (port : Fin 2) (mask : Fin 256)
  /-- HG_RESTART (R280). A write of HG_RESTART restarts eligible frozen queues, or sets RESTART_REFUSED. -/
  | hgRestart (fn : Fin 1024) (pf : Bool) (port : Fin 2) (mask : Fin 256) (arise : Option (Fin 11))
  /-- HG_ENABLE (R291). A write of HG_CTRL.EN = 1 starts admission, or sets CFG_ERR when a ring is out of range. -/
  | hgEnable
  /-- MB_COMMIT (R282). A write of OUT word 3 commits a mailbox message into the receiver's IN box. -/
  | mbCommit (e : MbEnd) (w3 : Nat)
  /-- TAKE (R283). A write of MB_STAT.TAKE empties the IN box and sets the sender's OUT_EMPTY. -/
  | take (e : MbEnd)
  /-- MB_TIMEOUT (R284). A message not taken within the mailbox timeout sets OUT_TIMEOUT. -/
  | mbTimeout (e : MbEnd)
  /-- MB_DELIVER_HELD (R285). A held message reaches the receiver once its unit reports ready. -/
  | mbDeliverHeld (e : MbEnd)
  /-- SMB_MB_WRITE (R287). SMBus command 0x40 writes and commits the board management controller's OUT words. -/
  | smbMbWrite (bytes : List Byte)
  /-- SMB_MB_READ (R287). SMBus command 0x41 returns the IN words. -/
  | smbMbRead
  /-- SMB_MB_STAT (R287). SMBus command 0x42 returns the endpoint's status byte. -/
  | smbMbStat
  /-- SMB_MB_FLAGS (R287). SMBus command 0x43 takes the IN message and clears W1C flags. -/
  | smbMbFlags (data : Byte)
  /-- SMB_MODE_READ (R458). SMBus command 0x48 returns the mode code and the port, trip and wake flags. -/
  | smbModeRead
  /-- SMB_WAKE_COMMAND (R458). SMBus command 0x49 with data 0x01 is wake source 2. -/
  | smbWakeCommand (data : Byte)
  /-- SMB_ADDRESS_MATCH (R458). The SMBus target matches its address after a START, a wake source in Keep. -/
  | smbAddressMatch (addr : Fin 128)
  /-- GATE_CALL (R304). GATE from the normal world checks the target GATEMARK and enters secure S, or raises a gate fault. -/
  | gateCall (a : At) (rd : Fin 32) (rs1 : BitVec 64) (tag : Fin 4096)
  /-- GATE_RETURN (R305). GATE in secure S with jsprev.W = 0 returns to the normal world at rs1. -/
  | gateReturn (a : At) (rd : Fin 32) (rs1 : BitVec 64) (tag : Fin 4096)
  /-- GATEMARK (R303). GATEMARK executes as a no-op, or raises illegal instruction when malformed. -/
  | gatemark (a : At) (rs1 : Fin 32) (rd : Fin 32) (funct3 : Fin 8)
  /-- MRET (R299). MRET sets W to MPW and returns, never into M in the normal world. -/
  | mret (a : At)
  /-- SRET (R300). SRET in secure S returns to the saved normal context when jsprev.W = 0. -/
  | sret (a : At)
  /-- TRAP (R298). An exception is taken in the level and world that delegation selects, writing jfault. -/
  | trap (a : At) (e : ExcArg)
  /-- INTERRUPT_TAKEN (R309). A pending, enabled interrupt is taken at an instruction boundary in rank order. -/
  | interruptTaken (hart : Fin 256) (pc : BitVec 64)
  /-- HART_LOAD (R295). A hart load or fetch is translated, checked against the map and attributes, and performed. -/
  | hartLoad (a : At) (m : MemArg) (d : Dest) (par : Parity)
  /-- HART_STORE (R295). A hart store is translated, checked and performed. -/
  | hartStore (a : At) (m : MemArg) (d : Src)
  /-- HART_AMO (R347). An AMO executes near or far as the tumbler or jatomctl decides, and the counter is updated. -/
  | hartAmo (a : At) (m : MemArg) (op : HartAmo) (rd : Fin 32) (rs2 : Fin 32) (par : Parity)
  /-- LR (R293). LR reserves the aligned 64-byte line and executes near. -/
  | lr (a : At) (m : MemArg) (rd : Fin 32) (par : Parity)
  /-- SC (R293). SC stores when the reservation holds, executing near. -/
  | sc (a : At) (m : MemArg) (rd : Fin 32) (rs2 : Fin 32) (par : Parity)
  /-- FENCE (R296). FENCE orders memory and I/O accesses, waiting for earlier I/O accesses to be performed. -/
  | fence (a : At) (pred succ : Fin 16)
  /-- FENCE_I (R333). FENCE.I discards instructions that the hart has already fetched. -/
  | fenceI (a : At)
  /-- SFENCE_VMA (R317). SFENCE.VMA invalidates the current world's translations on this hart. -/
  | sfenceVma (a : At) (va : Option (BitVec 64)) (asid : Option (Fin 65536))
  /-- HFENCE_VVMA (R317). HFENCE.VVMA invalidates normal-world VS translations on this hart. -/
  | hfenceVvma (a : At) (va : Option (BitVec 64)) (asid : Option (Fin 65536))
  /-- HFENCE_GVMA (R317). HFENCE.GVMA invalidates normal-world G-stage translations on this hart. -/
  | hfenceGvma (a : At) (gpa : Option (BitVec 64)) (vmid : Option (Fin 16384))
  /-- JATOMCTL_CLEAR (R327). A write of jatomctl.CLEAR resets the hart's 64 tumbler counters. -/
  | jatomctlClear (a : At) (mode : Fin 4)
  /-- JGATECFG_WRITE (R325). A write of jgatecfg sets gate permissions and clears REFUSED. -/
  | jgatecfgWrite (a : At) (v : BitVec 64)
  /-- IRQ_SOURCE_CHANGE (R308). A source's asserted state changes and the router raises or lowers the pending bit of its route. -/
  | irqSourceChange (src : Fin 3136)
  /-- MTIMECMP_MATCH (R311). PKG_TIME reaches a hart's CORE_MTIMECMP and MTIP is set. -/
  | mtimecmpMatch (hart : Fin 256)
  /-- WMAP_COMMIT (R302). A write of WMAP_CTRL.COMMIT copies the world map, drains walks and invalidates every TLB. -/
  | wmapCommit (w : World)
  /-- WMAP_COMMIT_DONE (R302). WMAP_STAT.BUSY falls and the new map governs later requests. -/
  | wmapCommitDone
  /-- IOW_WORLD_CHANGE (R320). A write of a master's WORLD applies to its requests once IOW_STAT.BUSY falls. -/
  | iowWorldChange (master : Fin 14) (secure : Bool) (w : World)
  /-- RD_S (R340). A home orders RD_S and grants a shared or unique copy, snooping an owner when needed. -/
  | rdS (agent : Fin 42) (line : BitVec 46) (victim : Option Nat) (par : Parity)
  /-- RD_U (R340). A home orders RD_U, invalidates other copies and grants UC. -/
  | rdU (agent : Fin 42) (line : BitVec 46) (victim : Option Nat) (par : Parity)
  /-- UPG (R340). A home orders UPG and grants unique permission, or treats it as RD_U when stale. -/
  | upg (agent : Fin 42) (line : BitVec 46) (victim : Option Nat) (par : Parity)
  /-- RD_ONCE (R346). A home orders RD_ONCE and returns a snapshot without recording a copy. -/
  | rdOnce (master : Fin 13) (line : BitVec 46) (par : Parity)
  /-- WR_FULL (R346). A home orders WR_FULL, invalidates every copy and writes the whole line. -/
  | wrFull (master : Fin 13) (line : BitVec 46) (data : Vector Byte 64)
  /-- WR_PTL (R346). A home orders WR_PTL, invalidates every copy and writes the masked bytes. -/
  | wrPtl (master : Fin 13) (line : BitVec 46) (data : Vector Byte 64) (mask : BitVec 64)
  /-- AMO (R347). A home's atomic unit performs a far AMO and returns the old value with CONTENDED. -/
  | amo (hart : Fin 256) (line : BitVec 46) (word : Fin 16) (wide : Bool) (op : AmoOp) (operand : Word)
  /-- EVICT (R344). A home removes the agent from the presence vector and answers with ACCEPT, DECLINE or STALE. -/
  | evict (agent : Fin 42) (line : BitVec 46)
  /-- WB (R344). A home absorbs a write-back into the LLC, or holds it in the line's open transaction. -/
  | wb (agent : Fin 42) (line : BitVec 46)
  /-- ODATA (R344). A home installs the data of an accepted offer as clean, unless a later order cancelled it. -/
  | odata (agent : Fin 42) (line : BitVec 46)
  /-- ACK (R345). A home collects a snoop answer and completes the transaction once all answers are in. -/
  | ack (agent : Fin 42) (line : BitVec 46)
  /-- COMP_ACK (R342). A home receives COMP_ACK, frees the line and starts the next waiting request. -/
  | compAck (agent : Fin 42) (line : BitVec 46)
  /-- SNP_S (R339). An agent keeps S and sends the data to the requester, and dirty data also to the home. -/
  | snpS (agent : Fin 42) (line : BitVec 46) (par : Parity)
  /-- SNP_U (R339). An agent invalidates and sends the data and its state to the requester. -/
  | snpU (agent : Fin 42) (line : BitVec 46) (par : Parity)
  /-- SNP_INV (R339). An agent invalidates its copy and sends any dirty data to the home. -/
  | snpInv (agent : Fin 42) (line : BitVec 46) (par : Parity)
  /-- SNP_ONCE (R339). An agent sends a copy to the requester and keeps its state. -/
  | snpOnce (agent : Fin 42) (line : BitVec 46) (par : Parity)
  /-- SNP_CLEAN (R339). An agent sends its dirty data to the home and becomes UC. -/
  | snpClean (agent : Fin 42) (line : BitVec 46) (par : Parity)
  /-- DATA (R339). A requester receives line data with its granted state and poison. -/
  | data (port : Fin 50) (txn : Fin 1024)
  /-- COMP (R339). A requester receives COMP, installs the line and sends COMP_ACK when needed. -/
  | comp (port : Fin 50) (txn : Fin 1024)
  /-- WB_ACK (R344). An agent receives WB_ACK and frees its write-back buffer. -/
  | wbAck (agent : Fin 42) (line : BitVec 46)
  /-- EVICT_ACK (R344). An agent receives EVICT_ACK and sends ODATA after ACCEPT, or drops the line. -/
  | evictAck (agent : Fin 42) (line : BitVec 46)
  /-- ERR (R339). A requester receives ERR and ends the request as refused or failed. -/
  | err (port : Fin 50) (txn : Fin 1024)
  /-- GET_S (R337). A tile L3 serves a core's GET_S from the tile, or issues RD_S to the hub. -/
  | getS (tile : Fin 36) (core : Fin 8) (line : BitVec 46)
  /-- GET_U (R337). A tile L3 serves a core's GET_U, or issues RD_U to the hub. -/
  | getU (tile : Fin 36) (core : Fin 8) (line : BitVec 46)
  /-- TILE_UPG (R337). A tile L3 serves a core's UPG, or issues UPG to the hub. -/
  | tileUpg (tile : Fin 36) (core : Fin 8) (line : BitVec 46)
  /-- PUT (R337). A tile L3 records that a core dropped its copy, with any dirty data. -/
  | put (tile : Fin 36) (core : Fin 8) (line : BitVec 46)
  /-- T_INV (R337). A core invalidates its copy and returns dirty data to the L3. -/
  | tInv (tile : Fin 36) (core : CoreAsk) (line : BitVec 46)
  /-- T_DOWN (R337). A core keeps S and returns the data to the L3. -/
  | tDown (tile : Fin 36) (core : CoreAsk) (line : BitVec 46)
  /-- T_FETCH (R337). A core returns a copy to the L3 and keeps its state. -/
  | tFetch (tile : Fin 36) (core : CoreAsk) (line : BitVec 46)
  /-- T_DATA (R337). A tile L3 receives a core's data or answer to a T_ message. -/
  | tData (tile : Fin 36) (core : Fin 8) (line : BitVec 46)
  /-- CLEAN (R356). RME CLEAN writes dirty copies in the range to DRAM. -/
  | clean (ch : Fin 2) (agent : Fin 64) (w : World)
  /-- CLEAN_INV (R356). RME CLEAN_INV writes back and invalidates every copy in the range. -/
  | cleanInv (ch : Fin 2) (agent : Fin 64) (w : World)
  /-- INV (R356). RME INV invalidates every copy in the range without write-back. -/
  | inv (ch : Fin 2) (agent : Fin 64) (w : World)
  /-- RECALL (R356). RME RECALL on channel 1 invalidates one agent's lines, taking dirty data into the LLC. -/
  | recall (ch : Fin 2) (agent : Fin 64) (w : World)
  /-- RME_CMD_RESERVED (R356). An invalid RME operation completes with RESULT 0x02 and does nothing. -/
  | rmeCmdReserved (ch : Fin 2) (op : Fin 8) (agent : Fin 64) (w : World)
  /-- RME_DONE (R357). The engine finishes its visit, BUSY falls and DONE is set. -/
  | rmeDone (ch : Fin 2)
  /-- MC_CORRECTION_WRITEBACK (R375). A queued correction or poison rewrite is written, dropping bytes since replaced, with optional read-back. -/
  | mcCorrectionWriteback (k : Fin 8) (hard : Bool)
  /-- SCRUB_READ (R376). The scrubber reads its next local line at the scrub rate and treats it under R374. -/
  | scrubRead (k : Fin 8) (nth : Fin 64) (bits : BitVec 13)
  /-- MEMMAP_COMMIT (R370). A write of MEMMAP_CTRL.COMMIT checks and commits the regions and TOP, or sets ERR. -/
  | memmapCommit (w : World)
  /-- MEMMAP_COMMIT_DONE (R370). MEMMAP_STAT.BUSY falls and the new map governs later requests. -/
  | memmapCommitDone
  /-- FILL_GO (R378). A write of FILL_GO starts zero-filling the range, or sets FILL_ERR. -/
  | fillGo (w : World)
  /-- FILL_DONE_MEM (R378). The fill engine writes its last line and FILL_BUSY falls. -/
  | fillDoneMem
  /-- NC_RD (R385). A target receives an NC read of MRAM or a unit register and answers with NC_DATA or ERR. -/
  | ncRd (port : Fin 50) (txn : Fin 1024) (addr : BitVec 52) (lg : Fin 7) (w : NcBy)
  /-- NC_WR (R385). A target receives an NC write with WDATA and answers with NC_ACK or ERR. -/
  | ncWr (port : Fin 50) (txn : Fin 1024) (addr : BitVec 52) (data : List Byte) (w : NcBy)
  /-- NC_DATA (R385). An initiator receives the data of an NC read. -/
  | ncData (port : Fin 50) (txn : Fin 1024)
  /-- NC_ACK (R385). An initiator receives the acknowledgement of an NC write. -/
  | ncAck (port : Fin 50) (txn : Fin 1024)
  /-- IRQ (R392). hub/irq receives an IRQ unit carrying a source's asserted state. -/
  | irq (src : Fin 3136) (level : Bool)
  /-- BADOP_UNIT (R388). A unit with an undefined OP is discarded and recorded as uncorrected. -/
  | badopUnit (port : Fin 60)
  /-- FLIT_RECEIVED (R398). A flit is accepted when good and in order, or answered with NAK, returning credits and acknowledgements. -/
  | flitReceived (n : Fin 45) (toHub : Bool) (want : List VzUnit) (noise : BitVec 2048)
  /-- NAK (R398). A received NAK makes the sender resend every flit after ACK. -/
  | nak (n : Fin 45) (hubEnd : Bool)
  /-- FAST_RETRAIN_START (R398). REPLAY_MAX sends of one flit, or more than CRC_THR bad flits in 1 ms, start a fast retrain. -/
  | fastRetrainStart (n : Fin 45)
  /-- VZ_DETECT (R399). Clock energy on the receive clock lane moves the link from Detect to Clock. -/
  | vzDetect (n : Fin 45)
  /-- VZ_STEP_DONE (R399). A Valiez training step meets its exit, ending in Active with the lane map, check, version and credits. -/
  | vzStepDone (n : Fin 45) (o : VzObs)
  /-- VZ_MISMATCH_HOLD_END (R402). After 1 µs held down, both ends discard kept masks and train in full, or enter Failed after three mismatches. -/
  | vzMismatchHoldEnd (n : Fin 45)
  /-- VZ_STEP_TIMEOUT (R399). A step exceeds its limit, restarting full training or entering Failed. -/
  | vzStepTimeout (n : Fin 45)
  /-- VZ_ENABLE (R413). A write of VZ_CTRL.EN sets the link training or takes it to Off. -/
  | vzEnable (n : Fin 45) (en : Bool)
  /-- VZ_RETRAIN (R413). A write of VZ_CTRL.RETRAIN starts a full or fast retrain as FULL selects. -/
  | vzRetrain (n : Fin 45) (full : Bool)
  /-- ISOLATE_SET (R408). Setting VZ_CTRL.ISOLATE makes the hub answer requests and snoops for the far die itself. -/
  | isolateSet (n : Fin 45) (loss : Bool)
  /-- ISOLATE_CLEAR (R408). Clearing ISOLATE on an Active link restores normal service. -/
  | isolateClear (n : Fin 45)
  /-- HALF_IDLE_ENTER (R405). Under version 2, a link idle for IDLE_US idles the upper half of its lanes. -/
  | halfIdleEnter (n : Fin 45)
  /-- REQUEST_TIMEOUT (R394). An initiator's request timer expires and it makes the answer of R394 itself. -/
  | requestTimeout (t : TmoWhat)
  /-- TXN_HOLD_EXPIRY (R395). 2 × COH_MS after a timeout, the held TXN is released. -/
  | txnHoldExpiry (port : Fin 60) (txn : Fin 1024)
  /-- PWRON_ASSERT (R431). Assertion of PWRON_N resets the whole package and drops every VR_EN within 1 µs. -/
  | pwronAssert
  /-- PWRON_RISE (R442). PWRON_N rises with VAUX in range, samples the straps and starts Waking from Off. -/
  | pwronRise (straps : Fin 4)
  /-- VAUX_LOSS (R442). VAUX leaves its range and the package goes Off. -/
  | vauxLoss
  /-- THERMAL_TRIP (R433). A sensor passes its trip value, VR_EN drops, THERM_TRIP_N asserts and the package enters Keep. -/
  | thermalTrip (die : DieKind)
  /-- THERMAL_WARN (R441). A reading comes within WARN_C of its trip value and sets THM_EVT.WARN. -/
  | thermalWarn (die : DieKind) (temp : BitVec 8)
  /-- TRIP_CLEAR (R441). Clearing THM_EVT.TRIP releases THERM_TRIP_N. -/
  | tripClear
  /-- SEAL_OPEN (R436). Three consecutive seal samples that differ from the driven level find the seal open. -/
  | sealOpen
  /-- PRESENCE_PRESS (R490). A fall of PRESENT_N stable for 20 ms opens a 60 s presence window. -/
  | presencePress
  /-- PRESENCE_WINDOW_END (R490). The 60 s presence window closes. -/
  | presenceWindowEnd
  /-- PRESENCE_JUMPER (R490). A low level held for 10 min counts as a jumper. -/
  | presenceJumper
  /-- SERVE (R442). PWR_CMD SERVE moves Twelve or Still to Serve. -/
  | serve (w : World)
  /-- STILL (R452). PWR_CMD STILL moves Serve to Still and commands VIN_STILL. -/
  | still (w : World)
  /-- SHUTDOWN (R445). PWR_CMD SHUTDOWN stops admission and enters Shutdown test, or is refused or deferred. -/
  | shutdown (w : World)
  /-- RESTART (R443). PWR_CMD RESTART warm-resets the package into Loading. -/
  | restart (w : World)
  /-- PWR_CMD_RESERVED (R464). PWR_CMD with an undefined code completes with 0x02. -/
  | pwrCmdReserved (op : Fin 16) (w : World)
  /-- SHUTDOWN_PROGRAM_END (R445). The shutdown program ends, VR_EN3 to VR_EN0 fall 100 µs apart and the package enters Keep. -/
  | shutdownProgramEnd
  /-- DOM_REQ (R447). A write of a PWR_DOM entry requests a domain on or off, or is refused or deferred. -/
  | domReq (d : Fin 43) (off : Bool) (w : World)
  /-- DOMAIN_CHANGE_DONE (R447). An accepted domain change completes and sets PWR_EVT.DOM. -/
  | domainChangeDone (d : Fin 43)
  /-- PWR_HOLD_WRITE (R448). A secure write of PWR_HOLD sets holds, or clears them and runs deferred requests. -/
  | pwrHoldWrite (mask : BitVec 43) (w : World)
  /-- TILE_FREQ_WRITE (R450). A write of TILE_FREQ starts a voltage and frequency change of the tile. -/
  | tileFreqWrite (t : Fin 32) (freq : Fin 64)
  /-- FREQ_CHANGE_DONE (R450). A tile's voltage and frequency change completes. -/
  | freqChangeDone (t : Fin 32)
  /-- VIN_CHANGE_CHECK (R451). After the slew wait of a quarter, VR_PG and STATUS_WORD are checked, and a failure in service is package-fatal. -/
  | vinChangeCheck (pg : Bool) (q : Fin 4)
  /-- POWER_SAMPLE (R454). Every 10 µs the regulators' currents are read into the package power. -/
  | powerSample (amps : Vector Nat 4)
  /-- WEIR_TEST (R456). Every 100 µs each weir is tested, and caps are lowered or raised. -/
  | weirTest (temps : List Int)
  /-- CLOCK_GATE_ENTER (R453). A unit meets its first-level gating conditions and its clock is gated. -/
  | clockGateEnter (u : ClockUnit) (idle : Bool)
  /-- DEEP_GATE_TIMER (R453). In Still, a unit gated for TILE_MS or HUB_MS enters the second level. -/
  | deepGateTimer (u : ClockUnit)
  /-- CLOCK_RESTART_DONE (R453). A demanded clock restart completes and the unit runs again. -/
  | clockRestartDone (u : ClockUnit)
  /-- AON_ALARM_MATCH (R457). AON_SECONDS reaches AON_ALARM, a wake source when enabled. -/
  | aonAlarmMatch
  /-- PMBUS_TRANSACTION_END (R460). A PMBus transaction ends, acknowledged or failed. -/
  | pmbusTransactionEnd (acked : Bool) (data : BitVec 16)
  /-- PMBUS_RETRY_WAIT_END (R460). 1 ms after a failed attempt the exchange is retried, or fails after three attempts. -/
  | pmbusRetryWaitEnd
  /-- WAKE_STEP_READY (R459). A wake step reports ready, and the next step or Loading begins. -/
  | wakeStepReady (ids : List StackId)
  /-- WAKE_STEP_TIMEOUT (R461). A wake step exceeds its limit and the wake fails back to Keep. -/
  | wakeStepTimeout (why : WakeFail)
  /-- WAKE_RETRY_TIMER (R461). RETRY_S after a failed wake, the sequence runs again while attempts remain. -/
  | wakeRetryTimer
  /-- TRIP_HOLD_END (R461). TRIP_HOLD_S after a trip, the hold ends and any recorded wake runs. -/
  | tripHoldEnd
  /-- LOADING_BEGIN (R474). Loading starts: fuses, package area and progress header are read and tile bring-up begins. -/
  | loadingBegin (head : FlashHead)
  /-- LOADING_FILL_DONE (R474). The Loading fill of all DRAM completes. -/
  | loadingFillDone
  /-- LOADING_IMAGE_END (R472). The image read ends and its check word is judged. -/
  | loadingImageEnd (answered : Bool) (body : List Byte)
  /-- LOADING_REG_WRITE (R474). A held REG record is written, and the next one starts only after it completes. -/
  | loadingRegWrite
  /-- LOADING_END (R477). The harts of ready Twelve tiles start at ENTRY and the package enters Twelve, Recovery or Sanitise. -/
  | loadingEnd
  /-- TILE_POWER_UP (R480). Every 250 µs per quarter the next mapped tile is powered and its link trained. -/
  | tilePowerUp (q : Fin 4)
  /-- UNIT_READY_RISE (R479). A unit finishes initialisation, UNIT_READY rises, and waiting harts or messages proceed. -/
  | unitReadyRise (u : UnitId)
  /-- CFG_START (R483). A write of CFG_START with GO starts a logical tile's harts at START_PC, or is refused. -/
  | cfgStart (tile : Fin 32) (go : Bool) (w : World)
  /-- TILE_RETIRE (R485). TILE_CMD RETIRE halts, drains, recalls, isolates and powers off a logical tile. -/
  | tileRetire (tile : Fin 32) (w : World)
  /-- TILE_ADD (R485). TILE_CMD ADD brings the quarter's spare under an absent logical tile. -/
  | tileAdd (tile : Fin 32) (w : World)
  /-- TILE_SWAP (R485). TILE_CMD SWAP retires a tile and brings in the spare under the same number. -/
  | tileSwap (tile : Fin 32) (w : World)
  /-- TILE_CMD_RESERVED (R496). TILE_CMD with OP 0 completes with RESULT 0x02. -/
  | tileCmdReserved (tile : Fin 32) (w : World)
  /-- TILE_OP_STEP_DONE (R485). A step of a tile operation ends and the next begins, with CFG_EVT.TILE set at the end. -/
  | tileOpStepDone
  /-- PROVISION (R489). LC_CMD PROVISION burns PROV from Blank with a press. -/
  | provision (w : World)
  /-- DEPLOY (R489). LC_CMD DEPLOY burns DEPLOY from Provisioning with presence. -/
  | deploy (w : World)
  /-- DIAG (R489). LC_CMD DIAG sets the Diagnostic flag when no key slot is held. -/
  | diag (w : World)
  /-- UNDIAG (R489). LC_CMD UNDIAG clears the Diagnostic flag outside Diagnostic mode. -/
  | undiag (w : World)
  /-- RETIRE (R489). LC_CMD RETIRE burns the device secret and then RETIRE. -/
  | retire (w : World)
  /-- DIAG_MODE (R489). LC_CMD DIAG_MODE enters Diagnostic mode from Twelve. -/
  | diagMode (w : World)
  /-- STORE_REC (R489). LC_CMD STORE_REC copies LC_LEN bytes into the recovery segment. -/
  | storeRec (w : World)
  /-- LC_CMD_RESERVED (R495). LC_CMD with an undefined value completes with 0x02. -/
  | lcCmdReserved (op : Fin 16) (w : World)
  /-- LC_CMD_DONE (R489). A lifecycle command finishes within 50 ms and sets CFG_EVT.LC. -/
  | lcCmdDone
  /-- ST_CLASS_DONE (R502). A test class finishes on a unit, recording its outcome and any soft repairs. -/
  | stClassDone (unit : Fin 64) (obs : ClassObs)
  /-- TEST (R508). ST_CMD TEST runs the named classes on one unit, then INIT. -/
  | test (unit : Fin 64) (classes : Fin 16) (w : World)
  /-- FUSE (R507). ST_CMD FUSE burns a unit's soft repair entries into its fuse bank. -/
  | fuse (unit : Fin 64) (w : World)
  /-- CLEAR_SOFT (R511). ST_CMD CLEAR_SOFT empties a unit's soft repair map. -/
  | clearSoft (unit : Fin 64) (w : World)
  /-- ST_CMD_RESERVED (R511). ST_CMD with an undefined OP completes with 0x02. -/
  | stCmdReserved (op : Fin 16) (w : World)
  /-- ST_CMD_DONE (R508). A direct test or fuse burn completes and sets ST_EVT.DONE. -/
  | stCmdDone
  /-- PACKAGE_FATAL (R521). A package-fatal cause stops admission and retirement, and the fatal record is written. -/
  | packageFatal (cause : Fin 256) (u : UnitId) (addr : BitVec 52) (info : BitVec 64)
  /-- FORCE (R520). A secure write of ERR_CTRL.FORCE raises package-fatal cause 0x0A. -/
  | force (w : World)
  /-- FATAL_WARM_RESET (R521). At t+10 µs the warm reset runs, and the Twelve harts restart at REC_ENTRY in Recovery. -/
  | fatalWarmReset
  /-- ASYNC_MACHINE_CHECK (R516). A lost dirty line or a refused NC store raises an asynchronous machine check on the owning hart. -/
  | asyncMachineCheck (hart : Fin 256) (lost : Bool) (own : Own) (level : Fin 8) (addr : BitVec 52)
  /-- CORE_MCE_RELEASE (R518). Clearing CORE_MCE.VALID lets a pending asynchronous machine check be taken. -/
  | coreMceRelease (hart : Fin 256) (w : World)
  /-- PMU_FREEZE (R529). Setting PMU_CTRL.FREEZE stops every package counter in the same cycle. -/
  | pmuFreeze (freeze : Bool)
  /-- PMU_CLEAR (R529). A write of PMU_CTRL.CLEAR sets every package count to 0. -/
  | pmuClear
  /-- COUNTER_WRITE (R527). A write of a counter takes the written value plus any coinciding event. -/
  | counterWrite (n : Fin 16) (v : BitVec 32) (events : Fin 16)
  /-- TRC_MARK (R532). A write of TRC_MARK records a software mark in the trace. -/
  | trcMark (v : BitVec 32)
  /-- DMI_ACCESS (R531). A DMI access through the test port is served, or answered with op 2 while debug is closed. -/
  | dmiAccess (addr : Fin 128) (op : DmiOp)
  /-- STACK_HOT (R362). A stack's temperature crosses 85 °C, doubling or restoring its refresh rate, changing MC_STAT.HOT and, on a rise, setting MC_EVT.HOT. -/
  | stackHot (k : Fin 8) (temp : BitVec 8)
  /-- PRESENCE_RELEASE (R490). PRESENT_N rises after a press or a jumper, ending jumper presence and requiring a new press. -/
  | presenceRelease
  /-- SEAL_CLOSE (R491). The seal loop again matches the driven level, and CFG_STAT.SEAL_OPEN falls because it follows the loop. -/
  | sealClose
  /-- HALF_IDLE_EXIT (R405). Within 200 ns of a unit's arrival, a link in half-width idle returns to full width and HALF_IDLE clears. -/
  | halfIdleExit (n : Fin 45)
  /-- L1_EXIT (R243). A port's link leaves L1, an L1 substate or L0p and returns to L0, including an exit that the host initiates. -/
  | l1Exit (k : Fin 2)
  /-- FUNCTION_RESET_DONE (R245). A function level reset ends within 1 ms, the function answers configuration requests again and freeze cause 2 no longer holds. -/
  | functionResetDone (f : Fin 1026)
  deriving DecidableEq, Repr

end Sys2Proof
end

