-- ==== Sys2Proof/Config.lean ====
section
/-! DEFINITION. What the implementation fixes and the manual does not give: free values, constants without a body. -/

namespace Sys2Proof

/-- Which 4 of the 16 block rows an information column of the LDPC code meets (R71), coded as `ldpcRows` reads it. -/
opaque Config.ldpcColumn : Nat → Nat

/-- The right shift of a circulant of the LDPC code (R71, R97): block row, block column; its low 8 bits. -/
opaque Config.ldpcShift : Nat → Nat → Nat

/-- The unit-defined detail of a package log entry (R524): unit slot, sub-unit, class, drawn number. -/
opaque Config.errDetail : Nat → Nat → Nat → Nat → Nat

/-- The fraction of a track before PES_GAIN (R100): whether Q is taken, the value of N or Q taken, the track number's
lowest bit. -/
opaque Config.trackFraction : Bool → Int → Nat → Int

/-- The engine's prediction of a wedge's position (R110, R112): last position, reference position, velocity. -/
opaque Config.servoPrediction : Int → Int → Int → Int

/-- Which of its two neighbouring integers the servo engine takes for a value that is no whole number (R100, R102, R104,
R111): the place of the calculation, the numerator or radicand; true for the upper one. -/
opaque Config.roundUp : Nat → Int → Bool

/-- A sample index that the servo engine reports of a lost wedge (R101, R112): 0 the address mark, 1 the gate's first
sample, 2 its last; the index read last. -/
opaque Config.predictedIndex : Nat → Nat → Nat

/-- An equaliser tap or, with number 48, the target after the least-mean-squares adaptation of a sector (R62): the number drawn, the
number of the tap (16 times the reader, plus the tap), its value in the latched set, and the step size. -/
opaque Config.adapted : Nat → Nat → Nat → Nat → Nat

/-- The 16 bits that SV_PES shows of a PES beyond its range (R125). -/
opaque Config.pesWide : Int → Nat

/-- Which of the 128 cached keys of a medium die a fill replaces (R185): the die, the drawn number. -/
opaque Config.keyVictim : Nat → Nat → Nat

/-- The 64-bit state word of a wrapped copy (R189, R190): the slot, the code of its mark, GEN. -/
opaque Config.keyStateWord : Nat → Nat → Nat → Nat

/-- Byte `i` of the body of a wrapped copy (R189): the slot, FN, NS, the 64 key bytes. -/
opaque Config.keyBody : Nat → Nat → Nat → List Byte → Nat → Byte

/-- Byte `i` of a block of a soft record that holds no values (R87): the drawn number, the codeword, the byte. -/
opaque Config.softIdle : Nat → Nat → Nat → Byte

/-- The DETAIL of a trace record (R532): its KIND, slot, sub-unit, drawn number. -/
opaque Config.traceDetail : Nat → Nat → Nat → Nat → Nat

/-- A byte of DRAM that a commit left undefined (R371): the number drawn at the commit, the address. -/
opaque Config.lostByte : Nat → Nat → Byte

/-- The words of a TLP's header, and then of its prefixes, in AER's logs (R221): the number drawn when it was logged, the word. -/
opaque Config.tlpHeader : Nat → Nat → Nat

/-- The byte that a descriptor leaves at an address of an output buffer that overlaps another of its buffers (R179), for each
such descriptor. -/
opaque Config.overlapByte : Nat → Nat → Byte

/-- The wrong bits of such a byte's check word (R371, R377): the number drawn at the commit, the address. -/
opaque Config.lostFlips : Nat → Nat → Nat

/-- The µs that a wake took (R462): the drawn number. -/
opaque Config.wakeMicros : Nat → Nat

/-- The rounding of the sustained average at a sample (R455): the average before and the sample, in pW, and TAU_S. -/
opaque Config.expRound : Nat → Nat → Nat → Nat

/-- The number from the always-on controller's random source that seeds SEAL_OUT (R436): the drawn number. -/
opaque Config.sealSeed : Nat → Nat

/-- The W that an average power, as a sum of samples in µW and their number, is reported as where it is no whole number of W
(R454). -/
opaque Config.roundWatts : Nat → Nat → Nat

/-- The ms that a self-test program took (R503): the drawn number. -/
opaque Config.testMillis : Nat → Nat

/-- The golden signature that is fused into a die at wafer test (R497), by self-test index. -/
opaque Config.goldenSignature : Nat → Nat

/-- The package serial of the marking, as the Device Serial Number shows it (R20, R227). -/
opaque Config.serial : Nat

/-- The fused seed of the pattern generator (R511). -/
opaque Config.fusedSeed : Nat

/-- Which tiles of a B02 package carry stepping A1; the others carry B0 (R21, R24). The package is mixed: one tile that
carries A1 and one other that carries B0 are named by the two numbers. -/
opaque Config.tileA1 : Nat → Bool
opaque Config.oneA1 : Nat
opaque Config.oneB0 : Nat

/-- The UNIT_VER word that the window of an absent logical tile shows (R482): the tile, the sub-unit of the window. -/
opaque Config.absentVer : Nat → Nat → Nat

/-- The set that a line falls into in an array of R332 or R334: the array's level (0 LLC, 1 L2, 2 L3, 3 line buffer or I/O cache,
4 directory, 5 L1I, 6 L1D), the line; the array takes the number modulo its sets. -/
opaque Config.cacheSet : Nat → Nat → Nat

/-- The line of a full set that is replaced: the drawn number; the array takes it modulo the lines that it may replace. -/
opaque Config.cacheVictim : Nat → Nat

/-- How many lines the range maintenance engine has reached when a world map comes into force (R358): the drawn number. -/
opaque Config.rmeReached : Nat → Nat

/-- The fused maker code of IDCODE (R530). -/
opaque Config.makerCode : Nat

/-- How many of the slots of a core's cycles were retired (0), wasted (1) and front-starved (2) (R528): a free value. -/
opaque Config.slots : Nat → Nat → Nat

end Sys2Proof
end

