-- ==== Sys2Proof/Machine/Codes.lean ====
section
/-! DEFINITION. Check and line codes: CRC-32C, CRC-24, RS(224,200) over GF(2^10), the additive scramblers, GF(2^8) and
AES-256 in XTS mode. -/

namespace Sys2Proof.Machine

open Sys2Proof

/-- One bit of the CRC-32C register, least significant bit first. -/
def crc32cBit (r : Nat) : Nat := if r % 2 = 1 then (r / 2) ^^^ 0x82F63B78 else r / 2

/-- One byte through the CRC-32C register. -/
def crc32cByte (r : Nat) (b : Byte) : Nat := (List.range 8).foldl (fun r _ => crc32cBit r) (r ^^^ b.toNat)

/-- CRC-32C of a byte string (R68, R149, R214). -/
def crc32c (bs : List Byte) : Nat := bs.foldl crc32cByte 0xFFFFFFFF ^^^ 0xFFFFFFFF

/-- One data bit through the CRC-24 register of R27. -/
def crc24Bit (r d : Nat) : Nat := if (r / 2 ^ 23 + d) % 2 = 1 then (2 * r % 2 ^ 24) ^^^ 0x864CFB else 2 * r % 2 ^ 24

/-- CRC-24 over the low `n` bits of `w`, bit 0 first (R27: polynomial 0x86_4CFB, register all ones). -/
def crc24 : Nat → Nat → Nat → Nat
  | 0, _, r => r
  | n + 1, w, r => crc24 n (w / 2) (crc24Bit r (w % 2))

/-- The CRC-24 of data bits [1975:0] of a frame (R27). -/
def frameCrc (data : Nat) : Nat := crc24 1976 data 0xFFFFFF

/-- Product in GF(2^10) with x^10 + x^3 + 1, `n` bits of the second factor. -/
def gf10Mul : Nat → Nat → Nat → Nat
  | 0, _, _ => 0
  | n + 1, a, b =>
    (if b % 2 = 1 then a else 0) ^^^ gf10Mul n (if 2 ^ 9 ≤ a then (2 * a) ^^^ 0x409 else 2 * a) (b / 2)

/-- Powers of α = x in GF(2^10). -/
def gf10Pow : Nat → Nat
  | 0 => 1
  | n + 1 => gf10Mul 10 (gf10Pow n) 2

/-- A polynomial (lowest coefficient first) times x + c. -/
def polyTimes (c : Nat) (p : List Nat) : List Nat :=
  List.zipWith (fun a b => a ^^^ b) (0 :: p) ((p.map fun a => gf10Mul 10 a c) ++ [0])

/-- The generator with roots α^0 to α^23, lowest coefficient first (R27). -/
def rsGen : List Nat := (List.range 24).foldl (fun p i => polyTimes (gf10Pow i) p) [1]

/-- One data symbol through the parity register (highest coefficient last). -/
def rsStep (g : List Nat) (r : List Nat) (d : Nat) : List Nat :=
  let f := (r.getLastD 0) ^^^ d
  List.zipWith (fun a b => a ^^^ b) (0 :: r.dropLast) ((g.take 24).map fun a => gf10Mul 10 a f)

/-- The 24 parity symbols of 200 data symbols (R27). -/
def rsParity (data : List Nat) : List Nat := data.foldl (rsStep rsGen) (List.replicate 24 0)

/-- The number whose `w`-bit digits are the list, first digit lowest. -/
def joinBits (w : Nat) : List Nat → Nat
  | [] => 0
  | d :: ds => d % 2 ^ w + 2 ^ w * joinBits w ds

/-- `n` digits of `w` bits of a number, lowest first. -/
def splitBits (w : Nat) : Nat → Nat → List Nat
  | 0, _ => []
  | n + 1, v => v % 2 ^ w :: splitBits w n (v / 2 ^ w)

/-- The 2,240 bits of a codeword from its 2,000 data bits (R27 step 2). -/
def rsFrame (data : Nat) : Nat :=
  data % 2 ^ 2000 + 2 ^ 2000 * joinBits 10 (rsParity (splitBits 10 200 data)).reverse

/-- The inverse in GF(2^10), as the power 2^10 - 2. -/
def gf10Inv (a : Nat) : Nat :=
  (List.range 9).foldl (fun (acc : Nat × Nat) _ =>
    let sq := gf10Mul 10 acc.1 acc.1
    (sq, gf10Mul 10 acc.2 sq)) (a, 1) |>.2

/-- A polynomial, highest coefficient first, at a point. -/
def polyAt (x : Nat) (p : List Nat) : Nat := p.foldl (fun v c => gf10Mul 10 v x ^^^ c) 0

/-- The sum of products of two lists. -/
def gfDot (a b : List Nat) : Nat := (List.zipWith (gf10Mul 10) a b).foldl (fun x y => x ^^^ y) 0

/-- The state of the Berlekamp–Massey recursion: the locator, the one before its last change, lengths and the discrepancy
then; lowest coefficients first. -/
structure BmState where
  lam : List Nat := [1]
  old : List Nat := [1]
  len : Nat := 0
  gap : Nat := 1
  disc : Nat := 1

/-- Two polynomials, lowest coefficient first, added. -/
def polyAdd : List Nat → List Nat → List Nat
  | [], q => q
  | p, [] => p
  | a :: p, b :: q => (a ^^^ b) :: polyAdd p q

/-- One step of the recursion on syndrome `n`. -/
def bmStep (syn : List Nat) (b : BmState) (n : Nat) : BmState :=
  let d := gfDot b.lam ((List.range b.lam.length).map fun i => if i ≤ n then syn.getD (n - i) 0 else 0)
  if d = 0 then { b with gap := b.gap + 1 }
  else
    let f := gf10Mul 10 d (gf10Inv b.disc)
    let lam := polyAdd b.lam (List.replicate b.gap 0 ++ b.old.map (gf10Mul 10 f))
    if 2 * b.len ≤ n then { lam := lam, old := b.lam, len := n + 1 - b.len, gap := 1, disc := d }
    else { b with lam := lam, gap := b.gap + 1 }

/-- α to a power and the powers of α^-1 from it downward, `n` of them. -/
def rootsFrom : Nat → Nat → List Nat
  | 0, _ => []
  | n + 1, x => x :: rootsFrom n (gf10Mul 10 x 2)

/-- RS(224,200) decoding of the 224 symbols of a codeword (R27): the symbols corrected and the corrected word, none when no
codeword lies within 12 symbols. Symbol j has the power 223 - j. -/
def rsDecode (w : List Nat) : Option (Nat × List Nat) :=
  let syn := (List.range 24).map fun i => polyAt (gf10Pow i) w
  if syn.all fun x => x == 0 then some (0, w)
  else
    let b := (List.range 24).foldl (bmStep syn) {}
    let om := (List.range b.len).map fun k => gfDot ((b.lam.take (k + 1)).reverse) (syn.take (k + 1))
    let inv := rootsFrom 224 (gf10Inv (gf10Pow 223))
    let fix := inv.map fun x =>
      if polyAt x b.lam.reverse = 0 then
        let dl := (List.range b.lam.length).map fun i => if i % 2 = 1 then b.lam.getD i 0 else 0
        let num := polyAt x om.reverse
        let den := polyAt x dl.reverse
        gf10Mul 10 num (gf10Inv den)
      else 0
    let hits := (inv.filter fun x => polyAt x b.lam.reverse == 0).length
    if 12 < b.len ∨ hits ≠ b.len ∨ (b.lam.drop (b.len + 1)).any (fun c => c != 0) then none
    else some (b.len, List.zipWith (fun a e => a ^^^ e) w fix)

/-- The PAM4 levels of a frame's bits, and the bits of a frame's levels (R27 step 4): the pairs (high, low) 00, 01, 11 and 10
are levels 0, 1, 2 and 3, so the low bit is exchanged for its sum with the high one in both directions. -/
def pam4 (bits : Nat) : Nat := bits ^^^ (bits / 2 &&& (2 ^ 2240 - 1) / 3)

/-- `n` bits through the additive scrambler x^31 + x^28 + 1 (R27 step 3): the scrambled bits and the register. Its orientation and
output bit are a DESIGN CHOICE (log 183). -/
def scramble31 : Nat → Nat → Nat → Nat × Nat
  | 0, _, r => (0, r)
  | n + 1, w, r =>
    let o := (r / 2 ^ 30 + r / 2 ^ 27) % 2
    let (rest, r') := scramble31 n (w / 2) (2 * r % 2 ^ 31 + o)
    ((w % 2 + o) % 2 + 2 * rest, r')

/-- `n` bits of the additive scrambler x^23 + x^18 + 1 from register `r`, first bit first (R70). Its orientation and output bit are
a DESIGN CHOICE (log 183). -/
def scramble23 : Nat → Nat → List Nat
  | 0, _ => []
  | n + 1, r =>
    let o := (r / 2 ^ 22 + r / 2 ^ 17) % 2
    o :: scramble23 n (2 * r % 2 ^ 23 + o)

/-- Bytes of the sequence x^31 + x^28 + 1 from register `r` (R211). -/
def seq31Bytes : Nat → Nat → List Byte
  | 0, _ => []
  | n + 1, r =>
    let (b, r') := scramble31 8 0 r
    BitVec.ofNat 8 b :: seq31Bytes n r'

/-- Product in GF(2^8) for a modulus given by its low 8 bits, `n` bits of the second factor. -/
def gf8MulIn (m : Nat) : Nat → Nat → Nat → Nat
  | 0, _, _ => 0
  | n + 1, a, b => (if b % 2 = 1 then a else 0) ^^^ gf8MulIn m n (if 128 ≤ a then (2 * a % 256) ^^^ m else 2 * a) (b / 2)

/-- Product in the stripe field, x^8 + x^4 + x^3 + x^2 + 1 (R167). -/
def gfMul (a b : Nat) : Nat := gf8MulIn 0x1D 8 a b

/-- `a` to the power `2^n - 2` by square and multiply: the inverse in the stripe field. -/
def gfInv (a : Nat) : Nat :=
  (List.range 7).foldl (fun (acc : Nat × Nat) _ =>
    let sq := gfMul acc.1 acc.1
    (sq, gfMul acc.2 sq)) (a, 1) |>.2

/-- The stripe code's coefficient C[i][j] = 1 / (i ⊕ (8 + j)) (R167, R197). -/
def stripeCoef (i j : Nat) : Nat := gfInv (i ^^^ (8 + j))

/-- A byte of the AES S-box: inverse in GF(2^8) mod 0x11B and the affine map. -/
def aesSbox (a : Nat) : Nat :=
  let inv := (List.range 7).foldl (fun (acc : Nat × Nat) _ =>
    let sq := gf8MulIn 0x1B 8 acc.1 acc.1
    (sq, gf8MulIn 0x1B 8 acc.2 sq)) (a, 1) |>.2
  let rot := fun (n : Nat) => (inv * 2 ^ n) % 256 + inv / 2 ^ (8 - n)
  inv ^^^ rot 1 ^^^ rot 2 ^^^ rot 3 ^^^ rot 4 ^^^ 0x63

/-- The inverse S-box, by search. -/
def aesInvSbox (a : Nat) : Nat := ((List.range 256).find? fun x => aesSbox x = a).getD 0

/-- XOR of two lists of bytes as numbers. -/
def xorList (a b : List Nat) : List Nat := List.zipWith (fun x y => x ^^^ y) a b

/-- Words of the AES-256 key schedule, newest first, `n` more words after the 8 of the key. -/
def aesExpand : Nat → Nat → List (List Nat) → List (List Nat)
  | 0, _, ws => ws
  | n + 1, i, ws =>
    let t := ws.headD []
    let t' := if i % 8 = 0 then
        let r := (t.drop 1 ++ t.take 1).map aesSbox
        xorList r [(List.range (i / 8 - 1)).foldl (fun x _ => gf8MulIn 0x1B 8 x 2) 1, 0, 0, 0]
      else if i % 8 = 4 then t.map aesSbox else t
    aesExpand n (i + 1) (xorList (ws.getD 7 []) t' :: ws)

/-- The 4-byte words of a key. -/
def words4 : Nat → List Nat → List (List Nat)
  | 0, _ => []
  | n + 1, l => l.take 4 :: words4 n (l.drop 4)

/-- The 15 round keys of AES-256. -/
def aesRoundKeys (key : List Nat) : List (List Nat) :=
  let ws := (aesExpand 52 8 (words4 8 key).reverse).reverse
  (List.range 15).map fun r => ((ws.drop (4 * r)).take 4).flatten

/-- ShiftRows on a column-major state of 16 bytes. -/
def aesShift (s : List Nat) : List Nat := (List.range 16).map fun i => s.getD ((i + 4 * (i % 4)) % 16) 0

/-- The inverse of ShiftRows. -/
def aesUnshift (s : List Nat) : List Nat := (List.range 16).map fun i => s.getD ((i + 16 - 4 * (i % 4)) % 16) 0

/-- MixColumns by the circulant of four coefficients. -/
def aesMix (c : List Nat) (s : List Nat) : List Nat :=
  (List.range 16).map fun i =>
    (List.range 4).foldl (fun acc k => acc ^^^ gf8MulIn 0x1B 8 (s.getD (4 * (i / 4) + k) 0) (c.getD ((k + 4 - i % 4) % 4) 0)) 0

/-- AES-256 encryption of one block with expanded round keys. -/
def aesEnc (rk : List (List Nat)) (blk : List Nat) : List Nat :=
  let s := (List.range 13).foldl (fun s r =>
    xorList (aesMix [2, 3, 1, 1] (aesShift (s.map aesSbox))) (rk.getD (r + 1) [])) (xorList blk (rk.getD 0 []))
  xorList (aesShift (s.map aesSbox)) (rk.getD 14 [])

/-- AES-256 decryption of one block with expanded round keys. -/
def aesDec (rk : List (List Nat)) (blk : List Nat) : List Nat :=
  let s := (List.range 13).foldl (fun s r =>
    aesMix [14, 11, 13, 9] (xorList ((aesUnshift s).map aesInvSbox) (rk.getD (13 - r) []))) (xorList blk (rk.getD 14 []))
  xorList ((aesUnshift s).map aesInvSbox) (rk.getD 0 [])

/-- Multiplication of an XTS tweak by α (IEEE 1619), lowest byte first. -/
def xtsDouble (t : List Nat) : List Nat :=
  let n := joinBits 8 t
  splitBits 8 16 (if 2 ^ 127 ≤ n then (2 * n % 2 ^ 128) ^^^ 0x87 else 2 * n)

/-- XTS over `n` blocks with the cipher `f` and tweak `t`. -/
def xtsBlocks (f : List Nat → List Nat) : Nat → List Nat → List Nat → List Nat
  | 0, _, _ => []
  | n + 1, t, d => xorList (f (xorList (d.take 16) t)) t ++ xtsBlocks f n (xtsDouble t) (d.drop 16)

/-- The data unit number of a sector (R184). -/
def dataUnit (act band sect : Nat) : Nat := act * 2 ^ 37 + band * 2 ^ 13 + sect

/-- XTS-AES-256 of one data unit (R183): key 64 bytes, Key1 first; `enc` chooses the direction. -/
def xts (enc : Bool) (key : List Byte) (unit : Nat) (data : List Byte) : List Byte :=
  let k := key.map BitVec.toNat
  let rk1 := aesRoundKeys (k.take 32)
  let rk2 := aesRoundKeys (k.drop 32)
  let t := aesEnc rk2 (splitBits 8 16 unit)
  (xtsBlocks (if enc then aesEnc rk1 else aesDec rk1) (data.length / 16) t (data.map BitVec.toNat)).map (BitVec.ofNat 8)

end Sys2Proof.Machine
end

