-- ==== Sys2Proof/Machine/Regs.lean ====
section
/-! DEFINITION. The register fields of the package: one descriptor per field of the spec's register tables (name, place,
width, access code, reset value, version), the pages that hold them (R548) and the address of every unit page (R11). -/

namespace Sys2Proof.Machine

open Sys2Proof

/-- The access codes of R3. -/
inductive Acc where
  | ro | rw | wo | w1c | w1s | rc | rwl
  deriving DecidableEq, Repr

/-- Where a field's reset value comes from: a number, or one of the values that its table names in words. -/
inductive RstKind where
  | num | ylCeiling | vzCeiling | slFirst | ffe1 | bank0 | bank1 | iowWorld | fusedSeed
  deriving DecidableEq, Repr

/-- A register field: byte offset in its page, lowest bit, width, access (with /S), reset value, whether a warm reset
keeps it, the header version it appears in, the bit of the LOCK that governs an RWL field (64: none), and the byte
strides and counts of an array of copies. -/
structure Fld where
  off : Nat
  lo : Nat
  width : Nat
  acc : Acc
  sec : Bool := false
  rst : Nat := 0
  rk : RstKind := .num
  kept : Bool := false
  ver : Nat := 1
  lock : Nat := 64
  stride : Nat := 0
  count : Nat := 1
  stride2 : Nat := 0
  count2 : Nat := 1
  deriving DecidableEq, Repr

/-- The die slot of a unit (R12, R536, R537); 49 stands for the host views, which lie in no slot. -/
def unitSlot : UnitId → Nat
  | .tile p => p.val
  | .core p _ => p.val
  | .med m => 44 + m.val
  | .act a => 44 + a.val / 24
  | .keep => 48
  | .fn _ => 49
  | _ => 40

/-- The sub-unit number of a unit within its slot (R536, R537). -/
def unitSub : UnitId → Nat
  | .tile _ => 0 | .core _ c => 1 + c.val | .hub => 0 | .home k => 1 + k.val | .pcie k => 9 + k.val
  | .fnmgr => 11 | .headgate => 12 | .mbox => 13 | .stripe k => 14 + k.val | .key => 18 | .sweep => 19
  | .wmap => 20 | .iow => 21 | .irq => 22 | .rme => 23 | .mc k => 24 + k.val | .memmap => 32 | .xbar => 33
  | .therm => 34 | .aon => 35 | .pwr => 36 | .cfg => 37 | .stest => 38 | .err => 39 | .pmu => 40 | .trace => 41
  | .vz k => 0x100 + k.val | .med _ => 0 | .act a => 1 + a.val % 24 | .keep => 0 | .fn f => f.val

/-- The address of a unit page (R11). -/
def unitBase (u : UnitId) : Nat := 0x00F000000000 + unitSlot u * 0x100000000 + unitSub u * 0x10000

/-- The layout of a unit's page (R548). -/
def unitKind : UnitId → PageKind
  | .tile _ => .tile | .core _ _ => .core | .hub => .hub | .home _ => .home | .pcie _ => .pcie | .fnmgr => .fnmgr
  | .headgate => .headgate | .mbox => .mbox | .stripe _ => .stripe | .key => .key | .sweep => .sweep | .wmap => .wmap
  | .iow => .iow | .irq => .irq | .rme => .rme | .mc _ => .mc | .memmap => .memmap | .xbar => .xbar | .therm => .therm
  | .aon => .aon | .pwr => .pwr | .cfg => .cfg | .stest => .stest | .err => .err | .pmu => .pmu | .trace => .trace
  | .vz _ => .vz | .med _ => .die | .act _ => .act | .keep => .keep | .fn _ => .fn

/-- The unit whose page is sub-unit `k` of slot `n`, none where R535 says the page is vacant. -/
def unitAt (n k : Nat) : Option UnitId :=
  if h : n < 36 then
    if k = 0 then some (.tile ⟨n, h⟩) else if h' : k - 1 < 8 then some (.core ⟨n, h⟩ ⟨k - 1, h'⟩) else none
  else if n = 40 then
    if k = 0 then some .hub
    else if h : 1 ≤ k ∧ k < 9 then some (.home ⟨k - 1, by omega⟩)
    else if h : 9 ≤ k ∧ k < 11 then some (.pcie ⟨k - 9, by omega⟩)
    else if k = 11 then some .fnmgr else if k = 12 then some .headgate else if k = 13 then some .mbox
    else if h : 14 ≤ k ∧ k < 18 then some (.stripe ⟨k - 14, by omega⟩)
    else if k = 18 then some .key else if k = 19 then some .sweep else if k = 20 then some .wmap
    else if k = 21 then some .iow else if k = 22 then some .irq else if k = 23 then some .rme
    else if h : 24 ≤ k ∧ k < 32 then some (.mc ⟨k - 24, by omega⟩)
    else if k = 32 then some .memmap else if k = 33 then some .xbar else if k = 34 then some .therm
    else if k = 35 then some .aon else if k = 36 then some .pwr else if k = 37 then some .cfg
    else if k = 38 then some .stest else if k = 39 then some .err else if k = 40 then some .pmu
    else if k = 41 then some .trace
    else if h : 0x100 ≤ k ∧ k < 0x12D then some (.vz ⟨k - 0x100, by omega⟩)
    else none
  else if h : 44 ≤ n ∧ n < 48 then
    if k = 0 then some (.med ⟨n - 44, by omega⟩)
    else if h' : 1 ≤ k ∧ k < 25 then some (.act ⟨24 * (n - 44) + (k - 1), by omega⟩) else none
  else if n = 48 then (if k = 0 then some .keep else none)
  else none

/-- The package's Yelaz ceiling of a build's medium dies (R39), before VCAP. -/
def ylCeilingOf : Build → Nat
  | .b01 => 3
  | _ => 4

/-- The hub's Valiez ceiling in a build (R403), before VCAP. -/
def vzCeilingOf : Build → Nat
  | .b01 => 1
  | _ => 2

/-- The reset value of copy `i`, `j` of a field at unit `u`. -/
def resetAt (b : Build) (u : UnitId) (f : Fld) (i j : Nat) : Nat :=
  match f.rk with
  | .num => f.rst
  | .ylCeiling => ylCeilingOf b
  | .vzCeiling => vzCeilingOf b
  | .slFirst => match u with | .act a => 144 * (a.val % 24) | _ => 0
  | .ffe1 => if j = 7 then 0x2000 else 0
  | .bank0 => if j = 0 then 0x08000000 else 0x10000000
  | .bank1 => if j = 0 then 0xFA000000 else 0
  | .iowWorld => bit (decide (i = 11 ∨ i = 12))
  | .fusedSeed => Config.fusedSeed % 2 ^ 64

/-- The key of copy `i`, `j` of a field at unit `u`: eight times its byte address, plus its lowest bit. A copy number counts modulo
the number of copies, so that every key lies in the page of its unit. -/
def fldKey (u : UnitId) (f : Fld) (i j : Nat) : Nat :=
  8 * (unitBase u + f.off + f.stride * (i % f.count) + f.stride2 * (j % f.count2)) + f.lo

/-! Page `hdr`. -/

/-- R513. -/
def F.UNIT_ERR_CE : Fld := { off := 0x10, lo := 0, width := 1, acc := .w1c, kept := true }
/-- R513. -/
def F.UNIT_ERR_UE : Fld := { off := 0x10, lo := 1, width := 1, acc := .w1c, kept := true }
/-- R513. -/
def F.UNIT_ERR_DENIED : Fld := { off := 0x10, lo := 2, width := 1, acc := .w1c, kept := true }
/-- R513. -/
def F.UNIT_ERR_HWFAULT : Fld := { off := 0x10, lo := 3, width := 1, acc := .w1c, kept := true }
/-- R513. -/
def F.UNIT_ERR_FATAL : Fld := { off := 0x10, lo := 4, width := 1, acc := .ro, kept := true }
/-- R513. -/
def F.UNIT_ERR_CHILD : Fld := { off := 0x10, lo := 5, width := 1, acc := .ro }
/-- R513. -/
def F.UNIT_ERR_FIRST : Fld := { off := 0x10, lo := 8, width := 8, acc := .ro, kept := true }
/-- R513. -/
def F.UNIT_ERR_IEN : Fld := { off := 0x10, lo := 16, width := 1, acc := .rw }
/-- R513. -/
def F.UNIT_ERR_CNT : Fld := { off := 0x10, lo := 32, width := 16, acc := .ro, kept := true }
/-- R544. -/
def F.UNIT_READY_READY : Fld := { off := 0x8, lo := 0, width := 1, acc := .ro }
/-- R544. -/
def F.UNIT_READY_ALL : Fld := { off := 0x8, lo := 1, width := 1, acc := .ro }
/-- R540. -/
def F.UNIT_ID_KIND : Fld := { off := 0x0, lo := 0, width := 8, acc := .ro }
/-- R540. -/
def F.UNIT_ID_INDEX : Fld := { off := 0x0, lo := 8, width := 12, acc := .ro }
/-- R540. -/
def F.UNIT_ID_SLOT : Fld := { off := 0x0, lo := 20, width := 6, acc := .ro }
/-- R542. -/
def F.UNIT_VER_VER : Fld := { off := 0x4, lo := 0, width := 8, acc := .ro }
/-- R542. -/
def F.UNIT_VER_MAXVER : Fld := { off := 0x4, lo := 8, width := 8, acc := .ro }
/-- R542. -/
def F.UNIT_VER_STEP : Fld := { off := 0x4, lo := 16, width := 8, acc := .ro }
/-- R545. -/
def F.UNIT_PWR_STATE : Fld := { off := 0x18, lo := 0, width := 2, acc := .ro }
/-- R545. -/
def F.UNIT_PWR_DOMAIN : Fld := { off := 0x18, lo := 8, width := 6, acc := .ro }
/-- R546. -/
def F.UNIT_TEST_TIDX : Fld := { off := 0x20, lo := 0, width := 6, acc := .ro }
/-- R546. -/
def F.UNIT_TEST_OUTCOME : Fld := { off := 0x20, lo := 8, width := 8, acc := .ro }
/-- R546. -/
def F.UNIT_TEST_SUSPECT : Fld := { off := 0x20, lo := 16, width := 1, acc := .ro }
/-- R546. -/
def F.UNIT_TEST_RUN : Fld := { off := 0x20, lo := 32, width := 32, acc := .ro }
/-! Page `hub`. -/

/-- R22. -/
def F.PKG_IDENT_PART : Fld := { off := 0x40, lo := 0, width := 16, acc := .ro, rst := 0x9648 }
/-- R22. -/
def F.PKG_IDENT_BUILD : Fld := { off := 0x40, lo := 16, width := 8, acc := .ro }
/-- R23. -/
def F.PKG_STEP_HUB : Fld := { off := 0x48, lo := 0, width := 8, acc := .ro }
/-- R23. -/
def F.PKG_STEP_KEEP : Fld := { off := 0x48, lo := 8, width := 8, acc := .ro }
/-- R23. -/
def F.PKG_STEP_TILE_LO : Fld := { off := 0x48, lo := 16, width := 8, acc := .ro }
/-- R23. -/
def F.PKG_STEP_TILE_HI : Fld := { off := 0x48, lo := 24, width := 8, acc := .ro }
/-- R23. -/
def F.PKG_STEP_MED_LO : Fld := { off := 0x48, lo := 32, width := 8, acc := .ro }
/-- R23. -/
def F.PKG_STEP_MED_HI : Fld := { off := 0x48, lo := 40, width := 8, acc := .ro }
/-- R23. -/
def F.PKG_STEP_MIX : Fld := { off := 0x48, lo := 48, width := 1, acc := .ro }
/-- R549. -/
def F.PKG_FEAT_VZ : Fld := { off := 0x50, lo := 0, width := 3, acc := .ro }
/-- R549. -/
def F.PKG_FEAT_YL : Fld := { off := 0x50, lo := 4, width := 3, acc := .ro }
/-- R549. -/
def F.PKG_FEAT_QP : Fld := { off := 0x50, lo := 8, width := 3, acc := .ro }
/-! Page `act`. -/

/-- R54. -/
def F.YL_CTRL_EN : Fld := { off := 0x40, lo := 0, width := 1, acc := .rw }
/-- R54. -/
def F.YL_CTRL_RETRAIN : Fld := { off := 0x40, lo := 1, width := 1, acc := .wo }
/-- R54. -/
def F.YL_CTRL_RETRACT : Fld := { off := 0x40, lo := 2, width := 1, acc := .wo }
/-- R54. -/
def F.YL_CTRL_SLEEP : Fld := { off := 0x40, lo := 3, width := 1, acc := .rw, ver := 2 }
/-- R54. -/
def F.YL_CTRL_VCAP : Fld := { off := 0x40, lo := 4, width := 3, acc := .rw, rk := .ylCeiling }
/-- R55. -/
def F.YL_STAT_STATE : Fld := { off := 0x44, lo := 0, width := 4, acc := .ro }
/-- R55. -/
def F.YL_STAT_VER : Fld := { off := 0x44, lo := 4, width := 3, acc := .ro }
/-- R55. -/
def F.YL_STAT_BRIDGE : Fld := { off := 0x44, lo := 7, width := 1, acc := .ro }
/-- R55. -/
def F.YL_STAT_READERS : Fld := { off := 0x44, lo := 8, width := 2, acc := .ro }
/-- R55. -/
def F.YL_STAT_PARKED : Fld := { off := 0x44, lo := 10, width := 1, acc := .ro }
/-- R55. -/
def F.YL_STAT_HB_RUN : Fld := { off := 0x44, lo := 11, width := 1, acc := .ro }
/-- R55. -/
def F.YL_STAT_HEAD : Fld := { off := 0x44, lo := 12, width := 4, acc := .ro }
/-- R55. -/
def F.YL_STAT_TRIES : Fld := { off := 0x44, lo := 16, width := 2, acc := .ro }
/-- R56. -/
def F.YL_EVT_UP : Fld := { off := 0x48, lo := 0, width := 1, acc := .w1c, kept := true }
/-- R56. -/
def F.YL_EVT_DOWN : Fld := { off := 0x48, lo := 1, width := 1, acc := .w1c, kept := true }
/-- R56. -/
def F.YL_EVT_FAILED : Fld := { off := 0x48, lo := 2, width := 1, acc := .w1c, kept := true }
/-- R56. -/
def F.YL_EVT_REJECT : Fld := { off := 0x48, lo := 3, width := 1, acc := .w1c, kept := true }
/-- R56. -/
def F.YL_EVT_FAULT : Fld := { off := 0x48, lo := 4, width := 1, acc := .w1c, kept := true }
/-- R56. -/
def F.YL_EVT_WABORT : Fld := { off := 0x48, lo := 5, width := 1, acc := .w1c, kept := true }
/-- R56. -/
def F.YL_EVT_RETRACTED : Fld := { off := 0x48, lo := 6, width := 1, acc := .w1c, kept := true }
/-- R56. -/
def F.YL_EVT_SB_LOST : Fld := { off := 0x48, lo := 7, width := 1, acc := .w1c, kept := true }
/-- R56. -/
def F.YL_EVT_SB_RX : Fld := { off := 0x48, lo := 8, width := 1, acc := .w1c, kept := true }
/-- R56. -/
def F.YL_EVT_SHOCK : Fld := { off := 0x48, lo := 9, width := 1, acc := .w1c, kept := true }
/-- R56. -/
def F.YL_EVT_EN_UP : Fld := { off := 0x4C, lo := 0, width := 1, acc := .rw }
/-- R56. -/
def F.YL_EVT_EN_DOWN : Fld := { off := 0x4C, lo := 1, width := 1, acc := .rw }
/-- R56. -/
def F.YL_EVT_EN_FAILED : Fld := { off := 0x4C, lo := 2, width := 1, acc := .rw }
/-- R56. -/
def F.YL_EVT_EN_REJECT : Fld := { off := 0x4C, lo := 3, width := 1, acc := .rw }
/-- R56. -/
def F.YL_EVT_EN_FAULT : Fld := { off := 0x4C, lo := 4, width := 1, acc := .rw }
/-- R56. -/
def F.YL_EVT_EN_WABORT : Fld := { off := 0x4C, lo := 5, width := 1, acc := .rw }
/-- R56. -/
def F.YL_EVT_EN_RETRACTED : Fld := { off := 0x4C, lo := 6, width := 1, acc := .rw }
/-- R56. -/
def F.YL_EVT_EN_SB_LOST : Fld := { off := 0x4C, lo := 7, width := 1, acc := .rw }
/-- R56. -/
def F.YL_EVT_EN_SB_RX : Fld := { off := 0x4C, lo := 8, width := 1, acc := .rw }
/-- R56. -/
def F.YL_EVT_EN_SHOCK : Fld := { off := 0x4C, lo := 9, width := 1, acc := .rw }
/-- R57. -/
def F.YL_BRIDGE_VENDOR : Fld := { off := 0x50, lo := 0, width := 16, acc := .ro }
/-- R57. -/
def F.YL_BRIDGE_MODEL : Fld := { off := 0x50, lo := 16, width := 16, acc := .ro }
/-- R57. -/
def F.YL_BRIDGE_VMIN : Fld := { off := 0x50, lo := 32, width := 4, acc := .ro }
/-- R57. -/
def F.YL_BRIDGE_VMAX : Fld := { off := 0x50, lo := 36, width := 4, acc := .ro }
/-- R57. -/
def F.YL_BRIDGE_NREAD : Fld := { off := 0x50, lo := 40, width := 2, acc := .ro }
/-- R57. -/
def F.YL_BRIDGE_HEADS : Fld := { off := 0x50, lo := 42, width := 4, acc := .ro }
/-- R57. -/
def F.YL_BRIDGE_WLAT : Fld := { off := 0x50, lo := 48, width := 8, acc := .ro }
/-- R57. -/
def F.YL_BRIDGE_BREV : Fld := { off := 0x50, lo := 56, width := 8, acc := .ro }
/-- R57. -/
def F.YL_SERIAL : Fld := { off := 0x58, lo := 0, width := 64, acc := .ro }
/-- R58. -/
def F.YL_TXEQ_PRE : Fld := { off := 0x100, lo := 0, width := 6, acc := .rw, rst := 0x4 }
/-- R58. -/
def F.YL_TXEQ_MAIN : Fld := { off := 0x100, lo := 8, width := 6, acc := .rw, rst := 0x30 }
/-- R58. -/
def F.YL_TXEQ_POST : Fld := { off := 0x100, lo := 16, width := 6, acc := .rw, rst := 0x8 }
/-- R58. -/
def F.YL_RTT_RTT : Fld := { off := 0x108, lo := 0, width := 11, acc := .ro }
/-- R58. -/
def F.YL_FEC_CORR : Fld := { off := 0x110, lo := 0, width := 32, acc := .rc }
/-- R58. -/
def F.YL_FEC_UNCORR : Fld := { off := 0x110, lo := 32, width := 16, acc := .rc }
/-- R58. -/
def F.YL_FEC_WABORT_DISC : Fld := { off := 0x110, lo := 48, width := 16, acc := .rc }
/-- R58. -/
def F.YL_LOSS_LOSS_FRAMES : Fld := { off := 0x118, lo := 0, width := 8, acc := .rw, rst := 0x40 }
/-- R58. -/
def F.YL_LOSS_TEST_CORR : Fld := { off := 0x118, lo := 8, width := 16, acc := .rw, rst := 0x3E8 }
/-- R58. -/
def F.YL_SB_TXC_TX_OP : Fld := { off := 0x120, lo := 0, width := 8, acc := .rw }
/-- R58. -/
def F.YL_SB_TXC_GO : Fld := { off := 0x120, lo := 8, width := 1, acc := .w1s }
/-- R58. -/
def F.YL_SB_TXC_FAIL : Fld := { off := 0x120, lo := 9, width := 1, acc := .ro }
/-- R58. -/
def F.YL_SB_TXC_TX_STAT : Fld := { off := 0x120, lo := 16, width := 8, acc := .ro }
/-- R58. -/
def F.YL_SB_TXD_TXD : Fld := { off := 0x128, lo := 0, width := 64, acc := .rw }
/-- R58. -/
def F.YL_SB_RXC_RX_OP : Fld := { off := 0x130, lo := 0, width := 8, acc := .ro }
/-- R58. -/
def F.YL_SB_RXC_FULL : Fld := { off := 0x130, lo := 8, width := 1, acc := .w1c }
/-- R58. -/
def F.YL_SB_RXD_RXD : Fld := { off := 0x138, lo := 0, width := 64, acc := .ro }
/-- R89. -/
def F.CH_RQ_CFG_LOG2N : Fld := { off := 0x68, lo := 0, width := 4, acc := .rw }
/-- R89. -/
def F.CH_RQ_CFG_BASE : Fld := { off := 0x68, lo := 12, width := 40, acc := .rw }
/-- R89. -/
def F.CH_CQ_CFG_LOG2N : Fld := { off := 0x70, lo := 0, width := 4, acc := .rw }
/-- R89. -/
def F.CH_CQ_CFG_BASE : Fld := { off := 0x70, lo := 12, width := 40, acc := .rw }
/-- R89. -/
def F.CH_SOFT_CFG_LOG2N : Fld := { off := 0x78, lo := 0, width := 4, acc := .rw }
/-- R89. -/
def F.CH_SOFT_CFG_BASE : Fld := { off := 0x78, lo := 12, width := 40, acc := .rw }
/-- R90. -/
def F.CH_CTRL_EN : Fld := { off := 0x80, lo := 0, width := 1, acc := .rw }
/-- R90. -/
def F.CH_CTRL_PAUSE : Fld := { off := 0x80, lo := 1, width := 1, acc := .rw }
/-- R90. -/
def F.CH_CTRL_ADAPT : Fld := { off := 0x80, lo := 2, width := 1, acc := .rw, rst := 0x1 }
/-- R90. -/
def F.CH_CTRL_WBACK : Fld := { off := 0x80, lo := 3, width := 1, acc := .rw, ver := 2 }
/-- R90. -/
def F.CH_CTRL_LADDER : Fld := { off := 0x80, lo := 4, width := 3, acc := .rw, rst := 0x2 }
/-- R90. -/
def F.CH_CTRL_DEEP : Fld := { off := 0x80, lo := 7, width := 1, acc := .rw, rst := 0x1 }
/-- R91. -/
def F.CH_STAT_IDLE : Fld := { off := 0x84, lo := 0, width := 1, acc := .ro, rst := 0x1 }
/-- R91. -/
def F.CH_STAT_MODE : Fld := { off := 0x84, lo := 1, width := 2, acc := .ro }
/-- R91. -/
def F.CH_STAT_ACTIVE : Fld := { off := 0x84, lo := 3, width := 3, acc := .ro }
/-- R91. -/
def F.CH_STAT_MEDIUM : Fld := { off := 0x84, lo := 6, width := 1, acc := .ro }
/-- R91. -/
def F.CH_STAT_CANCEL_FULL : Fld := { off := 0x84, lo := 7, width := 1, acc := .ro }
/-- R92. -/
def F.CH_EVT_CQ : Fld := { off := 0x88, lo := 0, width := 1, acc := .w1c, kept := true }
/-- R92. -/
def F.CH_EVT_UNCORR : Fld := { off := 0x88, lo := 1, width := 1, acc := .w1c, kept := true }
/-- R92. -/
def F.CH_EVT_SOFT_DROP : Fld := { off := 0x88, lo := 2, width := 1, acc := .w1c, kept := true }
/-- R92. -/
def F.CH_EVT_CFG_ERR : Fld := { off := 0x88, lo := 3, width := 1, acc := .w1c, kept := true }
/-- R92. -/
def F.CH_EVT_BAD_ENTRY : Fld := { off := 0x88, lo := 4, width := 1, acc := .w1c, kept := true }
/-- R92. -/
def F.CH_EVT_TAGCHK : Fld := { off := 0x88, lo := 5, width := 1, acc := .w1c, kept := true }
/-- R92. -/
def F.CH_EVT_EN_CQ : Fld := { off := 0x8C, lo := 0, width := 1, acc := .rw }
/-- R92. -/
def F.CH_EVT_EN_UNCORR : Fld := { off := 0x8C, lo := 1, width := 1, acc := .rw }
/-- R92. -/
def F.CH_EVT_EN_SOFT_DROP : Fld := { off := 0x8C, lo := 2, width := 1, acc := .rw }
/-- R92. -/
def F.CH_EVT_EN_CFG_ERR : Fld := { off := 0x8C, lo := 3, width := 1, acc := .rw }
/-- R92. -/
def F.CH_EVT_EN_BAD_ENTRY : Fld := { off := 0x8C, lo := 4, width := 1, acc := .rw }
/-- R92. -/
def F.CH_EVT_EN_TAGCHK : Fld := { off := 0x8C, lo := 5, width := 1, acc := .rw }
/-- R93. -/
def F.CH_RQ_TAIL : Fld := { off := 0x90, lo := 0, width := 16, acc := .rw }
/-- R93. -/
def F.CH_RQ_HEAD : Fld := { off := 0x90, lo := 16, width := 16, acc := .ro }
/-- R93. -/
def F.CH_CQ_TAIL : Fld := { off := 0x94, lo := 0, width := 16, acc := .ro }
/-- R93. -/
def F.CH_CQ_HEAD : Fld := { off := 0x94, lo := 16, width := 16, acc := .rw }
/-- R93. -/
def F.CH_SOFT_TAIL : Fld := { off := 0x98, lo := 0, width := 16, acc := .ro }
/-- R93. -/
def F.CH_SOFT_HEAD : Fld := { off := 0x98, lo := 16, width := 16, acc := .rw }
/-- R93. -/
def F.CH_CANCEL : Fld := { off := 0x9C, lo := 0, width := 16, acc := .wo }
/-- R94. -/
def F.CH_DEC_LOCAL_MAX : Fld := { off := 0x140, lo := 0, width := 4, acc := .rw, rst := 0x8 }
/-- R94. -/
def F.CH_DEC_DEEP_LOCAL : Fld := { off := 0x140, lo := 4, width := 6, acc := .rw, rst := 0x14 }
/-- R94. -/
def F.CH_DEC_DEEP_GLOBAL : Fld := { off := 0x140, lo := 10, width := 3, acc := .rw, rst := 0x4 }
/-- R94. -/
def F.CH_DEC_ESTOP : Fld := { off := 0x140, lo := 16, width := 1, acc := .rw, rst := 0x1 }
/-- R94. -/
def F.CH_SYNC_TOL : Fld := { off := 0x148, lo := 0, width := 4, acc := .rw, rst := 0x6 }
/-- R94. -/
def F.CH_SYNC_WIN : Fld := { off := 0x148, lo := 16, width := 16, acc := .rw, rst := 0x40 }
/-- R95. -/
def F.CH_CNT_GOOD : Fld := { off := 0x160, lo := 0, width := 32, acc := .rc }
/-- R95. -/
def F.CH_CNT_RECOV : Fld := { off := 0x164, lo := 0, width := 32, acc := .rc }
/-- R95. -/
def F.CH_CNT_UNCORR : Fld := { off := 0x168, lo := 0, width := 32, acc := .rc }
/-- R95. -/
def F.CH_CNT_REREAD : Fld := { off := 0x16C, lo := 0, width := 32, acc := .rc }
/-- R95. -/
def F.CH_CNT_DEEP : Fld := { off := 0x170, lo := 0, width := 32, acc := .rc }
/-- R95. -/
def F.CH_CNT_MISCORR : Fld := { off := 0x174, lo := 0, width := 32, acc := .rc }
/-- R95. -/
def F.CH_CNT_NOSYNC : Fld := { off := 0x178, lo := 0, width := 32, acc := .rc }
/-- R95. -/
def F.CH_CNT_RWAIT : Fld := { off := 0x17C, lo := 0, width := 32, acc := .rc }
/-- R95. -/
def F.CH_CNT_WBLOST : Fld := { off := 0x180, lo := 0, width := 32, acc := .rc }
/-- R95. -/
def F.CH_CNT_ERASED : Fld := { off := 0x184, lo := 0, width := 32, acc := .rc }
/-- R96. -/
def F.ZSET_RATE : Fld := { off := 0x1000, lo := 0, width := 16, acc := .rw, rst := 0x960, kept := true, stride := 0x100, count := 64 }
/-- R96. -/
def F.ZSET_JOINT : Fld := { off := 0x1000, lo := 16, width := 1, acc := .rw, kept := true, stride := 0x100, count := 64 }
/-- R96. -/
def F.ZSET_TGT_ADAPT : Fld := { off := 0x1000, lo := 17, width := 1, acc := .rw, kept := true, stride := 0x100, count := 64 }
/-- R96. -/
def F.ZSET_DLY_L : Fld := { off := 0x1004, lo := 0, width := 16, acc := .rw, kept := true, stride := 0x100, count := 64 }
/-- R96. -/
def F.ZSET_DLY_C : Fld := { off := 0x1004, lo := 16, width := 16, acc := .rw, kept := true, stride := 0x100, count := 64 }
/-- R96. -/
def F.ZSET_TARGET : Fld := { off := 0x1070, lo := 0, width := 40, acc := .rw, rst := 0xC2820, kept := true, stride := 0x100, count := 64 }
/-- R96. -/
def F.ZSET_MU_FFE : Fld := { off := 0x1078, lo := 0, width := 4, acc := .rw, rst := 0xA, kept := true, stride := 0x100, count := 64 }
/-- R96. -/
def F.ZSET_MU_TGT : Fld := { off := 0x1078, lo := 4, width := 4, acc := .rw, rst := 0xC, kept := true, stride := 0x100, count := 64 }
/-- R96. -/
def F.ZSET_KP_ACQ : Fld := { off := 0x1080, lo := 0, width := 4, acc := .rw, rst := 0x3, kept := true, stride := 0x100, count := 64 }
/-- R96. -/
def F.ZSET_KI_ACQ : Fld := { off := 0x1080, lo := 4, width := 4, acc := .rw, rst := 0x7, kept := true, stride := 0x100, count := 64 }
/-- R96. -/
def F.ZSET_KP_TRK : Fld := { off := 0x1080, lo := 8, width := 4, acc := .rw, rst := 0x5, kept := true, stride := 0x100, count := 64 }
/-- R96. -/
def F.ZSET_KI_TRK : Fld := { off := 0x1080, lo := 12, width := 4, acc := .rw, rst := 0xA, kept := true, stride := 0x100, count := 64 }
/-- R96. -/
def F.ZSET_ACQ_LEN : Fld := { off := 0x1080, lo := 16, width := 16, acc := .rw, rst := 0xC0, kept := true, stride := 0x100, count := 64 }
/-- R96. -/
def F.ZSET_LLR_SCALE : Fld := { off := 0x10B8, lo := 0, width := 8, acc := .rw, rst := 0x8, kept := true, stride := 0x100, count := 64 }
/-- R96. -/
def F.ZSET_FFE0 : Fld := { off := 0x1010, lo := 0, width := 16, acc := .rw, kept := true, stride := 0x100, count := 64, stride2 := 0x2, count2 := 16 }
/-- R96. -/
def F.ZSET_FFE1 : Fld := { off := 0x1030, lo := 0, width := 16, acc := .rw, rk := .ffe1, kept := true, stride := 0x100, count := 64, stride2 := 0x2, count2 := 16 }
/-- R96. -/
def F.ZSET_FFE2 : Fld := { off := 0x1050, lo := 0, width := 16, acc := .rw, kept := true, stride := 0x100, count := 64, stride2 := 0x2, count2 := 16 }
/-- R96. -/
def F.ZSET_NP : Fld := { off := 0x1088, lo := 0, width := 8, acc := .rw, kept := true, stride := 0x100, count := 64, stride2 := 0x1, count2 := 48 }
/-- R122. -/
def F.SV_CTRL_EN : Fld := { off := 0xA0, lo := 0, width := 1, acc := .rw }
/-- R122. -/
def F.SV_CTRL_AUTO_TRIM : Fld := { off := 0xA0, lo := 1, width := 1, acc := .rw, rst := 0x1 }
/-- R123. -/
def F.SV_CMD_OP : Fld := { off := 0xA8, lo := 0, width := 4, acc := .wo }
/-- R123. -/
def F.SV_CMD_PROF : Fld := { off := 0xA8, lo := 4, width := 3, acc := .wo }
/-- R123. -/
def F.SV_CMD_HEAD : Fld := { off := 0xA8, lo := 8, width := 4, acc := .wo }
/-- R123. -/
def F.SV_CMD_TRACK : Fld := { off := 0xA8, lo := 12, width := 24, acc := .wo }
/-- R123. -/
def F.SV_CMD_OFFSET : Fld := { off := 0xA8, lo := 36, width := 16, acc := .wo }
/-- R124. -/
def F.SV_STAT_STATE : Fld := { off := 0xB0, lo := 0, width := 4, acc := .ro }
/-- R124. -/
def F.SV_STAT_HEAD : Fld := { off := 0xB0, lo := 4, width := 4, acc := .ro }
/-- R124. -/
def F.SV_STAT_ONTRACK : Fld := { off := 0xB0, lo := 8, width := 1, acc := .ro }
/-- R124. -/
def F.SV_STAT_WRITE_OK : Fld := { off := 0xB0, lo := 9, width := 1, acc := .ro }
/-- R124. -/
def F.SV_STAT_BUSY : Fld := { off := 0xB0, lo := 10, width := 1, acc := .ro }
/-- R124. -/
def F.SV_STAT_SPIN_BUSY : Fld := { off := 0xB0, lo := 11, width := 1, acc := .ro }
/-- R124. -/
def F.SV_STAT_SPIN : Fld := { off := 0xB0, lo := 12, width := 2, acc := .ro }
/-- R124. -/
def F.SV_STAT_LOCK : Fld := { off := 0xB0, lo := 14, width := 1, acc := .ro }
/-- R124. -/
def F.SV_STAT_GATE_LOCK : Fld := { off := 0xB0, lo := 15, width := 1, acc := .ro }
/-- R124. -/
def F.SV_STAT_TRACK : Fld := { off := 0xB0, lo := 16, width := 24, acc := .ro }
/-- R124. -/
def F.SV_STAT_WEDGE : Fld := { off := 0xB0, lo := 40, width := 10, acc := .ro }
/-- R124. -/
def F.SV_STAT_PRED : Fld := { off := 0xB0, lo := 50, width := 1, acc := .ro }
/-- R125. -/
def F.SV_RESULT_RESULT : Fld := { off := 0xB8, lo := 0, width := 8, acc := .ro }
/-- R125. -/
def F.SV_RESULT_OP : Fld := { off := 0xB8, lo := 8, width := 4, acc := .ro }
/-- R125. -/
def F.SV_PES : Fld := { off := 0xC0, lo := 0, width := 16, acc := .ro }
/-- R126. -/
def F.SV_EVT_DONE : Fld := { off := 0xC8, lo := 0, width := 1, acc := .w1c, kept := true }
/-- R126. -/
def F.SV_EVT_SERVO_LOST : Fld := { off := 0xC8, lo := 1, width := 1, acc := .w1c, kept := true }
/-- R126. -/
def F.SV_EVT_LINK_LOST : Fld := { off := 0xC8, lo := 2, width := 1, acc := .w1c, kept := true }
/-- R126. -/
def F.SV_EVT_SHOCK_HOLD : Fld := { off := 0xC8, lo := 3, width := 1, acc := .w1c, kept := true }
/-- R126. -/
def F.SV_EVT_SPIN_TMO : Fld := { off := 0xC8, lo := 4, width := 1, acc := .w1c, kept := true }
/-- R126. -/
def F.SV_EVT_WR_DROP : Fld := { off := 0xC8, lo := 5, width := 1, acc := .w1c, kept := true }
/-- R126. -/
def F.SV_EVT_LATE : Fld := { off := 0xC8, lo := 6, width := 1, acc := .w1c, kept := true }
/-- R126. -/
def F.SV_EVT_EN_DONE : Fld := { off := 0xCC, lo := 0, width := 1, acc := .rw }
/-- R126. -/
def F.SV_EVT_EN_SERVO_LOST : Fld := { off := 0xCC, lo := 1, width := 1, acc := .rw }
/-- R126. -/
def F.SV_EVT_EN_LINK_LOST : Fld := { off := 0xCC, lo := 2, width := 1, acc := .rw }
/-- R126. -/
def F.SV_EVT_EN_SHOCK_HOLD : Fld := { off := 0xCC, lo := 3, width := 1, acc := .rw }
/-- R126. -/
def F.SV_EVT_EN_SPIN_TMO : Fld := { off := 0xCC, lo := 4, width := 1, acc := .rw }
/-- R126. -/
def F.SV_EVT_EN_WR_DROP : Fld := { off := 0xCC, lo := 5, width := 1, acc := .rw }
/-- R126. -/
def F.SV_EVT_EN_LATE : Fld := { off := 0xCC, lo := 6, width := 1, acc := .rw }
/-- R127. -/
def F.SV_WIN_WR_WIN : Fld := { off := 0x200, lo := 0, width := 8, acc := .rw, rst := 0x1A }
/-- R127. -/
def F.SV_WIN_RD_WIN : Fld := { off := 0x200, lo := 8, width := 8, acc := .rw, rst := 0x33 }
/-- R127. -/
def F.SV_WIN_LOST_MAX : Fld := { off := 0x200, lo := 16, width := 4, acc := .rw, rst := 0x4 }
/-- R127. -/
def F.SV_WIN_SHOCK_HOLD : Fld := { off := 0x200, lo := 24, width := 8, acc := .rw, rst := 0x8 }
/-- R127. -/
def F.SV_SHOCK_SHOCK_THR : Fld := { off := 0x204, lo := 0, width := 8, acc := .rw, rst := 0x40, ver := 3 }
/-- R127. -/
def F.SV_SHOCK_TRIM_THR : Fld := { off := 0x204, lo := 8, width := 8, acc := .rw, rst := 0x10 }
/-- R127. -/
def F.SV_SHOCK_SETTLE_MAX : Fld := { off := 0x204, lo := 24, width := 8, acc := .rw, rst := 0x40 }
/-- R127. -/
def F.SV_FIELD_SAM : Fld := { off := 0x208, lo := 0, width := 16, acc := .rw, rst := 0xF53A }
/-- R127. -/
def F.SV_FIELD_TID_BITS : Fld := { off := 0x208, lo := 16, width := 5, acc := .rw, rst := 0x14 }
/-- R127. -/
def F.SV_FIELD_SBIT : Fld := { off := 0x208, lo := 21, width := 3, acc := .rw, rst := 0x4 }
/-- R127. -/
def F.SV_FIELD_BLEN : Fld := { off := 0x208, lo := 24, width := 8, acc := .rw, rst := 0x28 }
/-- R127. -/
def F.SV_FIELD_GATE_LEN : Fld := { off := 0x208, lo := 32, width := 16, acc := .rw, rst := 0x9C4 }
/-- R127. -/
def F.SV_FIELD_PES_GAIN : Fld := { off := 0x208, lo := 48, width := 16, acc := .rw, rst := 0x100 }
/-- R127. -/
def F.SV_LIM_VCM_LIM : Fld := { off := 0x210, lo := 0, width := 16, acc := .rw, rst := 0x4000 }
/-- R127. -/
def F.SV_LIM_MA_LIM : Fld := { off := 0x210, lo := 16, width := 16, acc := .rw, rst := 0x4000, ver := 3 }
/-- R127. -/
def F.SV_LIM_BANK : Fld := { off := 0x210, lo := 32, width := 1, acc := .ro }
/-- R127. -/
def F.SV_LIM_SWAP : Fld := { off := 0x210, lo := 33, width := 1, acc := .w1s }
/-- R127. -/
def F.SV_SAM_OFF : Fld := { off := 0x218, lo := 0, width := 16, acc := .ro }
/-- R127. -/
def F.SV_SAM_NOM : Fld := { off := 0x218, lo := 16, width := 16, acc := .rw, rst := 0x80 }
/-- R127. -/
def F.SV_CNT_LOST : Fld := { off := 0x220, lo := 0, width := 32, acc := .rc }
/-- R127. -/
def F.SV_CNT_LATE : Fld := { off := 0x224, lo := 0, width := 32, acc := .rc }
/-- R127. -/
def F.SV_CNT_SHOCK : Fld := { off := 0x228, lo := 0, width := 32, acc := .rc }
/-- R127. -/
def F.SV_CNT_WRDROP : Fld := { off := 0x22C, lo := 0, width := 32, acc := .rc }
/-- R127. -/
def F.SV_CNT_TRIM : Fld := { off := 0x230, lo := 0, width := 32, acc := .rc }
/-- R127. -/
def F.PROF_A_ACC : Fld := { off := 0x300, lo := 0, width := 16, acc := .rw, rst := 0x200, kept := true, stride := 0x20, count := 8 }
/-- R127. -/
def F.PROF_A_DEC : Fld := { off := 0x300, lo := 16, width := 16, acc := .rw, rst := 0x200, kept := true, stride := 0x20, count := 8 }
/-- R127. -/
def F.PROF_V_MAX : Fld := { off := 0x304, lo := 0, width := 16, acc := .rw, rst := 0x640, kept := true, stride := 0x20, count := 8 }
/-- R127. -/
def F.PROF_SETTLE_N : Fld := { off := 0x304, lo := 16, width := 4, acc := .rw, rst := 0x4, kept := true, stride := 0x20, count := 8 }
/-- R127. -/
def F.PROF_SETTLE_WIN : Fld := { off := 0x308, lo := 0, width := 8, acc := .rw, rst := 0xD, kept := true, stride := 0x20, count := 8 }
/-- R128. -/
def F.BANK_b0 : Fld := { off := 0x5000, lo := 0, width := 32, acc := .rw, rk := .bank0, kept := true, stride := 0x100, count := 2, stride2 := 0x14, count2 := 12 }
/-- R128. -/
def F.BANK_b1 : Fld := { off := 0x5004, lo := 0, width := 32, acc := .rw, rk := .bank1, kept := true, stride := 0x100, count := 2, stride2 := 0x14, count2 := 12 }
/-- R128. -/
def F.BANK_b2 : Fld := { off := 0x5008, lo := 0, width := 32, acc := .rw, kept := true, stride := 0x100, count := 2, stride2 := 0x14, count2 := 12 }
/-- R128. -/
def F.BANK_a1 : Fld := { off := 0x500C, lo := 0, width := 32, acc := .rw, kept := true, stride := 0x100, count := 2, stride2 := 0x14, count2 := 12 }
/-- R128. -/
def F.BANK_a2 : Fld := { off := 0x5010, lo := 0, width := 32, acc := .rw, kept := true, stride := 0x100, count := 2, stride2 := 0x14, count2 := 12 }
/-- R128. -/
def F.BANK_KFF : Fld := { off := 0x50F0, lo := 0, width := 32, acc := .rw, kept := true, stride := 0x100, count := 2 }
/-- R128. -/
def F.BANK_BIAS : Fld := { off := 0x50F4, lo := 0, width := 32, acc := .rw, kept := true, stride := 0x100, count := 2 }
/-- R128. -/
def F.RRO : Fld := { off := 0x5200, lo := 0, width := 16, acc := .rw, kept := true, stride := 0x2, count := 8640 }
/-- R161. -/
def F.SL_CTRL_EN : Fld := { off := 0xD0, lo := 0, width := 1, acc := .rw }
/-- R161. -/
def F.SL_CTRL_PAUSE : Fld := { off := 0xD0, lo := 1, width := 1, acc := .rw }
/-- R161. -/
def F.SL_CTRL_VMODE : Fld := { off := 0xD0, lo := 2, width := 1, acc := .rw }
/-- R161. -/
def F.SL_CTRL_SLIP_MAX : Fld := { off := 0xD0, lo := 4, width := 4, acc := .rw, rst := 0x3 }
/-- R161. -/
def F.SL_CTRL_REWRITE_MAX : Fld := { off := 0xD0, lo := 8, width := 3, acc := .rw, rst := 0x2 }
/-- R162. -/
def F.SL_STAT_IDLE : Fld := { off := 0xD4, lo := 0, width := 1, acc := .ro, rst := 0x1 }
/-- R162. -/
def F.SL_STAT_WRITING : Fld := { off := 0xD4, lo := 1, width := 1, acc := .ro }
/-- R162. -/
def F.SL_STAT_FILLING : Fld := { off := 0xD4, lo := 2, width := 1, acc := .ro }
/-- R162. -/
def F.SL_STAT_JWAIT : Fld := { off := 0xD4, lo := 3, width := 1, acc := .ro }
/-- R162. -/
def F.SL_STAT_ENTRIES : Fld := { off := 0xD4, lo := 4, width := 9, acc := .ro }
/-- R162. -/
def F.SL_STAT_FREE : Fld := { off := 0xD4, lo := 13, width := 12, acc := .ro }
/-- R163. -/
def F.SL_EVT_CQ : Fld := { off := 0xD8, lo := 0, width := 1, acc := .w1c, kept := true }
/-- R163. -/
def F.SL_EVT_SLIP_LIMIT : Fld := { off := 0xD8, lo := 1, width := 1, acc := .w1c, kept := true }
/-- R163. -/
def F.SL_EVT_REWRITE_LIMIT : Fld := { off := 0xD8, lo := 2, width := 1, acc := .w1c, kept := true }
/-- R163. -/
def F.SL_EVT_CFG_ERR : Fld := { off := 0xD8, lo := 3, width := 1, acc := .w1c, kept := true }
/-- R163. -/
def F.SL_EVT_BAD_ENTRY : Fld := { off := 0xD8, lo := 4, width := 1, acc := .w1c, kept := true }
/-- R163. -/
def F.SL_EVT_JFULL : Fld := { off := 0xD8, lo := 5, width := 1, acc := .w1c, kept := true }
/-- R163. -/
def F.SL_EVT_RATE_REFUSED : Fld := { off := 0xD8, lo := 6, width := 1, acc := .w1c, kept := true }
/-- R163. -/
def F.SL_EVT_VFAIL : Fld := { off := 0xD8, lo := 7, width := 1, acc := .w1c, kept := true }
/-- R163. -/
def F.SL_EVT_EN_CQ : Fld := { off := 0xDC, lo := 0, width := 1, acc := .rw }
/-- R163. -/
def F.SL_EVT_EN_SLIP_LIMIT : Fld := { off := 0xDC, lo := 1, width := 1, acc := .rw }
/-- R163. -/
def F.SL_EVT_EN_REWRITE_LIMIT : Fld := { off := 0xDC, lo := 2, width := 1, acc := .rw }
/-- R163. -/
def F.SL_EVT_EN_CFG_ERR : Fld := { off := 0xDC, lo := 3, width := 1, acc := .rw }
/-- R163. -/
def F.SL_EVT_EN_BAD_ENTRY : Fld := { off := 0xDC, lo := 4, width := 1, acc := .rw }
/-- R163. -/
def F.SL_EVT_EN_JFULL : Fld := { off := 0xDC, lo := 5, width := 1, acc := .rw }
/-- R163. -/
def F.SL_EVT_EN_RATE_REFUSED : Fld := { off := 0xDC, lo := 6, width := 1, acc := .rw }
/-- R163. -/
def F.SL_EVT_EN_VFAIL : Fld := { off := 0xDC, lo := 7, width := 1, acc := .rw }
/-- R164. -/
def F.SL_WQ_CFG_LOG2N : Fld := { off := 0xE0, lo := 0, width := 4, acc := .rw }
/-- R164. -/
def F.SL_WQ_CFG_BASE : Fld := { off := 0xE0, lo := 12, width := 40, acc := .rw }
/-- R164. -/
def F.SL_CQ_CFG_LOG2N : Fld := { off := 0xE8, lo := 0, width := 4, acc := .rw }
/-- R164. -/
def F.SL_CQ_CFG_BASE : Fld := { off := 0xE8, lo := 12, width := 40, acc := .rw }
/-- R164. -/
def F.SL_WQ_TAIL : Fld := { off := 0xF0, lo := 0, width := 16, acc := .rw }
/-- R164. -/
def F.SL_WQ_HEAD : Fld := { off := 0xF0, lo := 16, width := 16, acc := .ro }
/-- R164. -/
def F.SL_CQ_TAIL : Fld := { off := 0xF4, lo := 0, width := 16, acc := .ro }
/-- R164. -/
def F.SL_CQ_HEAD : Fld := { off := 0xF4, lo := 16, width := 16, acc := .rw }
/-- R164. -/
def F.SL_CANCEL : Fld := { off := 0xF8, lo := 0, width := 16, acc := .wo }
/-- R165. -/
def F.SL_TUNE_LEAD : Fld := { off := 0x400, lo := 0, width := 4, acc := .rw, rst := 0x2 }
/-- R165. -/
def F.SL_TUNE_ITER_MAX : Fld := { off := 0x400, lo := 4, width := 4, acc := .rw, rst := 0x6 }
/-- R165. -/
def F.SL_TUNE_GUARD : Fld := { off := 0x400, lo := 8, width := 8, acc := .rw, rst := 0x20 }
/-- R165. -/
def F.SL_TUNE_PHASE : Fld := { off := 0x400, lo := 16, width := 16, acc := .rw }
/-- R165. -/
def F.SL_SEQ_NEXT : Fld := { off := 0x408, lo := 0, width := 48, acc := .rw, rst := 0x1, kept := true }
/-- R165. -/
def F.SL_FURROW_FIRST : Fld := { off := 0x410, lo := 0, width := 12, acc := .rw, rk := .slFirst, kept := true }
/-- R165. -/
def F.SL_FURROW_COUNT : Fld := { off := 0x410, lo := 12, width := 12, acc := .rw, rst := 0x90, kept := true }
/-- R165. -/
def F.SL_CNT_DONE : Fld := { off := 0x420, lo := 0, width := 32, acc := .rc }
/-- R165. -/
def F.SL_CNT_SLIP : Fld := { off := 0x424, lo := 0, width := 32, acc := .rc }
/-- R165. -/
def F.SL_CNT_LATEFILL : Fld := { off := 0x428, lo := 0, width := 32, acc := .rc }
/-- R165. -/
def F.SL_CNT_REWRITE : Fld := { off := 0x42C, lo := 0, width := 32, acc := .rc }
/-- R165. -/
def F.SL_CNT_VFAILCW : Fld := { off := 0x430, lo := 0, width := 32, acc := .rc }
/-- R165. -/
def F.SL_CNT_JWAIT : Fld := { off := 0x434, lo := 0, width := 32, acc := .rc }
/-- R165. -/
def F.SL_CNT_LATEABORT : Fld := { off := 0x438, lo := 0, width := 32, acc := .rc }
/-! Page `die`. -/

/-- R97. -/
def F.CHD_DEEP_QUEUED : Fld := { off := 0x200, lo := 0, width := 7, acc := .ro }
/-- R97. -/
def F.CHD_DEEP_BUSY : Fld := { off := 0x200, lo := 7, width := 4, acc := .ro }
/-- R97. -/
def F.CHD_DEEP_SKIP : Fld := { off := 0x200, lo := 32, width := 32, acc := .rc, ver := 2 }
/-- R97. -/
def F.CHD_HTAB : Fld := { off := 0x1000, lo := 0, width := 16, acc := .ro, stride := 0x2, count := 2320 }
/-- R129. -/
def F.SVD_SPIN_SPIN_MAX : Fld := { off := 0x280, lo := 0, width := 4, acc := .rw, rst := 0x1 }
/-- R129. -/
def F.SVD_SPIN_SPIN_TMO : Fld := { off := 0x280, lo := 8, width := 8, acc := .rw, rst := 0x28 }
/-- R129. -/
def F.SVD_SPIN_ILIM : Fld := { off := 0x280, lo := 16, width := 8, acc := .rw, rst := 0x28 }
/-- R129. -/
def F.SVD_SPIN_ACTIVE : Fld := { off := 0x280, lo := 24, width := 4, acc := .ro }
/-- R129. -/
def F.SVD_SPIN_QUEUED : Fld := { off := 0x280, lo := 28, width := 4, acc := .ro }
/-- R129. -/
def F.SVD_SPIN_Q_ASM : Fld := { off := 0x288, lo := 0, width := 24, acc := .ro }
/-- R166. -/
def F.SLD_JCFG_JLOG2 : Fld := { off := 0x300, lo := 0, width := 5, acc := .rwl, kept := true, lock := 31 }
/-- R166. -/
def F.SLD_JCFG_JBASE : Fld := { off := 0x300, lo := 12, width := 15, acc := .rwl, kept := true, lock := 31 }
/-- R166. -/
def F.SLD_JCFG_LOCK : Fld := { off := 0x300, lo := 31, width := 1, acc := .w1s, kept := true }
/-- R166. -/
def F.SLD_JTAIL : Fld := { off := 0x308, lo := 0, width := 32, acc := .rw, kept := true }
/-- R166. -/
def F.SLD_JHEAD : Fld := { off := 0x310, lo := 0, width := 32, acc := .rw, kept := true }
/-- R203. -/
def F.MXT_CNT_MISS : Fld := { off := 0x380, lo := 0, width := 32, acc := .rc }
/-- R203. -/
def F.MXT_CNT_REFUSED : Fld := { off := 0x384, lo := 0, width := 32, acc := .rc }
/-! Page `stripe`. -/

/-- R193. -/
def F.STR_DQ_CFG_LOG2N : Fld := { off := 0x40, lo := 0, width := 4, acc := .rw }
/-- R193. -/
def F.STR_DQ_CFG_BASE : Fld := { off := 0x40, lo := 12, width := 40, acc := .rw }
/-- R193. -/
def F.STR_CQ_CFG_LOG2N : Fld := { off := 0x48, lo := 0, width := 4, acc := .rw }
/-- R193. -/
def F.STR_CQ_CFG_BASE : Fld := { off := 0x48, lo := 12, width := 40, acc := .rw }
/-- R193. -/
def F.STR_DQ_TAIL : Fld := { off := 0x50, lo := 0, width := 16, acc := .rw }
/-- R193. -/
def F.STR_DQ_HEAD : Fld := { off := 0x50, lo := 16, width := 16, acc := .ro }
/-- R193. -/
def F.STR_CQ_TAIL : Fld := { off := 0x54, lo := 0, width := 16, acc := .ro }
/-- R193. -/
def F.STR_CQ_HEAD : Fld := { off := 0x54, lo := 16, width := 16, acc := .rw }
/-- R194. -/
def F.STR_CTRL_EN : Fld := { off := 0x58, lo := 0, width := 1, acc := .rw }
/-- R194. -/
def F.STR_CTRL_PAUSE : Fld := { off := 0x58, lo := 1, width := 1, acc := .rw }
/-- R194. -/
def F.STR_STAT_IDLE : Fld := { off := 0x5C, lo := 0, width := 1, acc := .ro, rst := 0x1 }
/-- R194. -/
def F.STR_STAT_ACTIVE : Fld := { off := 0x5C, lo := 1, width := 2, acc := .ro }
/-- R195. -/
def F.STR_EVT_CQ : Fld := { off := 0x60, lo := 0, width := 1, acc := .w1c, kept := true }
/-- R195. -/
def F.STR_EVT_MISMATCH : Fld := { off := 0x60, lo := 1, width := 1, acc := .w1c, kept := true }
/-- R195. -/
def F.STR_EVT_TOO_MANY : Fld := { off := 0x60, lo := 2, width := 1, acc := .w1c, kept := true }
/-- R195. -/
def F.STR_EVT_BAD_ENTRY : Fld := { off := 0x60, lo := 3, width := 1, acc := .w1c, kept := true }
/-- R195. -/
def F.STR_EVT_POISON : Fld := { off := 0x60, lo := 4, width := 1, acc := .w1c, kept := true }
/-- R195. -/
def F.STR_EVT_CFG_ERR : Fld := { off := 0x60, lo := 5, width := 1, acc := .w1c, kept := true }
/-- R195. -/
def F.STR_EVT_DOWN : Fld := { off := 0x60, lo := 6, width := 1, acc := .w1c, kept := true }
/-- R195. -/
def F.STR_EVT_EN_CQ : Fld := { off := 0x64, lo := 0, width := 1, acc := .rw }
/-- R195. -/
def F.STR_EVT_EN_MISMATCH : Fld := { off := 0x64, lo := 1, width := 1, acc := .rw }
/-- R195. -/
def F.STR_EVT_EN_TOO_MANY : Fld := { off := 0x64, lo := 2, width := 1, acc := .rw }
/-- R195. -/
def F.STR_EVT_EN_BAD_ENTRY : Fld := { off := 0x64, lo := 3, width := 1, acc := .rw }
/-- R195. -/
def F.STR_EVT_EN_POISON : Fld := { off := 0x64, lo := 4, width := 1, acc := .rw }
/-- R195. -/
def F.STR_EVT_EN_CFG_ERR : Fld := { off := 0x64, lo := 5, width := 1, acc := .rw }
/-- R195. -/
def F.STR_EVT_EN_DOWN : Fld := { off := 0x64, lo := 6, width := 1, acc := .rw }
/-- R196. -/
def F.STR_TUNE_RATE_LIM : Fld := { off := 0x100, lo := 0, width := 6, acc := .rw }
/-- R196. -/
def F.STR_DOWN_LO : Fld := { off := 0x110, lo := 0, width := 64, acc := .w1c, kept := true }
/-- R196. -/
def F.STR_DOWN_HI : Fld := { off := 0x118, lo := 0, width := 32, acc := .w1c, kept := true }
/-- R196. -/
def F.STR_CNT_DESC : Fld := { off := 0x120, lo := 0, width := 32, acc := .rc }
/-- R196. -/
def F.STR_CNT_MISMATCH : Fld := { off := 0x124, lo := 0, width := 32, acc := .rc }
/-- R196. -/
def F.STR_CNT_POISON : Fld := { off := 0x128, lo := 0, width := 32, acc := .rc }
/-- R196. -/
def F.STR_CNT_TOOMANY : Fld := { off := 0x12C, lo := 0, width := 32, acc := .rc }
/-- R197. -/
def F.STR_COEF : Fld := { off := 0x1000, lo := 0, width := 8, acc := .ro, stride := 0x1, count := 320 }
/-! Page `key`. -/

/-- R198. -/
def F.KEY_CTRL_EN : Fld := { off := 0x40, lo := 0, width := 1, acc := .rw, sec := true }
/-- R198. -/
def F.KEY_CTRL_LOCK : Fld := { off := 0x40, lo := 1, width := 1, acc := .w1s, sec := true, kept := true }
/-- R198. -/
def F.KEY_CTRL_STORE : Fld := { off := 0x40, lo := 8, width := 8, acc := .rwl, sec := true, kept := true, lock := 1 }
/-- R199. -/
def F.KEY_CMD_OP : Fld := { off := 0x48, lo := 0, width := 4, acc := .wo, sec := true }
/-- R199. -/
def F.KEY_CMD_SCOPE : Fld := { off := 0x48, lo := 4, width := 2, acc := .wo, sec := true }
/-- R199. -/
def F.KEY_CMD_SLOT : Fld := { off := 0x48, lo := 8, width := 12, acc := .wo, sec := true }
/-- R199. -/
def F.KEY_CMD_FN : Fld := { off := 0x48, lo := 20, width := 10, acc := .wo, sec := true }
/-- R199. -/
def F.KEY_CMD_NS : Fld := { off := 0x48, lo := 30, width := 2, acc := .wo, sec := true }
/-- R200. -/
def F.KEY_SRC_ADDR : Fld := { off := 0x50, lo := 0, width := 52, acc := .rw, sec := true }
/-- R200. -/
def F.KEY_STAT_BUSY : Fld := { off := 0x58, lo := 0, width := 1, acc := .ro }
/-- R200. -/
def F.KEY_STAT_RESULT : Fld := { off := 0x58, lo := 8, width := 8, acc := .ro }
/-- R200. -/
def F.KEY_STAT_NACTIVE : Fld := { off := 0x58, lo := 16, width := 13, acc := .ro }
/-- R201. -/
def F.KEY_EVT_DONE : Fld := { off := 0x60, lo := 0, width := 1, acc := .w1c, sec := true, kept := true }
/-- R201. -/
def F.KEY_EVT_REFUSED : Fld := { off := 0x60, lo := 1, width := 1, acc := .w1c, sec := true, kept := true }
/-- R201. -/
def F.KEY_EVT_EN_DONE : Fld := { off := 0x64, lo := 0, width := 1, acc := .rw, sec := true }
/-- R201. -/
def F.KEY_EVT_EN_REFUSED : Fld := { off := 0x64, lo := 1, width := 1, acc := .rw, sec := true }
/-- R201. -/
def F.KEY_CNT_REFUSED : Fld := { off := 0x100, lo := 0, width := 32, acc := .rc }
/-- R202. -/
def F.KEY_SLOT_STATE : Fld := { off := 0x1000, lo := 0, width := 2, acc := .ro, stride := 0x4, count := 4096 }
/-- R202. -/
def F.KEY_SLOT_NS : Fld := { off := 0x1000, lo := 2, width := 2, acc := .ro, stride := 0x4, count := 4096 }
/-- R202. -/
def F.KEY_SLOT_FN : Fld := { off := 0x1000, lo := 4, width := 10, acc := .ro, stride := 0x4, count := 4096 }
/-- R202. -/
def F.KEY_SLOT_GEN : Fld := { off := 0x1000, lo := 14, width := 16, acc := .ro, stride := 0x4, count := 4096 }
/-! Page `sweep`. -/

/-- R220. -/
def F.SWP_CTRL_PROG : Fld := { off := 0x40, lo := 0, width := 13, acc := .rwl, sec := true, kept := true, lock := 13 }
/-- R220. -/
def F.SWP_CTRL_LOCK : Fld := { off := 0x40, lo := 13, width := 1, acc := .w1s, sec := true, kept := true }
/-- R220. -/
def F.SWP_CMD_OP : Fld := { off := 0x48, lo := 0, width := 4, acc := .wo, sec := true }
/-- R220. -/
def F.SWP_CMD_METHOD : Fld := { off := 0x48, lo := 4, width := 2, acc := .wo, sec := true }
/-- R220. -/
def F.SWP_CMD_PASSES : Fld := { off := 0x48, lo := 6, width := 2, acc := .wo, sec := true }
/-- R220. -/
def F.SWP_CMD_VERIFY : Fld := { off := 0x48, lo := 8, width := 1, acc := .wo, sec := true }
/-- R220. -/
def F.SWP_CMD_SHELF : Fld := { off := 0x48, lo := 9, width := 1, acc := .wo, sec := true }
/-- R220. -/
def F.SWP_CMD_ASM : Fld := { off := 0x48, lo := 16, width := 48, acc := .wo, sec := true }
/-- R220. -/
def F.SWP_GEOM : Fld := { off := 0x50, lo := 4, width := 48, acc := .rw, sec := true }
/-- R220. -/
def F.SWP_GEOM_N : Fld := { off := 0x58, lo := 0, width := 17, acc := .rw, sec := true }
/-- R220. -/
def F.SWP_DQ_TAIL : Fld := { off := 0x68, lo := 0, width := 16, acc := .ro }
/-- R220. -/
def F.SWP_DQ_HEAD : Fld := { off := 0x68, lo := 16, width := 16, acc := .rw }
/-- R220. -/
def F.SWP_SEED : Fld := { off := 0x70, lo := 0, width := 32, acc := .rw, sec := true }
/-- R220. -/
def F.SWP_STAT_OP : Fld := { off := 0x80, lo := 0, width := 4, acc := .ro }
/-- R220. -/
def F.SWP_STAT_PHASE : Fld := { off := 0x80, lo := 4, width := 4, acc := .ro }
/-- R220. -/
def F.SWP_STAT_BUSY : Fld := { off := 0x80, lo := 8, width := 1, acc := .ro }
/-- R220. -/
def F.SWP_STAT_PENDING : Fld := { off := 0x80, lo := 9, width := 1, acc := .ro }
/-- R220. -/
def F.SWP_STAT_RESULT : Fld := { off := 0x80, lo := 16, width := 8, acc := .ro }
/-- R220. -/
def F.SWP_STAT_PASS : Fld := { off := 0x80, lo := 24, width := 2, acc := .ro }
/-- R220. -/
def F.SWP_STAT_PERMILLE : Fld := { off := 0x80, lo := 32, width := 10, acc := .ro }
/-- R220. -/
def F.SWP_EVT_DONE : Fld := { off := 0x88, lo := 0, width := 1, acc := .w1c, kept := true }
/-- R220. -/
def F.SWP_EVT_PHASE : Fld := { off := 0x88, lo := 1, width := 1, acc := .w1c, kept := true }
/-- R220. -/
def F.SWP_EVT_STOPPED : Fld := { off := 0x88, lo := 2, width := 1, acc := .w1c, kept := true }
/-- R220. -/
def F.SWP_EVT_DQ_FULL : Fld := { off := 0x88, lo := 3, width := 1, acc := .w1c, kept := true }
/-- R220. -/
def F.SWP_EVT_EN : Fld := { off := 0x8C, lo := 0, width := 4, acc := .rw }
/-- R220. -/
def F.SWP_MISS : Fld := { off := 0x90, lo := 0, width := 48, acc := .ro }
/-- R220. -/
def F.SWP_CNT_SECT : Fld := { off := 0xA0, lo := 0, width := 64, acc := .rc }
/-- R220. -/
def F.SWP_CNT_DEFECT : Fld := { off := 0xA8, lo := 0, width := 32, acc := .rc }
/-- R220. -/
def F.SWP_CNT_DEFLOST : Fld := { off := 0xAC, lo := 0, width := 32, acc := .rc }
/-- R220. -/
def F.SWP_TUNE_SKEW : Fld := { off := 0x100, lo := 0, width := 4, acc := .rw, sec := true, rst := 0x8 }
/-- R220. -/
def F.SWP_TUNE_PROF : Fld := { off := 0x100, lo := 4, width := 3, acc := .rw, sec := true }
/-- R220. -/
def F.SWP_TUNE_GAP : Fld := { off := 0x100, lo := 16, width := 16, acc := .rw, sec := true, rst := 0x100 }
/-- R220. -/
def F.SWP_DQ_CFG_LOG2N : Fld := { off := 0x60, lo := 0, width := 4, acc := .rw, sec := true }
/-- R220. -/
def F.SWP_DQ_CFG_BASE : Fld := { off := 0x60, lo := 12, width := 40, acc := .rw, sec := true }
/-! Page `pcie`. -/

/-- R250. -/
def F.PCIE_CTRL_EN : Fld := { off := 0x40, lo := 0, width := 1, acc := .rw }
/-- R250. -/
def F.PCIE_CTRL_CFG_READY : Fld := { off := 0x40, lo := 1, width := 1, acc := .rw }
/-- R250. -/
def F.PCIE_CTRL_MAX_WIDTH : Fld := { off := 0x40, lo := 2, width := 2, acc := .rw }
/-- R250. -/
def F.PCIE_CTRL_MAX_RATE : Fld := { off := 0x40, lo := 4, width := 3, acc := .rw, rst := 0x5 }
/-- R251. -/
def F.PCIE_STAT_LINK_UP : Fld := { off := 0x44, lo := 0, width := 1, acc := .ro }
/-- R251. -/
def F.PCIE_STAT_PERST : Fld := { off := 0x44, lo := 1, width := 1, acc := .ro, rst := 0x1 }
/-- R251. -/
def F.PCIE_STAT_RATE : Fld := { off := 0x44, lo := 2, width := 3, acc := .ro }
/-- R251. -/
def F.PCIE_STAT_WIDTH : Fld := { off := 0x44, lo := 5, width := 5, acc := .ro }
/-- R251. -/
def F.PCIE_STAT_FLIT : Fld := { off := 0x44, lo := 10, width := 1, acc := .ro }
/-- R251. -/
def F.PCIE_STAT_PM : Fld := { off := 0x44, lo := 11, width := 3, acc := .ro }
/-- R251. -/
def F.PCIE_STAT_NUMVFS : Fld := { off := 0x44, lo := 14, width := 11, acc := .ro }
/-- R252. -/
def F.PCIE_EVT_LINK_UP : Fld := { off := 0x48, lo := 0, width := 1, acc := .w1c, kept := true }
/-- R252. -/
def F.PCIE_EVT_LINK_DOWN : Fld := { off := 0x48, lo := 1, width := 1, acc := .w1c, kept := true }
/-- R252. -/
def F.PCIE_EVT_PERST : Fld := { off := 0x48, lo := 2, width := 1, acc := .w1c, kept := true }
/-- R252. -/
def F.PCIE_EVT_FLR : Fld := { off := 0x48, lo := 3, width := 1, acc := .w1c, kept := true }
/-- R252. -/
def F.PCIE_EVT_BME_CLR : Fld := { off := 0x48, lo := 4, width := 1, acc := .w1c, kept := true }
/-- R252. -/
def F.PCIE_EVT_VFE : Fld := { off := 0x48, lo := 5, width := 1, acc := .w1c, kept := true }
/-- R252. -/
def F.PCIE_EVT_CTO : Fld := { off := 0x48, lo := 6, width := 1, acc := .w1c, kept := true }
/-- R252. -/
def F.PCIE_EVT_AER : Fld := { off := 0x48, lo := 7, width := 1, acc := .w1c, kept := true }
/-- R252. -/
def F.PCIE_EVT_EN_LINK_UP : Fld := { off := 0x4C, lo := 0, width := 1, acc := .rw }
/-- R252. -/
def F.PCIE_EVT_EN_LINK_DOWN : Fld := { off := 0x4C, lo := 1, width := 1, acc := .rw }
/-- R252. -/
def F.PCIE_EVT_EN_PERST : Fld := { off := 0x4C, lo := 2, width := 1, acc := .rw }
/-- R252. -/
def F.PCIE_EVT_EN_FLR : Fld := { off := 0x4C, lo := 3, width := 1, acc := .rw }
/-- R252. -/
def F.PCIE_EVT_EN_BME_CLR : Fld := { off := 0x4C, lo := 4, width := 1, acc := .rw }
/-- R252. -/
def F.PCIE_EVT_EN_VFE : Fld := { off := 0x4C, lo := 5, width := 1, acc := .rw }
/-- R252. -/
def F.PCIE_EVT_EN_CTO : Fld := { off := 0x4C, lo := 6, width := 1, acc := .rw }
/-- R252. -/
def F.PCIE_EVT_EN_AER : Fld := { off := 0x4C, lo := 7, width := 1, acc := .rw }
/-- R252. -/
def F.PCIE_FN_EVT : Fld := { off := 0x50, lo := 0, width := 32, acc := .w1c, kept := true, stride := 0x4, count := 32 }
/-- R253. -/
def F.PCIE_PM_L1_IDLE : Fld := { off := 0x100, lo := 0, width := 16, acc := .rw, rst := 0x8 }
/-- R253. -/
def F.PCIE_PM_L0P_IDLE : Fld := { off := 0x100, lo := 16, width := 16, acc := .rw, rst := 0x32 }
/-- R253. -/
def F.PCIE_PM_LTR_SNOOP : Fld := { off := 0x104, lo := 0, width := 16, acc := .rw, rst := 0x1003 }
/-- R253. -/
def F.PCIE_PM_LTR_NOSNOOP : Fld := { off := 0x104, lo := 16, width := 16, acc := .rw, rst := 0x1003 }
/-- R253. -/
def F.PCIE_PM_PF_SHARE : Fld := { off := 0x108, lo := 0, width := 13, acc := .rw, rst := 0x100 }
/-- R253. -/
def F.PCIE_PM_PF_QUEUES : Fld := { off := 0x108, lo := 16, width := 4, acc := .rw, rst := 0x8 }
/-- R253. -/
def F.PCIE_CNT_DROPPED : Fld := { off := 0x120, lo := 0, width := 32, acc := .rc }
/-- R253. -/
def F.PCIE_CNT_CTO : Fld := { off := 0x124, lo := 0, width := 32, acc := .rc }
/-- R253. -/
def F.PCIE_CNT_LATECPL : Fld := { off := 0x128, lo := 0, width := 32, acc := .rc }
/-- R253. -/
def F.PCIE_CNT_L1 : Fld := { off := 0x12C, lo := 0, width := 32, acc := .rc }
/-- R254. -/
def F.XQ_CFG_LOG2N : Fld := { off := 0x1000, lo := 0, width := 4, acc := .rw, stride := 0x40, count := 16 }
/-- R254. -/
def F.XQ_CFG_BASE : Fld := { off := 0x1000, lo := 12, width := 40, acc := .rw, stride := 0x40, count := 16 }
/-- R254. -/
def F.XC_CFG_LOG2N : Fld := { off := 0x1008, lo := 0, width := 4, acc := .rw, stride := 0x40, count := 16 }
/-- R254. -/
def F.XC_CFG_BASE : Fld := { off := 0x1008, lo := 12, width := 40, acc := .rw, stride := 0x40, count := 16 }
/-- R254. -/
def F.XQ_TAIL : Fld := { off := 0x1010, lo := 0, width := 16, acc := .rw, stride := 0x40, count := 16 }
/-- R254. -/
def F.XQ_HEAD : Fld := { off := 0x1010, lo := 16, width := 16, acc := .ro, stride := 0x40, count := 16 }
/-- R254. -/
def F.XC_TAIL : Fld := { off := 0x1014, lo := 0, width := 16, acc := .ro, stride := 0x40, count := 16 }
/-- R254. -/
def F.XC_HEAD : Fld := { off := 0x1014, lo := 16, width := 16, acc := .rw, stride := 0x40, count := 16 }
/-- R254. -/
def F.XR_CTRL_EN : Fld := { off := 0x1018, lo := 0, width := 1, acc := .rw, stride := 0x40, count := 16 }
/-- R254. -/
def F.XR_CTRL_PAUSE : Fld := { off := 0x1018, lo := 1, width := 1, acc := .rw, stride := 0x40, count := 16 }
/-- R254. -/
def F.XR_STAT_IDLE : Fld := { off := 0x101C, lo := 0, width := 1, acc := .ro, rst := 0x1, stride := 0x40, count := 16 }
/-- R254. -/
def F.XR_STAT_ACTIVE : Fld := { off := 0x101C, lo := 1, width := 5, acc := .ro, stride := 0x40, count := 16 }
/-- R254. -/
def F.XR_EVT_CQ : Fld := { off := 0x1020, lo := 0, width := 1, acc := .w1c, kept := true, stride := 0x40, count := 16 }
/-- R254. -/
def F.XR_EVT_BAD_ENTRY : Fld := { off := 0x1020, lo := 1, width := 1, acc := .w1c, kept := true, stride := 0x40, count := 16 }
/-- R254. -/
def F.XR_EVT_HOST_ERR : Fld := { off := 0x1020, lo := 2, width := 1, acc := .w1c, kept := true, stride := 0x40, count := 16 }
/-- R254. -/
def F.XR_EVT_CFG_ERR : Fld := { off := 0x1020, lo := 3, width := 1, acc := .w1c, kept := true, stride := 0x40, count := 16 }
/-- R254. -/
def F.XR_EVT_EN : Fld := { off := 0x1024, lo := 0, width := 4, acc := .rw, stride := 0x40, count := 16 }
/-! Page `fnmgr`. -/

/-- R255. -/
def F.FNM_CTRL_SPLIT : Fld := { off := 0x40, lo := 0, width := 11, acc := .rwl, rst := 0x200, kept := true, lock := 11 }
/-- R255. -/
def F.FNM_CTRL_LOCK : Fld := { off := 0x40, lo := 11, width := 1, acc := .w1s, kept := true }
/-- R255. -/
def F.FNM_EVT_REFUSED : Fld := { off := 0x48, lo := 0, width := 1, acc := .w1c, kept := true }
/-- R255. -/
def F.FNM_EVT_DENIED : Fld := { off := 0x48, lo := 1, width := 1, acc := .w1c, kept := true }
/-- R255. -/
def F.FNM_EVT_EN_REFUSED : Fld := { off := 0x4C, lo := 0, width := 1, acc := .rw }
/-- R255. -/
def F.FNM_EVT_EN_DENIED : Fld := { off := 0x4C, lo := 1, width := 1, acc := .rw }
/-- R256. -/
def F.FNT_STATE : Fld := { off := 0x1000, lo := 0, width := 1, acc := .rw, kept := true, stride := 0x10, count := 1024 }
/-- R256. -/
def F.FNT_LIVE : Fld := { off := 0x1000, lo := 1, width := 1, acc := .ro, stride := 0x10, count := 1024 }
/-- R256. -/
def F.FNT_PORT : Fld := { off := 0x1000, lo := 2, width := 1, acc := .ro, stride := 0x10, count := 1024 }
/-- R256. -/
def F.FNT_QUEUES : Fld := { off := 0x1000, lo := 4, width := 4, acc := .rw, kept := true, stride := 0x10, count := 1024 }
/-- R256. -/
def F.FNT_VECTORS : Fld := { off := 0x1000, lo := 8, width := 5, acc := .rw, kept := true, stride := 0x10, count := 1024 }
/-- R256. -/
def F.FNT_SHARE : Fld := { off := 0x1000, lo := 13, width := 13, acc := .rw, kept := true, stride := 0x10, count := 1024 }
/-- R256. -/
def F.FNT_CLASSES : Fld := { off := 0x1000, lo := 26, width := 4, acc := .rw, kept := true, stride := 0x10, count := 1024 }
/-- R256. -/
def F.FNT_WEIGHT : Fld := { off := 0x1000, lo := 30, width := 8, acc := .rw, kept := true, stride := 0x10, count := 1024 }
/-- R256. -/
def F.FNT_QUOTA : Fld := { off := 0x1008, lo := 0, width := 32, acc := .rw, kept := true, stride := 0x10, count := 1024 }
/-! Page `fn`. -/

/-- R234. -/
def F.FN_INFO_QUEUES : Fld := { off := 0x40, lo := 0, width := 4, acc := .ro }
/-- R234. -/
def F.FN_INFO_VECTORS : Fld := { off := 0x40, lo := 4, width := 7, acc := .ro }
/-- R234. -/
def F.FN_INFO_CLASSES : Fld := { off := 0x40, lo := 11, width := 4, acc := .ro }
/-- R234. -/
def F.FN_INFO_CHANGED : Fld := { off := 0x40, lo := 15, width := 1, acc := .w1c }
/-- R234. -/
def F.FN_INFO_WEIGHT : Fld := { off := 0x40, lo := 16, width := 8, acc := .ro }
/-- R234. -/
def F.FN_INFO_PROTO : Fld := { off := 0x40, lo := 24, width := 8, acc := .ro }
/-- R234. -/
def F.FN_INFO_SHARE : Fld := { off := 0x40, lo := 32, width := 13, acc := .ro }
/-- R234. -/
def F.FN_INFO_QUOTA : Fld := { off := 0x40, lo := 64, width := 32, acc := .ro }
/-- R288. -/
def F.QP_SQ_LOG2N : Fld := { off := 0x1000, lo := 0, width := 4, acc := .rw, stride := 0x80, count := 8 }
/-- R288. -/
def F.QP_SQ_BASE : Fld := { off := 0x1000, lo := 12, width := 52, acc := .rw, stride := 0x80, count := 8 }
/-- R288. -/
def F.QP_CQ_LOG2N : Fld := { off := 0x1008, lo := 0, width := 4, acc := .rw, stride := 0x80, count := 8 }
/-- R288. -/
def F.QP_CQ_BASE : Fld := { off := 0x1008, lo := 12, width := 52, acc := .rw, stride := 0x80, count := 8 }
/-- R288. -/
def F.QCTRL_EN : Fld := { off := 0x1010, lo := 0, width := 1, acc := .rw, stride := 0x80, count := 8 }
/-- R288. -/
def F.QCTRL_CLASS : Fld := { off := 0x1010, lo := 1, width := 2, acc := .rw, rst := 0x2, stride := 0x80, count := 8 }
/-- R288. -/
def F.QCTRL_VECTOR : Fld := { off := 0x1010, lo := 3, width := 4, acc := .rw, stride := 0x80, count := 8 }
/-- R288. -/
def F.QCTRL_IEN : Fld := { off := 0x1010, lo := 7, width := 1, acc := .rw, stride := 0x80, count := 8 }
/-- R288. -/
def F.QCTRL_COAL_N : Fld := { off := 0x1010, lo := 8, width := 8, acc := .rw, ver := 2, stride := 0x80, count := 8 }
/-- R288. -/
def F.QCTRL_COAL_US : Fld := { off := 0x1010, lo := 16, width := 16, acc := .rw, ver := 2, stride := 0x80, count := 8 }
/-- R288. -/
def F.QSTAT_ENABLED : Fld := { off := 0x1014, lo := 0, width := 1, acc := .ro, stride := 0x80, count := 8 }
/-- R288. -/
def F.QSTAT_FROZEN : Fld := { off := 0x1014, lo := 1, width := 1, acc := .ro, stride := 0x80, count := 8 }
/-- R288. -/
def F.QSTAT_CAUSE : Fld := { off := 0x1014, lo := 2, width := 4, acc := .ro, stride := 0x80, count := 8 }
/-- R288. -/
def F.QSTAT_REFUSED : Fld := { off := 0x1014, lo := 6, width := 1, acc := .ro, stride := 0x80, count := 8 }
/-- R288. -/
def F.QSTAT_BUSY : Fld := { off := 0x1014, lo := 8, width := 6, acc := .ro, stride := 0x80, count := 8 }
/-- R288. -/
def F.QSTAT_SQ_HEAD : Fld := { off := 0x1014, lo := 16, width := 16, acc := .ro, stride := 0x80, count := 8 }
/-- R288. -/
def F.QDB_SQ_TAIL : Fld := { off := 0x1018, lo := 0, width := 16, acc := .wo, stride := 0x80, count := 8 }
/-- R288. -/
def F.QDB_CQ_HEAD : Fld := { off := 0x101C, lo := 0, width := 16, acc := .wo, stride := 0x80, count := 8 }
/-- R288. -/
def F.QP_CTRL_VER_REQ : Fld := { off := 0x1800, lo := 0, width := 8, acc := .rw }
/-- R288. -/
def F.QP_CTRL_VER : Fld := { off := 0x1800, lo := 8, width := 8, acc := .ro }
/-- R288. -/
def F.ELOG_CNT : Fld := { off := 0x1C80, lo := 0, width := 32, acc := .ro }
/-- R289. -/
def F.MBH_OUT : Fld := { off := 0x2000, lo := 0, width := 32, acc := .rw, kept := true, stride2 := 0x4, count2 := 4 }
/-- R289. -/
def F.MBH_IN : Fld := { off := 0x2010, lo := 0, width := 32, acc := .ro, kept := true, stride2 := 0x4, count2 := 4 }
/-- R289. -/
def F.MBH_STAT_IN_FULL : Fld := { off := 0x2020, lo := 0, width := 1, acc := .ro, kept := true }
/-- R289. -/
def F.MBH_STAT_TAKE : Fld := { off := 0x2020, lo := 1, width := 1, acc := .w1s }
/-- R289. -/
def F.MBH_STAT_IN_COLLIDE : Fld := { off := 0x2020, lo := 2, width := 1, acc := .w1c, kept := true }
/-- R289. -/
def F.MBH_STAT_IN_MSG : Fld := { off := 0x2020, lo := 3, width := 1, acc := .w1c, kept := true }
/-- R289. -/
def F.MBH_STAT_OUT_FULL : Fld := { off := 0x2020, lo := 8, width := 1, acc := .ro, kept := true }
/-- R289. -/
def F.MBH_STAT_OUT_EMPTY : Fld := { off := 0x2020, lo := 9, width := 1, acc := .w1c, kept := true }
/-- R289. -/
def F.MBH_STAT_OUT_COLLIDE : Fld := { off := 0x2020, lo := 10, width := 1, acc := .w1c, kept := true }
/-- R289. -/
def F.MBH_STAT_OUT_TIMEOUT : Fld := { off := 0x2020, lo := 11, width := 1, acc := .w1c, kept := true }
/-! Page `mbox`. -/

/-- R289. -/
def F.MBF_OUT : Fld := { off := 0x1000, lo := 0, width := 32, acc := .rw, kept := true, stride := 0x20, count := 1024, stride2 := 0x4, count2 := 4 }
/-- R289. -/
def F.MBF_IN : Fld := { off := 0x1010, lo := 0, width := 32, acc := .ro, kept := true, stride := 0x20, count := 1024, stride2 := 0x4, count2 := 4 }
/-- R289. -/
def F.MBF_STAT_IN_FULL : Fld := { off := 0x9000, lo := 0, width := 1, acc := .ro, kept := true, stride := 0x4, count := 1024 }
/-- R289. -/
def F.MBF_STAT_TAKE : Fld := { off := 0x9000, lo := 1, width := 1, acc := .w1s, stride := 0x4, count := 1024 }
/-- R289. -/
def F.MBF_STAT_IN_COLLIDE : Fld := { off := 0x9000, lo := 2, width := 1, acc := .w1c, kept := true, stride := 0x4, count := 1024 }
/-- R289. -/
def F.MBF_STAT_IN_MSG : Fld := { off := 0x9000, lo := 3, width := 1, acc := .w1c, kept := true, stride := 0x4, count := 1024 }
/-- R289. -/
def F.MBF_STAT_OUT_FULL : Fld := { off := 0x9000, lo := 8, width := 1, acc := .ro, kept := true, stride := 0x4, count := 1024 }
/-- R289. -/
def F.MBF_STAT_OUT_EMPTY : Fld := { off := 0x9000, lo := 9, width := 1, acc := .w1c, kept := true, stride := 0x4, count := 1024 }
/-- R289. -/
def F.MBF_STAT_OUT_COLLIDE : Fld := { off := 0x9000, lo := 10, width := 1, acc := .w1c, kept := true, stride := 0x4, count := 1024 }
/-- R289. -/
def F.MBF_STAT_OUT_TIMEOUT : Fld := { off := 0x9000, lo := 11, width := 1, acc := .w1c, kept := true, stride := 0x4, count := 1024 }
/-- R289. -/
def F.MBN_OUT : Fld := { off := 0xA000, lo := 0, width := 32, acc := .rw, kept := true, stride := 0x40, count := 16, stride2 := 0x4, count2 := 4 }
/-- R289. -/
def F.MBN_IN : Fld := { off := 0xA010, lo := 0, width := 32, acc := .ro, kept := true, stride := 0x40, count := 16, stride2 := 0x4, count2 := 4 }
/-- R289. -/
def F.MBN_STAT_IN_FULL : Fld := { off := 0xA020, lo := 0, width := 1, acc := .ro, kept := true, stride := 0x40, count := 16 }
/-- R289. -/
def F.MBN_STAT_TAKE : Fld := { off := 0xA020, lo := 1, width := 1, acc := .w1s, stride := 0x40, count := 16 }
/-- R289. -/
def F.MBN_STAT_IN_COLLIDE : Fld := { off := 0xA020, lo := 2, width := 1, acc := .w1c, kept := true, stride := 0x40, count := 16 }
/-- R289. -/
def F.MBN_STAT_IN_MSG : Fld := { off := 0xA020, lo := 3, width := 1, acc := .w1c, kept := true, stride := 0x40, count := 16 }
/-- R289. -/
def F.MBN_STAT_OUT_FULL : Fld := { off := 0xA020, lo := 8, width := 1, acc := .ro, kept := true, stride := 0x40, count := 16 }
/-- R289. -/
def F.MBN_STAT_OUT_EMPTY : Fld := { off := 0xA020, lo := 9, width := 1, acc := .w1c, kept := true, stride := 0x40, count := 16 }
/-- R289. -/
def F.MBN_STAT_OUT_COLLIDE : Fld := { off := 0xA020, lo := 10, width := 1, acc := .w1c, kept := true, stride := 0x40, count := 16 }
/-- R289. -/
def F.MBN_STAT_OUT_TIMEOUT : Fld := { off := 0xA020, lo := 11, width := 1, acc := .w1c, kept := true, stride := 0x40, count := 16 }
/-- R289. -/
def F.MBS_OUT : Fld := { off := 0xA400, lo := 0, width := 32, acc := .rw, sec := true, kept := true, stride := 0x40, count := 16, stride2 := 0x4, count2 := 4 }
/-- R289. -/
def F.MBS_IN : Fld := { off := 0xA410, lo := 0, width := 32, acc := .ro, sec := true, kept := true, stride := 0x40, count := 16, stride2 := 0x4, count2 := 4 }
/-- R289. -/
def F.MBS_STAT_IN_FULL : Fld := { off := 0xA420, lo := 0, width := 1, acc := .ro, sec := true, kept := true, stride := 0x40, count := 16 }
/-- R289. -/
def F.MBS_STAT_TAKE : Fld := { off := 0xA420, lo := 1, width := 1, acc := .w1s, sec := true, stride := 0x40, count := 16 }
/-- R289. -/
def F.MBS_STAT_IN_COLLIDE : Fld := { off := 0xA420, lo := 2, width := 1, acc := .w1c, sec := true, kept := true, stride := 0x40, count := 16 }
/-- R289. -/
def F.MBS_STAT_IN_MSG : Fld := { off := 0xA420, lo := 3, width := 1, acc := .w1c, sec := true, kept := true, stride := 0x40, count := 16 }
/-- R289. -/
def F.MBS_STAT_OUT_FULL : Fld := { off := 0xA420, lo := 8, width := 1, acc := .ro, sec := true, kept := true, stride := 0x40, count := 16 }
/-- R289. -/
def F.MBS_STAT_OUT_EMPTY : Fld := { off := 0xA420, lo := 9, width := 1, acc := .w1c, sec := true, kept := true, stride := 0x40, count := 16 }
/-- R289. -/
def F.MBS_STAT_OUT_COLLIDE : Fld := { off := 0xA420, lo := 10, width := 1, acc := .w1c, sec := true, kept := true, stride := 0x40, count := 16 }
/-- R289. -/
def F.MBS_STAT_OUT_TIMEOUT : Fld := { off := 0xA420, lo := 11, width := 1, acc := .w1c, sec := true, kept := true, stride := 0x40, count := 16 }
/-- R289. -/
def F.MBB_OUT : Fld := { off := 0xA800, lo := 0, width := 32, acc := .rw, kept := true, stride2 := 0x4, count2 := 4 }
/-- R289. -/
def F.MBB_IN : Fld := { off := 0xA810, lo := 0, width := 32, acc := .ro, kept := true, stride2 := 0x4, count2 := 4 }
/-- R289. -/
def F.MBB_STAT_IN_FULL : Fld := { off := 0xA820, lo := 0, width := 1, acc := .ro, kept := true }
/-- R289. -/
def F.MBB_STAT_TAKE : Fld := { off := 0xA820, lo := 1, width := 1, acc := .w1s }
/-- R289. -/
def F.MBB_STAT_IN_COLLIDE : Fld := { off := 0xA820, lo := 2, width := 1, acc := .w1c, kept := true }
/-- R289. -/
def F.MBB_STAT_IN_MSG : Fld := { off := 0xA820, lo := 3, width := 1, acc := .w1c, kept := true }
/-- R289. -/
def F.MBB_STAT_OUT_FULL : Fld := { off := 0xA820, lo := 8, width := 1, acc := .ro, kept := true }
/-- R289. -/
def F.MBB_STAT_OUT_EMPTY : Fld := { off := 0xA820, lo := 9, width := 1, acc := .w1c, kept := true }
/-- R289. -/
def F.MBB_STAT_OUT_COLLIDE : Fld := { off := 0xA820, lo := 10, width := 1, acc := .w1c, kept := true }
/-- R289. -/
def F.MBB_STAT_OUT_TIMEOUT : Fld := { off := 0xA820, lo := 11, width := 1, acc := .w1c, kept := true }
/-- R290. -/
def F.MBX_TMO_TEN_MS : Fld := { off := 0x100, lo := 0, width := 16, acc := .rw, rst := 0x64 }
/-- R290. -/
def F.MBX_TMO_WORLD_MS : Fld := { off := 0x100, lo := 16, width := 8, acc := .rw, sec := true, rst := 0x1 }
/-- R290. -/
def F.MBX_TMO_SMB_100MS : Fld := { off := 0x100, lo := 24, width := 8, acc := .rw, rst := 0xA }
/-- R290. -/
def F.MBX_SMB_ALERT : Fld := { off := 0x108, lo := 0, width := 5, acc := .rw, rst := 0x1 }
/-- R290. -/
def F.MBX_PEND : Fld := { off := 0xB000, lo := 0, width := 32, acc := .ro, stride := 0x4, count := 32 }
/-- R290. -/
def F.MBX_PEND_W : Fld := { off := 0xB080, lo := 0, width := 33, acc := .ro }
/-! Page `headgate`. -/

/-- R291. -/
def F.HG_CTRL_EN : Fld := { off := 0x40, lo := 0, width := 1, acc := .rw }
/-- R291. -/
def F.HG_CTRL_PAUSE : Fld := { off := 0x40, lo := 1, width := 1, acc := .rw }
/-- R291. -/
def F.HG_EVT_INTAKE : Fld := { off := 0x48, lo := 0, width := 4, acc := .w1c, kept := true }
/-- R291. -/
def F.HG_EVT_ELOG : Fld := { off := 0x48, lo := 4, width := 1, acc := .w1c, kept := true }
/-- R291. -/
def F.HG_EVT_RESTART_REFUSED : Fld := { off := 0x48, lo := 5, width := 1, acc := .w1c, kept := true }
/-- R291. -/
def F.HG_EVT_BADPOST : Fld := { off := 0x48, lo := 6, width := 1, acc := .w1c, kept := true }
/-- R291. -/
def F.HG_EVT_CFG_ERR : Fld := { off := 0x48, lo := 7, width := 1, acc := .w1c, kept := true }
/-- R291. -/
def F.HG_EVT_EN : Fld := { off := 0x4C, lo := 0, width := 8, acc := .rw }
/-- R291. -/
def F.HG_RESTART_QMASK : Fld := { off := 0x50, lo := 12, width := 8, acc := .wo }
/-- R291. -/
def F.HG_TIME : Fld := { off := 0x60, lo := 0, width := 64, acc := .ro }
/-- R291. -/
def F.HG_ELOG_CNT : Fld := { off := 0x68, lo := 0, width := 32, acc := .ro, kept := true }
/-- R291. -/
def F.IN_TAIL : Fld := { off := 0x88, lo := 0, width := 16, acc := .ro, stride := 0x10, count := 4 }
/-- R291. -/
def F.IN_HEAD : Fld := { off := 0x88, lo := 16, width := 16, acc := .rw, stride := 0x10, count := 4 }
/-- R291. -/
def F.PQ_TAIL : Fld := { off := 0xC8, lo := 0, width := 16, acc := .rw, stride := 0x10, count := 4 }
/-- R291. -/
def F.PQ_HEAD : Fld := { off := 0xC8, lo := 16, width := 16, acc := .ro, stride := 0x10, count := 4 }
/-- R291. -/
def F.HG_TUNE_URG_RUN : Fld := { off := 0x100, lo := 0, width := 4, acc := .rw, rst := 0x8 }
/-- R291. -/
def F.HG_TUNE_WT_HIGH : Fld := { off := 0x100, lo := 4, width := 8, acc := .rw, rst := 0x8 }
/-- R291. -/
def F.HG_TUNE_WT_NORM : Fld := { off := 0x100, lo := 12, width := 8, acc := .rw, rst := 0x4 }
/-- R291. -/
def F.HG_TUNE_WT_BULK : Fld := { off := 0x100, lo := 20, width := 8, acc := .rw, rst := 0x1 }
/-- R291. -/
def F.HG_TUNE_PF_WT : Fld := { off := 0x104, lo := 0, width := 8, acc := .rw, rst := 0x40 }
/-- R291. -/
def F.HG_CNT_ADMIT : Fld := { off := 0x120, lo := 0, width := 32, acc := .rc, stride := 0x4, count := 4 }
/-- R291. -/
def F.HG_CNT_DBDISC : Fld := { off := 0x130, lo := 0, width := 32, acc := .rc }
/-- R291. -/
def F.HG_CNT_CPLDROP : Fld := { off := 0x134, lo := 0, width := 32, acc := .rc }
/-- R291. -/
def F.HG_CNT_BADPOST : Fld := { off := 0x138, lo := 0, width := 32, acc := .rc }
/-- R291. -/
def F.HG_CNT_FREEZE : Fld := { off := 0x13C, lo := 0, width := 32, acc := .rc }
/-- R291. -/
def F.HG_CNT_MBCOLL : Fld := { off := 0x140, lo := 0, width := 32, acc := .rc }
/-- R291. -/
def F.IN_CFG_LOG2N : Fld := { off := 0x80, lo := 0, width := 4, acc := .rw, stride := 0x10, count := 4 }
/-- R291. -/
def F.IN_CFG_BASE : Fld := { off := 0x80, lo := 12, width := 40, acc := .rw, stride := 0x10, count := 4 }
/-- R291. -/
def F.PQ_CFG_LOG2N : Fld := { off := 0xC0, lo := 0, width := 4, acc := .rw, stride := 0x10, count := 4 }
/-- R291. -/
def F.PQ_CFG_BASE : Fld := { off := 0xC0, lo := 12, width := 40, acc := .rw, stride := 0x10, count := 4 }
/-- R291. -/
def F.HG_RESTART_FN : Fld := { off := 0x50, lo := 0, width := 12, acc := .wo }
/-- R291. -/
def F.HG_FREEZE : Fld := { off := 0x58, lo := 0, width := 20, acc := .wo }
/-! Page `core`. -/

/-- R328. -/
def F.CORE_MTIMECMP : Fld := { off := 0x40, lo := 0, width := 64, acc := .rw, sec := true, rst := 0xFFFFFFFFFFFFFFFF }
/-- R328. -/
def F.CORE_MSIP : Fld := { off := 0x48, lo := 0, width := 1, acc := .rw, sec := true }
/-- R328. -/
def F.CORE_IRQ_NEXT_M : Fld := { off := 0x50, lo := 0, width := 16, acc := .ro, rst := 0xFFFF }
/-- R328. -/
def F.CORE_IRQ_NEXT_SS : Fld := { off := 0x58, lo := 0, width := 16, acc := .ro, rst := 0xFFFF }
/-- R328. -/
def F.CORE_IRQ_NEXT_NS : Fld := { off := 0x60, lo := 0, width := 16, acc := .ro, rst := 0xFFFF }
/-- R519. -/
def F.CORE_MCE_VALID : Fld := { off := 0x80, lo := 0, width := 1, acc := .w1c, sec := true }
/-- R519. -/
def F.CORE_MCE_PRECISE : Fld := { off := 0x80, lo := 1, width := 1, acc := .ro }
/-- R519. -/
def F.CORE_MCE_KIND : Fld := { off := 0x80, lo := 4, width := 4, acc := .ro }
/-- R519. -/
def F.CORE_MCE_W : Fld := { off := 0x80, lo := 8, width := 1, acc := .ro }
/-- R519. -/
def F.CORE_MCE_H : Fld := { off := 0x80, lo := 9, width := 1, acc := .ro }
/-- R519. -/
def F.CORE_MCE_PRIV : Fld := { off := 0x80, lo := 10, width := 2, acc := .ro }
/-- R519. -/
def F.CORE_MCE_V : Fld := { off := 0x80, lo := 12, width := 1, acc := .ro }
/-- R519. -/
def F.CORE_MCE_LEVEL : Fld := { off := 0x80, lo := 16, width := 3, acc := .ro }
/-- R519. -/
def F.CORE_MCE_COUNT : Fld := { off := 0x80, lo := 32, width := 32, acc := .ro, kept := true }
/-- R519. -/
def F.CORE_MCE_ADDR : Fld := { off := 0x88, lo := 0, width := 52, acc := .ro }
/-- R519. -/
def F.CORE_MCE_ASID : Fld := { off := 0x90, lo := 0, width := 16, acc := .ro }
/-- R519. -/
def F.CORE_MCE_VMID : Fld := { off := 0x90, lo := 16, width := 14, acc := .ro }
/-- R360. -/
def F.CC_CNT_NEAR : Fld := { off := 0x140, lo := 0, width := 32, acc := .rc }
/-- R360. -/
def F.CC_CNT_FAR : Fld := { off := 0x144, lo := 0, width := 32, acc := .rc }
/-- R360. -/
def F.CC_CNT_SNPHOLD : Fld := { off := 0x148, lo := 0, width := 32, acc := .rc }
/-- R360. -/
def F.CC_CNT_PAR_CLEAN : Fld := { off := 0x14C, lo := 0, width := 32, acc := .rc }
/-- R360. -/
def F.CC_CNT_PAR_DIRTY : Fld := { off := 0x150, lo := 0, width := 32, acc := .rc }
/-- R526. -/
def F.CORE_PMU_LO : Fld := { off := 0x160, lo := 6, width := 46, acc := .rw, sec := true }
/-- R526. -/
def F.CORE_PMU_HI : Fld := { off := 0x168, lo := 6, width := 46, acc := .rw, sec := true }
/-! Page `tile`. -/

/-- R360. -/
def F.TL_TUNE_OFFER : Fld := { off := 0x140, lo := 0, width := 1, acc := .rw, rst := 0x1 }
/-- R360. -/
def F.TL_CNT_BACKINV : Fld := { off := 0x150, lo := 0, width := 32, acc := .rc }
/-- R360. -/
def F.TL_CNT_OFFER : Fld := { off := 0x154, lo := 0, width := 32, acc := .rc }
/-- R360. -/
def F.TL_CNT_PAR_CLEAN : Fld := { off := 0x158, lo := 0, width := 32, acc := .rc }
/-- R360. -/
def F.TL_CNT_PAR_DIRTY : Fld := { off := 0x15C, lo := 0, width := 32, acc := .rc }
/-! Page `irq`. -/

/-- R329. -/
def F.PKG_TIME : Fld := { off := 0x40, lo := 0, width := 64, acc := .ro }
/-- R329. -/
def F.ROUTE_HART : Fld := { off := 0x1000, lo := 0, width := 8, acc := .rw, kept := true, stride := 0x8, count := 3136 }
/-- R329. -/
def F.ROUTE_LEVEL : Fld := { off := 0x1000, lo := 8, width := 2, acc := .rw, kept := true, stride := 0x8, count := 3136 }
/-- R329. -/
def F.ROUTE_LOCK : Fld := { off := 0x1000, lo := 10, width := 1, acc := .rw, sec := true, kept := true, stride := 0x8, count := 3136 }
/-- R329. -/
def F.ROUTE_ASSERTED : Fld := { off := 0x1000, lo := 16, width := 1, acc := .ro, stride := 0x8, count := 3136 }
/-! Page `wmap`. -/

/-- R330. -/
def F.WMAP_CTRL_COMMIT : Fld := { off := 0x40, lo := 0, width := 1, acc := .wo, sec := true }
/-- R330. -/
def F.WMAP_CTRL_LOCK : Fld := { off := 0x40, lo := 1, width := 1, acc := .w1s, sec := true, kept := true }
/-- R330. -/
def F.WMAP_STAT_BUSY : Fld := { off := 0x48, lo := 0, width := 1, acc := .ro }
/-- R330. -/
def F.WMAP_STAT_EPOCH : Fld := { off := 0x48, lo := 16, width := 32, acc := .ro, kept := true }
/-- R330. -/
def F.WREG_EN : Fld := { off := 0x1000, lo := 0, width := 1, acc := .rw, sec := true, kept := true, stride := 0x10, count := 32 }
/-- R330. -/
def F.WREG_SECURE : Fld := { off := 0x1000, lo := 1, width := 1, acc := .rw, sec := true, kept := true, stride := 0x10, count := 32 }
/-- R330. -/
def F.WREG_BASE : Fld := { off := 0x1000, lo := 12, width := 40, acc := .rw, sec := true, kept := true, stride := 0x10, count := 32 }
/-- R330. -/
def F.WREG_LIMIT : Fld := { off := 0x1008, lo := 12, width := 40, acc := .rw, sec := true, kept := true, stride := 0x10, count := 32 }
/-! Page `iow`. -/

/-- R331. -/
def F.IOW_STAT_BUSY : Fld := { off := 0x40, lo := 0, width := 1, acc := .ro }
/-- R331. -/
def F.IOW_WORLD : Fld := { off := 0x1000, lo := 0, width := 1, acc := .rw, sec := true, rk := .iowWorld, kept := true, stride := 0x100, count := 14 }
/-- R331. -/
def F.IOW_WIN_EN : Fld := { off := 0x1000, lo := 1, width := 1, acc := .rw, sec := true, kept := true, stride := 0x100, count := 14 }
/-- R331. -/
def F.IOWW_EN : Fld := { off := 0x1010, lo := 0, width := 1, acc := .rw, sec := true, kept := true, stride := 0x100, count := 14, stride2 := 0x10, count2 := 8 }
/-- R331. -/
def F.IOWW_R : Fld := { off := 0x1010, lo := 1, width := 1, acc := .rw, sec := true, kept := true, stride := 0x100, count := 14, stride2 := 0x10, count2 := 8 }
/-- R331. -/
def F.IOWW_W : Fld := { off := 0x1010, lo := 2, width := 1, acc := .rw, sec := true, kept := true, stride := 0x100, count := 14, stride2 := 0x10, count2 := 8 }
/-- R331. -/
def F.IOWW_BASE : Fld := { off := 0x1010, lo := 12, width := 40, acc := .rw, sec := true, kept := true, stride := 0x100, count := 14, stride2 := 0x10, count2 := 8 }
/-- R331. -/
def F.IOWW_LIMIT : Fld := { off := 0x1018, lo := 12, width := 40, acc := .rw, sec := true, kept := true, stride := 0x100, count := 14, stride2 := 0x10, count2 := 8 }
/-! Page `home`. -/

/-- R359. -/
def F.HOME_STAT_QUEUED : Fld := { off := 0x40, lo := 0, width := 11, acc := .ro }
/-- R359. -/
def F.HOME_STAT_BUSY_LINES : Fld := { off := 0x40, lo := 12, width := 10, acc := .ro }
/-- R359. -/
def F.HOME_EVT_PAR_CLEAN : Fld := { off := 0x48, lo := 0, width := 1, acc := .w1c, kept := true }
/-- R359. -/
def F.HOME_EVT_PAR_DIRTY : Fld := { off := 0x48, lo := 1, width := 1, acc := .w1c, kept := true }
/-- R359. -/
def F.HOME_EVT_TAG_CE : Fld := { off := 0x48, lo := 2, width := 1, acc := .w1c, kept := true }
/-- R359. -/
def F.HOME_EVT_EN : Fld := { off := 0x4C, lo := 0, width := 3, acc := .rw }
/-- R359. -/
def F.HOME_TUNE_OFFER_EN : Fld := { off := 0x100, lo := 0, width := 1, acc := .rw, rst := 0x1 }
/-- R359. -/
def F.HOME_TUNE_LLC_ALLOC : Fld := { off := 0x100, lo := 1, width := 1, acc := .rw }
/-- R359. -/
def F.HOME_TUNE_OFFER_Q : Fld := { off := 0x100, lo := 8, width := 6, acc := .rw, rst := 0x20 }
/-- R359. -/
def F.HM_CNT_BACKINV : Fld := { off := 0x120, lo := 0, width := 32, acc := .rc }
/-- R359. -/
def F.HM_CNT_CROSS_WB : Fld := { off := 0x124, lo := 0, width := 32, acc := .rc }
/-- R359. -/
def F.HM_CNT_CROSS_EV : Fld := { off := 0x128, lo := 0, width := 32, acc := .rc }
/-- R359. -/
def F.HM_CNT_STALE : Fld := { off := 0x12C, lo := 0, width := 32, acc := .rc }
/-- R359. -/
def F.HM_CNT_OFFER_ACC : Fld := { off := 0x130, lo := 0, width := 32, acc := .rc }
/-- R359. -/
def F.HM_CNT_OFFER_DEC : Fld := { off := 0x134, lo := 0, width := 32, acc := .rc }
/-- R359. -/
def F.HM_CNT_FAR_AMO : Fld := { off := 0x138, lo := 0, width := 32, acc := .rc }
/-- R359. -/
def F.HM_CNT_CONTENDED : Fld := { off := 0x13C, lo := 0, width := 32, acc := .rc }
/-- R359. -/
def F.HM_CNT_PAR_CLEAN : Fld := { off := 0x140, lo := 0, width := 32, acc := .rc }
/-- R359. -/
def F.HM_CNT_PAR_DIRTY : Fld := { off := 0x144, lo := 0, width := 32, acc := .rc }
/-! Page `rme`. -/

/-- R361. -/
def F.RME0_BASE : Fld := { off := 0x40, lo := 6, width := 46, acc := .rw }
/-- R361. -/
def F.RME0_LIMIT : Fld := { off := 0x48, lo := 6, width := 46, acc := .rw }
/-- R361. -/
def F.RME0_OP : Fld := { off := 0x50, lo := 0, width := 3, acc := .wo }
/-- R361. -/
def F.RME0_AGENT : Fld := { off := 0x50, lo := 8, width := 6, acc := .wo }
/-- R361. -/
def F.RME0_BUSY : Fld := { off := 0x58, lo := 0, width := 1, acc := .ro }
/-- R361. -/
def F.RME0_RESULT : Fld := { off := 0x58, lo := 8, width := 8, acc := .ro }
/-- R361. -/
def F.RME0_LINES : Fld := { off := 0x60, lo := 0, width := 32, acc := .rc }
/-- R361. -/
def F.RME0_SKIP : Fld := { off := 0x64, lo := 0, width := 32, acc := .rc }
/-- R361. -/
def F.RME0_DONE : Fld := { off := 0x68, lo := 0, width := 1, acc := .w1c, kept := true }
/-- R361. -/
def F.RME0_EVT_EN : Fld := { off := 0x6C, lo := 0, width := 1, acc := .rw }
/-- R361. -/
def F.RME1_BASE : Fld := { off := 0x80, lo := 6, width := 46, acc := .rw, sec := true }
/-- R361. -/
def F.RME1_LIMIT : Fld := { off := 0x88, lo := 6, width := 46, acc := .rw, sec := true }
/-- R361. -/
def F.RME1_OP : Fld := { off := 0x90, lo := 0, width := 3, acc := .wo, sec := true }
/-- R361. -/
def F.RME1_AGENT : Fld := { off := 0x90, lo := 8, width := 6, acc := .wo, sec := true }
/-- R361. -/
def F.RME1_BUSY : Fld := { off := 0x98, lo := 0, width := 1, acc := .ro, sec := true }
/-- R361. -/
def F.RME1_RESULT : Fld := { off := 0x98, lo := 8, width := 8, acc := .ro, sec := true }
/-- R361. -/
def F.RME1_LINES : Fld := { off := 0xA0, lo := 0, width := 32, acc := .rc, sec := true }
/-- R361. -/
def F.RME1_SKIP : Fld := { off := 0xA4, lo := 0, width := 32, acc := .rc, sec := true }
/-- R361. -/
def F.RME1_DONE : Fld := { off := 0xA8, lo := 0, width := 1, acc := .w1c, sec := true, kept := true }
/-- R361. -/
def F.RME1_EVT_EN : Fld := { off := 0xAC, lo := 0, width := 1, acc := .rw, sec := true }
/-! Page `mc`. -/

/-- R381. -/
def F.MC_STAT_TRAINED : Fld := { off := 0x40, lo := 0, width := 1, acc := .ro }
/-- R381. -/
def F.MC_STAT_CHK_OK : Fld := { off := 0x40, lo := 1, width := 1, acc := .ro }
/-- R381. -/
def F.MC_STAT_CHK_FAIL : Fld := { off := 0x40, lo := 2, width := 1, acc := .ro }
/-- R381. -/
def F.MC_STAT_HOT : Fld := { off := 0x40, lo := 3, width := 1, acc := .ro }
/-- R381. -/
def F.MC_STAT_TEMP : Fld := { off := 0x40, lo := 8, width := 8, acc := .ro }
/-- R381. -/
def F.MC_EVT_CE : Fld := { off := 0x48, lo := 0, width := 1, acc := .w1c, kept := true }
/-- R381. -/
def F.MC_EVT_CE_HARD : Fld := { off := 0x48, lo := 1, width := 1, acc := .w1c, kept := true }
/-- R381. -/
def F.MC_EVT_UE : Fld := { off := 0x48, lo := 2, width := 1, acc := .w1c, kept := true }
/-- R381. -/
def F.MC_EVT_ANNEX : Fld := { off := 0x48, lo := 3, width := 1, acc := .w1c, kept := true }
/-- R381. -/
def F.MC_EVT_LOG_WRAP : Fld := { off := 0x48, lo := 4, width := 1, acc := .w1c, kept := true }
/-- R381. -/
def F.MC_EVT_HOT : Fld := { off := 0x48, lo := 5, width := 1, acc := .w1c, kept := true }
/-- R381. -/
def F.MC_EVT_CHK_FAIL : Fld := { off := 0x48, lo := 6, width := 1, acc := .w1c, kept := true }
/-- R381. -/
def F.MC_IDENT_VENDOR : Fld := { off := 0x50, lo := 0, width := 16, acc := .ro }
/-- R381. -/
def F.MC_IDENT_DENSITY : Fld := { off := 0x50, lo := 16, width := 8, acc := .ro }
/-- R381. -/
def F.MC_IDENT_REV : Fld := { off := 0x50, lo := 24, width := 8, acc := .ro }
/-- R381. -/
def F.MC_IDENT_SERIAL : Fld := { off := 0x50, lo := 32, width := 32, acc := .ro }
/-- R381. -/
def F.MC_ELOG_CNT : Fld := { off := 0x60, lo := 0, width := 32, acc := .ro, kept := true }
/-- R381. -/
def F.MC_EVT_EN_CE : Fld := { off := 0x4C, lo := 0, width := 1, acc := .rw }
/-- R381. -/
def F.MC_EVT_EN_CE_HARD : Fld := { off := 0x4C, lo := 1, width := 1, acc := .rw }
/-- R381. -/
def F.MC_EVT_EN_UE : Fld := { off := 0x4C, lo := 2, width := 1, acc := .rw }
/-- R381. -/
def F.MC_EVT_EN_ANNEX : Fld := { off := 0x4C, lo := 3, width := 1, acc := .rw }
/-- R381. -/
def F.MC_EVT_EN_LOG_WRAP : Fld := { off := 0x4C, lo := 4, width := 1, acc := .rw }
/-- R381. -/
def F.MC_EVT_EN_HOT : Fld := { off := 0x4C, lo := 5, width := 1, acc := .rw }
/-- R381. -/
def F.MC_EVT_EN_CHK_FAIL : Fld := { off := 0x4C, lo := 6, width := 1, acc := .rw }
/-- R382. -/
def F.MC_SCRUB_EN : Fld := { off := 0x100, lo := 0, width := 1, acc := .rw, rst := 0x1 }
/-- R382. -/
def F.MC_SCRUB_PERIOD : Fld := { off := 0x100, lo := 8, width := 8, acc := .rw, rst := 0x18 }
/-- R382. -/
def F.MC_SCRUB_POS : Fld := { off := 0x108, lo := 0, width := 29, acc := .ro }
/-- R382. -/
def F.MC_TUNE_WB_VERIFY : Fld := { off := 0x110, lo := 0, width := 1, acc := .rw, rst := 0x1 }
/-- R382. -/
def F.MC_INJ_BITS : Fld := { off := 0x118, lo := 0, width := 13, acc := .rw, sec := true }
/-- R382. -/
def F.MC_INJ_BYTE : Fld := { off := 0x118, lo := 16, width := 6, acc := .rw, sec := true }
/-- R382. -/
def F.MC_INJ_ARM : Fld := { off := 0x118, lo := 31, width := 1, acc := .rw, sec := true }
/-- R382. -/
def F.INJ_ADDR : Fld := { off := 0x120, lo := 6, width := 46, acc := .rw, sec := true }
/-- R382. -/
def F.MC_CNT_CE : Fld := { off := 0x140, lo := 0, width := 32, acc := .rc }
/-- R382. -/
def F.MC_CNT_CE_HARD : Fld := { off := 0x144, lo := 0, width := 32, acc := .rc }
/-- R382. -/
def F.MC_CNT_CE_DEFER : Fld := { off := 0x148, lo := 0, width := 32, acc := .rc }
/-- R382. -/
def F.MC_CNT_UE : Fld := { off := 0x14C, lo := 0, width := 32, acc := .rc }
/-- R382. -/
def F.MC_CNT_POISON : Fld := { off := 0x150, lo := 0, width := 32, acc := .rc }
/-- R382. -/
def F.MC_CNT_ANNEX : Fld := { off := 0x154, lo := 0, width := 32, acc := .rc }
/-- R382. -/
def F.MC_CNT_WBDROP : Fld := { off := 0x158, lo := 0, width := 32, acc := .rc }
/-! Page `memmap`. -/

/-- R384. -/
def F.MEMMAP_CTRL_COMMIT : Fld := { off := 0x40, lo := 0, width := 1, acc := .wo, sec := true }
/-- R384. -/
def F.MEMMAP_CTRL_LOCK : Fld := { off := 0x40, lo := 1, width := 1, acc := .w1s, sec := true, kept := true }
/-- R384. -/
def F.MEMMAP_STAT_BUSY : Fld := { off := 0x48, lo := 0, width := 1, acc := .ro }
/-- R384. -/
def F.MEMMAP_STAT_ERR : Fld := { off := 0x48, lo := 1, width := 1, acc := .ro }
/-- R384. -/
def F.MEM_TOP : Fld := { off := 0x50, lo := 0, width := 9, acc := .rw, sec := true, rst := 0x180, kept := true }
/-- R384. -/
def F.FILL_BASE : Fld := { off := 0x60, lo := 12, width := 40, acc := .rw, sec := true }
/-- R384. -/
def F.FILL_LIMIT : Fld := { off := 0x68, lo := 12, width := 40, acc := .rw, sec := true }
/-- R384. -/
def F.FILL_GO : Fld := { off := 0x70, lo := 0, width := 1, acc := .wo, sec := true }
/-- R384. -/
def F.FILL_BUSY : Fld := { off := 0x78, lo := 0, width := 1, acc := .ro }
/-- R384. -/
def F.FILL_ERR : Fld := { off := 0x78, lo := 1, width := 1, acc := .ro }
/-- R384. -/
def F.MREG_EN : Fld := { off := 0x1000, lo := 0, width := 1, acc := .rw, sec := true, kept := true, stride := 0x10, count := 16 }
/-- R384. -/
def F.MREG_STRONG : Fld := { off := 0x1000, lo := 1, width := 1, acc := .rw, sec := true, kept := true, stride := 0x10, count := 16 }
/-- R384. -/
def F.MREG_BASE : Fld := { off := 0x1000, lo := 8, width := 8, acc := .rw, sec := true, kept := true, stride := 0x10, count := 16 }
/-- R384. -/
def F.MREG_LIMIT : Fld := { off := 0x1000, lo := 16, width := 8, acc := .rw, sec := true, kept := true, stride := 0x10, count := 16 }
/-- R384. -/
def F.MREG_ANNEX : Fld := { off := 0x1000, lo := 32, width := 9, acc := .rw, sec := true, kept := true, stride := 0x10, count := 16 }
/-! Page `xbar`. -/

/-- R412. -/
def F.XB_EVT_TIMEOUT : Fld := { off := 0x48, lo := 0, width := 1, acc := .w1c, kept := true }
/-- R412. -/
def F.XB_EVT_LATE : Fld := { off := 0x48, lo := 1, width := 1, acc := .w1c, kept := true }
/-- R412. -/
def F.XB_EVT_BADOP : Fld := { off := 0x48, lo := 2, width := 1, acc := .w1c, kept := true }
/-- R412. -/
def F.XB_EVT_EN : Fld := { off := 0x4C, lo := 0, width := 3, acc := .rw }
/-- R412. -/
def F.XB_TLOG_SRC : Fld := { off := 0x50, lo := 0, width := 6, acc := .ro, kept := true }
/-- R412. -/
def F.XB_TLOG_TXN : Fld := { off := 0x50, lo := 6, width := 10, acc := .ro, kept := true }
/-- R412. -/
def F.XB_TLOG_OP : Fld := { off := 0x50, lo := 16, width := 5, acc := .ro, kept := true }
/-- R412. -/
def F.XB_TLOG_ADDR : Fld := { off := 0x58, lo := 0, width := 52, acc := .ro, kept := true }
/-- R412. -/
def F.XB_TMO_NC_US : Fld := { off := 0x100, lo := 0, width := 16, acc := .rw, rst := 0x3E8 }
/-- R412. -/
def F.XB_TMO_COH_MS : Fld := { off := 0x100, lo := 16, width := 8, acc := .rw, rst := 0xA }
/-- R412. -/
def F.XB_CNT_TMO : Fld := { off := 0x120, lo := 0, width := 32, acc := .rc }
/-- R412. -/
def F.XB_CNT_LATE : Fld := { off := 0x124, lo := 0, width := 32, acc := .rc }
/-- R412. -/
def F.XB_CNT_BADOP : Fld := { off := 0x128, lo := 0, width := 32, acc := .rc }
/-! Page `vz`. -/

/-- R413. -/
def F.VZ_CTRL_EN : Fld := { off := 0x40, lo := 0, width := 1, acc := .rw, rst := 0x1 }
/-- R413. -/
def F.VZ_CTRL_RETRAIN : Fld := { off := 0x40, lo := 1, width := 1, acc := .wo }
/-- R413. -/
def F.VZ_CTRL_FULL : Fld := { off := 0x40, lo := 2, width := 1, acc := .wo }
/-- R413. -/
def F.VZ_CTRL_ISOLATE : Fld := { off := 0x40, lo := 3, width := 1, acc := .rw }
/-- R413. -/
def F.VZ_CTRL_VCAP : Fld := { off := 0x40, lo := 4, width := 3, acc := .rw, rk := .vzCeiling }
/-- R414. -/
def F.VZ_STAT_STATE : Fld := { off := 0x44, lo := 0, width := 4, acc := .ro }
/-- R414. -/
def F.VZ_STAT_VER : Fld := { off := 0x44, lo := 4, width := 3, acc := .ro }
/-- R414. -/
def F.VZ_STAT_TXW : Fld := { off := 0x44, lo := 7, width := 2, acc := .ro }
/-- R414. -/
def F.VZ_STAT_RXW : Fld := { off := 0x44, lo := 9, width := 2, acc := .ro }
/-- R414. -/
def F.VZ_STAT_HALF_IDLE : Fld := { off := 0x44, lo := 11, width := 1, acc := .ro, ver := 2 }
/-- R414. -/
def F.VZ_STAT_TRIES : Fld := { off := 0x44, lo := 12, width := 2, acc := .ro }
/-- R415. -/
def F.VZ_EVT_UP : Fld := { off := 0x48, lo := 0, width := 1, acc := .w1c, kept := true }
/-- R415. -/
def F.VZ_EVT_DOWN : Fld := { off := 0x48, lo := 1, width := 1, acc := .w1c, kept := true }
/-- R415. -/
def F.VZ_EVT_FAILED : Fld := { off := 0x48, lo := 2, width := 1, acc := .w1c, kept := true }
/-- R415. -/
def F.VZ_EVT_MISMATCH : Fld := { off := 0x48, lo := 3, width := 1, acc := .w1c, kept := true }
/-- R415. -/
def F.VZ_EVT_RETRAIN : Fld := { off := 0x48, lo := 4, width := 1, acc := .w1c, kept := true }
/-- R415. -/
def F.VZ_EVT_WIDTH : Fld := { off := 0x48, lo := 5, width := 1, acc := .w1c, kept := true }
/-- R415. -/
def F.VZ_EVT_EN_UP : Fld := { off := 0x4C, lo := 0, width := 1, acc := .rw }
/-- R415. -/
def F.VZ_EVT_EN_DOWN : Fld := { off := 0x4C, lo := 1, width := 1, acc := .rw }
/-- R415. -/
def F.VZ_EVT_EN_FAILED : Fld := { off := 0x4C, lo := 2, width := 1, acc := .rw }
/-- R415. -/
def F.VZ_EVT_EN_MISMATCH : Fld := { off := 0x4C, lo := 3, width := 1, acc := .rw }
/-- R415. -/
def F.VZ_EVT_EN_RETRAIN : Fld := { off := 0x4C, lo := 4, width := 1, acc := .rw }
/-- R415. -/
def F.VZ_EVT_EN_WIDTH : Fld := { off := 0x4C, lo := 5, width := 1, acc := .rw }
/-- R416. -/
def F.VZ_TX_MASK : Fld := { off := 0x50, lo := 0, width := 34, acc := .ro }
/-- R416. -/
def F.VZ_RX_MASK : Fld := { off := 0x58, lo := 0, width := 34, acc := .ro }
/-- R416. No lane is fused out (DESIGN CHOICE, log 180). -/
def F.VZ_TX_FUSE : Fld := { off := 0x60, lo := 0, width := 34, acc := .ro }
/-- R416. No lane is fused out (DESIGN CHOICE, log 180). -/
def F.VZ_RX_FUSE : Fld := { off := 0x68, lo := 0, width := 34, acc := .ro }
/-- R417. -/
def F.VZ_TUNE_REPLAY_MAX : Fld := { off := 0x100, lo := 0, width := 4, acc := .rw, rst := 0x8 }
/-- R417. -/
def F.VZ_TUNE_CRC_THR : Fld := { off := 0x100, lo := 8, width := 8, acc := .rw, rst := 0x10 }
/-- R417. -/
def F.VZ_TUNE_IDLE_US : Fld := { off := 0x100, lo := 16, width := 16, acc := .rw, rst := 0x14, ver := 2 }
/-- R417. -/
def F.VZ_RTT : Fld := { off := 0x108, lo := 0, width := 12, acc := .ro }
/-- R417. -/
def F.VZ_CNT_CRC : Fld := { off := 0x120, lo := 0, width := 32, acc := .rc }
/-- R417. -/
def F.VZ_CNT_REPLAY : Fld := { off := 0x124, lo := 0, width := 32, acc := .rc }
/-- R417. -/
def F.VZ_CNT_RETRAIN : Fld := { off := 0x128, lo := 0, width := 32, acc := .rc }
/-- R417. -/
def F.VZ_CNT_MISMATCH : Fld := { off := 0x12C, lo := 0, width := 32, acc := .rc }
/-- R417. -/
def F.VZ_CNT_LANEFAIL : Fld := { off := 0x130, lo := 0, width := 32, acc := .rc }
/-- R417. -/
def F.VZ_CNT_ISOSNP : Fld := { off := 0x134, lo := 0, width := 32, acc := .rc }
/-- R417. -/
def F.VZ_CNT_DISC : Fld := { off := 0x138, lo := 0, width := 32, acc := .rc }
/-! Page `therm`. -/

/-- R440. -/
def F.THM_STAT_TILE_MAX : Fld := { off := 0x40, lo := 0, width := 8, acc := .ro, rst := 0x80 }
/-- R440. -/
def F.THM_STAT_HUB : Fld := { off := 0x40, lo := 8, width := 8, acc := .ro, rst := 0x80 }
/-- R440. -/
def F.THM_STAT_MED_MAX : Fld := { off := 0x40, lo := 16, width := 8, acc := .ro, rst := 0x80 }
/-- R440. -/
def F.THM_STAT_KEEP : Fld := { off := 0x40, lo := 24, width := 8, acc := .ro, rst := 0x80 }
/-- R440. -/
def F.THM_STAT_STACK_MAX : Fld := { off := 0x40, lo := 32, width := 8, acc := .ro, rst := 0x80 }
/-- R441. -/
def F.THM_EVT_WARN : Fld := { off := 0x48, lo := 0, width := 1, acc := .w1c }
/-- R441. -/
def F.THM_EVT_TRIP : Fld := { off := 0x48, lo := 1, width := 1, acc := .w1c }
/-- R441. -/
def F.THM_CTRL_WARN_C : Fld := { off := 0x100, lo := 0, width := 5, acc := .rw, rst := 0xF }
/-- R441. -/
def F.THM_EVT_EN_WARN : Fld := { off := 0x4C, lo := 0, width := 1, acc := .rw }
/-- R441. -/
def F.THM_EVT_EN_TRIP : Fld := { off := 0x4C, lo := 1, width := 1, acc := .rw }
/-! Page `aon`. -/

/-- R464. -/
def F.AON_MODE_MODE : Fld := { off := 0x40, lo := 0, width := 4, acc := .ro, rst := 0x2 }
/-- R464. -/
def F.AON_MODE_BUSY : Fld := { off := 0x40, lo := 4, width := 1, acc := .ro }
/-- R464. -/
def F.AON_MODE_HELD : Fld := { off := 0x40, lo := 5, width := 1, acc := .ro }
/-- R464. -/
def F.AON_MODE_TRIP_HOLD : Fld := { off := 0x40, lo := 6, width := 1, acc := .ro }
/-- R464. -/
def F.AON_MODE_RESULT : Fld := { off := 0x40, lo := 8, width := 8, acc := .ro }
/-- R464. -/
def F.PWR_CMD : Fld := { off := 0x48, lo := 0, width := 4, acc := .wo }
/-- R464. -/
def F.AON_WAKE_EN_SMB_MATCH : Fld := { off := 0x50, lo := 0, width := 1, acc := .rw, sec := true }
/-- R464. -/
def F.AON_WAKE_EN_PRESENT : Fld := { off := 0x50, lo := 1, width := 1, acc := .rw, sec := true }
/-- R464. -/
def F.AON_WAKE_EN_SEAL : Fld := { off := 0x50, lo := 2, width := 1, acc := .rw, sec := true, rst := 0x1 }
/-- R464. -/
def F.AON_WAKE_EN_ALARM : Fld := { off := 0x50, lo := 3, width := 1, acc := .rw, sec := true }
/-- R464. -/
def F.AON_ALARM : Fld := { off := 0x58, lo := 0, width := 32, acc := .rw }
/-- R464. -/
def F.AON_SECONDS : Fld := { off := 0x60, lo := 0, width := 32, acc := .ro }
/-- R464. -/
def F.AON_WREC0 : Fld := { off := 0x70, lo := 0, width := 64, acc := .ro }
/-- R464. -/
def F.AON_WREC1 : Fld := { off := 0x78, lo := 0, width := 64, acc := .ro }
/-- R464. -/
def F.AON_WREC2 : Fld := { off := 0x80, lo := 0, width := 64, acc := .ro }
/-- R464. -/
def F.AON_EVT_WAKE_DONE : Fld := { off := 0x90, lo := 0, width := 1, acc := .w1c }
/-- R464. -/
def F.AON_EVT_WAKE_FAIL : Fld := { off := 0x90, lo := 1, width := 1, acc := .w1c }
/-- R464. -/
def F.AON_EVT_CMD_DONE : Fld := { off := 0x90, lo := 2, width := 1, acc := .w1c }
/-- R464. -/
def F.AON_EVT_DEFERRED : Fld := { off := 0x90, lo := 3, width := 1, acc := .w1c }
/-- R464. -/
def F.AON_EVT_EN : Fld := { off := 0x94, lo := 0, width := 4, acc := .rw }
/-- R464. -/
def F.AON_TUNE_RETRY_N : Fld := { off := 0x100, lo := 0, width := 2, acc := .rw, sec := true, rst := 0x2 }
/-- R464. -/
def F.AON_TUNE_RETRY_S : Fld := { off := 0x100, lo := 8, width := 8, acc := .rw, sec := true, rst := 0xA }
/-- R464. -/
def F.AON_TUNE_TRIP_HOLD_S : Fld := { off := 0x100, lo := 16, width := 16, acc := .rw, sec := true, rst := 0x3C }
/-- R464. -/
def F.AON_CNT_PMB_RETRY : Fld := { off := 0x120, lo := 0, width := 32, acc := .rc }
/-- R464. -/
def F.AON_CNT_WAKE : Fld := { off := 0x124, lo := 0, width := 32, acc := .rc }
/-! Page `pwr`. -/

/-- R465. -/
def F.PWR_HOLD : Fld := { off := 0x40, lo := 0, width := 43, acc := .rw, sec := true, kept := true }
/-- R465. -/
def F.PWR_STAT_PKG_W : Fld := { off := 0x48, lo := 0, width := 10, acc := .ro }
/-- R465. -/
def F.PWR_STAT_AVG_W : Fld := { off := 0x48, lo := 16, width := 10, acc := .ro }
/-- R465. -/
def F.PWR_STAT_WEIR : Fld := { off := 0x48, lo := 28, width := 4, acc := .ro }
/-- R465. -/
def F.PWR_EVT_OVER : Fld := { off := 0x50, lo := 0, width := 1, acc := .w1c, kept := true }
/-- R465. -/
def F.PWR_EVT_WEIR : Fld := { off := 0x50, lo := 1, width := 1, acc := .w1c, kept := true }
/-- R465. -/
def F.PWR_EVT_DOM : Fld := { off := 0x50, lo := 2, width := 1, acc := .w1c, kept := true }
/-- R465. -/
def F.PWR_EVT_DEFER : Fld := { off := 0x50, lo := 3, width := 1, acc := .w1c, kept := true }
/-- R465. -/
def F.PWR_EVT_EN : Fld := { off := 0x54, lo := 0, width := 4, acc := .rw }
/-- R466. -/
def F.PWR_LIMIT_W : Fld := { off := 0x100, lo := 0, width := 10, acc := .rw, sec := true, rst := 0x2BC }
/-- R466. -/
def F.PWR_TAU_S : Fld := { off := 0x100, lo := 16, width := 6, acc := .rw, sec := true, rst := 0x8 }
/-- R466. -/
def F.PWR_BURST_W : Fld := { off := 0x104, lo := 0, width := 10, acc := .rw, sec := true, rst := 0x320 }
/-- R466. -/
def F.PWR_QCUR_A : Fld := { off := 0x104, lo := 16, width := 7, acc := .rw, sec := true, rst := 0x64 }
/-- R466. -/
def F.PWR_FLOOR : Fld := { off := 0x104, lo := 24, width := 6, acc := .rw, sec := true, rst := 0xA }
/-- R466. -/
def F.PWR_VIN_CMD : Fld := { off := 0x108, lo := 0, width := 4, acc := .rw, sec := true, rst := 0x4 }
/-- R466. -/
def F.PWR_VIN_STILL : Fld := { off := 0x108, lo := 8, width := 4, acc := .rw, sec := true, rst := 0x2 }
/-- R466. -/
def F.STILL_DEEP_TILE_MS : Fld := { off := 0x110, lo := 0, width := 16, acc := .rw, rst := 0x5 }
/-- R466. -/
def F.STILL_DEEP_HUB_MS : Fld := { off := 0x110, lo := 16, width := 16, acc := .rw, rst := 0x14 }
/-- R466. -/
def F.PWR_CNT_STEP : Fld := { off := 0x120, lo := 0, width := 32, acc := .rc }
/-- R466. -/
def F.PWR_CNT_DEFER : Fld := { off := 0x124, lo := 0, width := 32, acc := .rc }
/-- R467. -/
def F.PWR_DOM_DOM_REQ : Fld := { off := 0x1000, lo := 0, width := 1, acc := .rw, stride := 0x4, count := 43 }
/-- R467. -/
def F.PWR_DOM_STATE : Fld := { off := 0x1000, lo := 4, width := 2, acc := .ro, stride := 0x4, count := 43 }
/-- R467. -/
def F.PWR_DOM_HELD : Fld := { off := 0x1000, lo := 8, width := 1, acc := .ro, stride := 0x4, count := 43 }
/-- R467. -/
def F.PWR_DOM_PEND : Fld := { off := 0x1000, lo := 9, width := 1, acc := .ro, stride := 0x4, count := 43 }
/-- R467. -/
def F.PWR_DOM_RESULT : Fld := { off := 0x1000, lo := 12, width := 4, acc := .ro, stride := 0x4, count := 43 }
/-- R468. -/
def F.TILE_FREQ_FREQ : Fld := { off := 0x2000, lo := 0, width := 6, acc := .rw, rst := 0x1C, kept := true, stride := 0x4, count := 32 }
/-- R468. -/
def F.TILE_FREQ_CAP : Fld := { off := 0x2000, lo := 8, width := 6, acc := .ro, rst := 0x20, stride := 0x4, count := 32 }
/-- R468. -/
def F.TILE_FREQ_CUR : Fld := { off := 0x2000, lo := 16, width := 6, acc := .ro, stride := 0x4, count := 32 }
/-- R468. -/
def F.TILE_FREQ_VCORE : Fld := { off := 0x2000, lo := 24, width := 8, acc := .ro, stride := 0x4, count := 32 }
/-! Page `cfg`. -/

/-- R493. -/
def F.CFG_STAT_DEFAULTED : Fld := { off := 0x40, lo := 0, width := 1, acc := .ro, kept := true }
/-- R493. -/
def F.CFG_STAT_CAUSE : Fld := { off := 0x40, lo := 4, width := 4, acc := .ro, kept := true }
/-- R493. -/
def F.CFG_STAT_LCS : Fld := { off := 0x40, lo := 8, width := 3, acc := .ro }
/-- R493. -/
def F.CFG_STAT_SEAL_OPEN : Fld := { off := 0x40, lo := 11, width := 1, acc := .ro }
/-- R493. -/
def F.CFG_STAT_PRES : Fld := { off := 0x40, lo := 12, width := 2, acc := .ro }
/-- R493. -/
def F.CFG_STAT_PRES_S : Fld := { off := 0x40, lo := 14, width := 6, acc := .ro }
/-- R493. -/
def F.CFG_STAT_RECSEG : Fld := { off := 0x40, lo := 20, width := 1, acc := .ro }
/-- R493. -/
def F.CFG_STAT_SHUT_PROG : Fld := { off := 0x40, lo := 24, width := 8, acc := .ro, kept := true }
/-- R494. -/
def F.CFG_EVT_DEFAULTED : Fld := { off := 0x48, lo := 0, width := 1, acc := .w1c, kept := true }
/-- R494. -/
def F.CFG_EVT_SEAL : Fld := { off := 0x48, lo := 1, width := 1, acc := .w1c, kept := true }
/-- R494. -/
def F.CFG_EVT_PRES : Fld := { off := 0x48, lo := 2, width := 1, acc := .w1c, kept := true }
/-- R494. -/
def F.CFG_EVT_LC : Fld := { off := 0x48, lo := 3, width := 1, acc := .w1c, kept := true }
/-- R494. -/
def F.CFG_EVT_TILE : Fld := { off := 0x48, lo := 4, width := 1, acc := .w1c, kept := true }
/-- R494. -/
def F.CFG_EVT_EN_DEFAULTED : Fld := { off := 0x4C, lo := 0, width := 1, acc := .rw }
/-- R494. -/
def F.CFG_EVT_EN_SEAL : Fld := { off := 0x4C, lo := 1, width := 1, acc := .rw }
/-- R494. -/
def F.CFG_EVT_EN_PRES : Fld := { off := 0x4C, lo := 2, width := 1, acc := .rw }
/-- R494. -/
def F.CFG_EVT_EN_LC : Fld := { off := 0x4C, lo := 3, width := 1, acc := .rw }
/-- R494. -/
def F.CFG_EVT_EN_TILE : Fld := { off := 0x4C, lo := 4, width := 1, acc := .rw }
/-- R495. -/
def F.LC_CMD : Fld := { off := 0x50, lo := 0, width := 4, acc := .wo, sec := true }
/-- R495. -/
def F.LC_SRC : Fld := { off := 0x58, lo := 0, width := 52, acc := .rw, sec := true }
/-- R495. -/
def F.LC_LEN : Fld := { off := 0x60, lo := 0, width := 22, acc := .rw, sec := true }
/-- R495. -/
def F.LC_STAT_BUSY : Fld := { off := 0x68, lo := 0, width := 1, acc := .ro }
/-- R495. -/
def F.LC_STAT_RESULT : Fld := { off := 0x68, lo := 8, width := 8, acc := .ro }
/-- R495. -/
def F.CFG_ENTRY : Fld := { off := 0x70, lo := 0, width := 52, acc := .ro, kept := true }
/-- R495. -/
def F.CFG_REC_ENTRY : Fld := { off := 0x78, lo := 0, width := 52, acc := .ro, kept := true }
/-- R496. -/
def F.CFG_START_TILE : Fld := { off := 0x90, lo := 0, width := 5, acc := .wo, sec := true }
/-- R496. -/
def F.CFG_START_GO : Fld := { off := 0x90, lo := 8, width := 1, acc := .wo, sec := true }
/-- R496. -/
def F.START_PC : Fld := { off := 0x98, lo := 0, width := 52, acc := .rw, sec := true }
/-- R496. -/
def F.TILE_CMD_OP : Fld := { off := 0xA0, lo := 0, width := 2, acc := .wo, sec := true }
/-- R496. -/
def F.TILE_CMD_TILE : Fld := { off := 0xA0, lo := 4, width := 5, acc := .wo, sec := true }
/-- R496. -/
def F.CFG_TILE_STAT_BUSY : Fld := { off := 0xA8, lo := 0, width := 1, acc := .ro }
/-- R496. -/
def F.CFG_TILE_STAT_STEP : Fld := { off := 0xA8, lo := 1, width := 3, acc := .ro }
/-- R496. -/
def F.CFG_TILE_STAT_RESULT : Fld := { off := 0xA8, lo := 8, width := 8, acc := .ro }
/-- R496. -/
def F.CFG_TMAP_PHYS : Fld := { off := 0x1000, lo := 0, width := 6, acc := .ro, stride := 0x4, count := 32 }
/-- R496. -/
def F.CFG_TMAP_VALID : Fld := { off := 0x1000, lo := 8, width := 1, acc := .ro, stride := 0x4, count := 32 }
/-- R496. -/
def F.CFG_TMAP_HALF : Fld := { off := 0x1000, lo := 9, width := 1, acc := .ro, stride := 0x4, count := 32 }
/-- R496. -/
def F.CFG_TMAP_RUN : Fld := { off := 0x1000, lo := 10, width := 1, acc := .ro, stride := 0x4, count := 32 }
/-- R496. -/
def F.CFG_PTILE_STATE : Fld := { off := 0x1100, lo := 0, width := 3, acc := .ro, stride := 0x4, count := 36 }
/-- R496. -/
def F.CFG_PTILE_STEP : Fld := { off := 0x1100, lo := 8, width := 8, acc := .ro, stride := 0x4, count := 36 }
/-! Page `stest`. -/

/-- R511. -/
def F.ST_CMD_OP : Fld := { off := 0x40, lo := 0, width := 4, acc := .wo, sec := true }
/-- R511. -/
def F.ST_CMD_UNIT : Fld := { off := 0x40, lo := 4, width := 6, acc := .wo, sec := true }
/-- R511. -/
def F.ST_CMD_CLASS : Fld := { off := 0x40, lo := 10, width := 4, acc := .wo, sec := true }
/-- R511. -/
def F.ST_STAT_BUSY : Fld := { off := 0x48, lo := 0, width := 1, acc := .ro }
/-- R511. -/
def F.ST_STAT_INTERRUPTED : Fld := { off := 0x48, lo := 1, width := 1, acc := .ro, kept := true }
/-- R511. -/
def F.ST_STAT_RESULT : Fld := { off := 0x48, lo := 8, width := 8, acc := .ro }
/-- R511. -/
def F.ST_STAT_CUR_UNIT : Fld := { off := 0x48, lo := 16, width := 6, acc := .ro }
/-- R511. -/
def F.ST_STAT_LAST_PROG : Fld := { off := 0x48, lo := 24, width := 3, acc := .ro, kept := true }
/-- R511. -/
def F.ST_EVT_DONE : Fld := { off := 0x50, lo := 0, width := 1, acc := .w1c, kept := true }
/-- R511. -/
def F.ST_EVT_FAIL : Fld := { off := 0x50, lo := 1, width := 1, acc := .w1c, kept := true }
/-- R511. -/
def F.ST_EVT_REPAIR : Fld := { off := 0x50, lo := 2, width := 1, acc := .w1c, kept := true }
/-- R511. -/
def F.ST_EVT_EXHAUST : Fld := { off := 0x50, lo := 3, width := 1, acc := .w1c, kept := true }
/-- R511. -/
def F.ST_EVT_EN : Fld := { off := 0x54, lo := 0, width := 4, acc := .rw }
/-- R511. -/
def F.ST_PATTERNS : Fld := { off := 0x100, lo := 0, width := 16, acc := .rw, sec := true, rst := 0x20 }
/-- R511. -/
def F.ST_SEED : Fld := { off := 0x108, lo := 0, width := 64, acc := .rw, sec := true, rk := .fusedSeed }
/-! Page `err`. -/

/-- R524. -/
def F.ERR_SLOT : Fld := { off := 0x40, lo := 0, width := 49, acc := .ro }
/-- R524. -/
def F.ERR_EVT_UE : Fld := { off := 0x48, lo := 0, width := 1, acc := .w1c, kept := true }
/-- R524. -/
def F.ERR_EVT_HWFAULT : Fld := { off := 0x48, lo := 1, width := 1, acc := .w1c, kept := true }
/-- R524. -/
def F.ERR_EVT_WRAP : Fld := { off := 0x48, lo := 2, width := 1, acc := .w1c, kept := true }
/-- R524. -/
def F.ERR_EVT_RECOVERED : Fld := { off := 0x48, lo := 3, width := 1, acc := .w1c, kept := true }
/-- R524. -/
def F.ERR_EVT_EN : Fld := { off := 0x4C, lo := 0, width := 4, acc := .rw }
/-- R524. -/
def F.ERR_CTRL_FORCE : Fld := { off := 0x50, lo := 0, width := 1, acc := .wo, sec := true }
/-- R524. -/
def F.ERR_LOG_CNT : Fld := { off := 0x58, lo := 0, width := 32, acc := .ro, kept := true }
/-- R524. -/
def F.FATAL_N : Fld := { off := 0x60, lo := 0, width := 24, acc := .ro }
/-! Page `pmu`. -/

/-- R529. -/
def F.PMU_CTRL_FREEZE : Fld := { off := 0x40, lo := 0, width := 1, acc := .rw }
/-- R529. -/
def F.PMU_CTRL_CLEAR : Fld := { off := 0x40, lo := 1, width := 1, acc := .wo }
/-- R529. -/
def F.PMU_EVENT : Fld := { off := 0x1000, lo := 0, width := 8, acc := .rw, kept := true, stride := 0x20, count := 16 }
/-- R529. -/
def F.PMU_SITE : Fld := { off := 0x1000, lo := 8, width := 4, acc := .rw, rst := 0x8, kept := true, stride := 0x20, count := 16 }
/-- R529. -/
def F.PMU_CHAIN : Fld := { off := 0x1000, lo := 12, width := 1, acc := .rw, kept := true, stride := 0x20, count := 16 }
/-- R529. -/
def F.PMU_OVF : Fld := { off := 0x1000, lo := 13, width := 1, acc := .w1c, kept := true, stride := 0x20, count := 16 }
/-- R529. -/
def F.PMU_OVF_IEN : Fld := { off := 0x1000, lo := 14, width := 1, acc := .rw, kept := true, stride := 0x20, count := 16 }
/-- R529. -/
def F.PMU_EN : Fld := { off := 0x1000, lo := 15, width := 1, acc := .rw, kept := true, stride := 0x20, count := 16 }
/-- R529. -/
def F.PMU_MASTER : Fld := { off := 0x1000, lo := 16, width := 6, acc := .rw, kept := true, stride := 0x20, count := 16 }
/-- R529. -/
def F.PMU_MMASK : Fld := { off := 0x1000, lo := 24, width := 6, acc := .rw, kept := true, stride := 0x20, count := 16 }
/-- R529. -/
def F.PMU_WSEL : Fld := { off := 0x1000, lo := 32, width := 2, acc := .rw, kept := true, stride := 0x20, count := 16 }
/-- R529. -/
def F.PMU_CLASS : Fld := { off := 0x1000, lo := 36, width := 4, acc := .rw, rst := 0xF, kept := true, stride := 0x20, count := 16 }
/-- R529. -/
def F.PMU_RANGE : Fld := { off := 0x1000, lo := 40, width := 1, acc := .rw, kept := true, stride := 0x20, count := 16 }
/-- R529. -/
def F.PMU_LO : Fld := { off := 0x1008, lo := 6, width := 46, acc := .rw, kept := true, stride := 0x20, count := 16 }
/-- R529. -/
def F.PMU_HI : Fld := { off := 0x1010, lo := 6, width := 46, acc := .rw, kept := true, stride := 0x20, count := 16 }
/-- R529. -/
def F.PMU_COUNT : Fld := { off := 0x1018, lo := 0, width := 32, acc := .rw, kept := true, stride := 0x20, count := 16 }
/-! Page `trace`. -/

/-- R532. -/
def F.TRC_CTRL_EN : Fld := { off := 0x40, lo := 0, width := 1, acc := .rw }
/-- R532. -/
def F.TRC_CTRL_STOP : Fld := { off := 0x40, lo := 1, width := 1, acc := .rw }
/-- R532. -/
def F.TRC_CTRL_SEC : Fld := { off := 0x40, lo := 2, width := 1, acc := .rw, sec := true }
/-- R532. -/
def F.TRC_CTRL_BANK : Fld := { off := 0x40, lo := 3, width := 1, acc := .rw }
/-- R532. -/
def F.TRC_CTRL_SRCMASK : Fld := { off := 0x40, lo := 8, width := 6, acc := .rw, rst := 0x3F }
/-- R532. -/
def F.TRC_MARK : Fld := { off := 0x48, lo := 0, width := 32, acc := .wo }
/-- R532. -/
def F.TRC_IDX : Fld := { off := 0x50, lo := 0, width := 32, acc := .ro, kept := true }
/-- R532. -/
def F.TRC_FULL : Fld := { off := 0x58, lo := 0, width := 1, acc := .w1c, kept := true }

def page_hdr_0 : List Fld :=
  [F.UNIT_ERR_CE, F.UNIT_ERR_UE, F.UNIT_ERR_DENIED, F.UNIT_ERR_HWFAULT, F.UNIT_ERR_FATAL, F.UNIT_ERR_CHILD, F.UNIT_ERR_FIRST, F.UNIT_ERR_IEN, F.UNIT_ERR_CNT, F.UNIT_READY_READY, F.UNIT_READY_ALL, F.UNIT_ID_KIND, F.UNIT_ID_INDEX, F.UNIT_ID_SLOT, F.UNIT_VER_VER, F.UNIT_VER_MAXVER, F.UNIT_VER_STEP, F.UNIT_PWR_STATE, F.UNIT_PWR_DOMAIN, F.UNIT_TEST_TIDX, F.UNIT_TEST_OUTCOME, F.UNIT_TEST_SUSPECT, F.UNIT_TEST_RUN]
/-- The fields of page `hdr`. -/
def page_hdr : List Fld := page_hdr_0
def page_hub_0 : List Fld :=
  [F.PKG_IDENT_PART, F.PKG_IDENT_BUILD, F.PKG_STEP_HUB, F.PKG_STEP_KEEP, F.PKG_STEP_TILE_LO, F.PKG_STEP_TILE_HI, F.PKG_STEP_MED_LO, F.PKG_STEP_MED_HI, F.PKG_STEP_MIX, F.PKG_FEAT_VZ, F.PKG_FEAT_YL, F.PKG_FEAT_QP]
/-- The fields of page `hub`. -/
def page_hub : List Fld := page_hub_0
def page_act_0 : List Fld :=
  [F.YL_CTRL_EN, F.YL_CTRL_RETRAIN, F.YL_CTRL_RETRACT, F.YL_CTRL_SLEEP, F.YL_CTRL_VCAP, F.YL_STAT_STATE, F.YL_STAT_VER, F.YL_STAT_BRIDGE, F.YL_STAT_READERS, F.YL_STAT_PARKED, F.YL_STAT_HB_RUN, F.YL_STAT_HEAD, F.YL_STAT_TRIES, F.YL_EVT_UP, F.YL_EVT_DOWN, F.YL_EVT_FAILED, F.YL_EVT_REJECT, F.YL_EVT_FAULT, F.YL_EVT_WABORT, F.YL_EVT_RETRACTED, F.YL_EVT_SB_LOST, F.YL_EVT_SB_RX, F.YL_EVT_SHOCK, F.YL_EVT_EN_UP]
def page_act_1 : List Fld :=
  [F.YL_EVT_EN_DOWN, F.YL_EVT_EN_FAILED, F.YL_EVT_EN_REJECT, F.YL_EVT_EN_FAULT, F.YL_EVT_EN_WABORT, F.YL_EVT_EN_RETRACTED, F.YL_EVT_EN_SB_LOST, F.YL_EVT_EN_SB_RX, F.YL_EVT_EN_SHOCK, F.YL_BRIDGE_VENDOR, F.YL_BRIDGE_MODEL, F.YL_BRIDGE_VMIN, F.YL_BRIDGE_VMAX, F.YL_BRIDGE_NREAD, F.YL_BRIDGE_HEADS, F.YL_BRIDGE_WLAT, F.YL_BRIDGE_BREV, F.YL_SERIAL, F.YL_TXEQ_PRE, F.YL_TXEQ_MAIN, F.YL_TXEQ_POST, F.YL_RTT_RTT, F.YL_FEC_CORR, F.YL_FEC_UNCORR]
def page_act_2 : List Fld :=
  [F.YL_FEC_WABORT_DISC, F.YL_LOSS_LOSS_FRAMES, F.YL_LOSS_TEST_CORR, F.YL_SB_TXC_TX_OP, F.YL_SB_TXC_GO, F.YL_SB_TXC_FAIL, F.YL_SB_TXC_TX_STAT, F.YL_SB_TXD_TXD, F.YL_SB_RXC_RX_OP, F.YL_SB_RXC_FULL, F.YL_SB_RXD_RXD, F.CH_RQ_CFG_LOG2N, F.CH_RQ_CFG_BASE, F.CH_CQ_CFG_LOG2N, F.CH_CQ_CFG_BASE, F.CH_SOFT_CFG_LOG2N, F.CH_SOFT_CFG_BASE, F.CH_CTRL_EN, F.CH_CTRL_PAUSE, F.CH_CTRL_ADAPT, F.CH_CTRL_WBACK, F.CH_CTRL_LADDER, F.CH_CTRL_DEEP, F.CH_STAT_IDLE]
def page_act_3 : List Fld :=
  [F.CH_STAT_MODE, F.CH_STAT_ACTIVE, F.CH_STAT_MEDIUM, F.CH_STAT_CANCEL_FULL, F.CH_EVT_CQ, F.CH_EVT_UNCORR, F.CH_EVT_SOFT_DROP, F.CH_EVT_CFG_ERR, F.CH_EVT_BAD_ENTRY, F.CH_EVT_TAGCHK, F.CH_EVT_EN_CQ, F.CH_EVT_EN_UNCORR, F.CH_EVT_EN_SOFT_DROP, F.CH_EVT_EN_CFG_ERR, F.CH_EVT_EN_BAD_ENTRY, F.CH_EVT_EN_TAGCHK, F.CH_RQ_TAIL, F.CH_RQ_HEAD, F.CH_CQ_TAIL, F.CH_CQ_HEAD, F.CH_SOFT_TAIL, F.CH_SOFT_HEAD, F.CH_CANCEL, F.CH_DEC_LOCAL_MAX]
def page_act_4 : List Fld :=
  [F.CH_DEC_DEEP_LOCAL, F.CH_DEC_DEEP_GLOBAL, F.CH_DEC_ESTOP, F.CH_SYNC_TOL, F.CH_SYNC_WIN, F.CH_CNT_GOOD, F.CH_CNT_RECOV, F.CH_CNT_UNCORR, F.CH_CNT_REREAD, F.CH_CNT_DEEP, F.CH_CNT_MISCORR, F.CH_CNT_NOSYNC, F.CH_CNT_RWAIT, F.CH_CNT_WBLOST, F.CH_CNT_ERASED, F.ZSET_RATE, F.ZSET_JOINT, F.ZSET_TGT_ADAPT, F.ZSET_DLY_L, F.ZSET_DLY_C, F.ZSET_TARGET, F.ZSET_MU_FFE, F.ZSET_MU_TGT, F.ZSET_KP_ACQ]
def page_act_5 : List Fld :=
  [F.ZSET_KI_ACQ, F.ZSET_KP_TRK, F.ZSET_KI_TRK, F.ZSET_ACQ_LEN, F.ZSET_LLR_SCALE, F.ZSET_FFE0, F.ZSET_FFE1, F.ZSET_FFE2, F.ZSET_NP, F.SV_CTRL_EN, F.SV_CTRL_AUTO_TRIM, F.SV_CMD_OP, F.SV_CMD_PROF, F.SV_CMD_HEAD, F.SV_CMD_TRACK, F.SV_CMD_OFFSET, F.SV_STAT_STATE, F.SV_STAT_HEAD, F.SV_STAT_ONTRACK, F.SV_STAT_WRITE_OK, F.SV_STAT_BUSY, F.SV_STAT_SPIN_BUSY, F.SV_STAT_SPIN, F.SV_STAT_LOCK]
def page_act_6 : List Fld :=
  [F.SV_STAT_GATE_LOCK, F.SV_STAT_TRACK, F.SV_STAT_WEDGE, F.SV_STAT_PRED, F.SV_RESULT_RESULT, F.SV_RESULT_OP, F.SV_PES, F.SV_EVT_DONE, F.SV_EVT_SERVO_LOST, F.SV_EVT_LINK_LOST, F.SV_EVT_SHOCK_HOLD, F.SV_EVT_SPIN_TMO, F.SV_EVT_WR_DROP, F.SV_EVT_LATE, F.SV_EVT_EN_DONE, F.SV_EVT_EN_SERVO_LOST, F.SV_EVT_EN_LINK_LOST, F.SV_EVT_EN_SHOCK_HOLD, F.SV_EVT_EN_SPIN_TMO, F.SV_EVT_EN_WR_DROP, F.SV_EVT_EN_LATE, F.SV_WIN_WR_WIN, F.SV_WIN_RD_WIN, F.SV_WIN_LOST_MAX]
def page_act_7 : List Fld :=
  [F.SV_WIN_SHOCK_HOLD, F.SV_SHOCK_SHOCK_THR, F.SV_SHOCK_TRIM_THR, F.SV_SHOCK_SETTLE_MAX, F.SV_FIELD_SAM, F.SV_FIELD_TID_BITS, F.SV_FIELD_SBIT, F.SV_FIELD_BLEN, F.SV_FIELD_GATE_LEN, F.SV_FIELD_PES_GAIN, F.SV_LIM_VCM_LIM, F.SV_LIM_MA_LIM, F.SV_LIM_BANK, F.SV_LIM_SWAP, F.SV_SAM_OFF, F.SV_SAM_NOM, F.SV_CNT_LOST, F.SV_CNT_LATE, F.SV_CNT_SHOCK, F.SV_CNT_WRDROP, F.SV_CNT_TRIM, F.PROF_A_ACC, F.PROF_A_DEC, F.PROF_V_MAX]
def page_act_8 : List Fld :=
  [F.PROF_SETTLE_N, F.PROF_SETTLE_WIN, F.BANK_b0, F.BANK_b1, F.BANK_b2, F.BANK_a1, F.BANK_a2, F.BANK_KFF, F.BANK_BIAS, F.RRO, F.SL_CTRL_EN, F.SL_CTRL_PAUSE, F.SL_CTRL_VMODE, F.SL_CTRL_SLIP_MAX, F.SL_CTRL_REWRITE_MAX, F.SL_STAT_IDLE, F.SL_STAT_WRITING, F.SL_STAT_FILLING, F.SL_STAT_JWAIT, F.SL_STAT_ENTRIES, F.SL_STAT_FREE, F.SL_EVT_CQ, F.SL_EVT_SLIP_LIMIT, F.SL_EVT_REWRITE_LIMIT]
def page_act_9 : List Fld :=
  [F.SL_EVT_CFG_ERR, F.SL_EVT_BAD_ENTRY, F.SL_EVT_JFULL, F.SL_EVT_RATE_REFUSED, F.SL_EVT_VFAIL, F.SL_EVT_EN_CQ, F.SL_EVT_EN_SLIP_LIMIT, F.SL_EVT_EN_REWRITE_LIMIT, F.SL_EVT_EN_CFG_ERR, F.SL_EVT_EN_BAD_ENTRY, F.SL_EVT_EN_JFULL, F.SL_EVT_EN_RATE_REFUSED, F.SL_EVT_EN_VFAIL, F.SL_WQ_CFG_LOG2N, F.SL_WQ_CFG_BASE, F.SL_CQ_CFG_LOG2N, F.SL_CQ_CFG_BASE, F.SL_WQ_TAIL, F.SL_WQ_HEAD, F.SL_CQ_TAIL, F.SL_CQ_HEAD, F.SL_CANCEL, F.SL_TUNE_LEAD, F.SL_TUNE_ITER_MAX]
def page_act_10 : List Fld :=
  [F.SL_TUNE_GUARD, F.SL_TUNE_PHASE, F.SL_SEQ_NEXT, F.SL_FURROW_FIRST, F.SL_FURROW_COUNT, F.SL_CNT_DONE, F.SL_CNT_SLIP, F.SL_CNT_LATEFILL, F.SL_CNT_REWRITE, F.SL_CNT_VFAILCW, F.SL_CNT_JWAIT, F.SL_CNT_LATEABORT]
/-- The fields of page `act`. -/
def page_act : List Fld := page_act_0 ++ page_act_1 ++ page_act_2 ++ page_act_3 ++ page_act_4 ++ page_act_5 ++ page_act_6 ++ page_act_7 ++ page_act_8 ++ page_act_9 ++ page_act_10
def page_die_0 : List Fld :=
  [F.CHD_DEEP_QUEUED, F.CHD_DEEP_BUSY, F.CHD_DEEP_SKIP, F.CHD_HTAB, F.SVD_SPIN_SPIN_MAX, F.SVD_SPIN_SPIN_TMO, F.SVD_SPIN_ILIM, F.SVD_SPIN_ACTIVE, F.SVD_SPIN_QUEUED, F.SVD_SPIN_Q_ASM, F.SLD_JCFG_JLOG2, F.SLD_JCFG_JBASE, F.SLD_JCFG_LOCK, F.SLD_JTAIL, F.SLD_JHEAD, F.MXT_CNT_MISS, F.MXT_CNT_REFUSED]
/-- The fields of page `die`. -/
def page_die : List Fld := page_die_0
def page_stripe_0 : List Fld :=
  [F.STR_DQ_CFG_LOG2N, F.STR_DQ_CFG_BASE, F.STR_CQ_CFG_LOG2N, F.STR_CQ_CFG_BASE, F.STR_DQ_TAIL, F.STR_DQ_HEAD, F.STR_CQ_TAIL, F.STR_CQ_HEAD, F.STR_CTRL_EN, F.STR_CTRL_PAUSE, F.STR_STAT_IDLE, F.STR_STAT_ACTIVE, F.STR_EVT_CQ, F.STR_EVT_MISMATCH, F.STR_EVT_TOO_MANY, F.STR_EVT_BAD_ENTRY, F.STR_EVT_POISON, F.STR_EVT_CFG_ERR, F.STR_EVT_DOWN, F.STR_EVT_EN_CQ, F.STR_EVT_EN_MISMATCH, F.STR_EVT_EN_TOO_MANY, F.STR_EVT_EN_BAD_ENTRY, F.STR_EVT_EN_POISON]
def page_stripe_1 : List Fld :=
  [F.STR_EVT_EN_CFG_ERR, F.STR_EVT_EN_DOWN, F.STR_TUNE_RATE_LIM, F.STR_DOWN_LO, F.STR_DOWN_HI, F.STR_CNT_DESC, F.STR_CNT_MISMATCH, F.STR_CNT_POISON, F.STR_CNT_TOOMANY, F.STR_COEF]
/-- The fields of page `stripe`. -/
def page_stripe : List Fld := page_stripe_0 ++ page_stripe_1
def page_key_0 : List Fld :=
  [F.KEY_CTRL_EN, F.KEY_CTRL_LOCK, F.KEY_CTRL_STORE, F.KEY_CMD_OP, F.KEY_CMD_SCOPE, F.KEY_CMD_SLOT, F.KEY_CMD_FN, F.KEY_CMD_NS, F.KEY_SRC_ADDR, F.KEY_STAT_BUSY, F.KEY_STAT_RESULT, F.KEY_STAT_NACTIVE, F.KEY_EVT_DONE, F.KEY_EVT_REFUSED, F.KEY_EVT_EN_DONE, F.KEY_EVT_EN_REFUSED, F.KEY_CNT_REFUSED, F.KEY_SLOT_STATE, F.KEY_SLOT_NS, F.KEY_SLOT_FN, F.KEY_SLOT_GEN]
/-- The fields of page `key`. -/
def page_key : List Fld := page_key_0
def page_sweep_0 : List Fld :=
  [F.SWP_CTRL_PROG, F.SWP_CTRL_LOCK, F.SWP_CMD_OP, F.SWP_CMD_METHOD, F.SWP_CMD_PASSES, F.SWP_CMD_VERIFY, F.SWP_CMD_SHELF, F.SWP_CMD_ASM, F.SWP_GEOM, F.SWP_GEOM_N, F.SWP_DQ_TAIL, F.SWP_DQ_HEAD, F.SWP_SEED, F.SWP_STAT_OP, F.SWP_STAT_PHASE, F.SWP_STAT_BUSY, F.SWP_STAT_PENDING, F.SWP_STAT_RESULT, F.SWP_STAT_PASS, F.SWP_STAT_PERMILLE, F.SWP_EVT_DONE, F.SWP_EVT_PHASE, F.SWP_EVT_STOPPED, F.SWP_EVT_DQ_FULL]
def page_sweep_1 : List Fld :=
  [F.SWP_EVT_EN, F.SWP_MISS, F.SWP_CNT_SECT, F.SWP_CNT_DEFECT, F.SWP_CNT_DEFLOST, F.SWP_TUNE_SKEW, F.SWP_TUNE_PROF, F.SWP_TUNE_GAP, F.SWP_DQ_CFG_LOG2N, F.SWP_DQ_CFG_BASE]
/-- The fields of page `sweep`. -/
def page_sweep : List Fld := page_sweep_0 ++ page_sweep_1
def page_pcie_0 : List Fld :=
  [F.PCIE_CTRL_EN, F.PCIE_CTRL_CFG_READY, F.PCIE_CTRL_MAX_WIDTH, F.PCIE_CTRL_MAX_RATE, F.PCIE_STAT_LINK_UP, F.PCIE_STAT_PERST, F.PCIE_STAT_RATE, F.PCIE_STAT_WIDTH, F.PCIE_STAT_FLIT, F.PCIE_STAT_PM, F.PCIE_STAT_NUMVFS, F.PCIE_EVT_LINK_UP, F.PCIE_EVT_LINK_DOWN, F.PCIE_EVT_PERST, F.PCIE_EVT_FLR, F.PCIE_EVT_BME_CLR, F.PCIE_EVT_VFE, F.PCIE_EVT_CTO, F.PCIE_EVT_AER, F.PCIE_EVT_EN_LINK_UP, F.PCIE_EVT_EN_LINK_DOWN, F.PCIE_EVT_EN_PERST, F.PCIE_EVT_EN_FLR, F.PCIE_EVT_EN_BME_CLR]
def page_pcie_1 : List Fld :=
  [F.PCIE_EVT_EN_VFE, F.PCIE_EVT_EN_CTO, F.PCIE_EVT_EN_AER, F.PCIE_FN_EVT, F.PCIE_PM_L1_IDLE, F.PCIE_PM_L0P_IDLE, F.PCIE_PM_LTR_SNOOP, F.PCIE_PM_LTR_NOSNOOP, F.PCIE_PM_PF_SHARE, F.PCIE_PM_PF_QUEUES, F.PCIE_CNT_DROPPED, F.PCIE_CNT_CTO, F.PCIE_CNT_LATECPL, F.PCIE_CNT_L1, F.XQ_CFG_LOG2N, F.XQ_CFG_BASE, F.XC_CFG_LOG2N, F.XC_CFG_BASE, F.XQ_TAIL, F.XQ_HEAD, F.XC_TAIL, F.XC_HEAD, F.XR_CTRL_EN, F.XR_CTRL_PAUSE]
def page_pcie_2 : List Fld :=
  [F.XR_STAT_IDLE, F.XR_STAT_ACTIVE, F.XR_EVT_CQ, F.XR_EVT_BAD_ENTRY, F.XR_EVT_HOST_ERR, F.XR_EVT_CFG_ERR, F.XR_EVT_EN]
/-- The fields of page `pcie`. -/
def page_pcie : List Fld := page_pcie_0 ++ page_pcie_1 ++ page_pcie_2
def page_fnmgr_0 : List Fld :=
  [F.FNM_CTRL_SPLIT, F.FNM_CTRL_LOCK, F.FNM_EVT_REFUSED, F.FNM_EVT_DENIED, F.FNM_EVT_EN_REFUSED, F.FNM_EVT_EN_DENIED, F.FNT_STATE, F.FNT_LIVE, F.FNT_PORT, F.FNT_QUEUES, F.FNT_VECTORS, F.FNT_SHARE, F.FNT_CLASSES, F.FNT_WEIGHT, F.FNT_QUOTA]
/-- The fields of page `fnmgr`. -/
def page_fnmgr : List Fld := page_fnmgr_0
def page_fn_0 : List Fld :=
  [F.FN_INFO_QUEUES, F.FN_INFO_VECTORS, F.FN_INFO_CLASSES, F.FN_INFO_CHANGED, F.FN_INFO_WEIGHT, F.FN_INFO_PROTO, F.FN_INFO_SHARE, F.FN_INFO_QUOTA, F.QP_SQ_LOG2N, F.QP_SQ_BASE, F.QP_CQ_LOG2N, F.QP_CQ_BASE, F.QCTRL_EN, F.QCTRL_CLASS, F.QCTRL_VECTOR, F.QCTRL_IEN, F.QCTRL_COAL_N, F.QCTRL_COAL_US, F.QSTAT_ENABLED, F.QSTAT_FROZEN, F.QSTAT_CAUSE, F.QSTAT_REFUSED, F.QSTAT_BUSY, F.QSTAT_SQ_HEAD]
def page_fn_1 : List Fld :=
  [F.QDB_SQ_TAIL, F.QDB_CQ_HEAD, F.QP_CTRL_VER_REQ, F.QP_CTRL_VER, F.ELOG_CNT, F.MBH_OUT, F.MBH_IN, F.MBH_STAT_IN_FULL, F.MBH_STAT_TAKE, F.MBH_STAT_IN_COLLIDE, F.MBH_STAT_IN_MSG, F.MBH_STAT_OUT_FULL, F.MBH_STAT_OUT_EMPTY, F.MBH_STAT_OUT_COLLIDE, F.MBH_STAT_OUT_TIMEOUT]
/-- The fields of page `fn`. -/
def page_fn : List Fld := page_fn_0 ++ page_fn_1
def page_mbox_0 : List Fld :=
  [F.MBF_OUT, F.MBF_IN, F.MBF_STAT_IN_FULL, F.MBF_STAT_TAKE, F.MBF_STAT_IN_COLLIDE, F.MBF_STAT_IN_MSG, F.MBF_STAT_OUT_FULL, F.MBF_STAT_OUT_EMPTY, F.MBF_STAT_OUT_COLLIDE, F.MBF_STAT_OUT_TIMEOUT, F.MBN_OUT, F.MBN_IN, F.MBN_STAT_IN_FULL, F.MBN_STAT_TAKE, F.MBN_STAT_IN_COLLIDE, F.MBN_STAT_IN_MSG, F.MBN_STAT_OUT_FULL, F.MBN_STAT_OUT_EMPTY, F.MBN_STAT_OUT_COLLIDE, F.MBN_STAT_OUT_TIMEOUT, F.MBS_OUT, F.MBS_IN, F.MBS_STAT_IN_FULL, F.MBS_STAT_TAKE]
def page_mbox_1 : List Fld :=
  [F.MBS_STAT_IN_COLLIDE, F.MBS_STAT_IN_MSG, F.MBS_STAT_OUT_FULL, F.MBS_STAT_OUT_EMPTY, F.MBS_STAT_OUT_COLLIDE, F.MBS_STAT_OUT_TIMEOUT, F.MBB_OUT, F.MBB_IN, F.MBB_STAT_IN_FULL, F.MBB_STAT_TAKE, F.MBB_STAT_IN_COLLIDE, F.MBB_STAT_IN_MSG, F.MBB_STAT_OUT_FULL, F.MBB_STAT_OUT_EMPTY, F.MBB_STAT_OUT_COLLIDE, F.MBB_STAT_OUT_TIMEOUT, F.MBX_TMO_TEN_MS, F.MBX_TMO_WORLD_MS, F.MBX_TMO_SMB_100MS, F.MBX_SMB_ALERT, F.MBX_PEND, F.MBX_PEND_W]
/-- The fields of page `mbox`. -/
def page_mbox : List Fld := page_mbox_0 ++ page_mbox_1
def page_headgate_0 : List Fld :=
  [F.HG_CTRL_EN, F.HG_CTRL_PAUSE, F.HG_EVT_INTAKE, F.HG_EVT_ELOG, F.HG_EVT_RESTART_REFUSED, F.HG_EVT_BADPOST, F.HG_EVT_CFG_ERR, F.HG_EVT_EN, F.HG_RESTART_QMASK, F.HG_TIME, F.HG_ELOG_CNT, F.IN_TAIL, F.IN_HEAD, F.PQ_TAIL, F.PQ_HEAD, F.HG_TUNE_URG_RUN, F.HG_TUNE_WT_HIGH, F.HG_TUNE_WT_NORM, F.HG_TUNE_WT_BULK, F.HG_TUNE_PF_WT, F.HG_CNT_ADMIT, F.HG_CNT_DBDISC, F.HG_CNT_CPLDROP, F.HG_CNT_BADPOST]
def page_headgate_1 : List Fld :=
  [F.HG_CNT_FREEZE, F.HG_CNT_MBCOLL, F.IN_CFG_LOG2N, F.IN_CFG_BASE, F.PQ_CFG_LOG2N, F.PQ_CFG_BASE, F.HG_RESTART_FN, F.HG_FREEZE]
/-- The fields of page `headgate`. -/
def page_headgate : List Fld := page_headgate_0 ++ page_headgate_1
def page_core_0 : List Fld :=
  [F.CORE_MTIMECMP, F.CORE_MSIP, F.CORE_IRQ_NEXT_M, F.CORE_IRQ_NEXT_SS, F.CORE_IRQ_NEXT_NS, F.CORE_MCE_VALID, F.CORE_MCE_PRECISE, F.CORE_MCE_KIND, F.CORE_MCE_W, F.CORE_MCE_H, F.CORE_MCE_PRIV, F.CORE_MCE_V, F.CORE_MCE_LEVEL, F.CORE_MCE_COUNT, F.CORE_MCE_ADDR, F.CORE_MCE_ASID, F.CORE_MCE_VMID, F.CC_CNT_NEAR, F.CC_CNT_FAR, F.CC_CNT_SNPHOLD, F.CC_CNT_PAR_CLEAN, F.CC_CNT_PAR_DIRTY, F.CORE_PMU_LO, F.CORE_PMU_HI]
/-- The fields of page `core`. -/
def page_core : List Fld := page_core_0
def page_tile_0 : List Fld :=
  [F.TL_TUNE_OFFER, F.TL_CNT_BACKINV, F.TL_CNT_OFFER, F.TL_CNT_PAR_CLEAN, F.TL_CNT_PAR_DIRTY]
/-- The fields of page `tile`. -/
def page_tile : List Fld := page_tile_0
def page_irq_0 : List Fld :=
  [F.PKG_TIME, F.ROUTE_HART, F.ROUTE_LEVEL, F.ROUTE_LOCK, F.ROUTE_ASSERTED]
/-- The fields of page `irq`. -/
def page_irq : List Fld := page_irq_0
def page_wmap_0 : List Fld :=
  [F.WMAP_CTRL_COMMIT, F.WMAP_CTRL_LOCK, F.WMAP_STAT_BUSY, F.WMAP_STAT_EPOCH, F.WREG_EN, F.WREG_SECURE, F.WREG_BASE, F.WREG_LIMIT]
/-- The fields of page `wmap`. -/
def page_wmap : List Fld := page_wmap_0
def page_iow_0 : List Fld :=
  [F.IOW_STAT_BUSY, F.IOW_WORLD, F.IOW_WIN_EN, F.IOWW_EN, F.IOWW_R, F.IOWW_W, F.IOWW_BASE, F.IOWW_LIMIT]
/-- The fields of page `iow`. -/
def page_iow : List Fld := page_iow_0
def page_home_0 : List Fld :=
  [F.HOME_STAT_QUEUED, F.HOME_STAT_BUSY_LINES, F.HOME_EVT_PAR_CLEAN, F.HOME_EVT_PAR_DIRTY, F.HOME_EVT_TAG_CE, F.HOME_EVT_EN, F.HOME_TUNE_OFFER_EN, F.HOME_TUNE_LLC_ALLOC, F.HOME_TUNE_OFFER_Q, F.HM_CNT_BACKINV, F.HM_CNT_CROSS_WB, F.HM_CNT_CROSS_EV, F.HM_CNT_STALE, F.HM_CNT_OFFER_ACC, F.HM_CNT_OFFER_DEC, F.HM_CNT_FAR_AMO, F.HM_CNT_CONTENDED, F.HM_CNT_PAR_CLEAN, F.HM_CNT_PAR_DIRTY]
/-- The fields of page `home`. -/
def page_home : List Fld := page_home_0
def page_rme_0 : List Fld :=
  [F.RME0_BASE, F.RME0_LIMIT, F.RME0_OP, F.RME0_AGENT, F.RME0_BUSY, F.RME0_RESULT, F.RME0_LINES, F.RME0_SKIP, F.RME0_DONE, F.RME0_EVT_EN, F.RME1_BASE, F.RME1_LIMIT, F.RME1_OP, F.RME1_AGENT, F.RME1_BUSY, F.RME1_RESULT, F.RME1_LINES, F.RME1_SKIP, F.RME1_DONE, F.RME1_EVT_EN]
/-- The fields of page `rme`. -/
def page_rme : List Fld := page_rme_0
def page_mc_0 : List Fld :=
  [F.MC_STAT_TRAINED, F.MC_STAT_CHK_OK, F.MC_STAT_CHK_FAIL, F.MC_STAT_HOT, F.MC_STAT_TEMP, F.MC_EVT_CE, F.MC_EVT_CE_HARD, F.MC_EVT_UE, F.MC_EVT_ANNEX, F.MC_EVT_LOG_WRAP, F.MC_EVT_HOT, F.MC_EVT_CHK_FAIL, F.MC_IDENT_VENDOR, F.MC_IDENT_DENSITY, F.MC_IDENT_REV, F.MC_IDENT_SERIAL, F.MC_ELOG_CNT, F.MC_EVT_EN_CE, F.MC_EVT_EN_CE_HARD, F.MC_EVT_EN_UE, F.MC_EVT_EN_ANNEX, F.MC_EVT_EN_LOG_WRAP, F.MC_EVT_EN_HOT, F.MC_EVT_EN_CHK_FAIL]
def page_mc_1 : List Fld :=
  [F.MC_SCRUB_EN, F.MC_SCRUB_PERIOD, F.MC_SCRUB_POS, F.MC_TUNE_WB_VERIFY, F.MC_INJ_BITS, F.MC_INJ_BYTE, F.MC_INJ_ARM, F.INJ_ADDR, F.MC_CNT_CE, F.MC_CNT_CE_HARD, F.MC_CNT_CE_DEFER, F.MC_CNT_UE, F.MC_CNT_POISON, F.MC_CNT_ANNEX, F.MC_CNT_WBDROP]
/-- The fields of page `mc`. -/
def page_mc : List Fld := page_mc_0 ++ page_mc_1
def page_memmap_0 : List Fld :=
  [F.MEMMAP_CTRL_COMMIT, F.MEMMAP_CTRL_LOCK, F.MEMMAP_STAT_BUSY, F.MEMMAP_STAT_ERR, F.MEM_TOP, F.FILL_BASE, F.FILL_LIMIT, F.FILL_GO, F.FILL_BUSY, F.FILL_ERR, F.MREG_EN, F.MREG_STRONG, F.MREG_BASE, F.MREG_LIMIT, F.MREG_ANNEX]
/-- The fields of page `memmap`. -/
def page_memmap : List Fld := page_memmap_0
def page_xbar_0 : List Fld :=
  [F.XB_EVT_TIMEOUT, F.XB_EVT_LATE, F.XB_EVT_BADOP, F.XB_EVT_EN, F.XB_TLOG_SRC, F.XB_TLOG_TXN, F.XB_TLOG_OP, F.XB_TLOG_ADDR, F.XB_TMO_NC_US, F.XB_TMO_COH_MS, F.XB_CNT_TMO, F.XB_CNT_LATE, F.XB_CNT_BADOP]
/-- The fields of page `xbar`. -/
def page_xbar : List Fld := page_xbar_0
def page_vz_0 : List Fld :=
  [F.VZ_CTRL_EN, F.VZ_CTRL_RETRAIN, F.VZ_CTRL_FULL, F.VZ_CTRL_ISOLATE, F.VZ_CTRL_VCAP, F.VZ_STAT_STATE, F.VZ_STAT_VER, F.VZ_STAT_TXW, F.VZ_STAT_RXW, F.VZ_STAT_HALF_IDLE, F.VZ_STAT_TRIES, F.VZ_EVT_UP, F.VZ_EVT_DOWN, F.VZ_EVT_FAILED, F.VZ_EVT_MISMATCH, F.VZ_EVT_RETRAIN, F.VZ_EVT_WIDTH, F.VZ_EVT_EN_UP, F.VZ_EVT_EN_DOWN, F.VZ_EVT_EN_FAILED, F.VZ_EVT_EN_MISMATCH, F.VZ_EVT_EN_RETRAIN, F.VZ_EVT_EN_WIDTH, F.VZ_TX_MASK]
def page_vz_1 : List Fld :=
  [F.VZ_RX_MASK, F.VZ_TX_FUSE, F.VZ_RX_FUSE, F.VZ_TUNE_REPLAY_MAX, F.VZ_TUNE_CRC_THR, F.VZ_TUNE_IDLE_US, F.VZ_RTT, F.VZ_CNT_CRC, F.VZ_CNT_REPLAY, F.VZ_CNT_RETRAIN, F.VZ_CNT_MISMATCH, F.VZ_CNT_LANEFAIL, F.VZ_CNT_ISOSNP, F.VZ_CNT_DISC]
/-- The fields of page `vz`. -/
def page_vz : List Fld := page_vz_0 ++ page_vz_1
def page_therm_0 : List Fld :=
  [F.THM_STAT_TILE_MAX, F.THM_STAT_HUB, F.THM_STAT_MED_MAX, F.THM_STAT_KEEP, F.THM_STAT_STACK_MAX, F.THM_EVT_WARN, F.THM_EVT_TRIP, F.THM_CTRL_WARN_C, F.THM_EVT_EN_WARN, F.THM_EVT_EN_TRIP]
/-- The fields of page `therm`. -/
def page_therm : List Fld := page_therm_0
def page_aon_0 : List Fld :=
  [F.AON_MODE_MODE, F.AON_MODE_BUSY, F.AON_MODE_HELD, F.AON_MODE_TRIP_HOLD, F.AON_MODE_RESULT, F.PWR_CMD, F.AON_WAKE_EN_SMB_MATCH, F.AON_WAKE_EN_PRESENT, F.AON_WAKE_EN_SEAL, F.AON_WAKE_EN_ALARM, F.AON_ALARM, F.AON_SECONDS, F.AON_WREC0, F.AON_WREC1, F.AON_WREC2, F.AON_EVT_WAKE_DONE, F.AON_EVT_WAKE_FAIL, F.AON_EVT_CMD_DONE, F.AON_EVT_DEFERRED, F.AON_EVT_EN, F.AON_TUNE_RETRY_N, F.AON_TUNE_RETRY_S, F.AON_TUNE_TRIP_HOLD_S, F.AON_CNT_PMB_RETRY]
def page_aon_1 : List Fld :=
  [F.AON_CNT_WAKE]
/-- The fields of page `aon`. -/
def page_aon : List Fld := page_aon_0 ++ page_aon_1
def page_pwr_0 : List Fld :=
  [F.PWR_HOLD, F.PWR_STAT_PKG_W, F.PWR_STAT_AVG_W, F.PWR_STAT_WEIR, F.PWR_EVT_OVER, F.PWR_EVT_WEIR, F.PWR_EVT_DOM, F.PWR_EVT_DEFER, F.PWR_EVT_EN, F.PWR_LIMIT_W, F.PWR_TAU_S, F.PWR_BURST_W, F.PWR_QCUR_A, F.PWR_FLOOR, F.PWR_VIN_CMD, F.PWR_VIN_STILL, F.STILL_DEEP_TILE_MS, F.STILL_DEEP_HUB_MS, F.PWR_CNT_STEP, F.PWR_CNT_DEFER, F.PWR_DOM_DOM_REQ, F.PWR_DOM_STATE, F.PWR_DOM_HELD, F.PWR_DOM_PEND]
def page_pwr_1 : List Fld :=
  [F.PWR_DOM_RESULT, F.TILE_FREQ_FREQ, F.TILE_FREQ_CAP, F.TILE_FREQ_CUR, F.TILE_FREQ_VCORE]
/-- The fields of page `pwr`. -/
def page_pwr : List Fld := page_pwr_0 ++ page_pwr_1
def page_cfg_0 : List Fld :=
  [F.CFG_STAT_DEFAULTED, F.CFG_STAT_CAUSE, F.CFG_STAT_LCS, F.CFG_STAT_SEAL_OPEN, F.CFG_STAT_PRES, F.CFG_STAT_PRES_S, F.CFG_STAT_RECSEG, F.CFG_STAT_SHUT_PROG, F.CFG_EVT_DEFAULTED, F.CFG_EVT_SEAL, F.CFG_EVT_PRES, F.CFG_EVT_LC, F.CFG_EVT_TILE, F.CFG_EVT_EN_DEFAULTED, F.CFG_EVT_EN_SEAL, F.CFG_EVT_EN_PRES, F.CFG_EVT_EN_LC, F.CFG_EVT_EN_TILE, F.LC_CMD, F.LC_SRC, F.LC_LEN, F.LC_STAT_BUSY, F.LC_STAT_RESULT, F.CFG_ENTRY]
def page_cfg_1 : List Fld :=
  [F.CFG_REC_ENTRY, F.CFG_START_TILE, F.CFG_START_GO, F.START_PC, F.TILE_CMD_OP, F.TILE_CMD_TILE, F.CFG_TILE_STAT_BUSY, F.CFG_TILE_STAT_STEP, F.CFG_TILE_STAT_RESULT, F.CFG_TMAP_PHYS, F.CFG_TMAP_VALID, F.CFG_TMAP_HALF, F.CFG_TMAP_RUN, F.CFG_PTILE_STATE, F.CFG_PTILE_STEP]
/-- The fields of page `cfg`. -/
def page_cfg : List Fld := page_cfg_0 ++ page_cfg_1
def page_stest_0 : List Fld :=
  [F.ST_CMD_OP, F.ST_CMD_UNIT, F.ST_CMD_CLASS, F.ST_STAT_BUSY, F.ST_STAT_INTERRUPTED, F.ST_STAT_RESULT, F.ST_STAT_CUR_UNIT, F.ST_STAT_LAST_PROG, F.ST_EVT_DONE, F.ST_EVT_FAIL, F.ST_EVT_REPAIR, F.ST_EVT_EXHAUST, F.ST_EVT_EN, F.ST_PATTERNS, F.ST_SEED]
/-- The fields of page `stest`. -/
def page_stest : List Fld := page_stest_0
def page_err_0 : List Fld :=
  [F.ERR_SLOT, F.ERR_EVT_UE, F.ERR_EVT_HWFAULT, F.ERR_EVT_WRAP, F.ERR_EVT_RECOVERED, F.ERR_EVT_EN, F.ERR_CTRL_FORCE, F.ERR_LOG_CNT, F.FATAL_N]
/-- The fields of page `err`. -/
def page_err : List Fld := page_err_0
def page_pmu_0 : List Fld :=
  [F.PMU_CTRL_FREEZE, F.PMU_CTRL_CLEAR, F.PMU_EVENT, F.PMU_SITE, F.PMU_CHAIN, F.PMU_OVF, F.PMU_OVF_IEN, F.PMU_EN, F.PMU_MASTER, F.PMU_MMASK, F.PMU_WSEL, F.PMU_CLASS, F.PMU_RANGE, F.PMU_LO, F.PMU_HI, F.PMU_COUNT]
/-- The fields of page `pmu`. -/
def page_pmu : List Fld := page_pmu_0
def page_trace_0 : List Fld :=
  [F.TRC_CTRL_EN, F.TRC_CTRL_STOP, F.TRC_CTRL_SEC, F.TRC_CTRL_BANK, F.TRC_CTRL_SRCMASK, F.TRC_MARK, F.TRC_IDX, F.TRC_FULL]
/-- The fields of page `trace`. -/
def page_trace : List Fld := page_trace_0

/-- The fields of a unit's page beyond the header (R548). -/
def pageFlds : PageKind → List Fld
  | .tile => page_tile
  | .core => page_core
  | .hub => page_hub
  | .home => page_home
  | .pcie => page_pcie
  | .fnmgr => page_fnmgr
  | .headgate => page_headgate
  | .mbox => page_mbox
  | .stripe => page_stripe
  | .key => page_key
  | .sweep => page_sweep
  | .wmap => page_wmap
  | .iow => page_iow
  | .irq => page_irq
  | .rme => page_rme
  | .mc => page_mc
  | .memmap => page_memmap
  | .xbar => page_xbar
  | .therm => page_therm
  | .aon => page_aon
  | .pwr => page_pwr
  | .cfg => page_cfg
  | .stest => page_stest
  | .err => page_err
  | .pmu => page_pmu
  | .trace => page_trace
  | .vz => page_vz
  | .die => page_die
  | .act => page_act
  | .keep => []
  | .fn => page_fn

/-- An event bit, the enable field that covers it, the bit of that field, and the copies (R308, R547). -/
structure EvtPair where
  ev : Fld
  en : Fld
  pos : Nat
  copies : Nat
  deriving DecidableEq, Repr

/-- The events of a unit's page that assert its interrupt source while their enables are 1 (R308, R547). -/
def evtPairs : PageKind → List EvtPair
  | .tile => []
  | .core => []
  | .hub => []
  | .home => [⟨F.HOME_EVT_PAR_CLEAN, F.HOME_EVT_EN, 0, 1⟩, ⟨F.HOME_EVT_PAR_DIRTY, F.HOME_EVT_EN, 1, 1⟩, ⟨F.HOME_EVT_TAG_CE, F.HOME_EVT_EN, 2, 1⟩]
  | .pcie => [⟨F.PCIE_EVT_LINK_UP, F.PCIE_EVT_EN_LINK_UP, 0, 1⟩, ⟨F.PCIE_EVT_LINK_DOWN, F.PCIE_EVT_EN_LINK_DOWN, 0, 1⟩, ⟨F.PCIE_EVT_PERST, F.PCIE_EVT_EN_PERST, 0, 1⟩, ⟨F.PCIE_EVT_FLR, F.PCIE_EVT_EN_FLR, 0, 1⟩, ⟨F.PCIE_EVT_BME_CLR, F.PCIE_EVT_EN_BME_CLR, 0, 1⟩, ⟨F.PCIE_EVT_VFE, F.PCIE_EVT_EN_VFE, 0, 1⟩, ⟨F.PCIE_EVT_CTO, F.PCIE_EVT_EN_CTO, 0, 1⟩, ⟨F.PCIE_EVT_AER, F.PCIE_EVT_EN_AER, 0, 1⟩, ⟨F.XR_EVT_CQ, F.XR_EVT_EN, 0, 16⟩, ⟨F.XR_EVT_BAD_ENTRY, F.XR_EVT_EN, 1, 16⟩, ⟨F.XR_EVT_HOST_ERR, F.XR_EVT_EN, 2, 16⟩, ⟨F.XR_EVT_CFG_ERR, F.XR_EVT_EN, 3, 16⟩]
  | .fnmgr => [⟨F.FNM_EVT_REFUSED, F.FNM_EVT_EN_REFUSED, 0, 1⟩, ⟨F.FNM_EVT_DENIED, F.FNM_EVT_EN_DENIED, 0, 1⟩]
  | .headgate => [⟨F.HG_EVT_ELOG, F.HG_EVT_EN, 4, 1⟩, ⟨F.HG_EVT_RESTART_REFUSED, F.HG_EVT_EN, 5, 1⟩, ⟨F.HG_EVT_BADPOST, F.HG_EVT_EN, 6, 1⟩, ⟨F.HG_EVT_CFG_ERR, F.HG_EVT_EN, 7, 1⟩]
  | .mbox => []
  | .stripe => [⟨F.STR_EVT_CQ, F.STR_EVT_EN_CQ, 0, 1⟩, ⟨F.STR_EVT_MISMATCH, F.STR_EVT_EN_MISMATCH, 0, 1⟩, ⟨F.STR_EVT_TOO_MANY, F.STR_EVT_EN_TOO_MANY, 0, 1⟩, ⟨F.STR_EVT_BAD_ENTRY, F.STR_EVT_EN_BAD_ENTRY, 0, 1⟩, ⟨F.STR_EVT_POISON, F.STR_EVT_EN_POISON, 0, 1⟩, ⟨F.STR_EVT_CFG_ERR, F.STR_EVT_EN_CFG_ERR, 0, 1⟩, ⟨F.STR_EVT_DOWN, F.STR_EVT_EN_DOWN, 0, 1⟩]
  | .key => [⟨F.KEY_EVT_DONE, F.KEY_EVT_EN_DONE, 0, 1⟩, ⟨F.KEY_EVT_REFUSED, F.KEY_EVT_EN_REFUSED, 0, 1⟩]
  | .sweep => [⟨F.SWP_EVT_DONE, F.SWP_EVT_EN, 0, 1⟩, ⟨F.SWP_EVT_PHASE, F.SWP_EVT_EN, 1, 1⟩, ⟨F.SWP_EVT_STOPPED, F.SWP_EVT_EN, 2, 1⟩, ⟨F.SWP_EVT_DQ_FULL, F.SWP_EVT_EN, 3, 1⟩]
  | .wmap => []
  | .iow => []
  | .irq => []
  | .rme => [⟨F.RME0_DONE, F.RME0_EVT_EN, 0, 1⟩, ⟨F.RME1_DONE, F.RME1_EVT_EN, 0, 1⟩]
  | .mc => [⟨F.MC_EVT_CE, F.MC_EVT_EN_CE, 0, 1⟩, ⟨F.MC_EVT_CE_HARD, F.MC_EVT_EN_CE_HARD, 0, 1⟩, ⟨F.MC_EVT_UE, F.MC_EVT_EN_UE, 0, 1⟩, ⟨F.MC_EVT_ANNEX, F.MC_EVT_EN_ANNEX, 0, 1⟩, ⟨F.MC_EVT_LOG_WRAP, F.MC_EVT_EN_LOG_WRAP, 0, 1⟩, ⟨F.MC_EVT_HOT, F.MC_EVT_EN_HOT, 0, 1⟩, ⟨F.MC_EVT_CHK_FAIL, F.MC_EVT_EN_CHK_FAIL, 0, 1⟩]
  | .memmap => []
  | .xbar => [⟨F.XB_EVT_TIMEOUT, F.XB_EVT_EN, 0, 1⟩, ⟨F.XB_EVT_LATE, F.XB_EVT_EN, 1, 1⟩, ⟨F.XB_EVT_BADOP, F.XB_EVT_EN, 2, 1⟩]
  | .therm => [⟨F.THM_EVT_WARN, F.THM_EVT_EN_WARN, 0, 1⟩, ⟨F.THM_EVT_TRIP, F.THM_EVT_EN_TRIP, 0, 1⟩]
  | .aon => [⟨F.AON_EVT_WAKE_DONE, F.AON_EVT_EN, 0, 1⟩, ⟨F.AON_EVT_WAKE_FAIL, F.AON_EVT_EN, 1, 1⟩, ⟨F.AON_EVT_CMD_DONE, F.AON_EVT_EN, 2, 1⟩, ⟨F.AON_EVT_DEFERRED, F.AON_EVT_EN, 3, 1⟩]
  | .pwr => [⟨F.PWR_EVT_OVER, F.PWR_EVT_EN, 0, 1⟩, ⟨F.PWR_EVT_WEIR, F.PWR_EVT_EN, 1, 1⟩, ⟨F.PWR_EVT_DOM, F.PWR_EVT_EN, 2, 1⟩, ⟨F.PWR_EVT_DEFER, F.PWR_EVT_EN, 3, 1⟩]
  | .cfg => [⟨F.CFG_EVT_DEFAULTED, F.CFG_EVT_EN_DEFAULTED, 0, 1⟩, ⟨F.CFG_EVT_SEAL, F.CFG_EVT_EN_SEAL, 0, 1⟩, ⟨F.CFG_EVT_PRES, F.CFG_EVT_EN_PRES, 0, 1⟩, ⟨F.CFG_EVT_LC, F.CFG_EVT_EN_LC, 0, 1⟩, ⟨F.CFG_EVT_TILE, F.CFG_EVT_EN_TILE, 0, 1⟩]
  | .stest => [⟨F.ST_EVT_DONE, F.ST_EVT_EN, 0, 1⟩, ⟨F.ST_EVT_FAIL, F.ST_EVT_EN, 1, 1⟩, ⟨F.ST_EVT_REPAIR, F.ST_EVT_EN, 2, 1⟩, ⟨F.ST_EVT_EXHAUST, F.ST_EVT_EN, 3, 1⟩]
  | .err => [⟨F.ERR_EVT_UE, F.ERR_EVT_EN, 0, 1⟩, ⟨F.ERR_EVT_HWFAULT, F.ERR_EVT_EN, 1, 1⟩, ⟨F.ERR_EVT_WRAP, F.ERR_EVT_EN, 2, 1⟩, ⟨F.ERR_EVT_RECOVERED, F.ERR_EVT_EN, 3, 1⟩]
  | .pmu => []
  | .trace => []
  | .vz => [⟨F.VZ_EVT_UP, F.VZ_EVT_EN_UP, 0, 1⟩, ⟨F.VZ_EVT_DOWN, F.VZ_EVT_EN_DOWN, 0, 1⟩, ⟨F.VZ_EVT_FAILED, F.VZ_EVT_EN_FAILED, 0, 1⟩, ⟨F.VZ_EVT_MISMATCH, F.VZ_EVT_EN_MISMATCH, 0, 1⟩, ⟨F.VZ_EVT_RETRAIN, F.VZ_EVT_EN_RETRAIN, 0, 1⟩, ⟨F.VZ_EVT_WIDTH, F.VZ_EVT_EN_WIDTH, 0, 1⟩]
  | .die => []
  | .act => [⟨F.YL_EVT_UP, F.YL_EVT_EN_UP, 0, 1⟩, ⟨F.YL_EVT_DOWN, F.YL_EVT_EN_DOWN, 0, 1⟩, ⟨F.YL_EVT_FAILED, F.YL_EVT_EN_FAILED, 0, 1⟩, ⟨F.YL_EVT_REJECT, F.YL_EVT_EN_REJECT, 0, 1⟩, ⟨F.YL_EVT_FAULT, F.YL_EVT_EN_FAULT, 0, 1⟩, ⟨F.YL_EVT_WABORT, F.YL_EVT_EN_WABORT, 0, 1⟩, ⟨F.YL_EVT_RETRACTED, F.YL_EVT_EN_RETRACTED, 0, 1⟩, ⟨F.YL_EVT_SB_LOST, F.YL_EVT_EN_SB_LOST, 0, 1⟩, ⟨F.YL_EVT_SB_RX, F.YL_EVT_EN_SB_RX, 0, 1⟩, ⟨F.YL_EVT_SHOCK, F.YL_EVT_EN_SHOCK, 0, 1⟩, ⟨F.CH_EVT_CQ, F.CH_EVT_EN_CQ, 0, 1⟩, ⟨F.CH_EVT_UNCORR, F.CH_EVT_EN_UNCORR, 0, 1⟩, ⟨F.CH_EVT_SOFT_DROP, F.CH_EVT_EN_SOFT_DROP, 0, 1⟩, ⟨F.CH_EVT_CFG_ERR, F.CH_EVT_EN_CFG_ERR, 0, 1⟩, ⟨F.CH_EVT_BAD_ENTRY, F.CH_EVT_EN_BAD_ENTRY, 0, 1⟩, ⟨F.CH_EVT_TAGCHK, F.CH_EVT_EN_TAGCHK, 0, 1⟩, ⟨F.SV_EVT_DONE, F.SV_EVT_EN_DONE, 0, 1⟩, ⟨F.SV_EVT_SERVO_LOST, F.SV_EVT_EN_SERVO_LOST, 0, 1⟩, ⟨F.SV_EVT_LINK_LOST, F.SV_EVT_EN_LINK_LOST, 0, 1⟩, ⟨F.SV_EVT_SHOCK_HOLD, F.SV_EVT_EN_SHOCK_HOLD, 0, 1⟩, ⟨F.SV_EVT_SPIN_TMO, F.SV_EVT_EN_SPIN_TMO, 0, 1⟩, ⟨F.SV_EVT_WR_DROP, F.SV_EVT_EN_WR_DROP, 0, 1⟩, ⟨F.SV_EVT_LATE, F.SV_EVT_EN_LATE, 0, 1⟩, ⟨F.SL_EVT_CQ, F.SL_EVT_EN_CQ, 0, 1⟩, ⟨F.SL_EVT_SLIP_LIMIT, F.SL_EVT_EN_SLIP_LIMIT, 0, 1⟩, ⟨F.SL_EVT_REWRITE_LIMIT, F.SL_EVT_EN_REWRITE_LIMIT, 0, 1⟩, ⟨F.SL_EVT_CFG_ERR, F.SL_EVT_EN_CFG_ERR, 0, 1⟩, ⟨F.SL_EVT_BAD_ENTRY, F.SL_EVT_EN_BAD_ENTRY, 0, 1⟩, ⟨F.SL_EVT_JFULL, F.SL_EVT_EN_JFULL, 0, 1⟩, ⟨F.SL_EVT_RATE_REFUSED, F.SL_EVT_EN_RATE_REFUSED, 0, 1⟩, ⟨F.SL_EVT_VFAIL, F.SL_EVT_EN_VFAIL, 0, 1⟩]
  | .keep => []
  | .fn => []

end Sys2Proof.Machine
end

