-- ==== Sys2Proof/Machine/Tab.lean ====
section
/-! DEFINITION. Sparse tables as plain data: a list of key and value pairs in one canonical form. -/

namespace Sys2Proof.Machine

/-- A sparse table: keys strictly rising; a key that is not listed holds a default that the reader names. -/
abbrev Tab (α : Type) := List (Nat × α)

/-- The value at `k`, `d` where `k` is not listed. -/
def tget {α : Type} (d : α) : Tab α → Nat → α
  | [], _ => d
  | (k', v) :: t, k => if k' = k then v else tget d t k

/-- The table without the key `k`. -/
def tdrop {α : Type} (t : Tab α) (k : Nat) : Tab α := t.filter fun e => decide (e.1 ≠ k)

/-- The table with `v` at `k`; the entry goes when `v` is the default. -/
def tset {α : Type} [DecidableEq α] (d : α) : Tab α → Nat → α → Tab α
  | [], k, v => if v = d then [] else [(k, v)]
  | (k', v') :: t, k, v =>
    if k' = k then (if v = d then tdrop t k else (k, v) :: t)
    else if k < k' then (if v = d then (k', v') :: tdrop t k else (k, v) :: (k', v') :: t)
    else (k', v') :: tset d t k v

/-- Every key is above `lo`, and the keys rise strictly. -/
def tsortedAbove {α : Type} : Option Nat → Tab α → Bool
  | _, [] => true
  | none, (k, _) :: t => tsortedAbove (some k) t
  | some lo, (k, _) :: t => decide (lo < k) && tsortedAbove (some k) t

/-- The keys rise strictly. -/
def tsorted {α : Type} (t : Tab α) : Bool := tsortedAbove none t

/-- No listed value is the default. -/
def tlean {α : Type} [DecidableEq α] (d : α) (t : Tab α) : Bool := t.all fun e => decide (e.2 ≠ d)

/-- The canonical form: keys strictly rising, no listed value equal to the default. -/
def twf {α : Type} [DecidableEq α] (d : α) (t : Tab α) : Bool := tsorted t && tlean d t

/-- The table with the keys that `p` accepts and no others. -/
def tkeep {α : Type} (p : Nat → Bool) (t : Tab α) : Tab α := t.filter fun e => p e.1

/-- The table with `g` applied to the entries listed (`g` maps the default to itself). -/
def tmap {α : Type} [DecidableEq α] (d : α) (g : Nat → α → α) : Tab α → Tab α
  | [] => []
  | (k, v) :: t => if g k v = d then tmap d g t else (k, g k v) :: tmap d g t

end Sys2Proof.Machine
end

