-- ==== Sys2Proof/Types/Out.lean ====
section
/-! DEFINITION. What a command drives out of the package or answers: the record of its visible effects beyond state. -/

namespace Sys2Proof

/-- A downlink frame by its fields (R30). -/
structure DownFrame where
  seq : Nat
  type : Nat
  wg : Bool
  hbSeq : Nat
  head : Nat
  wcount : Nat
  wbits : Nat
  sbOp : Nat
  sbTag : Nat
  ackTag : Nat
  ackStat : Nat
  sbPayload : Nat
  vcm : Int
  ma : Int
  actValid : Bool
  deriving DecidableEq, Repr

/-- One thing that a command drove out of the package or answered. -/
inductive Out where
  /-- A burst of clock pattern on a lane in T0 (R35). -/
  | clockBurst (lane : Nat)
  /-- The continuous clock pattern of T1, and the PRBS13 of T2, start on a lane (R35). -/
  | clockPattern (lane : Nat)
  | prbs13 (lane : Nat)
  /-- A message handed to the lane's sideband (R41–R43). -/
  | sideband (lane op tag payload : Nat)
  /-- A frame sent on a lane: its fields and its 1,120 PAM4 levels, symbol k as digit k to the base 4 (R27, R30). -/
  | downlink (lane : Nat) (f : DownFrame) (levels : Nat)
  /-- Idle sent for 1 µs before the lane drops (R54). -/
  | laneIdle (lane : Nat)
  /-- The bytes of a line that a read or an atomic answered, and whether they are poisoned. -/
  | line (bytes : List Byte) (poison : Bool)
  /-- The value that a read answered. -/
  | value (v : Nat)
  /-- A fill sector of a sweep written on its track, as its 37,004 bytes (R211). -/
  | fillSector (act head track sect : Nat) (bytes : List Byte)
  /-- The TLP of this function that follows carries an ECRC (R221). -/
  | ecrc (fn : Nat)
  /-- A memory read request sent to the host (R236). -/
  | hostRead (port tag fn addr len : Nat)
  /-- A memory write request sent to the host (R239, R240, R274). -/
  | hostWrite (port fn addr : Nat) (data : List Byte) (ep ro : Bool)
  /-- An MSI-X message sent (R232, R273, R278). -/
  | msix (fn vector addr data : Nat)
  /-- An LTR message sent: snoop and no-snoop latency (R221, R243). -/
  | ltr (port snoop noSnoop : Nat)
  /-- A completion with data, an Unsupported Request or a Request Retry Status sent to the host (R224, R233). -/
  | hostData (v : Nat)
  | hostUr
  | hostRrs
  /-- VR_EN0 to VR_EN3 as the package now drives them (R429, R445). -/
  | vrEn (v : Nat)
  /-- The SMBus target acknowledges a byte, or does not (R287, R458). -/
  | smbAck (ok : Bool)
  /-- A DMI access answered: its op (0 success, 2 failed) and data (R530, R531). -/
  | dmi (op data : Nat)
  /-- The access was answered with ERR and this cause (R535 and the crossbar chapter). -/
  | err (cause : Nat)
  /-- Wedge report to the channel engine and the sluice (R101). -/
  | wedge (act number mark first last : Nat) (predicted : Bool)
  deriving DecidableEq, Repr

end Sys2Proof
end

