-- ==== Sys2Proof/Machine/State.lean ====
section
/-! DEFINITION. The state of the package as plain data, the reasons a step can stop, and the state right after reset. -/

namespace Sys2Proof.Machine

open Sys2Proof

/-- Reasons a step stops with a fault. The package's own behaviour never faults: an access to an address that no row of R534
names is ANSWERED (ERR with cause 4, or an access-fault trap). -/
inductive Fault where
  /-- Raised by nobody: no rule of the specification stops the package. Safe. -/
  | stopped
  deriving DecidableEq, Repr

/-- Reasons a step answers a refusal. -/
inductive Refusal where
  /-- No meaning yet; raised by an arm of `exec` only, and by none at present. Safe. -/
  | notModelled (mnemonic : String)
  deriving DecidableEq, Repr

/-- A region of the world map in force (R301): pages BASE to LIMIT, secure or not. -/
structure WRegion where
  base : Nat
  limit : Nat
  secure : Bool
  deriving DecidableEq, Repr

/-- The state of the package. -/
structure State where
  pending : List Instr := []      -- commands waiting, first in, first out
  out : List Out := []            -- what the last command drove out or answered
  build : Build := .b03
  mode : Mode := .waking          -- AON_MODE.MODE (R17)
  regs : Tab Nat := []            -- register fields that differ from their reset values
  dram : Tab Byte := []
  mram : Tab Byte := []
  poison : Tab Nat := []          -- masks of poisoned bytes, by 64-byte line number (R373)
  lanes : Tab Lane := []          -- by global actuator number (R10)
  chans : Tab Chan := []
  servos : Tab Servo := []
  sluices : Tab Sluice := []
  furrow : Tab (List Byte) := []  -- encoded sectors, by 4,096 × die + slot (R130)
  dies : Tab Die := []
  stripes : Tab StripeEng := []
  keys : KeyEng := {}
  sweep : Sweep := {}
  fns : Tab FnS := []             -- by function number
  ports : Tab PortS := []
  xrings : Tab XRing := []        -- by 16 × port + ring
  queues : Tab QueueS := []       -- by 8 × function + queue
  hg : HeadgateS := {}
  hostLog : Tab (Nat × Nat) := [] -- host error logs, by 8 × function + n mod 8 (R279)
  fwLog : Tab (Nat × Nat) := []   -- firmware error log, by n mod 256 (R279)
  mbHeld : List MbEnd := []       -- receivers whose IN_MSG waits for their unit (R285)
  mbTmo : List (MbEnd × Nat) := []       -- timeout of a sender's last commit (R290)
  errLog : Tab (Nat × Nat) := []  -- package log entries by n mod 128 (R524)
  wmapNow : List WRegion := []    -- enabled regions of the world map in force (R301, R302)
  mregNow : List MRegion := []    -- enabled regions of the memory map in force (R368, R370)
  iowOld : List (Nat × Bool) := []        -- masters whose change of world is being applied, with the world before it (R320)
  wmapNext : Option (List WRegion) := none       -- the map of a commit in progress (R302)
  mregNext : Option (List MRegion × Nat) := none -- regions and TOP of a commit in progress (R370)
  lost : List LostRange := []     -- ranges that a commit left undefined (R371)
  fresh : Tab Bool := []          -- bytes of those ranges written since
  flips : Tab Nat := []           -- wrong bits of a stored byte: d0 to d7, c0 to c4 (R365, R382)
  wbqs : Tab (List WbEnt) := []   -- write-backs queued, by stack (R375)
  mcLog : Tab (Nat × Nat) := []   -- memory logs, by 32 × stack + n mod 32 (R383)
  fill : Option (Nat × Nat) := none      -- a fill in progress: first and last byte (R378)
  homes : Tab HLine := []         -- directory, LLC and transactions, by line number (R338)
  copies : Tab (Option Copy) := []       -- agents' copies, by 64 × line + agent (R335, R336)
  cores : Tab (Option Copy) := [] -- cores' copies, by 64 × 8 × line + 8 × tile + core (R337)
  l1s : Tab L1s := []             -- those of them that lie in the L1I and the L1D too, by the same key (R332, R333)
  lockedWays : List (UnitId × Nat) := []  -- ways locked out until the next start: unit and array level (R354)
  tiles : Tab TileTxn := []       -- work of a tile L3 on a line, by 64 × line + tile
  evbufs : List (Nat × Nat × LineData) := []    -- lines in eviction buffers: agent, line, data (R344)
  amoHist : Tab (List (Nat × Nat)) := [] -- atomic history, by slice: line and hart, most recent first (R348)
  net : List Msg := []            -- messages under way, in the order in which they were sent
  reqs : List OReq := []          -- requests, write-backs and eviction notices outstanding (R387)
  heldTxn : List HeldTxn := []    -- TXNs held after a timeout (R395)
  rme : Tab (Option RmeRun) := [] -- operations of the range maintenance engine's channels (R356, R357)
  links : Tab VzLink := []        -- by link number (R396)
  harts : Tab Hart := []          -- by mhartid
  trace : Tab (Nat × Nat) := []   -- trace records by index mod 4,096 (R532)
  fatal : List UnitId := []       -- sources of package-fatal errors not yet followed by the reset (R521)
  vrEn : Nat := 0                 -- VR_EN0 to VR_EN3, as bits (R429)
  straps : Nat := 0               -- SMB_AS1 and SMB_AS0 as sampled (R435)
  thermTrip : Bool := false       -- THERM_TRIP_N asserted (R433)
  wake : WakeS := {}
  pmb : Option PmbS := none       -- a PMBus exchange under way (R460)
  vin : Option VinS := none       -- a change of VIN in service (R451)
  vinAt : Tab Nat := []           -- mV that each quarter's regulator has acknowledged, 0 before (R428, R451)
  wakeBad : Bool := false         -- the last wake failed (R458)
  sealGen : Nat := 0              -- the last eight bits driven on SEAL_OUT, the newest in bit 0 (R436)
  presence : Presence := {}
  clocks : List ClockUnit := []   -- units whose clock is gated, at either level (R453)
  deep : List ClockUnit := []     -- those of them at the second level
  weir : WeirS := {}
  freqTo : Tab Nat := []          -- frequency changes under way: logical tile and target (R450)
  domTo : Tab Nat := []           -- domain changes under way: domain and 1 + target STATE (R447)
  pwrHeld : Option Nat := none    -- a deferred PWR_CMD of the normal world (R448)
  pwrNext : Option Nat := none    -- an accepted PWR_CMD that waits for a tile operation or a direct test (R492, R510)
  load : LoadS := {}
  svid : Nat := 0                 -- subsystem identifiers of every function, from the image (R227, R473)
  ssid : Nat := 0
  boot : Option BootAt := none    -- where the harts of Twelve start as their tiles report ready (R477)
  powerQ : List (List Nat) := [[], [], [], []]  -- mapped tiles still to power, by quarter (R480)
  halves : List Nat := []         -- physical tiles whose link trained at half width (R480)
  tileOp : Option TileOpS := none
  life : Life := {}
  recSeg : Option RecSeg := none  -- the recovery segment stored (R482)
  lc : Option LcJob := none
  st : SelfTest := {}
  stayRecovery : Bool := false    -- the package stays in Recovery until PWRON_N is asserted (R522)
  recoveries : List Nat := []     -- AON_SECONDS at the entries to Recovery under R521 (R522)
  dbg : DebugS := {}
  pkgTicks : Nat := 0             -- PKGCLK cycles since AON_SECONDS last advanced
  memTop : Nat := 384             -- MEM_TOP in force, in units of 512 MiB (R368)
  freeCount : Nat := 0            -- the model's own count of free values drawn
  deriving DecidableEq, Repr

/-- The package right after reset. -/
def State.reset : State := {}

end Sys2Proof.Machine
end

