-- ==== Sys2Proof/Machine/Ops.lean ====
section
/-! DEFINITION. The named operations that every meaning uses: register fields, events, counters, error records, the
typed state by index, and memory as a master of the fabric sees it. -/

namespace Sys2Proof.Machine

open Sys2Proof

/-- The outcome of a command. -/
abbrev Res := Host.Outcome State Fault Refusal

/-! ## Register fields -/

/-- The value of copy `i`, `j` of a field at unit `u`. -/
def State.get (s : State) (u : UnitId) (f : Fld) (i : Nat := 0) (j : Nat := 0) : Nat :=
  tget (resetAt s.build u f i j) s.regs (fldKey u f i j)

/-- Copy `i`, `j` of a field set to the low bits of `v` that it holds. -/
def State.put (s : State) (u : UnitId) (f : Fld) (v : Nat) (i : Nat := 0) (j : Nat := 0) : State :=
  { s with regs := tset (resetAt s.build u f i j) s.regs (fldKey u f i j) (v % 2 ^ f.width) }

/-- A one-bit field reads 1. -/
def State.on (s : State) (u : UnitId) (f : Fld) (i : Nat := 0) : Bool := s.get u f i != 0

/-- A one-bit field (an event bit) set. -/
def State.raise (s : State) (u : UnitId) (f : Fld) (i : Nat := 0) : State := s.put u f 1 i

/-- A one-bit field set as `b` says. -/
def State.putBit (s : State) (u : UnitId) (f : Fld) (b : Bool) (i : Nat := 0) : State := s.put u f (bit b) i

/-- A saturating counter advanced by `n` (R547: counters saturate at all ones). -/
def State.count (s : State) (u : UnitId) (f : Fld) (n : Nat := 1) (i : Nat := 0) : State :=
  s.put u f (min (s.get u f i + n) (2 ^ f.width - 1)) i

/-- What a command drives out is recorded in order. -/
def State.emit (s : State) (o : Out) : State := { s with out := s.out ++ [o] }

/-- A command starts with nothing driven out. -/
def State.clean (s : State) : State := { s with out := [] }

/-- A free value's number: the count read, and the state with it advanced. -/
def State.draw (s : State) : Nat × State := (s.freeCount, { s with freeCount := s.freeCount + 1 })

/-! ## The event trace (R532) -/

/-- A unit whose events are traced only while SEC is 1 (R532). -/
def secureUnit : UnitId → Bool
  | .key | .sweep => true
  | _ => false

/-- An event recorded in the trace: its KIND, the SRCMASK bit of the kind, the unit and its DETAIL. With STOP set a full
buffer takes no more. -/
def State.traceAs (s : State) (kind bit_ : Nat) (u : UnitId) (detail : Nat) : State :=
  let n := s.get .trace F.TRC_IDX
  if !s.on .trace F.TRC_CTRL_EN || s.get .trace F.TRC_CTRL_SRCMASK / 2 ^ bit_ % 2 == 0 ||
      (secureUnit u && !s.on .trace F.TRC_CTRL_SEC) then s
  else if s.on .trace F.TRC_CTRL_STOP && decide (4096 ≤ n) then s.raise .trace F.TRC_FULL
  else
    let word0 := placed kind 0 8 + placed (unitSlot u) 8 8 + placed (unitSub u) 16 16 + placed detail 32 32
    let s := { s with trace := tset (0, 0) s.trace (n % 4096) (word0, s.get .irq F.PKG_TIME % 2 ^ 56) }
    let s := s.put .trace F.TRC_IDX (n + 1)
    if s.on .trace F.TRC_CTRL_STOP && n + 1 == 4096 then s.raise .trace F.TRC_FULL else s

/-- An event whose DETAIL the specification does not give: a free value. -/
def State.traceEvent (s : State) (kind bit_ : Nat) (u : UnitId) : State :=
  let (k, s) := s.draw
  s.traceAs kind bit_ u (Config.traceDetail kind (unitSlot u) (unitSub u) k)

/-- A head-link, Valiez or port link change in the trace (R532). -/
def State.traceLink (s : State) (u : UnitId) : State := s.traceEvent 0x12 3 u

/-- The code of a mode (R17). -/
def modeCode : Mode → Nat
  | .off => 0 | .keep => 1 | .waking => 2 | .loading => 3 | .twelve => 4 | .serve => 5 | .still => 6 | .sanitise => 7
  | .format => 8 | .shutdownTest => 9 | .recovery => 10 | .diagnostic => 11

/-- The operating mode set (R17, R442), and the change traced (R532). -/
def State.setMode (s : State) (m : Mode) : State :=
  if s.mode = m then s else ({ s with mode := m }).traceEvent 0x10 1 .aon

/-! ## Package counters (R529) -/

/-- Which filters apply to an event (R529): site, master, class, range and world. -/
structure PmuUse where
  site : Bool := true
  master : Bool := true
  cls : Bool := true
  range : Bool := true
  world : Bool := true

/-- The filters of each event (R529). -/
def pmuUse (ev : Nat) : PmuUse :=
  if ev = 0x01 then ⟨false, false, false, false, false⟩
  else if ev = 0x05 then ⟨true, false, true, true, true⟩
  else if ev = 0x0A then ⟨false, false, true, false, false⟩
  else {}

/-- One occurrence at the headgate, the crossbar or a home slice: home slice, source port, world, class bit and line. -/
structure PmuObs where
  site : Nat := 0
  src : Nat := 0
  w : Bool := false
  cls : Nat := 0
  line : Nat := 0

/-- Counter `n` takes `k` more counts; a wrap sets OVF and is carried into counters chained after it (R527, R529). -/
def State.pmuAdd (s : State) : Nat → Nat → Nat → State
  | 0, _, _ => s
  | fuel + 1, n, k =>
    let c := s.get .pmu F.PMU_COUNT n + k
    let s := s.put .pmu F.PMU_COUNT c n
    if c < 2 ^ 32 then s
    else
      let s := s.raise .pmu F.PMU_OVF n
      if n < 15 && s.on .pmu F.PMU_CHAIN (n + 1) && s.on .pmu F.PMU_EN (n + 1) then s.pmuAdd fuel (n + 1) (c / 2 ^ 32) else s

/-- Counter `n` matches an occurrence (R529). -/
def State.pmuMatch (s : State) (ev n : Nat) (o : PmuObs) : Bool :=
  let g := fun (f : Fld) => s.get .pmu f n
  let x := pmuUse ev
  g F.PMU_EN == 1 && (g F.PMU_CHAIN == 0 || n == 0) && g F.PMU_EVENT == ev &&
  (!x.site || decide (8 ≤ g F.PMU_SITE) || g F.PMU_SITE == o.site) &&
  (!x.master || ((o.src ^^^ g F.PMU_MASTER) &&& g F.PMU_MMASK) == 0) &&
  (!x.world || g F.PMU_WSEL == 1 || (g F.PMU_WSEL == 2) == o.w) &&
  (!x.cls || g F.PMU_CLASS / 2 ^ o.cls % 2 == 1) &&
  (!x.range || g F.PMU_RANGE == 0 || decide (g F.PMU_LO ≤ o.line ∧ o.line ≤ g F.PMU_HI))

/-- `k` occurrences of a package event counted, unless FREEZE is 1 (R529). -/
def State.pmuEvent (s : State) (ev : Nat) (o : PmuObs) (k : Nat := 1) : State :=
  if s.on .pmu F.PMU_CTRL_FREEZE then s
  else (List.range 16).foldl (fun s n => if s.pmuMatch ev n o then s.pmuAdd 16 n k else s) s

/-! ## Errors (R512, R513, R524) -/

/-- The classes of R512 that are recorded without stopping the package. -/
inductive ErrClass where
  | corrected | uncorrected | denied | hwfault
  deriving DecidableEq, Repr

/-- The code of a class (R512). -/
def errCode : ErrClass → Nat
  | .corrected => 1 | .uncorrected => 2 | .denied => 3 | .hwfault => 4

/-- The summary bit of a class (R513). -/
def errBit : ErrClass → Fld
  | .corrected => F.UNIT_ERR_CE | .uncorrected => F.UNIT_ERR_UE | .denied => F.UNIT_ERR_DENIED
  | .hwfault => F.UNIT_ERR_HWFAULT

/-- Bits [3:0] of a unit's error summary, as a number. -/
def State.errBits (s : State) (u : UnitId) : Nat :=
  s.get u F.UNIT_ERR_CE + 2 * s.get u F.UNIT_ERR_UE + 4 * s.get u F.UNIT_ERR_DENIED + 8 * s.get u F.UNIT_ERR_HWFAULT

/-- An entry of the package log (R524): classes 2 and 4 are logged, entry n at n mod 128, WRAP when one is replaced. -/
def State.logErr (s : State) (u : UnitId) (c : ErrClass) : State :=
  let n := s.get .err F.ERR_LOG_CNT
  let (k, s) := s.draw
  let word0 := placed (errCode c) 0 8 + placed (unitSlot u) 8 8 + placed (unitSub u) 16 16 +
    placed (Config.errDetail (unitSlot u) (unitSub u) (errCode c) k) 32 32
  let s := { s with errLog := tset (0, 0) s.errLog (n % 128) (word0, s.get .irq F.PKG_TIME) }
  let s := s.count .err F.ERR_LOG_CNT
  let s := if 128 ≤ n then s.raise .err F.ERR_EVT_WRAP else s
  match c with
  | .uncorrected => s.raise .err F.ERR_EVT_UE
  | _ => s.raise .err F.ERR_EVT_HWFAULT

/-- An error recorded in a unit's summary (R513): its class bit, FIRST when bits [3:0] were all zero, CNT; classes 2 and
4 also in the package log (R512). -/
def State.record (s : State) (u : UnitId) (c : ErrClass) : State :=
  let s1 := if s.errBits u = 0 then s.put u F.UNIT_ERR_FIRST (errCode c) else s
  let s2 := (s1.raise u (errBit c)).count u F.UNIT_ERR_CNT
  match c with
  | .uncorrected | .hwfault => (s2.logErr u c).traceEvent (errCode c) 0 u
  | _ => s2

/-- A denied access recorded in a unit's summary (R512 class 3). -/
def State.denied (s : State) (u : UnitId) : State := s.record u .denied

/-! ## Typed state by index -/

/-- The head-link port of global actuator `a`. -/
def State.lane (s : State) (a : Nat) : Lane := tget {} s.lanes a
/-- The port of actuator `a` replaced. -/
def State.setLane (s : State) (a : Nat) (l : Lane) : State := { s with lanes := tset {} s.lanes a l }
/-- The channel engine of actuator `a`. -/
def State.chan (s : State) (a : Nat) : Chan := tget {} s.chans a
/-- The channel engine of actuator `a` replaced. -/
def State.setChan (s : State) (a : Nat) (c : Chan) : State := { s with chans := tset {} s.chans a c }
/-- The servo engine of actuator `a`. -/
def State.servo (s : State) (a : Nat) : Servo := tget {} s.servos a
/-- The servo engine of actuator `a` replaced. -/
def State.setServo (s : State) (a : Nat) (v : Servo) : State := { s with servos := tset {} s.servos a v }
/-- The sluice of actuator `a`. -/
def State.sluice (s : State) (a : Nat) : Sluice := tget {} s.sluices a
/-- The sluice of actuator `a` replaced. -/
def State.setSluice (s : State) (a : Nat) (v : Sluice) : State := { s with sluices := tset {} s.sluices a v }
/-- Medium die `m`. -/
def State.die (s : State) (m : Nat) : Die := tget {} s.dies m
/-- Medium die `m` replaced. -/
def State.setDie (s : State) (m : Nat) (d : Die) : State := { s with dies := tset {} s.dies m d }
/-- Stripe engine `k`. -/
def State.stripe (s : State) (k : Nat) : StripeEng := tget {} s.stripes k
/-- Stripe engine `k` replaced. -/
def State.setStripe (s : State) (k : Nat) (e : StripeEng) : State := { s with stripes := tset {} s.stripes k e }

/-- The medium die of a global actuator (R10). -/
def dieOf (a : Fin 96) : Fin 4 := ⟨a.val / 24, by omega⟩

/-- Global actuator `n`, wrapped into range. -/
def actOf (n : Nat) : Fin 96 := ⟨n % 96, Nat.mod_lt _ (by decide)⟩

/-- Medium die `n`, wrapped into range. -/
def medOf (n : Nat) : Fin 4 := ⟨n % 4, Nat.mod_lt _ (by decide)⟩

/-- The other actuator of an assembly (R10). -/
def twin (a : Fin 96) : Fin 96 := actOf (if a.val % 2 = 0 then a.val + 1 else a.val - 1)

/-- The 24 actuators of a medium die. -/
def dieActs (m : Nat) : List (Fin 96) := (List.range 24).map fun k => actOf (24 * m + k)

/-- All 96 actuators. -/
def allActs : List (Fin 96) := (List.range 96).map actOf

/-! ## The MRAM (R534, R462) -/

/-- First byte of MRAM. -/
def mramBase : Nat := 0x00E000000000
/-- Bytes of MRAM. -/
def mramSize : Nat := 0x8000000
/-- Bytes of DRAM. -/
def dramSize : Nat := 0x3000000000
/-- Offset of the package area within MRAM (R462). -/
def pkgArea : Nat := 0x7C00000

/-- A byte of MRAM by its offset; a byte that nothing has written reads as zero (DESIGN CHOICE, see the log). -/
def State.mramByte (s : State) (a : Nat) : Byte := tget 0 s.mram a
/-- A byte of MRAM written, by its offset. -/
def State.setMram (s : State) (a : Nat) (b : Byte) : State := { s with mram := tset 0 s.mram a b }

/-- `n` bytes of MRAM from an offset. -/
def State.mramBytes (s : State) (a n : Nat) : List Byte := (List.range n).map fun i => s.mramByte (a + i)
/-- Bytes written into MRAM from an offset. -/
def State.putMram (s : State) (a : Nat) : List Byte → State
  | [] => s
  | b :: bs => (s.setMram a b).putMram (a + 1) bs

/-! ## Package-fatal errors (R520–R523) -/

/-- Admission and retirement are stopped by a package-fatal error (R521 step 1). -/
def State.fatalStop (s : State) : Bool := !s.fatal.isEmpty

/-- A sector that a package-fatal condition stops while it is WRITING (R121, R126, R144): WR_DROP, no more of its bits leave, and it
counts as a failed verify; the reset that follows ends its entry. -/
def State.haltWriting (s : State) (a : Fin 96) : State :=
  let l := s.sluice a.val
  let u := UnitId.act a
  if s.on u F.SV_STAT_WRITE_OK && l.ents.any fun e => e.ph == .writing then
    (((((s.raise u F.SV_EVT_WR_DROP).count u F.SV_CNT_WRDROP).raise u F.SL_EVT_VFAIL).count u F.SL_CNT_REWRITE
        (l.ents.filter fun e => e.ph == .writing).length)).setSluice a.val
      { l with ents := l.ents.map fun e =>
          if e.ph == .writing then { e with ph := .filled, rewrites := e.rewrites + 1, burst := false, sent := 0, left := 0, frames := 0,
                                            gates := 0, acc := 0 }
          else e }
  else s

/-- Every servo engine that runs enters HALTED, and its heartbeat and both signals of R101 stop (R121, R126). -/
def State.servosHalt (s : State) : State :=
  (allActs.filter fun a => decide (1 ≤ s.get (.act a) F.SV_STAT_STATE ∧ s.get (.act a) F.SV_STAT_STATE ≤ 7)).foldl (fun s a =>
    (((s.haltWriting a).put (.act a) F.SV_STAT_STATE 8).put (.act a) F.SV_STAT_ONTRACK 0).put (.act a) F.SV_STAT_WRITE_OK 0) s

/-- The package has no power, or PWRON_N has not risen since it had none (R429, R439, R442). -/
def State.isOff (s : State) : Bool := s.mode == .off || (s.mode == .waking && s.wake.step == 0)

/-- A package-fatal error, in any mode from Waking onward (R442, R521 steps 1 to 3): FATAL at its source, the fatal record in the package area, every hart and the
headgate stopped until the warm reset, and every servo engine halted (R121). -/
def State.packageFatal (s : State) (cause : Nat) (u : UnitId) (addr info : Nat) : State :=
  if s.isOff || s.mode == .keep then s
  else
    let n := s.get .err F.FATAL_N
    let words := [ placed cause 0 8 + placed (unitSlot u) 8 8 + placed (unitSub u) 16 16 + placed (modeCode s.mode) 32 4 +
        placed n 40 24, s.get .irq F.PKG_TIME, placed addr 0 52, info, s.get .aon F.AON_SECONDS, 0, 0, 0 ]
    let rec_ := (words.flatMap (leBytes 8)).take 60
    let s := (s.raise u F.UNIT_ERR_FATAL).traceEvent 5 0 u
    let s := s.putMram (pkgArea + 0x380000 + 64 * (n % 16)) (rec_ ++ leBytes 4 (crc32c rec_))
    { (s.servosHalt.put .err F.FATAL_N (n + 1)) with fatal := s.fatal ++ [u] }

/-! ## Harts -/

/-- Hart `n` (its mhartid). -/
def State.hart (s : State) (n : Nat) : Hart := tget {} s.harts n
/-- Hart `n` replaced. -/
def State.setHart (s : State) (n : Nat) (h : Hart) : State := { s with harts := tset {} s.harts n h }

/-- The physical tile of a logical one, when CFG_TMAP maps it (R13, R496). -/
def State.physTile (s : State) (t : Nat) : Option (Fin 36) :=
  let p := s.get .cfg F.CFG_TMAP_PHYS t
  if h : s.get .cfg F.CFG_TMAP_VALID t = 1 ∧ p < 36 then some ⟨p, h.2⟩ else none

/-- The logical tile that a physical one serves. -/
def State.logTile (s : State) (p : Nat) : Option Nat :=
  (List.range 32).find? fun t => (s.physTile t).any fun q => q.val == p

/-- The unit of hart `n`'s core (R294). -/
def State.coreUnit (s : State) (n : Nat) : Option UnitId :=
  (s.physTile (n / 8)).map fun p => .core p ⟨n % 8, Nat.mod_lt _ (by decide)⟩

/-! ## Rings (R77, R80, R89) -/

/-- The address of entry `k` of a ring of `sz`-byte entries. -/
def ringAt (base log2n sz k : Nat) : Nat := base * 4096 + sz * (k % 2 ^ log2n)

/-- Entries between HEAD and TAIL. -/
def ringUsed (log2n head tail : Nat) : Nat := (tail + 2 ^ log2n - head % 2 ^ log2n) % 2 ^ log2n

/-- Free places of a ring: it is full when TAIL + 1 equals HEAD (R77). -/
def ringFree (log2n head tail : Nat) : Nat := 2 ^ log2n - 1 - ringUsed log2n head tail

/-- The bytes of a record given as 64-bit words (R2). -/
def wordsBytes (ws : List Nat) : List Byte := ws.flatMap (leBytes 8)

/-- Word `k` of a record. -/
def wordAt (bs : List Byte) (k : Nat) : Nat := leNat ((bs.drop (8 * k)).take 8)

/-! ## Marks for the self-test (R354, R499, R501, R503) -/

/-- Offset of the self-test records in MRAM. -/
def stArea : Nat := pkgArea + 0x300000

/-- The self-test index of a unit (R499, R546); none where no entry applies. -/
def testIndex : UnitId → Option Nat
  | .tile p | .core p _ => some p.val
  | .med m => some (36 + m.val)
  | .act a => some (36 + a.val / 24)
  | .home k => some (40 + k.val)
  | .mc k => some (48 + k.val)
  | .pcie k => some (56 + k.val)
  | .stripe _ => some 58
  | _ => none

/-- The pending list written into the package area (R503). -/
def State.putPending (s : State) : State :=
  let mask := fun (l : List Nat) => l.eraseDups.foldl (fun a u => a + 2 ^ u) 0
  s.putMram (stArea + 0xE000) ((wordsBytes [mask s.st.arrPend, mask s.st.suspect] ++ List.replicate 64 0).take 64)

/-- A way that gives a second parity error within one second is locked out, and its unit marked for the self-test (R354,
R501). -/
def State.lockOut (s : State) (u : UnitId) (again : Bool) : State :=
  match again, testIndex u with
  | true, some k => { s with st := { s.st with arrPend := s.st.arrPend ++ [k] } }.putPending
  | _, _ => s

/-! ## Steppings (R21, R23, R403, R542) -/

/-- Physical tile `p` of a B02 package carries stepping A1: which tiles do is left open, but one does and another does not
(R21). -/
def tileIsA1 (p : Nat) : Bool :=
  let i := Config.oneA1 % 36
  let j := (i + 1 + Config.oneB0 % 35) % 36
  p == i || (p != j && Config.tileA1 p)

/-- The stepping of a tile, coded as R23. -/
def stepOfTile (b : Build) (p : Nat) : Nat :=
  match b with
  | .b01 => 0x01
  | .b02 => if tileIsA1 p then 0x01 else 0x10
  | .b03 => 0x10

/-- The stepping of the die that holds a unit (R21, R542); 0 in a host view. -/
def stepOf (b : Build) : UnitId → Nat
  | .tile p | .core p _ => stepOfTile b p.val
  | .med _ | .act _ => match b with
    | .b01 => 0x01
    | .b02 => 0x10
    | .b03 => 0x11
  | .keep => match b with
    | .b03 => 0x01
    | _ => 0x00
  | .fn _ => 0
  | _ => match b with
    | .b01 => 0x01
    | _ => 0x10

/-- A stepping of letter B. -/
def isB (st : Nat) : Bool := decide (0x10 ≤ st)

/-- The Valiez ceiling of a stepping (R403). -/
def vzOfStep (st : Nat) : Nat := if isB st then 2 else 1

/-- The die at the far end of a link (R396). -/
def linkDie (n : Fin 45) : UnitId :=
  if h : n.val < 36 then .tile ⟨n.val, h⟩ else if h : n.val < 44 then .med ⟨(n.val - 36) / 2, by omega⟩ else .keep

end Sys2Proof.Machine
end

