-- ==== Sys2Proof/Machine/Dram.lean ====
section
/-! DEFINITION. The stored data of the stacks: addresses, check bits, poison, corrections, logs and scrubbing (R362–R384). -/

namespace Sys2Proof.Machine

open Sys2Proof

/-! ## Addresses (R363, R368, R369) -/

/-- XOR of the `n` lowest 3-bit groups of a number. -/
def xor3 : Nat → Nat → Nat
  | 0, _ => 0
  | n + 1, x => (x % 8) ^^^ xor3 n (x / 8)

/-- The stack of a physical DRAM address (R363). -/
def stackOf (a : Nat) : Fin 8 := ⟨xor3 9 (a % 2 ^ 38 / 4096) % 8, Nat.mod_lt _ (by decide)⟩

/-- The stack-local offset of a physical DRAM address (R363). -/
def localOf (a : Nat) : Nat := a % 2 ^ 38 / 2 ^ 15 * 4096 + a % 4096

/-- The physical address of a local offset of a stack: the inverse of R363. -/
def addrOf (k o : Nat) : Nat :=
  let hi := o / 4096
  hi * 2 ^ 15 + ((k ^^^ xor3 8 hi) % 8) * 4096 + o % 4096

/-- The region in force that covers an address with the strong code (R368). -/
def State.strongAt (s : State) (a : Nat) : Option MRegion :=
  s.mregNow.find? fun r => r.strong && decide (r.base * 2 ^ 30 ≤ a ∧ a < (r.limit + 1) * 2 ^ 30)

/-- The address of the annex byte of a data byte (R369). -/
def annexOf (r : MRegion) (a : Nat) : Nat :=
  addrOf (stackOf a).val (r.annex * 2 ^ 29 / 8 + (localOf a - r.base * 2 ^ 30 / 8) / 2)

/-! ## Bytes -/

/-- The range that a commit left undefined and that covers an address (R371). -/
def State.lostAt (s : State) (a : Nat) : Option LostRange := s.lost.find? fun r => decide (r.lo ≤ a ∧ a < r.hi)

/-- A byte of DRAM as stored. One that nothing has written reads as zero (DESIGN CHOICE, see the log); one that a commit
left undefined is a free value until it is written (R371). -/
def State.dramByte (s : State) (a : Nat) : Byte :=
  match (if s.lost.isEmpty then none else s.lostAt a) with
  | some r => if tget false s.fresh a then tget 0 s.dram a else Config.lostByte r.draw a
  | none => tget 0 s.dram a

/-- The 64 bytes of a line as stored. -/
def State.dramLine (s : State) (line : Nat) : List Byte := (List.range 64).map fun i => s.dramByte (64 * line + i)

/-- A mask with all 64 bits set. -/
def allBytes : Nat := 2 ^ 64 - 1

/-- Bit `i` of a mask. -/
def inMask (m i : Nat) : Bool := m / 2 ^ i % 2 == 1

/-! ## The check bits (R365–R367) -/

/-- Columns of the 13-bit code: d0 to d7, c0 to c4 (R365, R367). -/
def checkCols : List Nat := [0x07, 0x0B, 0x13, 0x0D, 0x15, 0x0E, 0x16, 0x1A, 0x01, 0x02, 0x04, 0x08, 0x10]

/-- The five check bits of a byte (R365). -/
def checkBits (b : Nat) : Nat := (List.range 8).foldl (fun x j => if inMask b j then x ^^^ checkCols.getD j 0 else x) 0

/-- The syndrome of a stored byte whose bits `f` are wrong (R365). -/
def syndromeOf (f : Nat) : Nat := (List.range 13).foldl (fun x j => if inMask f j then x ^^^ checkCols.getD j 0 else x) 0

/-- The wrong bits stored with a byte; those of a byte that a commit left undefined are free (R371, R377). -/
def State.flipOf (s : State) (a : Nat) : Nat :=
  match (if s.lost.isEmpty then none else s.lostAt a) with
  | some r => if tget false s.fresh a then tget 0 s.flips a else Config.lostFlips r.draw a % 2 ^ 13
  | none => tget 0 s.flips a

/-- The wrong bits of the annex byte that covers data byte `a` and its neighbour: those of an annex that a commit left undefined are
free until the data is written or filled (R369, R371, R378). -/
def State.annexFlips (s : State) (r : MRegion) (a : Nat) : Nat :=
  let x := annexOf r a
  let filled := if s.lost.isEmpty then false else (s.lostAt x).any fun l => l.fills.any fun f => decide (f.1 ≤ a ∧ a ≤ f.2)
  if filled && !tget false s.fresh x then tget 0 s.flips x else s.flipOf x

/-- The bytes of undefined ranges that have been written, with the byte at `x` among them (R371). -/
def State.freshened (s : State) (x : Nat) : Tab Bool :=
  if s.lost.isEmpty then s.fresh else if (s.lostAt x).isSome then tset false s.fresh x true else s.fresh

/-- The wrong bits of an annex byte set. -/
def State.setAnnex (s : State) (x f : Nat) : State := { s with flips := tset 0 s.flips x f, fresh := s.freshened x }

/-- The nibble of a data byte rewritten in its annex byte, which then passes its own check (R369, R372). -/
def State.annexWrite (s : State) (r : MRegion) (a : Nat) : State :=
  let odd := localOf a % 2
  let other := s.flipOf (if odd = 0 then a + 1 else a - 1) / 1024 % 8 * 2 ^ (4 * (1 - odd))
  let w := s.annexFlips r a % 256 &&& (255 - 15 * 2 ^ (4 * odd))
  s.setAnnex (annexOf r a) (w + 256 * (syndromeOf (w ^^^ other) % 4))

/-- A byte of DRAM written with good check bits, those in its annex included. -/
def State.setDram (s : State) (a : Nat) (b : Byte) : State :=
  let t := { s with dram := tset 0 s.dram a b, flips := if s.flips.isEmpty then s.flips else tset 0 s.flips a 0,
                    fresh := s.freshened a }
  if s.flips.isEmpty && s.lost.isEmpty then t
  else
    match s.strongAt a with
    | some r => t.annexWrite r a
    | none => t

/-- What a controller makes of a byte (R366, R367, R373). -/
inductive ByteFinding where
  | good | corrected (v : Nat) | bad | poison
  deriving DecidableEq, Repr

/-- The judgement of a byte read as `v` with a syndrome, under the strong or the light code. -/
def judgeByte (strong : Bool) (v syn : Nat) : ByteFinding :=
  if strong then
    if syn = 0 then .good
    else if syn = 3 then .poison
    else
      match (List.range 13).find? fun j => checkCols.getD j 0 == syn with
      | some j => .corrected (if j < 8 then v ^^^ 2 ^ j else v)
      | none => .bad
  else if syn % 4 = 0 then .good
  else if syn % 4 = 3 then .poison else .bad

/-- The wrong bits of a byte as read: its own, and under the strong code those of its nibble in the annex (R369). -/
def State.flipsAt (s : State) (strong : Option MRegion) (a : Nat) : Nat :=
  let f := s.flipOf a
  match strong with
  | none => f % 1024
  | some r =>
    let fa := s.annexFlips r a
    f ^^^ (fa / 2 ^ (if localOf a % 2 = 0 then 0 else 4) % 8 * 1024)

/-- The syndrome of a byte as read: a stored-poison byte has c0 and c1 inverted (R373). -/
def State.synAt (s : State) (strong : Option MRegion) (a : Nat) : Nat :=
  let p := inMask (tget 0 s.poison (a / 64)) (a % 64)
  syndromeOf (s.flipsAt strong a) ^^^ (if p then 3 else 0)

/-- The byte as read. -/
def State.readByte (s : State) (a : Nat) : Nat := (s.dramByte a).toNat ^^^ (s.flipOf a % 256)

/-- The syndrome of the annex byte that covers `a` and its neighbour, under the light code (R369, R374). -/
def State.annexSyn (s : State) (r : MRegion) (a : Nat) : Nat :=
  let even := a / 2 * 2
  let fa := s.annexFlips r even
  let n := (fa % 256) ^^^ (s.flipOf even / 1024 % 8) ^^^ (s.flipOf (even + 1) / 1024 % 8 * 16)
  syndromeOf n % 4 ^^^ (fa / 256 % 4)

/-- The strong region whose annex covers an address (R368, R369). -/
def State.annexAt (s : State) (x : Nat) : Option MRegion :=
  s.mregNow.find? fun r => r.strong && decide (r.annex * 2 ^ 29 ≤ x ∧ x < (r.annex + (r.limit + 1 - r.base)) * 2 ^ 29)

/-- The address of the data byte that an annex byte covers in its low nibble (the inverse of R369). -/
def annexData (r : MRegion) (x : Nat) : Nat :=
  addrOf (stackOf x).val ((localOf x - r.annex * 2 ^ 29 / 8) * 2 + r.base * 2 ^ 30 / 8)

/-! ## Logs and the write-back queue (R374, R375, R383) -/

/-- A log entry of a stack's controller (R383), with its event and, but for KIND 1, its counter (R381, R382). The light code has two check
bits. -/
def State.mcLogAdd (s : State) (a kind syn : Nat) (strong scrub : Bool) : State :=
  let k := stackOf a
  let u := UnitId.mc k
  let n := s.get u F.MC_ELOG_CNT
  let w0 := placed a 0 52 + placed kind 52 4
  let w1 := placed (if strong then syn else syn % 4) 0 5 + placed (bit strong) 5 1 + placed (bit scrub) 6 1 + placed (s.get .irq F.PKG_TIME) 8 56
  let s := { s with mcLog := tset (0, 0) s.mcLog (32 * k.val + n % 32) (w0, w1) }
  let s := s.put u F.MC_ELOG_CNT (n + 1)
  let s := if 32 ≤ n then s.raise u F.MC_EVT_LOG_WRAP else s
  match kind with
  | 1 => s.raise u F.MC_EVT_CE
  | 2 => (s.raise u F.MC_EVT_CE_HARD).count u F.MC_CNT_CE_HARD
  | 3 => (s.raise u F.MC_EVT_CE).count u F.MC_CNT_CE_DEFER
  | 4 => ((s.raise u F.MC_EVT_UE).count u F.MC_CNT_UE).record u .uncorrected
  | _ => (s.raise u F.MC_EVT_ANNEX).count u F.MC_CNT_ANNEX

/-- The write-back queue of a stack. -/
def State.wbq (s : State) (k : Nat) : List WbEnt := tget [] s.wbqs k

/-- Bytes of a line that a queued write-back of a kind already carries. -/
def State.wbHas (s : State) (k line : Nat) (poison : Bool) : List Nat :=
  ((s.wbq k).filter fun x => x.line == line && x.poison == poison).flatMap fun x => x.bytes

/-- A write-back queued; false when the queue of 16 is full (R375). -/
def State.wbPush (s : State) (k : Nat) (e : WbEnt) : State × Bool :=
  let q := s.wbq k
  if 16 ≤ q.length then (s, false) else ({ s with wbqs := tset [] s.wbqs k (q ++ [e]) }, true)

/-- Bytes of a queued write-back that a write replaces are dropped and counted (R375). -/
def State.wbDrop (s : State) (line mask : Nat) : State :=
  let k := (stackOf (64 * line)).val
  let q := s.wbq k
  let hit : Nat := ((q.filter fun e => e.line == line).map fun e => (e.bytes.filter (inMask mask)).length).foldl (fun x y => x + y) 0
  if hit = 0 then s
  else
    let q' := q.map fun e => if e.line == line then { e with bytes := e.bytes.filter fun i => !inMask mask i } else e
    ({ s with wbqs := tset [] s.wbqs k q' }).count (.mc (stackOf (64 * line))) F.MC_CNT_WBDROP hit

/-! ## Writes (R372, R373, R382) -/

/-- An armed injection of a line is applied to its stored copy as it is written (R380, R382). -/
def State.mcInject (s : State) (line : Nat) : State :=
  let u := UnitId.mc (stackOf (64 * line))
  if s.on u F.MC_INJ_ARM && s.get u F.INJ_ADDR == line then
    let a := 64 * line + s.get u F.MC_INJ_BYTE
    ({ s with flips := tset 0 s.flips a (tget 0 s.flips a ^^^ s.get u F.MC_INJ_BITS) }).put u F.MC_INJ_ARM 0
  else s

/-- The masked bytes of a line written to its stack, with the poison mask `p` of those bytes; an armed injection of the line
is applied to the stored copy (R372, R382). -/
def State.mcWrite (s : State) (line : Nat) (bytes : List Byte) (mask p : Nat) : State :=
  let s := s.wbDrop line mask
  let s := (List.range 64).foldl (fun s i => if inMask mask i then s.setDram (64 * line + i) (bytes.getD i 0) else s) s
  let old := tget 0 s.poison line
  let s := { s with poison := tset 0 s.poison line ((old &&& (allBytes - mask % 2 ^ 64)) ||| (p &&& mask)) }
  (s.pmuEvent 0x05 { line := line, w := true }).mcInject line

/-! ## Reads (R373–R376) -/

/-- The annex byte of data byte `a` and its neighbour: where it fails its own check while they pass their inline check, it is rewritten
from them, and KIND 5 logged (R374). -/
def State.annexRepair (s : State) (r : MRegion) (a : Nat) (scrub : Bool) : State :=
  let syn := s.annexSyn r a
  let inline_ := (s.synAt none a ||| s.synAt none (a + 1)) % 4
  if syn != 0 && inline_ == 0 then
    let clear := fun (s : State) (x : Nat) => { s with flips := tset 0 s.flips x (tget 0 s.flips x % 1024) }
    let x := annexOf r a
    ((clear (clear s a) (a + 1)).setAnnex x 0).mcLogAdd x 5 syn false scrub
  else s

/-- The annex bytes of a line of a strong region (R374). -/
def State.mcAnnex (s : State) (r : MRegion) (line : Nat) (scrub : Bool) : State :=
  (List.range 32).foldl (fun s j => s.annexRepair r (64 * line + 2 * j) scrub) s

/-- The first byte `i` of a line found bad: a log entry unless the line is queued as poison already, and the line queued to be
stored as poison (R374, R375). -/
def State.mcBad (s : State) (line i : Nat) (r : Option MRegion) (scrub : Bool) : State :=
  let k := (stackOf (64 * line)).val
  let syn := s.synAt r (64 * line + i)
  if (s.wbq k).any fun e => e.line == line && e.poison then s
  else ((s.mcLogAdd (64 * line + i) 4 syn r.isSome scrub).wbPush k ⟨line, List.range 64, true, scrub, i, syn⟩).1

/-- The bytes of a line that were corrected are queued to be written back, those already queued apart (R380); with a full queue the first
is logged (R375). -/
def State.mcFix (s : State) (line : Nat) (fix : List Nat) (r : Option MRegion) (scrub : Bool) : State :=
  let k := (stackOf (64 * line)).val
  let has := s.wbHas k line false
  let new := fix.filter fun i => !has.contains i
  match new with
  | [] => s
  | i :: _ =>
    let syn := s.synAt r (64 * line + i)
    let (s, ok) := s.wbPush k ⟨line, new, false, scrub, i, syn⟩
    if ok then s else s.mcLogAdd (64 * line + i) 3 syn r.isSome scrub

/-- A line of an annex read by the scrubber: each of its bytes is treated as an annex byte (R374, R376). -/
def State.annexScrub (s : State) (r : MRegion) (line : Nat) : State :=
  (List.range 64).foldl (fun s j => s.annexRepair r (annexData r (64 * line + j)) true) s

/-- A line read by a controller, for a demand access or the scrubber (R374): the data delivered, poisoned or not, with the
corrections, rewrites and log entries that its findings call for. -/
def State.mcRead (s : State) (line : Nat) (scrub : Bool) : State × LineData :=
  if tget 0 s.poison line = 0 && s.flips.isEmpty && s.lost.isEmpty then (s, { bytes := s.dramLine line })
  else
    let a0 := 64 * line
    let r := s.strongAt a0
    let s := match r with
      | some r => s.mcAnnex r line scrub
      | none => s
    let found := (List.range 64).map fun i => judgeByte r.isSome (s.readByte (a0 + i)) (s.synAt r (a0 + i))
    let val := fun (i : Nat) => match found.getD i .good with
      | .corrected v => BitVec.ofNat 8 v
      | _ => BitVec.ofNat 8 (s.readByte (a0 + i))
    let bytes := (List.range 64).map val
    let first := fun (p : ByteFinding → Bool) => (List.range 64).find? fun i => p (found.getD i .good)
    match first (fun x => x == .bad) with
    | some i => (s.mcBad line i r scrub, { bytes := bytes, pmask := allBytes })
    | none =>
      let poisoned := found.any fun x => x == .poison
      let s := if poisoned then s.count (.mc (stackOf a0)) F.MC_CNT_POISON else s
      let fix := (List.range 64).filter fun i => match found.getD i .good with | .corrected _ => true | _ => false
      (s.mcFix line fix r scrub, { bytes := bytes, pmask := if poisoned then allBytes else 0 })

/-- The oldest queued write-back of a stack is written (R375). `hard`: read back, the line still needs correction. -/
def State.mcWriteback (s : State) (k : Fin 8) (hard : Bool) : State :=
  match s.wbq k.val with
  | [] => s
  | e :: q =>
    let s := { s with wbqs := tset [] s.wbqs k.val q }
    let a0 := 64 * e.line
    let r := s.strongAt a0
    let log := fun (s : State) (kind : Nat) => s.mcLogAdd (a0 + e.first) kind e.syn r.isSome e.scrub
    if e.poison then
      let mask := e.bytes.foldl (fun m i => m ||| 2 ^ i) 0
      let s := e.bytes.foldl (fun s i => s.setDram (a0 + i) (BitVec.ofNat 8 (s.readByte (a0 + i)))) s
      { s with poison := tset 0 s.poison e.line (tget 0 s.poison e.line ||| mask) }.mcInject e.line
    else if e.bytes.isEmpty then log s 1
    else if hard && s.on (.mc k) F.MC_TUNE_WB_VERIFY then log s 2
    else
      let fixByte := fun (s : State) (i : Nat) =>
        s.setDram (a0 + i) (BitVec.ofNat 8 (match judgeByte r.isSome (s.readByte (a0 + i)) (s.synAt r (a0 + i)) with
          | .corrected v => v
          | _ => s.readByte (a0 + i)))
      (log ((e.bytes.foldl fixByte s).mcInject e.line) 1).count (.mc k) F.MC_CNT_CE

end Sys2Proof.Machine
end

