-- ==== Sys2Proof/Machine/Home.lean ====
section
/-! DEFINITION. The home slices: directory, LLC, order and transactions of a line, and the far atomic unit (R334–R348). -/

namespace Sys2Proof.Machine

open Sys2Proof

/-! ## Indexed state -/

/-- The home slice of a line (R334). -/
def homeOf (line : Nat) : Fin 8 := ⟨xor3 11 line % 8, Nat.mod_lt _ (by decide)⟩

/-- The fabric port of a line's home slice (R387). -/
def homePort (line : Nat) : Nat := 50 + (homeOf line).val

/-- A line at its home. -/
def State.hline (s : State) (line : Nat) : HLine := tget {} s.homes line
/-- A line at its home replaced. -/
def State.setHline (s : State) (line : Nat) (h : HLine) : State := { s with homes := tset {} s.homes line h }
/-- An agent's copy of a line. -/
def State.copyOf (s : State) (agent line : Nat) : Option Copy := tget none s.copies (64 * line + agent)
/-- An agent's copy replaced. -/
def State.setCopy (s : State) (agent line : Nat) (c : Option Copy) : State :=
  { s with copies := tset none s.copies (64 * line + agent) c }
/-- A core's copy of a line. -/
def State.coreCopy (s : State) (tile core line : Nat) : Option Copy := tget none s.cores (512 * line + 8 * tile + core)
/-- A core's copy replaced. -/
def State.setCoreCopy (s : State) (tile core line : Nat) (c : Option Copy) : State :=
  { s with cores := tset none s.cores (512 * line + 8 * tile + core) c }
/-- The cores of a tile that hold a line (the core vector of R337). -/
def State.coreVec (s : State) (tile line : Nat) : List Nat :=
  (List.range 8).filter fun k => (s.coreCopy tile k line).isSome
/-- A message sent. -/
def State.send (s : State) (m : Msg) : State := { s with net := s.net ++ [m] }

/-- The unit of an agent, for its error summary. -/
def agentUnit (a : Nat) : UnitId :=
  if h : a < 36 then .tile ⟨a, h⟩
  else if a < 40 then .med ⟨(a - 36) % 4, Nat.mod_lt _ (by decide)⟩ else .pcie ⟨(a - 40) % 2, Nat.mod_lt _ (by decide)⟩

/-- A poisoned line leaves a cache poisoned as a whole (R514). -/
def moved (d : LineData) : LineData := if d.pmask = 0 then d else { d with pmask := allBytes }

/-- The class bit of a home event in the package counters (R529). -/
def pmuClass : ReqOp → Nat
  | .rdS | .rdU | .upg => 0
  | .amo => 2
  | _ => 1

/-- What the package counters see of a request (R529). -/
def pmuOf (line : Nat) (r : HReq) : PmuObs := ⟨(homeOf line).val, r.port, r.w, pmuClass r.op, line⟩

/-! ## Machine checks for lost lines (R355, R518) -/

/-- The tile of a hart is under a tile operation (R485, R518). -/
def State.underTileCmd (s : State) (t : Nat) : Bool :=
  s.on .cfg F.CFG_TILE_STAT_BUSY && s.get .cfg F.TILE_CMD_TILE == t

/-- An asynchronous machine check raised for a hart; for one that is halted, absent or in a tile under TILE_CMD the error is
recorded in the detecting unit instead (R516, R518). -/
def State.raiseAsync (s : State) (u : UnitId) (n : Nat) (r : MceRec) : State :=
  let h := s.hart n
  if !h.run || (s.physTile (n / 8)).isNone || s.underTileCmd (n / 8) then s.record u .uncorrected
  else s.setHart n { h with mce := h.mce ++ [r] }

/-- A dirty copy failed parity: the outcome that its owner record calls for (R355, R520). -/
def State.parityDirty (s : State) (u : UnitId) (own : Own) (level line : Nat) : State :=
  if own.w || own.h then
    s.packageFatal 0x01 u (64 * line) (placed (bit own.w) 37 1 + placed (bit own.h) 38 1 + placed (bit own.m) 39 1 + placed own.hart 40 8)
  else if own.m then s.record u .uncorrected
  else s.raiseAsync u own.hart ⟨3, own.w, own.h, level, 64 * line⟩

/-- An error of a tag or a directory entry of a unit's array (R332, R355): corrected, or package-fatal. -/
def State.tagError (s : State) (u : UnitId) (line : Nat) (corrected : Bool) : State :=
  if corrected then s.record u .corrected else s.packageFatal 0x02 u (64 * line) 0

/-! ## Room in an array (R332, R334) -/

/-- An array of lines: its level, ways and sets. -/
structure Shape where
  level : Nat
  ways : Nat
  sets : Nat

/-- An LLC slice, a core's L2, a tile L3, the line buffer of a medium die or the I/O cache of a port, a slice's directory, and a core's
L1I and L1D (R332, R334). -/
def Shape.llc : Shape := ⟨0, 12, 32768⟩
def Shape.l2 : Shape := ⟨1, 8, 2048⟩
def Shape.l3 : Shape := ⟨2, 16, 8192⟩
def Shape.buffer : Shape := ⟨3, 4096, 1⟩
def Shape.dir : Shape := ⟨4, 21, 32768⟩
def Shape.l1i : Shape := ⟨5, 16, 64⟩
def Shape.l1d : Shape := ⟨6, 16, 64⟩

/-- An array of a unit without its locked ways (R354). -/
def State.arrayOf (s : State) (u : UnitId) (c : Shape) : Shape :=
  { c with ways := c.ways - (s.lockedWays.filter fun e => e == (u, c.level)).length }

/-- A parity error met in an array of a unit: the second of its way within one second locks the way out (R354). -/
def State.lockWay (s : State) (u : UnitId) (c : Shape) (again : Bool) : State :=
  if again then { s.lockOut u true with lockedWays := s.lockedWays ++ [(u, c.level)] } else s

/-- An array that holds the lines `held` has room for `line`: its set has a free way. The set of a line is free. -/
def hasRoom (c : Shape) (held : List Nat) (line : Nat) : Bool :=
  let others := held.filter fun l => l != line
  decide (others.length < c.ways) ||
  decide ((others.filter fun l => Config.cacheSet c.level l % c.sets == Config.cacheSet c.level line % c.sets).length < c.ways)

/-- The line that an array gives up for `line` among those that it holds: none while the set of `line` has room. `may` says
which lines can be given up. The choice is free. -/
def State.victim (s : State) (c : Shape) (held : List Nat) (may : Nat → Bool) (line : Nat) : Option Nat × State :=
  if hasRoom c held line then (none, s)
  else
    let same := fun (l : Nat) => Config.cacheSet c.level l % c.sets == Config.cacheSet c.level line % c.sets
    let cand := held.filter fun l => l != line && same l && may l
    let (n, s) := s.draw
    (cand[Config.cacheVictim n % cand.length]?, s)

/-! ## The LLC -/

/-- The LLC copy of a line struck by an error that its next access meets; an error of its tag or directory entry is met at once
(R332, R354). -/
def State.llcStrike (s : State) (line : Nat) (par : Parity) : State :=
  let h := s.hline line
  let u := UnitId.home (homeOf line)
  match par, h.llc with
  | .bad again, some d => s.setHline line { h with llc := some { d with bad := some again } }
  | .tag c, _ => (if c then s.raise u F.HOME_EVT_TAG_CE else s).tagError u line c
  | _, _ => s

/-- The LLC copy of a line met by an access: with bad parity a clean one is dropped; a dirty one is poisoned and written back to DRAM
(R354, R355). -/
def State.llcMeet (s : State) (line : Nat) : State :=
  let h := s.hline line
  let u := UnitId.home (homeOf line)
  match h.llc with
  | none => s
  | some d =>
    match d.bad with
    | none => s
    | some again =>
      let s := s.lockWay u .llc again
      if h.dirty then
        let s := (s.mcWrite line d.bytes allBytes allBytes).setHline line
          { h with llc := some { d with pmask := allBytes, own := {}, bad := none }, dirty := false }
        ((s.raise u F.HOME_EVT_PAR_DIRTY).count u F.HM_CNT_PAR_DIRTY).parityDirty u d.own 4 line
      else
        let s := s.setHline line { h with llc := none }
        ((s.raise u F.HOME_EVT_PAR_CLEAN).count u F.HM_CNT_PAR_CLEAN).record u .corrected

/-- The LLC's copy written to DRAM when it is dirty, and clean from then on; a poisoned line is written poisoned in every byte
(R373). -/
def State.llcClean (s : State) (line : Nat) : State :=
  if !(s.hline line).dirty then s
  else
    let s := s.llcMeet line
    let h := s.hline line
    match h.llc with
    | some d => if h.dirty then
        (s.mcWrite line d.bytes allBytes (moved d).pmask).setHline line { h with llc := some { d with own := {} }, dirty := false } else s
    | none => s

/-- Lines of a slice whose copy the LLC holds. -/
def State.llcLines (s : State) (slice : Fin 8) : List Nat :=
  (s.homes.filter fun e => homeOf e.1 == slice && e.2.llc.isSome).map fun e => e.1

/-- Room for a line in its LLC set: the replacement victim is dropped when clean and written to DRAM when dirty (R340). A set whose
ways were locked out gives up what is too much. -/
def State.llcRoom (s : State) (line : Nat) : State :=
  let one := fun (s : State) =>
    match s.victim (s.arrayOf (.home (homeOf line)) .llc) (s.llcLines (homeOf line)) (fun l => (s.hline l).txn.isNone) line with
    | (some v, s) =>
      let s := s.llcClean v
      s.setHline v { s.hline v with llc := none }
    | (none, s) => s
  (List.range (1 + s.lockedWays.length)).foldl (fun s _ => one s) s

/-- A line written into the LLC as dirty; over a dirty copy the W and H of both are kept (R353). -/
def State.llcDirty (s : State) (line : Nat) (d : LineData) : State :=
  let s := s.llcRoom line
  let h := s.hline line
  let own := match h.llc with
    | some o => if h.dirty then { d.own with w := d.own.w || o.own.w, h := d.own.h || o.own.h } else d.own
    | none => d.own
  s.setHline line { h with llc := some (moved { d with own := own }), dirty := true }

/-- The line's data from the LLC, or from DRAM (R340); a DRAM fill for RD_S or RD_U enters the LLC when LLC_ALLOC is 1. -/
def State.homeData (s : State) (line : Nat) (r : HReq) : State × LineData :=
  let s := s.llcMeet line
  let h := s.hline line
  match h.llc with
  | some d => (s.pmuEvent 0x03 (pmuOf line r), d)
  | none =>
    let (s, d) := (s.pmuEvent 0x04 (pmuOf line r)).mcRead line false
    let keep := (r.op == .rdS || r.op == .rdU || r.op == .upg) && s.on (.home (homeOf line)) F.HOME_TUNE_LLC_ALLOC
    let s := if keep then s.llcRoom line else s
    (if keep then s.setHline line { s.hline line with llc := some d, dirty := false } else s, d)

/-- A line's dirty data, where a holder gave any, and the LLC's, written to DRAM; L becomes clean (R356). -/
def State.homeFlush (s : State) (line : Nat) (got : Option LineData) : State :=
  match got with
  | some d =>
    if (s.hline line).llc.isSome then (s.llcDirty line d).llcClean line
    else s.mcWrite line (moved d).bytes allBytes (moved d).pmask
  | none => s.llcClean line

/-- Masked bytes of a write at the home: into the LLC when it holds the line, otherwise straight to DRAM (R340). -/
def State.homeWrite (s : State) (line : Nat) (bytes : List Byte) (mask : Nat) (own : Own) : State :=
  let s := if mask = allBytes then s else s.llcMeet line
  let h := s.hline line
  match h.llc with
  | some d =>
    let d' : LineData := { bytes := (List.range 64).map fun i => if inMask mask i then bytes.getD i 0 else d.bytes.getD i 0,
                           pmask := d.pmask &&& (allBytes - mask % 2 ^ 64), own := own }
    s.setHline line { h with llc := some { d' with own := if h.dirty then { own with w := own.w || d.own.w, h := own.h || d.own.h } else own },
                             dirty := true }
  | none => s.mcWrite line bytes mask 0

/-! ## Far atomics (R347, R348, R388) -/

/-- The value that an atomic stores, from the old value and the operand, in `w` bits. -/
def amoNew (op : AmoOp) (w old x : Nat) : Nat :=
  let so := signedOf old w
  let sx := signedOf x w
  match op with
  | .swap => x % 2 ^ w
  | .add => (old + x) % 2 ^ w
  | .xor => (old ^^^ x) % 2 ^ w
  | .and => (old &&& x) % 2 ^ w
  | .or => (old ||| x) % 2 ^ w
  | .min => if so ≤ sx then old else x % 2 ^ w
  | .max => if sx ≤ so then old else x % 2 ^ w
  | .minu => min old (x % 2 ^ w)
  | .maxu => max old (x % 2 ^ w)
  | .pteA => if old = x % 2 ^ w then old ||| 0x40 else old
  | .pteAD => if old = x % 2 ^ w then old ||| 0xC0 else old

/-- A line's bytes with `n` bytes at an offset replaced by a number. -/
def spliceNum (bytes : List Byte) (off n v : Nat) : List Byte :=
  bytes.take off ++ leBytes n v ++ bytes.drop (off + n)

/-- The atomic unit's work on the LLC copy: the old value returned with the line's poison, and the history (R347, R348). -/
def State.farAmo (s : State) (line : Nat) (t : HTxn) : State × LineData × Bool :=
  let r := t.r
  let u := UnitId.home (homeOf line)
  let (s, d) := match t.got with
    | some d => (s, d)
    | none => s.homeData line r
  let hist := tget [] s.amoHist (homeOf line).val
  let cont := t.others || hist.any fun e => e.1 == line && e.2 != r.hart
  let s := { s with amoHist := tset [] s.amoHist (homeOf line).val (((line, r.hart) :: hist.filter fun e => e.1 != line).take 256) }
  let s := (s.count u F.HM_CNT_FAR_AMO).pmuEvent 0x08 (pmuOf line r)
  let s := if cont then s.count u F.HM_CNT_CONTENDED else s
  if d.pmask != 0 then (if t.got.isSome then s.llcDirty line d else s, moved d, cont)
  else
    let n := if r.wide then 8 else 4
    let old := leNat ((d.bytes.drop r.off).take n)
    let d' : LineData := { d with bytes := spliceNum d.bytes r.off n (amoNew r.aop (8 * n) old r.operand),
                                  own := { r.own with w := r.own.w || d.own.w, h := r.own.h || d.own.h } }
    (s.llcDirty line d', d, cont)

/-! ## Snoops -/

/-- The link of medium die `m` that carries its traffic of parity `k`: the other one once that is lost (R392, R406). -/
def State.dieLink (s : State) (m k : Nat) : Nat :=
  36 + 2 * m + (if (tget {} s.links (36 + 2 * m + k)).moved then 1 - k else k)

/-- The link that carries an agent's traffic for a line (R392); none for the I/O caches. -/
def State.agentLink (s : State) (agent line : Nat) : Option (Fin 45) :=
  if h : agent < 36 then some ⟨agent, by omega⟩
  else if agent < 40 then some ⟨s.dieLink (agent - 36) ((homeOf line).val % 2) % 45, Nat.mod_lt _ (by decide)⟩
  else none

/-- The link that carries an agent's traffic for a line is isolated (R408). -/
def State.isolated (s : State) (agent line : Nat) : Bool := (s.agentLink agent line).any fun n => s.on (.vz n) F.VZ_CTRL_ISOLATE

/-- A snoop sent; for an isolated agent the hub end of its link answers ACK MISS itself (R408). -/
def State.snoop (s : State) (line : Nat) (r : HReq) (op : SnpOp) (agent : Nat) : State :=
  let s := s.pmuEvent 0x06 (pmuOf line r)
  if s.isolated agent line then
    let s := match s.agentLink agent line with
      | some n => s.count (.vz n) F.VZ_CNT_ISOSNP
      | none => s
    s.send ⟨.ack .miss none .s, line, agent, homePort line, 0, 0⟩
  else s.send ⟨.snp op r.port r.txn, line, homePort line, agent, 0, 0⟩

/-- The snoops that a request calls for (R334, R340, R356). An owner is snooped whoever asks. -/
def snoopsOf (h : HLine) (r : HReq) : Option SnpOp × List Nat :=
  let others := h.p.filter fun a => a != r.port
  match r.op, h.d with
  | .rdS, .u => (some .s, h.p)
  | .rdU, .s => (some .inv, others)
  | .rdU, .u => (some .u, h.p)
  | .upg, .s => (some .inv, others)
  | .upg, .u => (some .u, h.p)
  | .rdOnce, .u => (some .once, h.p)
  | .wrFull, _ => (some .inv, h.p)
  | .wrPtl, _ => (some .inv, h.p)
  | .amo, _ => (some .inv, h.p)
  | .clean, .u => (some .clean, h.p)
  | .cleanInv, _ => (some .inv, h.p)
  | .inv, _ => (some .inv, h.p)
  | .dirVictim, _ => (some .inv, h.p)
  | .recall, _ => (some .inv, h.p.filter fun a => a == r.agent)
  | _, _ => (none, [])

/-! ## Transactions (R340–R345) -/

/-- A write, an AMO or a grant of unique permission is ordered: the offers that await their data are cancelled (R344). -/
def State.cancelOffers (s : State) (line : Nat) : State :=
  let h := s.hline line
  s.setHline line { h with offers := h.offers.map fun o => (o.1, true) }

/-- A request that the home orders as a write, an AMO or a grant of unique permission. -/
def isUniqueOp (op : ReqOp) : Bool := op == .rdU || op == .upg || op == .wrFull || op == .wrPtl || op == .amo

/-- A request begins on a free line: its snoops go out and the line is busy. -/
def State.homeStart (s : State) (line : Nat) (r : HReq) : State :=
  let h := s.hline line
  let stale := r.op == .upg && !(h.d == .s && h.p.contains r.port)
  let s := if stale then s.count (.home (homeOf line)) F.HM_CNT_STALE else s
  let r := if stale then { r with op := .rdU } else r
  let (op, targets) := snoopsOf h r
  let t : HTxn := { r := r, wait := targets, others := targets.any fun a => a != r.port }
  let s := s.setHline line { h with txn := some t }
  let s := if isUniqueOp r.op then s.cancelOffers line else s
  match op with
  | some o => targets.foldl (fun s a => s.snoop line r o a) s
  | none => s

/-! ## Room in the directory (R334) -/

/-- Lines of a slice with a directory entry. -/
def State.entriesOf (s : State) (slice : Fin 8) : List Nat :=
  (s.homes.filter fun e => homeOf e.1 == slice && e.2.d != .i).map fun e => e.1

/-- A line is the victim for which some request waits. -/
def State.isDirVictim (s : State) (v : Nat) : Bool := s.homes.any fun e => e.2.txn.any fun t => t.dir == some v

/-- A request asks for a copy of a line that has no directory entry. -/
def State.wantsEntry (s : State) (line : Nat) (r : HReq) : Bool :=
  (r.op == .rdS || r.op == .rdU || r.op == .upg) && (s.hline line).d == .i

/-- The directory victim for a line's entry: none while its set has room. A request that names one says that the set is full; which
lines share a set is left open, and so is the choice. -/
def State.dirVictim (s : State) (line : Nat) (r : HReq) : Option Nat × State :=
  let held := s.entriesOf (homeOf line)
  let named := r.victim.filter fun v => v != line && held.contains v && !s.isDirVictim v && decide (21 ≤ held.length)
  match named with
  | some v => (some v, s)
  | none =>
    match s.victim .dir held (fun v => !s.isDirVictim v) line with
    | (some v, s) => (some v, s)
    | (none, s) => s.victim .dir held (fun _ => true) line

/-- The home takes a victim's entry: SNP_INV to every holder once the line is free (R334, R342). -/
def State.recallVictim (s : State) (line v : Nat) : State :=
  let h := s.hline v
  let q : HReq := { op := .dirVictim, port := homePort v, txn := 0, w := true, forLine := line }
  if h.txn.isNone && h.waitq.isEmpty then s.homeStart v q else s.setHline v { h with waitq := h.waitq ++ [q] }

/-- A visit of the range maintenance engine's channel 0 passes over a line whose page is secure when the engine reaches it (R356,
R358). -/
def State.passedOver (s : State) (line : Nat) (r : HReq) : Bool :=
  (r.op == .clean || r.op == .cleanInv || r.op == .inv) && r.txn == 0 && s.wmapNow.any fun x => x.secure && decide (x.base ≤ line / 64 ∧ line / 64 ≤ x.limit)

/-- A request begins on a free line, after the recall of a directory victim where it needs an entry and its set is full (R334). -/
def State.homeBegin (s : State) (line : Nat) (r : HReq) : State :=
  if s.passedOver line r then s.count .rme F.RME0_SKIP
  else if !s.wantsEntry line r then s.homeStart line r
  else
    match s.dirVictim line r with
    | (none, s) => s.homeStart line r
    | (some v, s) => (s.setHline line { s.hline line with txn := some { r := r, dir := some v } }).recallVictim line v

/-! ## The end of a request -/

/-- DATA and COMP to a requester of a copy; the line stays busy until COMP_ACK (R342). -/
def State.grant (s : State) (line : Nat) (t : HTxn) (st : CopySt) (d : Option LineData) (dir : DirSt) (p : List Nat) : State :=
  let s := s.setHline line { s.hline line with d := dir, p := p, txn := some { t with comp := true } }
  let s := match d with
    | some x => s.send ⟨.data st (moved x), line, homePort line, t.r.port, t.r.txn, 0⟩
    | none => s
  s.send ⟨.comp st false, line, homePort line, t.r.port, t.r.txn, 0⟩

/-- A write-back absorbed while no transaction is open (R344). -/
def State.absorb (s : State) (line : Nat) (w : Nat × LineData) : State :=
  let h := s.hline line
  let s := (s.llcDirty line w.2)
  let p := h.p.filter fun x => x != w.1
  (s.setHline line { s.hline line with d := if p.isEmpty then .i else h.d, p := p }).send
    ⟨.wbAck false, line, homePort line, w.1, 0, 0⟩

/-- A line's transaction ends: write-backs that joined it and that no snoop used are absorbed (R344, R345). -/
def State.homeFree (s : State) (line : Nat) (t : HTxn) : State :=
  t.wbs.foldl (fun s w => s.absorb line w) (s.setHline line { s.hline line with txn := none })

/-- A request that the home makes for itself or for the range maintenance engine, which no COMP answers. -/
def isOwnOp (op : ReqOp) : Bool := op == .clean || op == .cleanInv || op == .inv || op == .recall || op == .dirVictim

/-- COMP to a requester that keeps no copy; the line is free (R342). -/
def State.homeEnds (s : State) (line : Nat) (t : HTxn) (cont : Bool) : State :=
  (if isOwnOp t.r.op then s else s.send ⟨.comp .s cont, line, homePort line, t.r.port, t.r.txn, 0⟩).homeFree line t

/-- The line's directory entry empty. -/
def State.noHolders (s : State) (line : Nat) : State := s.setHline line { s.hline line with d := .i, p := [] }

/-- An agent is no holder of a line any more; an owner's entry is empty then. -/
def State.leaveP (s : State) (line agent : Nat) : State :=
  let h := s.hline line
  if !h.p.contains agent then s
  else
    let p := h.p.filter fun x => x != agent
    s.setHline line { h with p := p, d := if p.isEmpty || h.d == .u then .i else h.d }

/-- A count of the range maintenance engine's channel, which the request's TXN names (R361). -/
def State.rmeLine (s : State) (ch : Nat) : State :=
  s.count .rme (if ch = 0 then F.RME0_LINES else F.RME1_LINES)

/-- Every answer is in: the request takes effect (R334, R340, R346, R347, R356). -/
def State.homeEffect (s : State) (line : Nat) (t : HTxn) : State :=
  let h := s.hline line
  let r := t.r
  let a := r.port
  let s := if isUniqueOp r.op then s.cancelOffers line else s
  match r.op with
  | .rdS =>
    if t.sent then
      let s := match t.got with
        | some d => s.llcDirty line d
        | none => s
      s.grant line t .s none .s (h.p.filter (fun x => x != a) ++ [a])
    else
      let (s, d) := s.homeData line r
      if h.d == .s then s.grant line t .s (some d) .s (h.p.filter (fun x => x != a) ++ [a])
      else if t.missed then s.grant line t .s (some d) .s [a]
      else (s.cancelOffers line).grant line t .uc (some d) .u [a]
  | .rdU =>
    if t.sent then s.grant line t t.state none .u [a]
    else
      let (s, d) := s.homeData line r
      s.grant line t .uc (some d) .u [a]
  | .upg => s.grant line t .uc none .u [a]
  | .rdOnce =>
    if t.sent then s.homeEnds line t false
    else
      let (s, d) := s.homeData line r
      (s.send ⟨.data .s (moved d), line, homePort line, a, r.txn, 0⟩).homeEnds line t false
  | .wrFull => ((s.homeWrite line r.data allBytes r.own).noHolders line).homeEnds line t false
  | .wrPtl =>
    let s := match t.got with
      | some d => s.homeWrite line d.bytes allBytes d.own
      | none => s
    let s := match t.got with
      | some d => if d.pmask = 0 then s else if (s.hline line).llc.isSome then s.llcDirty line d else s.mcWrite line d.bytes allBytes d.pmask
      | none => s
    ((s.homeWrite line r.data r.mask r.own).noHolders line).homeEnds line t false
  | .amo =>
    let (s, d, cont) := s.farAmo line t
    ((s.send ⟨.data .s d, line, homePort line, a, r.txn, 0⟩).noHolders line).homeEnds line t cont
  | .clean =>
    let dirty := t.got.isSome || (s.hline line).dirty
    let s := s.homeFlush line t.got
    (if dirty then s.rmeLine r.txn else s).homeEnds line t false
  | .cleanInv =>
    let any := !h.p.isEmpty || (s.hline line).llc.isSome
    let s := (s.homeFlush line t.got).noHolders line
    let s := s.setHline line { s.hline line with llc := none, dirty := false, offers := [] }
    (if any then s.rmeLine r.txn else s).homeEnds line t false
  | .inv =>
    let any := !h.p.isEmpty || h.llc.isSome
    let s := s.noHolders line
    let s := s.setHline line { s.hline line with llc := none, dirty := false, offers := [] }
    (if any then s.rmeLine r.txn else s).homeEnds line t false
  | .recall =>
    let s := match t.got with
      | some d => s.llcDirty line d
      | none => s
    ((s.leaveP line r.agent).rmeLine r.txn).homeEnds line t false
  | .dirVictim =>
    let s := match t.got with
      | some d => s.llcDirty line d
      | none => s
    let s := if h.p.isEmpty && !t.missed then s else s.count (.home (homeOf line)) F.HM_CNT_BACKINV
    (s.noHolders line).homeEnds line t false
  | .wb | .evict => s.homeEnds line t false

/-- A grant to a requester whose link is lost: nothing reaches it, and its COMP_ACK is the hub's (R408). -/
def State.homeGone (s : State) (line : Nat) (t : HTxn) : State :=
  let s := { s with net := s.net.filter fun m => !(m.line == line && m.dst == t.r.port && m.txn == t.r.txn) }
  ((s.hline line).txn.filter fun x => x.comp).elim s fun x => (s.leaveP line t.r.port).homeFree line x

/-- A line's open transaction takes effect once no answer and no write-back is awaited. -/
def State.homeDue (s : State) (line : Nat) : State :=
  match (s.hline line).txn.filter fun t => !t.comp && t.wait.isEmpty && t.wbWait.isEmpty && t.dir.isNone with
  | none => s
  | some t => if t.gone then (s.homeEffect line t).homeGone line t else s.homeEffect line t

/-- A directory victim has gone: the request that waited for its entry begins (R334). -/
def State.entryFreed (s : State) (v line : Nat) : State :=
  match (s.hline line).txn.filter fun t => t.dir == some v with
  | none => s
  | some t =>
    let s := (s.setHline line { s.hline line with txn := none }).homeBegin line { t.r with victim := none }
    let s := if t.gone then s.setHline line { s.hline line with txn := (s.hline line).txn.map fun x => { x with gone := true } } else s
    s.homeDue line

/-- A transaction goes on as far as its answers allow. -/
def State.homeFinish (s : State) (line : Nat) : State :=
  let t := (s.hline line).txn
  let s := s.homeDue line
  match t with
  | some t => if t.r.op == .dirVictim && (s.hline line).txn.isNone then s.entryFreed line t.r.forLine else s
  | none => s

/-- A free line takes its waiting requests in order, as far as they end at once (R342). -/
def State.homeNext (s : State) (line : Nat) : Nat → State
  | 0 => s
  | n + 1 =>
    let h := s.hline line
    match h.txn, h.waitq with
    | none, r :: rs =>
      (((s.setHline line { h with waitq := rs }).homeBegin line r).homeFinish line).homeNext line n
    | _, _ => s

/-- A line's transaction goes on, and the requests that wait behind it once it has ended. -/
def State.homeGo (s : State) (line : Nat) : State := (s.homeFinish line).homeNext line ((s.hline line).waitq.length + 1)

/-- A refusal of a request (R301, R368, R392): ERR with its cause, and the hub's denied access. -/
def State.homeErr (s : State) (line : Nat) (r : HReq) (cause : Nat) : State :=
  let s := if cause = 1 ∨ cause = 3 then s.denied .hub else s
  (s.pmuEvent 0x09 (pmuOf line r)).send ⟨.err cause, line, homePort line, r.port, r.txn, 0⟩

/-- A page is secure under the world map in force (R301). -/
def State.securePage (s : State) (page : Nat) : Bool :=
  s.wmapNow.any fun r => r.secure && decide (r.base ≤ page ∧ page ≤ r.limit)

/-- The cause for which a home refuses a request, if any (R301, R368, R392). -/
def State.homeRefuses (s : State) (line : Nat) (r : HReq) : Option Nat :=
  let own := isOwnOp r.op
  if dramSize ≤ 64 * line then some 4
  else if !own && decide (s.memTop * 2 ^ 29 ≤ 64 * line) then some 3
  else if !own && !r.w && s.securePage (line / 64) then some 1
  else none

/-- A request enters a home's ordering port (R341, R342): refused, begun, or waiting on a busy line. -/
def State.homeRequest (s : State) (line : Nat) (r : HReq) : State :=
  let s := s.pmuEvent 0x02 (pmuOf line r)
  match s.homeRefuses line r with
  | some c => s.homeErr line r c
  | none =>
    let h := s.hline line
    let busy := h.txn.isSome || !h.waitq.isEmpty
    let s := if busy then s.pmuEvent 0x07 (pmuOf line r) else s
    (s.setHline line { h with waitq := h.waitq ++ [r] }).homeNext line (h.waitq.length + 1)

/-! ## Answers -/

/-- A snooped agent's write-back used as the snoop's data: written into the LLC, and installing nothing else (R345). -/
def State.consumeWb (s : State) (line : Nat) (t : HTxn) (w : Nat × LineData) : State :=
  let t := { t with wbs := t.wbs.filter (fun x => x.1 != w.1), wbWait := t.wbWait.filter (fun a => a != w.1), missed := true,
                    got := if t.r.op == .wrFull || t.r.op == .inv then t.got else some w.2 }
  let s := ((s.setHline line { s.hline line with txn := some t }).leaveP line w.1).llcDirty line w.2
  (s.count (.home (homeOf line)) F.HM_CNT_CROSS_WB).send ⟨.wbAck true, line, homePort line, w.1, 0, 0⟩

/-- An ACK reaches the home (R339, R345): the answer is noted, and the transaction completes once all are in. An agent that had
nothing holds the line no more. -/
def State.homeAck (s : State) (line agent : Nat) (k : AckKind) (dirty : Option LineData) (st : CopySt) : State :=
  let h := s.hline line
  match h.txn with
  | none => s
  | some t =>
    if !t.wait.contains agent then s
    else
      let t : HTxn := { t with wait := t.wait.filter fun x => x != agent }
      let keep := fun (s : State) (t : HTxn) => s.setHline line { h with txn := some t }
      let s : State := match k with
        | .wbPending =>
          match t.wbs.find? (fun w : Nat × LineData => w.1 == agent) with
          | some w => s.consumeWb line t w
          | none => keep s { t with wbWait := t.wbWait ++ [agent] }
        | .miss => (keep s { t with missed := true }).leaveP line agent
        | .hit => keep s { t with got := if dirty.isSome then dirty else t.got }
        | .dataSent => keep s { t with sent := true, state := st, got := if dirty.isSome then dirty else t.got }
      s.homeGo line

/-- A WB enters the port (R344, R345): absorbed; or held in the line's open transaction, which uses it where it waits for it. -/
def State.homeWb (s : State) (agent line : Nat) (d : LineData) : State :=
  match (s.hline line).txn with
  | none => s.absorb line (agent, d)
  | some t =>
    if t.wbWait.contains agent then (s.consumeWb line t (agent, d)).homeGo line
    else s.setHline line { s.hline line with txn := some { t with wbs := t.wbs ++ [(agent, d)] } }

/-- An agent whose link is lost sends no write-back any more: its answer counts as awaited again (R408). -/
def State.noWb (s : State) (line agent : Nat) : State :=
  let h := s.hline line
  s.setHline line { h with txn := h.txn.map (fun (t : HTxn) =>
    if t.wbWait.contains agent then { t with wbWait := t.wbWait.filter (fun a => a != agent), wait := t.wait ++ [agent] } else t) }

/-- COMP_ACK reaches the home (R342): write-backs that joined are absorbed, the line is free and the next request starts. -/
def State.homeCompAck (s : State) (line : Nat) : State :=
  let h := s.hline line
  match h.txn with
  | some t => if t.comp then (s.homeFree line t).homeNext line (h.waitq.length + 1) else s
  | none => s

end Sys2Proof.Machine
end

