-- ==== Sys2Proof/Machine/Coherence.lean ====
section
/-! DEFINITION. Agents, tiles and cores: snoops, grants, evictions and the messages of a tile (R333, R336–R345, R354). -/

namespace Sys2Proof.Machine

open Sys2Proof

/-! ## Who is who -/

/-- The internal master of a fabric port, by its index of R320. -/
def masterOf (port : Nat) : Option Nat :=
  if port < 36 then none
  else if port < 40 then some (port - 36)
  else if port < 42 then some (port - 40 + 8)
  else if port < 46 then some (port - 42 + 4)
  else if port < 50 then some (port - 46 + 10) else none

/-- The unit that stands for a fabric port (R387). -/
def portUnit (port : Nat) : UnitId :=
  if port < 42 then agentUnit port
  else if port < 46 then .stripe ⟨(port - 42) % 4, Nat.mod_lt _ (by decide)⟩
  else if port = 46 then .headgate
  else if port = 47 then .key
  else if port = 48 then .sweep
  else if port = 49 then .rme
  else if port < 58 then .home ⟨(port - 50) % 8, Nat.mod_lt _ (by decide)⟩
  else if port = 58 then .keep
  else .hub

/-- The hart on a core of a physical tile. -/
def State.hartOf (s : State) (tile core : Nat) : Option Nat := (s.logTile tile).map fun t => 8 * t + core

/-- Where a core holds a line beside its L2. -/
def State.l1Of (s : State) (tile core line : Nat) : L1s := tget {} s.l1s (512 * line + 8 * tile + core)
/-- Where a core holds a line beside its L2, replaced. -/
def State.setL1 (s : State) (tile core line : Nat) (x : L1s) : State := { s with l1s := tset {} s.l1s (512 * line + 8 * tile + core) x }

/-- A core loses its copy of a line in every level, and with it a reservation of the line (R293, R333, R343). -/
def State.coreDrop (s : State) (tile core line : Nat) : State :=
  let s := (s.setCoreCopy tile core line none).setL1 tile core line {}
  match s.hartOf tile core with
  | some n =>
    let h := s.hart n
    if h.resv = some line then s.setHart n { h with resv := none } else s
  | none => s

/-- The unit of a core. -/
def coreOf (tile core : Nat) : UnitId := .core ⟨tile % 36, Nat.mod_lt _ (by decide)⟩ ⟨core % 8, Nat.mod_lt _ (by decide)⟩

/-- The owner record of dirty data laid over dirty data (R353). -/
def ownOver (new : Own) (old : Copy) : Own :=
  if old.st == .ud then { new with w := new.w || old.d.own.w, h := new.h || old.d.own.h } else new

/-- The owner record of a hart's store (R353): W its world, H whether it runs in M or HS. -/
def storeOwn (h : Hart) (n : Nat) : Own := { w := h.w, h := h.priv == 3 || (h.priv == 1 && !h.w && !h.v), m := false, hart := n }

/-- Dirty data of a core taken into its tile's L3. -/
def State.tileTake (s : State) (tile line : Nat) (d : LineData) : State :=
  match s.copyOf tile line with
  | some c => s.setCopy tile line (some ⟨.ud, { moved d with own := ownOver d.own c }⟩)
  | none => s

/-- The core of a tile that holds a line in UD. -/
def State.udCore (s : State) (tile line : Nat) : Option (Nat × Copy) :=
  (List.range 8).findSome? fun k => match s.coreCopy tile k line with
    | some c => if c.st == .ud then some (k, c) else none
    | none => none

/-- An agent's copy as the agent reports it: a tile reports UD when any of its cores holds UD (R337). -/
def State.agentCopy (s : State) (agent line : Nat) : Option Copy :=
  match s.copyOf agent line with
  | none => none
  | some c => if agent < 36 then
      match s.udCore agent line with
      | some (_, x) => some ⟨.ud, { moved x.d with own := ownOver x.d.own c }⟩
      | none => some c
    else some c

/-- Dirty data read from a core's copy, which it leaves: with bad parity it is poisoned (R355). -/
def State.coreDirty (s : State) (tile core line : Nat) (c : Copy) : State × LineData :=
  match c.d.bad with
  | none => (s, c.d)
  | some again =>
    let u := coreOf tile core
    let inD := (s.l1Of tile core line).d
    let s := (s.lockWay u (if inD then .l1d else .l2) again).count u F.CC_CNT_PAR_DIRTY
    (s.parityDirty u c.d.own (if inD then 1 else 2) line, { c.d with pmask := allBytes, bad := none })

/-- A tile's cores give up a line before the L3 evicts it; dirty data joins the L3's (R333). -/
def State.backInvalidate (s : State) (tile line : Nat) : State :=
  if (s.coreVec tile line).isEmpty || 36 ≤ tile then s
  else
    let s := match s.udCore tile line with
      | some (k, c) =>
        let (s, d) := s.coreDirty tile k line c
        s.tileTake tile line d
      | none => s
    let s := (s.coreVec tile line).foldl (fun s k => s.coreDrop tile k line) s
    if h : tile < 36 then s.count (.tile ⟨tile, h⟩) F.TL_CNT_BACKINV else s

/-! ## Evictions and write-backs at the home (R344, R345) -/

/-- What the package counters see of a notice (R529). -/
def noticeObs (agent line : Nat) : PmuObs := ⟨(homeOf line).val, agent, true, 3, line⟩

/-- Accepted offers of a slice that await their data. -/
def State.offersAt (s : State) (slice : Nat) : Nat :=
  ((s.homes.filter fun e => (homeOf e.1).val == slice).map fun e => e.2.offers.length).foldl (fun a b => a + b) 0

/-- An EVICT enters the port: the agent leaves P at once, and the answer (R344, R345). -/
def State.homeEvict (s : State) (agent line txn : Nat) (offer : Bool) : State :=
  let u := UnitId.home (homeOf line)
  let s := s.pmuEvent 0x02 (noticeObs agent line)
  let answer := fun (s : State) (a : EvAns) => s.send ⟨.evAck a, line, homePort line, agent, txn, 0⟩
  if !(s.hline line).p.contains agent then answer (s.count u F.HM_CNT_CROSS_EV) .stale
  else
    let s := s.leaveP line agent
    let h := s.hline line
    if !offer then answer s .decline
    else if h.llc.isNone && s.on u F.HOME_TUNE_OFFER_EN && decide (s.offersAt (homeOf line).val < max 1 (s.get u F.HOME_TUNE_OFFER_Q)) then
      answer ((s.count u F.HM_CNT_OFFER_ACC).setHline line { h with offers := h.offers ++ [(agent, false)] }) .accept
    else answer (s.count u F.HM_CNT_OFFER_DEC) .decline

/-- ODATA reaches the home: installed with L clean, unless a later order cancelled it (R344). -/
def State.homeOdata (s : State) (agent line : Nat) (d : LineData) : State :=
  let h := s.hline line
  match h.offers.find? (fun o : Nat × Bool => o.1 == agent) with
  | none => s
  | some o =>
    let h := { h with offers := h.offers.erase o }
    let s := s.setHline line h
    if o.2 || h.llc.isSome then s
    else (s.llcRoom line).setHline line { h with llc := some { moved d with own := {} }, dirty := false }

/-- A transaction number that a port has free, of its 1,024 (R387). -/
def State.freeTxn (s : State) (port : Nat) : Option Nat :=
  (List.range 1024).find? fun n => !(s.heldTxn.any fun e => e.port == port && e.txn == n) && !s.reqs.any fun r => r.port == port && r.txn == n

/-- An agent's notice sent for a copy that is gone from its cache: WB with the data of a dirty copy; EVICT for a clean one, which stays
in the eviction buffer until the answer where it has data (R344). -/
def State.notice (s : State) (agent line n : Nat) (c : Copy) (kept : Bool) : State :=
  let q : OReq := { port := agent, txn := n, line := line, op := some (if c.st == .ud then ReqOp.wb else .evict) }
  let s := { s with reqs := s.reqs ++ [q] }
  if c.st == .ud then s.send ⟨.wb (moved c.d), line, agent, homePort line, n, 0⟩
  else
    let s := if kept then { s with evbufs := s.evbufs ++ [(agent, line, c.d)] } else s
    let offer := kept && (if h : agent < 36 then s.on (.tile ⟨agent, h⟩) F.TL_TUNE_OFFER else false)
    let s := if offer then (if h : agent < 36 then s.count (.tile ⟨agent, h⟩) F.TL_CNT_OFFER else s) else s
    s.send ⟨.evict offer, line, agent, homePort line, n, 0⟩

/-- The array of an agent. -/
def agentArray (a : Nat) : Shape := if a < 36 then .l3 else .buffer

/-- An agent's copy met by an access or a snoop: with bad parity a clean one is invalidated and reported by an EVICT without OFFER; a
dirty one is poisoned and written back (R354, R355). What a tile's cores hold dirty joins the line first. -/
def State.agentMeet (s : State) (a line : Nat) : State :=
  match (s.copyOf a line).bind fun c => c.d.bad with
  | none => s
  | some again =>
    let u := agentUnit a
    let s := s.lockWay u (agentArray a) again
    let count := fun (s : State) (f : Fld) => if h : a < 36 then s.count (.tile ⟨a, h⟩) f else s
    let ud := (s.copyOf a line).any fun c => c.st == .ud
    let own := ((s.copyOf a line).map fun c => c.d.own).getD {}
    let s := if ud then count s F.TL_CNT_PAR_DIRTY else (count s F.TL_CNT_PAR_CLEAN).record u .corrected
    let s := s.backInvalidate a line
    match s.copyOf a line, s.freeTxn a with
    | some c, some n =>
      let d := { c.d with pmask := if ud then allBytes else c.d.pmask, bad := none }
      let s := (s.setCopy a line none).notice a line n { c with d := d } false
      if ud then s.parityDirty u own (if a < 36 then 3 else 0) line else s
    | some c, none =>
      let s := s.setCopy a line (if ud then some { c with d := { c.d with pmask := allBytes, bad := none } } else none)
      if ud then s.parityDirty u own (if a < 36 then 3 else 0) line else s
    | none, _ => s

/-- An agent's copy struck by an error that its next access meets; an error of its tag is met at once (R332, R354). -/
def State.agentStrike (s : State) (a line : Nat) (par : Parity) : State :=
  match par, s.copyOf a line with
  | .bad again, some c => s.setCopy a line (some { c with d := { c.d with bad := some again } })
  | .tag corrected, _ => s.tagError (agentUnit a) line corrected
  | _, _ => s

/-- An agent drops its copy: WB from UD, EVICT otherwise (R333, R344). -/
def State.agentDrop (s : State) (agent line : Nat) : State :=
  let s := s.agentMeet agent line
  match s.freeTxn agent with
  | none => s
  | some n =>
    let s := s.backInvalidate agent line
    match s.copyOf agent line with
    | some c => (s.setCopy agent line none).notice agent line n c true
    | none => s

/-- The answer to an EVICT reaches the agent (R344). -/
def State.evictAnswer (s : State) (agent line : Nat) (a : EvAns) : State :=
  match s.evbufs.find? (fun e : Nat × Nat × LineData => e.1 == agent && e.2.1 == line) with
  | none => s
  | some e =>
    let s := { s with evbufs := s.evbufs.erase e }
    if a == .accept then s.send ⟨.odata e.2.2, line, agent, homePort line, 0, 0⟩ else s

/-! ## Snoops at an agent (R339, R345, R354, R355) -/

/-- An agent has sent a WB of a line that its home has not acknowledged. -/
def State.wbOut (s : State) (agent line : Nat) : Bool := s.reqs.any fun r => r.port == agent && r.line == line && r.op == some .wb

/-- An agent answers a snoop once its cores have. -/
def State.agentAnswer (s : State) (line a : Nat) (op : SnpOp) (req rtxn : Nat) : State :=
  let ack := fun (s : State) (k : AckKind) (d : Option LineData) (st : CopySt) =>
    s.send ⟨.ack k d st, line, a, homePort line, 0, 0⟩
  match s.copyOf a line with
  | none => ack s (if s.wbOut a line then .wbPending else .miss) none .s
  | some c =>
    let d := moved c.d
    let clean : LineData := { c.d with own := {} }
    let dirty := if c.st == .ud then some d else none
    match op with
    | .s => ack ((s.setCopy a line (some ⟨.s, clean⟩)).send ⟨.data .s d, line, a, req, rtxn, 0⟩) .dataSent dirty .s
    | .u => ack ((s.setCopy a line none).send ⟨.data c.st d, line, a, req, rtxn, 0⟩) .dataSent none c.st
    | .inv => ack (s.setCopy a line none) .hit dirty .s
    | .once => ack (s.send ⟨.data .s d, line, a, req, rtxn, 0⟩) .dataSent none .s
    | .clean => ack (s.setCopy a line (some (if c.st == .ud then ⟨.uc, clean⟩ else c))) .hit dirty .s

/-- The cores that a tile asks before it answers a snoop, and what it asks (R337, R343). -/
def State.snoopCores (s : State) (tile line : Nat) (op : SnpOp) : TileOp × List Nat :=
  let own := fun (k : Nat) => (s.coreCopy tile k line).any fun c => c.st != .s
  let v := s.coreVec tile line
  match op with
  | .s => (.down, v.filter own)
  | .u | .inv => (.inv, v)
  | .once => (.fetch, v.filter own)
  | .clean => (.down, v.filter own)

/-- A tile's work on a line. -/
def State.tileTxn (s : State) (tile line : Nat) : TileTxn := tget {} s.tiles (64 * line + tile)
/-- A tile's work on a line replaced. -/
def State.setTileTxn (s : State) (tile line : Nat) (t : TileTxn) : State := { s with tiles := tset {} s.tiles (64 * line + tile) t }

/-- A message of a tile to some of its cores, for a core's request (0) or a hub snoop (1). -/
def State.askCores (s : State) (tile line : Nat) (op : TileOp) (why : Nat) (ks : List Nat) : State :=
  ks.foldl (fun s k => s.send ⟨.tile op, line, tile, tile, why, k⟩) s

/-- A snoop reaches an agent. -/
def State.agentSnoop (s : State) (line a : Nat) (op : SnpOp) (req rtxn : Nat) (par : Parity) : State :=
  let s := (s.agentStrike a line par).agentMeet a line
  let (ask, ks) := if a < 36 then s.snoopCores a line op else (.inv, [])
  if ks.isEmpty then s.agentAnswer line a op req rtxn
  else
    let t := s.tileTxn a line
    (s.setTileTxn a line { t with snp := some (op, req, rtxn), snpWait := ks, held := [] }).askCores a line ask 1 ks

/-! ## Room in the caches (R332, R333) -/

/-- A line of an agent on which it has work open. -/
def State.agentBusy (s : State) (a line : Nat) : Bool :=
  s.reqs.any (fun r => r.port == a && r.line == line) || s.tileTxn a line != {}

/-- Lines of which an agent holds a copy. -/
def State.agentLines (s : State) (a : Nat) : List Nat := (s.copies.filter fun e => e.1 % 64 == a).map fun e => e.1 / 64

/-- Lines of which a core holds a copy. -/
def State.coreLines (s : State) (tile core : Nat) : List Nat :=
  (s.cores.filter fun e => e.1 % 512 == 8 * tile + core).map fun e => e.1 / 512

/-- Room for a line in an agent's cache: the copy that is replaced is written back, or dropped with its notice (R344). -/
def State.agentRoom (s : State) (a line : Nat) : State :=
  let one := fun (s : State) =>
    match s.victim (s.arrayOf (agentUnit a) (agentArray a)) (s.agentLines a) (fun l => !s.agentBusy a l) line with
    | (some v, s) => s.agentDrop a v
    | (none, s) => s
  (List.range (1 + s.lockedWays.length)).foldl (fun s _ => one s) s

/-- A core's copy met by an access or a snoop: with bad parity a clean one is invalidated in L1 and L2; a dirty one is poisoned and
written back, through the tile's L3 (R354, R355). -/
def State.coreMeet (s : State) (tile core line : Nat) : State :=
  match s.coreCopy tile core line with
  | none => s
  | some c =>
    match c.d.bad with
    | none => s
    | some again =>
      if c.st == .ud then
        let (s, d) := s.coreDirty tile core line c
        let s := (s.tileTake tile line d).coreDrop tile core line
        if s.agentBusy tile line then s else s.agentDrop tile line
      else
        let u := coreOf tile core
        let s := s.lockWay u (if (s.l1Of tile core line).d then .l1d else .l2) again
        ((s.count u F.CC_CNT_PAR_CLEAN).record u .corrected).coreDrop tile core line

/-- A core's copy struck by an error that its next access meets; an error of its tag is met at once (R332, R354). -/
def State.coreStrike (s : State) (tile core line : Nat) (par : Parity) : State :=
  match par, s.coreCopy tile core line with
  | .bad again, some c => s.setCoreCopy tile core line (some { c with d := { c.d with bad := some again } })
  | .tag corrected, _ => s.tagError (coreOf tile core) line corrected
  | _, _ => s

/-- A core drops a copy (R337). -/
def State.corePut (s : State) (tile core line : Nat) : State :=
  let s := s.coreMeet tile core line
  match s.coreCopy tile core line with
  | none => s
  | some c => (if c.st == .ud then s.tileTake tile line c.d else s).coreDrop tile core line

/-- Room for a line in a core's L2: the copy that is replaced is dropped (R337). -/
def State.coreRoom (s : State) (tile core line : Nat) : State :=
  let one := fun (s : State) =>
    match s.victim (s.arrayOf (coreOf tile core) .l2) (s.coreLines tile core) (fun l => s.tileTxn tile l == {}) line with
    | (some v, s) => s.corePut tile core v
    | (none, s) => s
  (List.range (1 + s.lockedWays.length)).foldl (fun s _ => one s) s

/-- Lines that a core holds in its L1I or its L1D. -/
def State.l1Lines (s : State) (tile core : Nat) (instr : Bool) : List Nat :=
  (s.coreLines tile core).filter fun l => if instr then (s.l1Of tile core l).i else (s.l1Of tile core l).d

/-- A line of a core's L2 enters its L1I or its L1D; a full set gives one of its lines up to the L2 (R332, R333). -/
def State.l1Fill (s : State) (tile core line : Nat) (instr : Bool) : State :=
  let put := fun (s : State) (l : Nat) (b : Bool) =>
    let x := s.l1Of tile core l
    s.setL1 tile core l (if instr then { x with i := b } else { x with d := b })
  let one := fun (s : State) =>
    match s.victim (s.arrayOf (coreOf tile core) (if instr then .l1i else .l1d)) (s.l1Lines tile core instr) (fun _ => true) line with
    | (some v, s) => put s v false
    | (none, s) => s
  if (s.coreCopy tile core line).isNone then s
  else put ((List.range (1 + s.lockedWays.length)).foldl (fun s _ => one s) s) line true

/-! ## Requests of cores and agents -/

/-- A tile's L3 works on a core's request: from its own array and peers, or through the hub (R337). It waits while a hub snoop of the
line waits for the cores (R343), and while a notice or a request of the line is not answered. -/
def State.tileWork (s : State) (tile line : Nat) : State :=
  let t := s.tileTxn tile line
  match t.req with
  | none => s
  | some (core, op) =>
    if t.hub || !t.reqWait.isEmpty || t.snp.isSome then s
    else
      let s := s.agentMeet tile line
      let peers := (s.coreVec tile line).filter fun k => k != core
      let hub := fun (h : ReqOp) =>
        match s.freeTxn tile with
        | none => s
        | some n =>
          if s.reqs.any fun r => r.port == tile && r.line == line then s
          else
            let w := ((s.hartOf tile core).map fun n => (s.hart n).w).getD false
            let q : OReq := { port := tile, txn := n, line := line, op := some h, core := some (core, op) }
            let s : State := { s with reqs := s.reqs ++ [q] }
            (s.setTileTxn tile line { t with hub := true }).send ⟨.req { op := h, port := tile, txn := n, w := w }, line, tile, homePort line, n, 0⟩
      match s.copyOf tile line with
      | none => hub (match op with | .getS => .rdS | .getU => .rdU | .upg => .upg)
      | some c =>
        if op != .getS && c.st == .s then hub (if op == .upg then .upg else .rdU)
        else
          let ask := if op == .getS then peers.filter fun k => (s.coreCopy tile k line).any fun x => x.st != .s else peers
          if ask.isEmpty then
            let st := if op == .getS && (c.st == .s || !peers.isEmpty) then CopySt.s else .uc
            let mine := match s.coreCopy tile core line with
              | some x => if x.st == .ud then x else Copy.mk (if op == .getS && x.st == .uc then .uc else st) x.d
              | none => Copy.mk st { c.d with own := {} }
            ((s.coreRoom tile core line).setCoreCopy tile core line (some mine)).setTileTxn tile line { t with req := none }
          else
            (s.setTileTxn tile line { t with reqWait := ask }).askCores tile line (if op == .getS then .down else .inv) 0 ask

/-- A core's request reaches its L3; a request for a line on which the L3 already serves a core is not taken yet. -/
def State.tileRequest (s : State) (tile core line : Nat) (op : CoreOp) : State :=
  let t := s.tileTxn tile line
  if t.req.isSome then s else (s.setTileTxn tile line { t with req := some (core, op) }).tileWork tile line

/-- A T_ message reaches a core (R337). -/
def State.coreAnswer (s : State) (tile core line : Nat) (op : TileOp) (why : Nat) : State :=
  let back := fun (s : State) (d : Option LineData) (dirty : Bool) => s.send ⟨.tdata d dirty, line, tile, tile, why, core⟩
  let s := s.coreMeet tile core line
  match s.coreCopy tile core line with
  | none => back s none false
  | some c =>
    let ud := c.st == .ud
    match op with
    | .inv => back (s.coreDrop tile core line) (if ud then some (moved c.d) else none) ud
    | .down => back (s.setCoreCopy tile core line (some ⟨.s, { c.d with own := {} }⟩)) (some (moved c.d)) ud
    | .fetch => back s (some (moved c.d)) ud

/-- A core's data or answer reaches its L3; the snoop or the request that waited for it goes on (R337, R343). Clean data is what the L3
holds. -/
def State.tileAnswer (s : State) (tile core line : Nat) (d : Option LineData) (dirty : Bool) (why : Nat) : State :=
  let s := match d with
    | some x => if dirty then s.tileTake tile line x else s
    | none => s
  let t := s.tileTxn tile line
  if why = 1 then
    let w := t.snpWait.filter fun k => k != core
    match t.snp with
    | some (op, req, rtxn) =>
      if w.isEmpty then
        ((s.setTileTxn tile line { t with snp := none, snpWait := [], held := [] }).agentAnswer line tile op req rtxn).tileWork tile line
      else s.setTileTxn tile line { t with snpWait := w }
    | none => s
  else (s.setTileTxn tile line { t with reqWait := t.reqWait.filter fun k => k != core }).tileWork tile line

/-- An answer whose request has ended: late, and discarded; a TXN that is held is free once every answer has come, the data (`data`) and
the last word (`comp`) (R395). -/
def State.lateAnswer (s : State) (port txn : Nat) (data comp : Bool) : State :=
  let got := fun (e : HeldTxn) => if e.port == port && e.txn == txn then { e with data := e.data && !data, comp := e.comp && !comp } else e
  let s := { s with heldTxn := (s.heldTxn.map got).filter fun e => e.data || e.comp }
  (s.raise .xbar F.XB_EVT_LATE).count .xbar F.XB_CNT_LATE

/-- A request of a caching agent has its COMP and its data: the copy is installed and COMP_ACK goes out (R339, R342). -/
def State.install (s : State) (r : OReq) (st : CopySt) (d : LineData) : State :=
  let s := { s with reqs := s.reqs.filter fun x => x != r }
  let s := ((s.agentRoom r.port r.line).setCopy r.port r.line (some ⟨st, d⟩)).send ⟨.compAck, r.line, r.port, homePort r.line, r.txn, 0⟩
  match r.core with
  | some _ => (s.setTileTxn r.port r.line { s.tileTxn r.port r.line with hub := false }).tileWork r.port r.line
  | none => s

/-! ## The tumbler (R349) -/

/-- The tumbler counter of a line (R349): six 6-bit groups of its address. -/
def tumblerIndex (line : Nat) : Nat :=
  (List.range 6).foldl (fun x i => x ^^^ (line / 2 ^ (6 * i) % 64)) 0

/-- A tumbler counter; each resets to 1. -/
def tumblerAt (h : Hart) (i : Nat) : Nat := tget 1 h.tumbler i

/-- A tumbler counter raised or lowered, saturating at two bits. -/
def tumble (h : Hart) (i : Nat) (up : Option Bool) : Hart :=
  match up with
  | some true => { h with tumbler := tset 1 h.tumbler i (min 3 (tumblerAt h i + 1)) }
  | some false => { h with tumbler := tset 1 h.tumbler i (tumblerAt h i - 1) }
  | none => h

/-- A hart's AMO is done, far or near (R349, R360): its counter in the core's page, and what the tumbler learns. -/
def State.amoDone (s : State) (n : Nat) (far : Bool) (line : Nat) (up : Option Bool) : State :=
  let s := match s.coreUnit n with
    | some u => s.count u (if far then F.CC_CNT_FAR else F.CC_CNT_NEAR)
    | none => s
  s.setHart n (tumble (s.hart n) (tumblerIndex line) up)

/-- A request ends when COMP, and the data that it needs, are in. -/
def State.reqEnds (s : State) (r : OReq) : State :=
  match r.comp, r.op with
  | some st, some op =>
    match op with
    | .rdS | .rdU =>
      match r.got with
      | some (gst, d) => s.install r gst d
      | none => s
    | .upg =>
      match r.got, s.copyOf r.port r.line with
      | some (gst, d), _ => s.install r gst d
      | none, some c => s.install r st c.d
      | none, none => s
    | .rdOnce =>
      match r.got with
      | some (_, d) => ({ s with reqs := s.reqs.filter fun x => x != r }).emit (.line d.bytes (d.pmask != 0))
      | none => s
    | .amo =>
      match r.got with
      | some (_, d) =>
        let s := ({ s with reqs := s.reqs.filter fun x => x != r }).emit (.line d.bytes (d.pmask != 0))
        match r.hart with
        | some n => if d.pmask = 0 then s.amoDone n true r.line (some r.contended) else s
        | none => s
      | none => s
    | _ => { s with reqs := s.reqs.filter fun x => x != r }
  | _, _ => s

/-- A request of a port by its transaction, with `g` applied, goes on; an answer to none is late. -/
def State.onReq (s : State) (port txn : Nat) (data : Bool) (g : OReq → OReq) : State :=
  match s.reqs.find? (fun r : OReq => r.port == port && r.txn == txn) with
  | none => s.lateAnswer port txn data (!data)
  | some r => ({ s with reqs := s.reqs.map fun x => if x == r then g r else x }).reqEnds (g r)

/-- A write, whose refusal loses its data (R322). -/
def isWrite : ReqOp → Bool
  | .wrFull | .wrPtl => true
  | _ => false

/-- What a refused or failed request leaves at its master (R322, R394): a denied access for causes 1 and 2, and for a write
the loss of its data. -/
def State.refusedAt (s : State) (port : Nat) (write : Bool) (cause : Nat) : State :=
  let u := portUnit port
  if (masterOf port).isNone then s
  else
    let s := if cause = 1 ∨ cause = 2 then s.denied u else s
    if write then s.record u .uncorrected else s

/-- ERR reaches a requester: the request ends as refused or failed (R301, R322, R339). -/
def State.reqErr (s : State) (port txn cause : Nat) : State :=
  match s.reqs.find? (fun r : OReq => r.port == port && r.txn == txn) with
  | none => s.lateAnswer port txn true true
  | some r =>
    let s := { s with reqs := s.reqs.filter fun x => x != r }
    let s := (s.emit (.err cause)).refusedAt port (r.op.any isWrite || r.nc) cause
    match r.core with
    | some _ => s.setTileTxn port r.line { s.tileTxn port r.line with hub := false, req := none }
    | none => s

/-- The answer to an agent's notice ends it (R344); an answer to none is late (R395). The agent's tile goes on with what waited. -/
def State.noticeEnds (s : State) (agent line txn : Nat) (op : ReqOp) (go : State → State) : State :=
  match s.reqs.find? (fun r : OReq => r.port == agent && r.line == line && r.op == some op) with
  | none => s.lateAnswer agent txn true true
  | some r =>
    let s := go { s with reqs := s.reqs.filter fun x => x != r }
    if agent < 36 then s.tileWork agent line else s

/-- The answer to an NC request ends it with what it brings; an answer to none is late (R385, R395). -/
def State.ncDone (s : State) (port txn : Nat) (go : State → State) : State :=
  if s.reqs.any fun r => r.port == port && r.txn == txn then
    go { s with reqs := s.reqs.filter fun r => !(r.port == port && r.txn == txn) }
  else s.lateAnswer port txn true true

/-! ## Delivery -/

/-- The network of a message (R385): request, snoop, response, data; 4 for the messages within a tile. -/
def netOf : MsgKind → Nat
  | .req _ | .evict _ => 0
  | .snp _ _ _ => 1
  | .ack _ _ _ | .comp _ _ | .compAck | .wbAck _ | .evAck _ | .err _ | .ncAck | .ncErr _ => 2
  | .data _ _ | .wb _ | .odata _ | .ncData _ _ => 3
  | .tile _ | .tdata _ _ => 4

/-- A message of an NC access, whose `line` is a byte address. -/
def isNc : MsgKind → Bool
  | .ncData _ _ | .ncAck | .ncErr _ => true
  | _ => false

/-- The link of a port's die that carries a message: on a medium die NC traffic uses link 0, the rest the parity of the home slice (R392),
and the traffic of a lost link the other (R406). Hub ports have none. -/
def State.linkAt (s : State) (m : Msg) (port : Nat) : Option Nat :=
  if port < 36 then some port
  else if port < 40 then some (s.dieLink (port - 36) (if isNc m.kind then 0 else (homeOf m.line).val % 2))
  else if port = 58 then some 44 else none

/-- A message can pass: the links that carry it are Active (R399). Messages within a tile cross none. -/
def State.passes (s : State) (m : Msg) : Bool :=
  let up := fun (n : Nat) => if h : n < 45 then s.get (.vz ⟨n, h⟩) F.VZ_STAT_STATE == 8 else false
  netOf m.kind == 4 || ((s.linkAt m m.src).all up && (s.linkAt m m.dst).all up)

/-- Two messages whose order is kept (R386): one network, source and destination; a medium die has one order for each of its
two links (R392). -/
def State.sameWay (s : State) (a b : Msg) : Bool :=
  netOf a.kind == netOf b.kind && netOf a.kind != 4 && a.src == b.src && a.dst == b.dst &&
  s.linkAt a a.src == s.linkAt b b.src && s.linkAt a a.dst == s.linkAt b b.dst

/-- The agent that a message goes to has its clock; a message to a gated one waits for the restart that it demands (R453). -/
def State.awake (s : State) (m : Msg) : Bool :=
  s.clocks.all fun c => match c with
    | .tile p => m.dst != p.val
    | .med k => m.dst != 36 + k.val
    | .hub => decide (m.dst < 40)

/-- The first message that `p` accepts taken from the fabric, unless one sent earlier on the same way is still under way, or a link on
its way is not Active. -/
def State.takeMsg (s : State) (p : Msg → Bool) : Option (Msg × State) :=
  match s.net.find? p with
  | none => none
  | some m =>
    if !s.passes m || !s.awake m || (s.net.takeWhile fun x => !p x).any fun x => s.sameWay x m then none
    else some (m, { s with net := s.net.erase m })

/-- A message reaches its end. -/
def State.deliver (s : State) (m : Msg) (par : Parity) : State :=
  match m.kind with
  | .req r => (s.llcStrike m.line par).homeRequest m.line r
  | .wb d => (s.pmuEvent 0x02 (noticeObs m.src m.line)).homeWb m.src m.line d
  | .evict offer => s.homeEvict m.src m.line m.txn offer
  | .snp op req rtxn => s.agentSnoop m.line m.dst op req rtxn par
  | .ack k d st => s.homeAck m.line m.src k d st
  | .data st d => s.onReq m.dst m.txn true fun r => { r with got := some (st, d) }
  | .comp st c => s.onReq m.dst m.txn false fun r => { r with comp := some st, contended := c }
  | .compAck => s.homeCompAck m.line
  | .wbAck _ => s.noticeEnds m.dst m.line m.txn .wb id
  | .evAck a => s.noticeEnds m.dst m.line m.txn .evict fun s => s.evictAnswer m.dst m.line a
  | .odata d => s.homeOdata m.src m.line d
  | .err c | .ncErr c => s.reqErr m.dst m.txn c
  | .tile op => s.coreAnswer m.src m.core m.line op m.txn
  | .tdata d dirty => s.tileAnswer m.src m.core m.line d dirty m.txn
  | .ncData bs p => s.ncDone m.dst m.txn fun s => s.emit (.line bs p)
  | .ncAck => s.ncDone m.dst m.txn id

/-- A message sent now. It arrives in this step, unless one sent earlier on its way is still under way or its link is not Active. -/
def State.arrive (s : State) (m : Msg) (par : Parity) : State :=
  match (s.send m).takeMsg fun x => x == m with
  | some (m, s) => s.deliver m par
  | none => s.send m

/-- The transaction number of a request that one step carries through to its end: outside the ten bits of TXN. -/
def ownTxn : Nat := 1024

/-- Every message of a line delivered, each after those sent earlier on its way, until none is under way (or `n` have been). -/
def State.settle (s : State) (line : Nat) : Nat → State
  | 0 => s
  | n + 1 =>
    match s.net.find? (fun m : Msg => m.line == line && !isNc m.kind && m.txn != ownTxn) with
    | none => s
    | some m =>
      let m := (s.net.find? fun x => s.sameWay x m).getD m
      (({ s with net := s.net.erase m }).deliver m .none).settle line n

/-- The messages that a port has sent on the request network to a home arrive, in order (R386). -/
def State.flushWay (s : State) (src dst : Nat) : Nat → State
  | 0 => s
  | n + 1 =>
    match s.net.find? (fun m : Msg => m.src == src && m.dst == dst && netOf m.kind == 0) with
    | none => s
    | some m => (({ s with net := s.net.erase m }).deliver m .none).flushWay src dst n

/-- Deliveries that a line's open work can need. -/
def settleFuel : Nat := 4096

/-- A request carried through its home to its end: the data and CONTENDED that it was answered with. -/
def State.atHome (s : State) (line : Nat) (r : HReq) : State × Option LineData × Bool :=
  let s := (s.settle line (settleFuel + s.net.length)).flushWay r.port (homePort line) s.net.length
  let s := s.homeRequest line { r with txn := ownTxn }
  let s := s.settle line (settleFuel + s.net.length)
  let mine := fun (m : Msg) => m.txn == ownTxn && m.dst == r.port
  let d := s.net.findSome? fun m => if mine m then (match m.kind with | .data _ d => some d | _ => none) else none
  let c := s.net.any fun m => mine m && (match m.kind with | .comp _ c => c | _ => false)
  ({ s with net := s.net.filter fun m => !mine m }, d, c)

end Sys2Proof.Machine
end

