-- ==== Sys2Proof/Machine/Memory.lean ====
section
/-! DEFINITION. Memory as an internal master of the fabric sees it: windows, worlds, the coherent DRAM and the MRAM (R189,
R214, R295, R301, R320–R322, R346, R514). -/

namespace Sys2Proof.Machine

open Sys2Proof

/-! ## Ranges -/

/-- Line numbers that `n` bytes at `a` touch. -/
def linesOf (a n : Nat) : List Nat := (List.range ((a + n + 63) / 64 - a / 64)).map fun i => a / 64 + i

/-- Pages of 4 KiB that a range touches. -/
def pagesOf (a n : Nat) : List Nat := (List.range ((a + n + 4095) / 4096 - a / 4096)).map fun i => a / 4096 + i

/-- The range lies in MRAM. -/
def inMram (a n : Nat) : Bool := decide (mramBase ≤ a ∧ a + n ≤ mramBase + mramSize)

/-- The range lies in DRAM data, below MEM_TOP as the map in force has it (R368). -/
def State.inDram (s : State) (a n : Nat) : Bool := decide (a + n ≤ s.memTop * 0x20000000)

/-- A world may reach a range under the world map in force (R301). -/
def State.worldOk (s : State) (secure : Bool) (a n : Nat) : Bool :=
  secure || (pagesOf a n).all fun p => !s.securePage p

/-- The world of internal master `i` (R320). -/
def State.masterSecure (s : State) (i : Nat) : Bool :=
  match s.iowOld.find? fun p => p.1 == i with
  | some p => p.2
  | none => s.get .iow F.IOW_WORLD i != 0

/-- A page is allowed to master `i` by its windows (R321). -/
def State.windowPage (s : State) (i : Nat) (write : Bool) (p : Nat) : Bool :=
  (List.range 8).any fun w =>
    s.get .iow F.IOWW_EN i w != 0 && s.get .iow (if write then F.IOWW_W else F.IOWW_R) i w != 0 &&
    decide (s.get .iow F.IOWW_BASE i w ≤ p ∧ p ≤ s.get .iow F.IOWW_LIMIT i w)

/-- A range is allowed to master `i` by its windows (R321). -/
def State.windowOk (s : State) (i : Nat) (write : Bool) (a n : Nat) : Bool :=
  decide (11 ≤ i) || s.get .iow F.IOW_WIN_EN i == 0 || (pagesOf a n).all (s.windowPage i write)

/-- The range touches the shielded keystore (R189). -/
def State.inKeystore (s : State) (a n : Nat) : Bool :=
  let k := mramBase + s.get .key F.KEY_CTRL_STORE * 0x80000
  s.get .key F.KEY_CTRL_LOCK != 0 && decide (a < k + 0x80000 ∧ k < a + n)

/-- The range touches the sweep's progress area (R214): the area is set once PROG is locked. -/
def State.inProgress (s : State) (a n : Nat) : Bool :=
  let k := mramBase + s.get .sweep F.SWP_CTRL_PROG * 16384
  s.get .sweep F.SWP_CTRL_LOCK != 0 && decide (a < k + 16384 ∧ k < a + n)

/-- The range touches the package area (R462). -/
def inPkgArea (a n : Nat) : Bool := decide (a < mramBase + mramSize ∧ mramBase + pkgArea < a + n)

/-! ## Lines of the coherent memory -/

/-- The fabric port of an internal master (R320, R387). -/
def masterPort (i : Nat) : Nat :=
  if i < 4 then 36 + i else if i < 8 then 42 + (i - 4) else if i < 10 then 40 + (i - 8) else 46 + (i - 10)

/-- A line read with RD_ONCE by master `i` (R346). -/
def State.lineRead (s : State) (i line : Nat) : State × LineData :=
  let (s, d, _) := s.atHome line { op := .rdOnce, port := masterPort i, txn := 0, w := s.masterSecure i }
  (s, d.getD { bytes := List.replicate 64 0, pmask := allBytes })

/-- Masked bytes of a line written by master `i`: WR_FULL for a whole line, WR_PTL otherwise (R346). -/
def State.lineWrite (s : State) (i line : Nat) (bytes : List Byte) (mask : Nat) : State :=
  let own : Own := { w := s.masterSecure i, h := false, m := true, hart := i }
  (s.atHome line { op := if mask = allBytes then .wrFull else .wrPtl, port := masterPort i, txn := 0, w := s.masterSecure i,
                   data := bytes, mask := mask, own := own }).1

/-- A whole line written poisoned by master `i`. -/
def State.linePoison (s : State) (i line : Nat) : State :=
  let (s, d) := s.lineRead i line
  let s := s.lineWrite i line d.bytes allBytes
  let h := s.hline line
  match h.llc with
  | some x => s.setHline line { h with llc := some { x with pmask := allBytes } }
  | none => { s with poison := tset 0 s.poison line allBytes }

/-- The bytes of a range of DRAM as master `i` reads them, or none when a line of it is poisoned. -/
def State.dramRead (s : State) (i a n : Nat) : State × Option (List Byte) :=
  let step := fun (acc : State × List Byte × Bool) (l : Nat) =>
    let (s, d) := acc.1.lineRead i l
    (s, acc.2.1 ++ d.bytes, acc.2.2 || d.pmask != 0)
  let (s, bs, p) := (linesOf a n).foldl step (s, [], false)
  (s, if p then none else some ((bs.drop (a % 64)).take n))

/-- Bytes written to a range of DRAM by master `i`, line by line. -/
def State.dramWrite (s : State) (i a : Nat) (bs : List Byte) : State :=
  let n := bs.length
  let one := fun (s : State) (l : Nat) =>
    let lo := max a (64 * l) - 64 * l
    let hi := min (a + n) (64 * l + 64) - 64 * l
    let data := (List.range 64).map fun k => bs.getD (64 * l + k - a) 0
    s.lineWrite i l data (2 ^ hi - 2 ^ lo)
  (linesOf a n).foldl one s

/-! ## MRAM poison -/

/-- The bytes of a range of MRAM are poisoned no longer. -/
def State.mramClear (s : State) (a n : Nat) : State :=
  if s.poison.isEmpty then s
  else
    let one := fun (s : State) (l : Nat) =>
      let lo := max a (64 * l) - 64 * l
      let hi := min (a + n) (64 * l + 64) - 64 * l
      let p := tget 0 s.poison l
      { s with poison := tset 0 s.poison l (p &&& (allBytes - (2 ^ hi - 2 ^ lo))) }
    (linesOf a n).foldl one s

/-! ## What a master meets -/

/-- What a read answers: bytes, poison, or an error response with its cause. -/
inductive MemAns where
  | bytes (bs : List Byte)
  | poison
  | refused
  deriving DecidableEq, Repr

/-- The requests that a range makes (R346): the part of it in each line that it touches, as address and length. -/
def lineParts (a n : Nat) : List (Nat × Nat) :=
  (linesOf a n).map fun l => (max a (64 * l), min (a + n) (64 * l + 64) - max a (64 * l))

/-- One read request by internal master `i`, whose errors unit `u` records (R301, R321, R322, R189, R368): refused by a
window or the world map, it records a denied access there (and in the hub for the map); from the keystore it reads zero. -/
def State.masterReadPart (s : State) (i : Nat) (u : UnitId) (a n : Nat) : State × MemAns :=
  if !s.windowOk i false a n then (s.denied u, .refused)
  else if !s.worldOk (s.masterSecure i) a n then ((s.denied .hub).denied u, .refused)
  else if s.inDram a n then
    match s.dramRead i a n with
    | (s, some bs) => (s, .bytes bs)
    | (s, none) => (s, .poison)
  else if inMram a n then
    if s.inKeystore a n && i != 11 then (s.denied .hub, .bytes (List.replicate n 0))
    else if (linesOf a n).any fun l => tget 0 s.poison l != 0 then (s, .poison)
    else (s, .bytes (s.mramBytes (a - mramBase) n))
  else if decide (a + n ≤ dramSize) then (s.denied .hub, .refused)
  else (s, .refused)

/-- The answers of two requests of one range together: refused when either is, else poisoned when either is. -/
def MemAns.join : MemAns → MemAns → MemAns
  | .bytes x, .bytes y => .bytes (x ++ y)
  | .refused, _ | _, .refused => .refused
  | _, _ => .poison

/-- A read by internal master `i` for the work of unit `u`: one request for each line that the range touches, each judged
by itself (R322, R346). -/
def State.masterRead (s : State) (i : Nat) (u : UnitId) (a n : Nat) : State × MemAns :=
  (lineParts a n).foldl (fun r p =>
    let (s, ans) := r.1.masterReadPart i u p.1 p.2
    (s, r.2.join ans)) (s, .bytes [])

/-- The bytes of a read that is neither poisoned nor refused. -/
def MemAns.data? : MemAns → Option (List Byte)
  | .bytes bs => some bs
  | _ => none

/-- Bytes of MRAM that master `i` does not write: the keystore, the progress area and the package area (R189, R214, R462). -/
def State.mramShut (s : State) (i a n : Nat) : Bool :=
  (s.inKeystore a n && i != 11) || (s.inProgress a n && i != 12) || inPkgArea a n

/-- One write request by internal master `i` for the work of unit `u` (R322): `dram` and `mram` say what it does where it is
allowed; refused, the data is lost, with a denied access and an uncorrected error recorded; writes to the keystore, the
progress area and the package area by another master write nothing and are denied in the hub's summary. -/
def State.masterWritePart (s : State) (i : Nat) (u : UnitId) (a n : Nat) (dram mram : State → State) : State :=
  if !s.windowOk i true a n then (s.denied u).record u .uncorrected
  else if !s.worldOk (s.masterSecure i) a n then ((s.denied .hub).denied u).record u .uncorrected
  else if s.inDram a n then dram s
  else if inMram a n then (if s.mramShut i a n then s.denied .hub else mram s)
  else if decide (a + n ≤ dramSize) then (s.denied .hub).record u .uncorrected
  else s.record u .uncorrected

/-- A write by internal master `i` for the work of unit `u`: one request for each line that the range touches, each judged
by itself (R322, R346). -/
def State.masterWrite (s : State) (i : Nat) (u : UnitId) (a : Nat) (bs : List Byte) : State :=
  (lineParts a bs.length).foldl (fun s p =>
    let part := (bs.drop (p.1 - a)).take p.2
    s.masterWritePart i u p.1 p.2 (fun s => s.dramWrite i p.1 part)
      fun s => (s.mramClear p.1 p.2).putMram (p.1 - mramBase) part) s

/-- Poisoned lines written by internal master `i` for the work of unit `u` over the lines that a range touches (R178,
R239). -/
def State.masterPoison (s : State) (i : Nat) (u : UnitId) (a n : Nat) : State :=
  (linesOf a n).foldl (fun s l =>
    s.masterWritePart i u (64 * l) 64 (fun s => s.linePoison i l) fun s => { s with poison := tset 0 s.poison l allBytes }) s

end Sys2Proof.Machine
end

