-- ==== Sys2Proof/Machine/Agents.lean ====
section
/-! DEFINITION. The commands of the coherence protocol: requests at a home, snoops and answers, the messages of a tile and
the range maintenance engine (R337–R347, R356–R361). -/

namespace Sys2Proof.Machine

open Sys2Proof

/-! ## Requests for a copy (R340) -/

/-- A caching agent's own request may be made: it does not already hold what it asks for, and has none out for the line. -/
def State.mayAsk (s : State) (agent line : Nat) (op : ReqOp) : Bool :=
  !s.reqs.any (fun r => r.port == agent && r.line == line) &&
  match s.copyOf agent line with
  | none => true
  | some c => op != .rdS && c.st == .s

/-- A new request leaves its port under a free transaction number and arrives, unless one sent earlier on its way has not; with none
free it is not issued (R386, R387). -/
def State.sendReq (s : State) (line : Nat) (r : HReq) (hart : Option Nat) (par : Parity) : State :=
  match s.freeTxn r.port with
  | none => s
  | some n =>
    let q : OReq := { port := r.port, txn := n, line := line, op := some r.op, hart := hart }
    ({ s with reqs := s.reqs ++ [q] }).arrive ⟨.req { r with txn := n }, line, r.port, homePort line, n, 0⟩ par

/-- The next request on its way that `p` accepts is ordered by its home, with what the command adds to it; where none is, `start`. -/
def State.orderWaiting (s : State) (p : Msg → Bool) (g : HReq → HReq) (par : Parity) (start : State → State) : State :=
  if s.net.any p then
    match s.takeMsg p with
    | some (m, s) =>
      match m.kind with
      | .req r => s.deliver { m with kind := .req (g r) } par
      | _ => s
    | none => s
  else start s

/-- A home orders an agent's request for a copy: the request of a tile's L3 that is under way, or the request that a medium
die or an I/O cache makes now, under its windows (R321, R340). -/
def State.orderCopy (s : State) (agent line : Nat) (op : ReqOp) (victim : Option Nat) (par : Parity) : State :=
  s.orderWaiting (fun m => m.src == agent && m.line == line && (match m.kind with | .req r => r.op == op | _ => false))
    (fun r => { r with victim := victim }) par fun s =>
    if agent < 36 || !s.mayAsk agent line op then s.llcStrike line par
    else
      let i := (masterOf agent).getD 0
      if (op != .upg && !s.windowOk i false (64 * line) 64) || (op != .rdS && !s.windowOk i true (64 * line) 64) then
        (s.emit (.err 2)).refusedAt agent false 2
      else s.sendReq line { op := op, port := agent, txn := 0, w := s.masterSecure i, victim := victim } none par

/-- RD_S (R340, R334, R354). -/
def execRdS (agent : Fin 42) (line : BitVec 46) (victim : Option Nat) (par : Parity) (s : State) : Res :=
  .next (s.clean.orderCopy agent.val line.toNat .rdS victim par)

/-- RD_U (R340, R334). -/
def execRdU (agent : Fin 42) (line : BitVec 46) (victim : Option Nat) (par : Parity) (s : State) : Res :=
  .next (s.clean.orderCopy agent.val line.toNat .rdU victim par)

/-- UPG (R340, R345, R334). -/
def execUpg (agent : Fin 42) (line : BitVec 46) (victim : Option Nat) (par : Parity) (s : State) : Res :=
  .next (s.clean.orderCopy agent.val line.toNat .upg victim par)

/-! ## Requests that leave no copy (R346, R347) -/

/-- A master's request enters its home: the one that waits on its way, or a new one, which the master's windows may refuse (R321,
R322). -/
def State.orderMaster (s : State) (i line : Nat) (r : HReq) (par : Parity) : State :=
  let port := masterPort i
  let write := isWrite r.op
  s.orderWaiting (fun m => m.src == port && m.line == line && (match m.kind with | .req x => x.op == r.op && x.data == r.data | _ => false))
    id par fun s =>
    if !s.windowOk i write (64 * line) 64 then (s.emit (.err 2)).refusedAt port write 2
    else s.sendReq line { r with port := port, w := s.masterSecure i } none par

/-- RD_ONCE (R346). -/
def execRdOnce (i : Fin 13) (line : BitVec 46) (par : Parity) (s : State) : Res :=
  .next (s.clean.orderMaster i.val line.toNat { op := .rdOnce, port := 0, txn := 0 } par)

/-- The owner record of a master's write (R353). -/
def State.masterOwn (s : State) (i : Nat) : Own := { w := s.masterSecure i, h := false, m := true, hart := i }

/-- WR_FULL (R346). -/
def execWrFull (i : Fin 13) (line : BitVec 46) (data : Vector Byte 64) (s : State) : Res :=
  .next (s.clean.orderMaster i.val line.toNat
    { op := .wrFull, port := 0, txn := 0, data := data.toList, mask := allBytes, own := s.masterOwn i.val } .none)

/-- WR_PTL (R346). -/
def execWrPtl (i : Fin 13) (line : BitVec 46) (data : Vector Byte 64) (mask : BitVec 64) (s : State) : Res :=
  .next (s.clean.orderMaster i.val line.toNat
    { op := .wrPtl, port := 0, txn := 0, data := data.toList, mask := mask.toNat, own := s.masterOwn i.val } .none)

/-- AMO (R347): a hart's far atomic on 32-bit word `word` of a line, or on the aligned 64-bit word that holds it. -/
def execAmo (hart : Fin 256) (line : BitVec 46) (word : Fin 16) (wide : Bool) (op : AmoOp) (operand : Word) (s : State) : Res :=
  let s := s.clean
  match s.physTile (hart.val / 8) with
  | none => .next s
  | some p =>
    let h := s.hart hart.val
    .next (s.orderWaiting (fun m => m.src == p.val && m.line == line.toNat && (match m.kind with | .req x => x.op == .amo && x.hart == hart.val | _ => false))
      id .none fun s => s.sendReq line.toNat
        { op := .amo, port := p.val, txn := 0, w := h.w, own := storeOwn h hart.val, aop := op,
          off := if wide then 8 * (word.val / 2) else 4 * word.val, wide := wide, operand := operand.toNat, hart := hart.val } (some hart.val) .none)

/-! ## Notices (R344, R345) -/

/-- A notice of an agent's copy arrives at its home; where none is under way the agent drops its copy, when it is dirty or not as `dirty`
says and no work on the line is open, and sends it (R344, R345). -/
def State.noticeStep (s : State) (agent line : Nat) (dirty : Bool) : State :=
  let isIt := fun (m : Msg) => m.src == agent && m.line == line &&
    (match m.kind with | .wb _ => dirty | .evict _ => !dirty | _ => false)
  if s.net.any isIt then
    match s.takeMsg isIt with
    | some (m, s) => s.deliver m .none
    | none => s
  else
    match s.agentCopy agent line with
    | some c => if (c.st == .ud) == dirty && !s.agentBusy agent line then s.agentDrop agent line else s
    | none => s

/-- EVICT of a clean copy: the notice that is under way arrives, or is sent (R344, R345). -/
def execEvict (agent : Fin 42) (line : BitVec 46) (s : State) : Res := .next (s.clean.noticeStep agent.val line.toNat false)

/-- WB of a dirty copy: the write-back that is under way arrives, or is sent (R344, R345). -/
def execWb (agent : Fin 42) (line : BitVec 46) (s : State) : Res := .next (s.clean.noticeStep agent.val line.toNat true)

/-- The next message of a kind on its way from an agent to a line's home is delivered. -/
def State.toHome (s : State) (agent line : Nat) (k : MsgKind → Bool) : State :=
  match s.takeMsg fun m => m.src == agent && m.line == line && m.dst == homePort line && k m.kind with
  | some (m, s) => s.deliver m .none
  | none => s

/-- The next message of a kind on its way to an agent for a line is delivered. -/
def State.toAgent (s : State) (agent line : Nat) (par : Parity) (k : MsgKind → Bool) : State :=
  match s.takeMsg fun m => m.dst == agent && m.line == line && k m.kind with
  | some (m, s) => s.deliver m par
  | none => s

/-- ODATA (R344). -/
def execOdata (agent : Fin 42) (line : BitVec 46) (s : State) : Res :=
  .next (s.clean.toHome agent.val line.toNat fun k => match k with | .odata _ => true | _ => false)

/-- ACK (R345). -/
def execAck (agent : Fin 42) (line : BitVec 46) (s : State) : Res :=
  .next (s.clean.toHome agent.val line.toNat fun k => match k with | .ack _ _ _ => true | _ => false)

/-- COMP_ACK (R342). -/
def execCompAck (agent : Fin 42) (line : BitVec 46) (s : State) : Res :=
  .next (s.clean.toHome agent.val line.toNat fun k => match k with | .compAck => true | _ => false)

/-! ## Snoops (R339, R343) -/

/-- A message is a snoop of kind `o`. -/
def isSnoop (o : SnpOp) : MsgKind → Bool
  | .snp p _ _ => p == o
  | _ => false

/-- SNP_S (R339, R354). -/
def execSnpS (agent : Fin 42) (line : BitVec 46) (par : Parity) (s : State) : Res :=
  .next ((s.clean.agentStrike agent.val line.toNat par).toAgent agent.val line.toNat .none (isSnoop .s))

/-- SNP_U (R339). -/
def execSnpU (agent : Fin 42) (line : BitVec 46) (par : Parity) (s : State) : Res :=
  .next ((s.clean.agentStrike agent.val line.toNat par).toAgent agent.val line.toNat .none (isSnoop .u))

/-- SNP_INV (R339). -/
def execSnpInv (agent : Fin 42) (line : BitVec 46) (par : Parity) (s : State) : Res :=
  .next ((s.clean.agentStrike agent.val line.toNat par).toAgent agent.val line.toNat .none (isSnoop .inv))

/-- SNP_ONCE (R339). -/
def execSnpOnce (agent : Fin 42) (line : BitVec 46) (par : Parity) (s : State) : Res :=
  .next ((s.clean.agentStrike agent.val line.toNat par).toAgent agent.val line.toNat .none (isSnoop .once))

/-- SNP_CLEAN (R339). -/
def execSnpClean (agent : Fin 42) (line : BitVec 46) (par : Parity) (s : State) : Res :=
  .next ((s.clean.agentStrike agent.val line.toNat par).toAgent agent.val line.toNat .none (isSnoop .clean))

/-! ## Answers at a requester (R339, R395) -/

/-- The next message of a kind to a port for a transaction is delivered. -/
def State.toPort (s : State) (port txn : Nat) (k : MsgKind → Bool) : State :=
  match s.takeMsg fun m => m.dst == port && m.txn == txn && k m.kind with
  | some (m, s) => s.deliver m .none
  | none => s

/-- DATA (R339). -/
def execData (port : Fin 50) (txn : Fin 1024) (s : State) : Res :=
  .next (s.clean.toPort port.val txn.val fun k => match k with | .data _ _ => true | _ => false)

/-- COMP (R339, R342). -/
def execComp (port : Fin 50) (txn : Fin 1024) (s : State) : Res :=
  .next (s.clean.toPort port.val txn.val fun k => match k with | .comp _ _ => true | _ => false)

/-- WB_ACK (R344). -/
def execWbAck (agent : Fin 42) (line : BitVec 46) (s : State) : Res :=
  .next (s.clean.toAgent agent.val line.toNat .none fun k => match k with | .wbAck _ => true | _ => false)

/-- EVICT_ACK (R344). -/
def execEvictAck (agent : Fin 42) (line : BitVec 46) (s : State) : Res :=
  .next (s.clean.toAgent agent.val line.toNat .none fun k => match k with | .evAck _ => true | _ => false)

/-- ERR (R339, R322). -/
def execErr (port : Fin 50) (txn : Fin 1024) (s : State) : Res :=
  .next (s.clean.toPort port.val txn.val fun k => match k with | .err _ | .ncErr _ => true | _ => false)

/-! ## Messages of a tile (R337) -/

/-- The state of a core's copy. -/
def State.coreSt (s : State) (tile core line : Nat) : Option CopySt := (s.coreCopy tile core line).map Copy.st

/-- A copy that its core may store to. -/
def isOwnSt (c : Option CopySt) : Bool := c == some .uc || c == some .ud

/-- GET_S (R337). -/
def execGetS (tile : Fin 36) (core : Fin 8) (line : BitVec 46) (s : State) : Res :=
  let s := s.clean
  .next (if (s.coreSt tile.val core.val line.toNat).isSome then s else s.tileRequest tile.val core.val line.toNat .getS)

/-- GET_U (R337). -/
def execGetU (tile : Fin 36) (core : Fin 8) (line : BitVec 46) (s : State) : Res :=
  let s := s.clean
  .next (match s.coreSt tile.val core.val line.toNat with
    | some .uc | some .ud => s
    | _ => s.tileRequest tile.val core.val line.toNat .getU)

/-- TILE_UPG: the UPG of a core that holds S (R337). -/
def execTileUpg (tile : Fin 36) (core : Fin 8) (line : BitVec 46) (s : State) : Res :=
  let s := s.clean
  .next (if s.coreSt tile.val core.val line.toNat = some .s then s.tileRequest tile.val core.val line.toNat .upg else s)

/-- PUT: a core drops its copy; dirty data travels with the message (R337). -/
def execPut (tile : Fin 36) (core : Fin 8) (line : BitVec 46) (s : State) : Res :=
  let s := s.clean
  .next (s.corePut tile.val core.val line.toNat)

/-- A core may hold a T_ message once: it is for a hub snoop, and the core, in UC or UD, has a reservation of the line (R343). -/
def State.mayHold (s : State) (tile core line : Nat) : Bool :=
  let t := s.tileTxn tile line
  t.snp.isSome && !t.held.contains core && isOwnSt (s.coreSt tile core line) &&
  (s.hartOf tile core).any fun n => (s.hart n).resv == some line

/-- The next T_ message of a kind to a core is delivered, or held by the core for its reservation (R343). -/
def State.toCore (s : State) (tile line : Nat) (c : CoreAsk) (o : TileOp) : State :=
  let k := c.core.val
  match s.takeMsg fun m => m.src == tile && m.core == k && m.line == line && m.kind == .tile o with
  | some (m, s') =>
    if c.hold && m.txn == 1 && s.mayHold tile k line then
      let t := s.tileTxn tile line
      (s.setTileTxn tile line { t with held := t.held ++ [k] }).count (coreOf tile k) F.CC_CNT_SNPHOLD
    else s'.deliver m .none
  | none => s

/-- T_INV (R337). -/
def execTInv (tile : Fin 36) (core : CoreAsk) (line : BitVec 46) (s : State) : Res :=
  .next (s.clean.toCore tile.val line.toNat core .inv)

/-- T_DOWN (R337). -/
def execTDown (tile : Fin 36) (core : CoreAsk) (line : BitVec 46) (s : State) : Res :=
  .next (s.clean.toCore tile.val line.toNat core .down)

/-- T_FETCH (R337). -/
def execTFetch (tile : Fin 36) (core : CoreAsk) (line : BitVec 46) (s : State) : Res :=
  .next (s.clean.toCore tile.val line.toNat core .fetch)

/-- T_DATA, which stands for T_ACK where the core had nothing dirty (R337). -/
def execTData (tile : Fin 36) (core : Fin 8) (line : BitVec 46) (s : State) : Res :=
  let s := s.clean
  match s.takeMsg fun m => m.src == tile.val && m.core == core.val && m.line == line.toNat && (match m.kind with | .tdata _ _ => true | _ => false) with
  | some (m, s) => .next (s.deliver m .none)
  | none => .next s

/-! ## The range maintenance engine (R356–R361) -/

/-- The field of channel 0 or of channel 1. -/
def chFld (ch : Nat) (f0 f1 : Fld) : Fld := if ch = 0 then f0 else f1

/-- A channel's operation ends with a result (R357). -/
def State.rmeEnd (s : State) (ch result : Nat) : State :=
  let s := s.put .rme (chFld ch F.RME0_RESULT F.RME1_RESULT) result
  (s.put .rme (chFld ch F.RME0_BUSY F.RME1_BUSY) 0).raise .rme (chFld ch F.RME0_DONE F.RME1_DONE)

/-- A write of OP to a channel: denied while BUSY and to channel 1 from the normal world, refused with RESULT 0x02, or begun
with `go` (R356, R361). -/
def State.rmeOp (s : State) (ch : Fin 2) (w : World) (agent : Nat) (bad : Bool) (range : Bool) (go : State → State) : State :=
  let c := ch.val
  if c = 1 && w == .normal then s.denied .rme
  else if s.on .rme (chFld c F.RME0_BUSY F.RME1_BUSY) then s.denied .rme
  else if bad || decide (41 < agent) ||
      (range && decide (s.get .rme (chFld c F.RME0_LIMIT F.RME1_LIMIT) < s.get .rme (chFld c F.RME0_BASE F.RME1_BASE))) then
    s.rmeEnd c 0x02
  else go ((s.put .rme (chFld c F.RME0_BUSY F.RME1_BUSY) 1))

/-- An operation begins on the lines of its range that the directory or the LLC holds, in the world of the write that started it (R320,
R356, R357). -/
def State.rmeRun (s : State) (ch : Nat) (w : World) (op : ReqOp) : State :=
  let lo := s.get .rme (chFld ch F.RME0_BASE F.RME1_BASE)
  let hi := s.get .rme (chFld ch F.RME0_LIMIT F.RME1_LIMIT)
  let held := (s.homes.filter fun e => decide (lo ≤ e.1 ∧ e.1 ≤ hi) && (e.2.d != .i || e.2.llc.isSome || e.2.txn.isSome)).map fun e => e.1
  { s with rme := tset none s.rme ch (some ⟨op, w == .secure, 0, held⟩) }

/-- The engine reaches the next `n` lines of a channel's operation (R357). -/
def State.rmeReach (s : State) (ch n : Nat) : State :=
  match tget none s.rme ch with
  | none => s
  | some r =>
    let s := { s with rme := tset none s.rme ch (some { r with todo := r.todo.drop n }) }
    (r.todo.take n).foldl (fun s l => s.homeRequest l { op := r.op, port := 49, txn := ch, w := r.w, agent := r.agent }) s

/-- A change of the world map meets a channel 0 operation: the lines reached so far are judged by the old map (R358). How many they are is
free. -/
def State.rmeCut (s : State) : State :=
  if (tget none s.rme 0).isNone then s
  else
    let (n, s) := s.draw
    s.rmeReach 0 (Config.rmeReached n)

/-- CLEAN (R356). -/
def execClean (ch : Fin 2) (agent : Fin 64) (w : World) (s : State) : Res :=
  .next (s.clean.rmeOp ch w agent.val false true fun s => s.rmeRun ch.val w .clean)

/-- CLEAN_INV (R356). -/
def execCleanInv (ch : Fin 2) (agent : Fin 64) (w : World) (s : State) : Res :=
  .next (s.clean.rmeOp ch w agent.val false true fun s => s.rmeRun ch.val w .cleanInv)

/-- INV (R356). -/
def execInv (ch : Fin 2) (agent : Fin 64) (w : World) (s : State) : Res :=
  .next (s.clean.rmeOp ch w agent.val false true fun s => s.rmeRun ch.val w .inv)

/-- A recall begins on every line whose presence bit for an agent is set (R356). -/
def State.recallAgent (s : State) (agent : Nat) : State :=
  let held := (s.homes.filter fun e => e.2.p.contains agent).map fun e => e.1
  { s with rme := tset none s.rme 1 (some ⟨.recall, true, agent, held⟩) }

/-- RECALL, on channel 1 only; BASE and LIMIT are ignored (R356). -/
def execRecall (ch : Fin 2) (agent : Fin 64) (w : World) (s : State) : Res :=
  .next (s.clean.rmeOp ch w agent.val (ch.val == 0) false fun s => s.recallAgent agent.val)

/-- RME_CMD_RESERVED: OP 0, 5, 6 or 7 (R356). -/
def execRmeCmdReserved (ch : Fin 2) (op : Fin 8) (agent : Fin 64) (w : World) (s : State) : Res :=
  let reserved := op.val == 0 || decide (5 ≤ op.val)
  .next (if reserved then s.clean.rmeOp ch w agent.val true true id else s.clean)

/-- A request of an RME channel is still at some home. -/
def State.rmeOpen (s : State) (ch : Nat) : Bool :=
  s.homes.any fun e => (e.2.txn.any fun t => t.r.port == 49 && t.r.txn == ch) || e.2.waitq.any fun r => r.port == 49 && r.txn == ch

/-- RME_DONE: the engine reaches what is left of its range; once every line has been treated, BUSY falls (R357). -/
def execRmeDone (ch : Fin 2) (s : State) : Res :=
  let s := s.clean
  let c := ch.val
  .next (if s.on .rme (chFld c F.RME0_BUSY F.RME1_BUSY) then
      let s := s.rmeReach c (((tget none s.rme c).map fun r => r.todo.length).getD 0)
      if s.rmeOpen c then s else { s with rme := tset none s.rme c none }.rmeEnd c 0x00
    else s)

end Sys2Proof.Machine
end

