-- ==== Sys2Proof/Machine/Csr.lean ====
section
/-! DEFINITION. A hart's control and status registers, traps and returns (R297–R300, R304, R315, R316, R323–R328, R516–R518,
R525–R527). The RISC-V privileged specification's own layouts are the family's. -/

namespace Sys2Proof.Machine

open Sys2Proof

/-! ## Registers of a hart -/

/-- A CSR's value at a cold reset, by its number (R324–R327, R526); the rest are zero (PRESUMED, see the log). -/
def csrReset (k : Nat) : Nat :=
  if k = 0x5C0 then 4 else if k = 0x7C0 then 3 else if 0x7E3 ≤ k ∧ k ≤ 0x7FF then 0xF78 else 0

/-- A stored CSR, by number; the secure bank lies 4,096 above (R298). -/
def csr (h : Hart) (k : Nat) : Nat := tget (csrReset k) h.csr k
/-- A stored CSR set. -/
def setCsr (h : Hart) (k v : Nat) : Hart := { h with csr := tset (csrReset k) h.csr k (v % 2 ^ 64) }

/-- The bank of a world (R298). -/
def bankOf (w : Bool) : Nat := if w then 4096 else 0

/-- The bank that an access reaches: the hart's world below M, jworld.BANK from M (R298). -/
def bankNow (h : Hart) : Nat := if h.priv = 3 then bankOf (csr h 0x7C0 / 2 % 2 == 1) else bankOf h.w

/-- Bits of a CSR set to a value. -/
def setBits (h : Hart) (k lo width v : Nat) : Hart :=
  setCsr h k (csr h k - bitsOf (csr h k) lo width * 2 ^ lo + placed v lo width)

/-- Integer register `r`; x0 reads zero. -/
def xreg (h : Hart) (r : Nat) : Nat := if r = 0 then 0 else tget 0 h.x r
/-- Integer register `r` written; x0 discards. -/
def setX (h : Hart) (r v : Nat) : Hart := if r = 0 then h else { h with x := tset 0 h.x r (v % 2 ^ 64) }

/-- The length of the instruction. -/
def instLen (a : At) : Nat := if a.short then 2 else 4

/-- The hart of a command when it can execute: started, not halted, its tile mapped with its clock running, and no package-fatal error
(R453, R521, R531). -/
def State.running (s : State) (a : At) : Option Hart :=
  let h := s.hart a.hart.val
  if h.run && !h.halted && !s.fatalStop && (s.physTile (a.hart.val / 8)).any (fun p => !s.clocks.contains (.tile p)) then some { h with pc := a.pc } else none

/-- The hart's pc moved past an instruction. -/
def State.step_ (s : State) (a : At) : State :=
  s.setHart a.hart.val { s.hart a.hart.val with pc := (a.pc + instLen a) % 2 ^ 64 }

/-! ## Hart counters (R525–R527) -/

/-- The PRIV bit of mhpmfilt that stands for a hart's context (R526). -/
def hpmCtx (h : Hart) : Nat :=
  if h.priv = 3 then 0
  else if h.w then (if h.priv = 1 then 1 else 2)
  else if h.v then (if h.priv = 1 then 5 else 6)
  else if h.priv = 1 then 3 else 4

/-- Counter `c` takes `k` counts; a wrap sets OVF and is carried into the counters chained after it (R526, R527). -/
def hpmAdd (h : Hart) : Nat → Nat → Nat → Hart
  | 0, _, _ => h
  | fuel + 1, c, k =>
    let v := csr h (0xB00 + c) + k
    let h := setCsr h (0xB00 + c) v
    if v < 2 ^ 64 then h
    else
      let h := setBits h (0x7E0 + c) 13 1 1
      if c < 31 && csr h (0x7E0 + c + 1) / 2 ^ 12 % 2 == 1 && csr h 0x320 / 2 ^ (c + 1) % 2 == 0 then hpmAdd h fuel (c + 1) (v / 2 ^ 64)
      else h

/-- `k` occurrences of an event counted by a hart's counters; `cls` is the CLASS bit and `pa` the physical address for events 0x02 to
0x0B (R525, R526). -/
def State.hpm (s : State) (n ev cls pa : Nat) (k : Nat := 1) : State :=
  match s.coreUnit n with
  | none => s
  | some u =>
    let mem := decide (2 ≤ ev ∧ ev ≤ 0x0B)
    let one := fun (h : Hart) (c : Nat) =>
      let f := csr h (0x7E0 + c)
      let chained := c != 3 && f / 2 ^ 12 % 2 == 1
      let range := f / 128 % 2 == 0 || decide (s.get u F.CORE_PMU_LO ≤ pa / 64 ∧ pa / 64 ≤ s.get u F.CORE_PMU_HI)
      if csr h (0x320 + c) == ev && !chained && csr h 0x320 / 2 ^ c % 2 == 0 && f / 2 ^ hpmCtx h % 2 == 1 &&
          (!mem || (f / 2 ^ cls % 2 == 1 && range)) then hpmAdd h 32 c k
      else h
    s.setHart n (((List.range 29).map (· + 3)).foldl one (s.hart n))

/-! ## Traps (R298–R300, R315, R316) -/

/-- What a trap reports: interrupt or not, code, the resume address, tval, guest-physical address by 4, transformed
instruction, whether tval is a guest virtual address, and jfault. -/
structure TrapInfo where
  intr : Bool := false
  code : Nat
  epc : Nat
  tval : Nat := 0
  tval2 : Nat := 0
  tinst : Nat := 0
  gva : Bool := false
  jf : Nat := 0
  deriving DecidableEq, Repr

/-- xcause as the trap writes it. -/
def causeWord (t : TrapInfo) : Nat := (if t.intr then 2 ^ 63 else 0) + t.code

/-- The handler's address from xtvec. -/
def vectorOf (tvec : Nat) (t : TrapInfo) : Nat :=
  let base := tvec / 4 * 4
  if tvec % 4 = 1 && t.intr then (base + 4 * t.code) % 2 ^ 64 else base

/-- A trap into M (R299). -/
def trapM (h : Hart) (t : TrapInfo) : Hart :=
  let g := setBits (setBits h 0x7C0 0 1 (bit h.w)) 0x300 7 1 (bitsOf (csr h 0x300) 3 1)
  let g := setBits (setBits g 0x300 3 1 0) 0x300 11 2 h.priv
  let g := setBits (setBits g 0x300 39 1 (bit h.v)) 0x300 38 1 (bit t.gva)
  let g := setCsr (setCsr (setCsr g 0x341 t.epc) 0x342 (causeWord t)) 0x343 t.tval
  let g := setCsr (setCsr (setCsr g 0x34B t.tval2) 0x34A t.tinst) 0x7C2 t.jf
  { g with w := true, priv := 3, v := false, pc := vectorOf (csr h 0x305) t }

/-- The S fields that every trap into S writes: SPP, SPIE, SIE, sepc, scause, stval and jfault of a bank. -/
def trapS (h : Hart) (b spp : Nat) (t : TrapInfo) : Hart :=
  let g := setBits (setBits h (b + 0x100) 5 1 (bitsOf (csr h (b + 0x100)) 1 1)) (b + 0x100) 1 1 0
  let g := setBits g (b + 0x100) 8 1 spp
  let g := setCsr (setCsr (setCsr g (b + 0x141) t.epc) (b + 0x142) (causeWord t)) (b + 0x143) t.tval
  { setCsr g (b + 0x5C1) t.jf with priv := 1, pc := vectorOf (csr h (b + 0x105)) t }

/-- A trap from the secure world into secure S (R298). -/
def trapSecure (h : Hart) (t : TrapInfo) : Hart := trapS h 4096 h.priv t

/-- jsprev as a secure entry from the normal world writes it (R300, R326). -/
def enterSecure (h : Hart) : Hart := setCsr h 0x5C0 ((if h.priv = 0 then 0 else 1) + 2 * bit h.v)

/-- A secure interrupt taken from the normal world (R300, R310). -/
def trapCross (h : Hart) (t : TrapInfo) : Hart :=
  { trapS (enterSecure h) 4096 1 t with w := true, v := false }

/-- A trap into HS (R298). -/
def trapHS (h : Hart) (t : TrapInfo) : Hart :=
  let g := setBits (setBits h 0x600 7 1 (bit h.v)) 0x600 6 1 (bit t.gva)
  let g := if h.v then setBits g 0x600 8 1 h.priv else g
  let g := setCsr (setCsr g 0x643 t.tval2) 0x64A t.tinst
  { trapS g 0 h.priv t with v := false }

/-- A trap into VS (R298); a VS interrupt reports its code less one. -/
def trapVS (h : Hart) (t : TrapInfo) : Hart :=
  let t := if t.intr then { t with code := t.code - 1 } else t
  let g := setBits (setBits h 0x200 5 1 (bitsOf (csr h 0x200) 1 1)) 0x200 1 1 0
  let g := setBits g 0x200 8 1 h.priv
  let g := setCsr (setCsr (setCsr g 0x241 t.epc) 0x242 (causeWord t)) 0x243 t.tval
  { setCsr g 0x6C1 t.jf with priv := 1, pc := vectorOf (csr h 0x205) t }

/-- An exception taken where delegation selects (R298). -/
def takeExc (h : Hart) (t : TrapInfo) : Hart :=
  if h.priv = 3 || csr h 0x302 / 2 ^ t.code % 2 == 0 then trapM h t
  else if h.w then trapSecure h t
  else if h.v && csr h 0x602 / 2 ^ t.code % 2 == 1 then trapVS h t
  else trapHS h t

/-- An exception raised by the instruction of a command. -/
def State.raiseExc (s : State) (a : At) (t : TrapInfo) : State :=
  let h := s.hart a.hart.val
  s.setHart a.hart.val (takeExc { h with pc := a.pc } { t with epc := a.pc })

/-- An illegal-instruction exception. -/
def State.illegal (s : State) (a : At) : State := s.raiseExc a { code := 2, epc := a.pc, tval := a.inst }

/-- A virtual-instruction exception. -/
def State.virtual_ (s : State) (a : At) : State := s.raiseExc a { code := 22, epc := a.pc, tval := a.inst }

/-! ## Machine checks (R516–R519) -/

/-- A machine check recorded in CORE_MCE (R518, R519). -/
def State.recordMce (s : State) (n : Nat) (u : UnitId) (precise : Bool) (r : MceRec) : State :=
  let h := s.hart n
  let s := (s.put u F.CORE_MCE_VALID 1).put u F.CORE_MCE_PRECISE (bit precise)
  let s := ((s.put u F.CORE_MCE_KIND r.kind).put u F.CORE_MCE_W (bit r.w)).put u F.CORE_MCE_H (bit r.h)
  let s := ((s.put u F.CORE_MCE_PRIV (if precise then h.priv else 0)).put u F.CORE_MCE_V (if precise then bit h.v else 0))
  let s := ((s.put u F.CORE_MCE_LEVEL r.level).count u F.CORE_MCE_COUNT).put u F.CORE_MCE_ADDR r.addr
  let satp := if h.v && !h.w then csr h 0x280 else csr h (bankOf h.w + 0x180)
  let s := (s.put u F.CORE_MCE_ASID (if precise then bitsOf satp 44 16 else 0)).put u F.CORE_MCE_VMID
    (if precise && h.v then bitsOf (csr h 0x680) 44 14 else 0)
  s.hpm n 0x0E 0 0

/-- A precise machine check: the consuming instruction and its address; package-fatal while VALID is 1 (R514, R518). -/
def State.preciseMce (s : State) (a : At) (va : Nat) (kind level pa : Nat) : State :=
  let n := a.hart.val
  match s.coreUnit n with
  | none => s
  | some u =>
    if s.on u F.CORE_MCE_VALID then s.packageFatal 0x09 u pa 0
    else
      let h := s.hart n
      let s := s.recordMce n u true ⟨kind, h.w, false, level, pa⟩
      s.setHart n (trapM { s.hart n with pc := a.pc } { code := 25, epc := a.pc, tval := va })

/-! ## Returns (R299, R300, R305) -/

/-- Secure S resumes the normal context of jsprev at an address (R300, R305). -/
def leaveSecure (h : Hart) (pc : Nat) : Hart :=
  let p := csr h 0x5C0
  let g := setBits h (4096 + 0x100) 1 1 (bitsOf (csr h (4096 + 0x100)) 5 1)
  { setBits g 0x5C0 2 1 1 with w := false, priv := p % 2, v := p / 2 % 2 == 1, pc := pc }

/-- SRET as the privileged specification states, in bank `b` (R300). -/
def sretIn (h : Hart) (b : Nat) : Hart :=
  let st := csr h (b + 0x100)
  let g := setBits (setBits (setBits h (b + 0x100) 1 1 (bitsOf st 5 1)) (b + 0x100) 5 1 1) (b + 0x100) 8 1 0
  let g := if h.priv = 3 then setBits g 0x300 17 1 0 else g
  { g with priv := bitsOf st 8 1, pc := csr h (b + 0x141) }

/-- SRET in VS. -/
def sretVS (h : Hart) : Hart :=
  let st := csr h 0x200
  let g := setBits (setBits (setBits h 0x200 1 1 (bitsOf st 5 1)) 0x200 5 1 1) 0x200 8 1 0
  { g with priv := bitsOf st 8 1, pc := csr h 0x241 }

/-- SRET in HS: V comes from hstatus.SPV. -/
def sretHS (h : Hart) (b : Nat) : Hart :=
  let spv := bitsOf (csr h 0x600) 7 1
  { sretIn (setBits h 0x600 7 1 0) b with v := spv == 1 }

/-- MRET (R299): W from MPW, and with MPW 0 an MPP of M acts as U. -/
def mretOf (h : Hart) : Hart :=
  let w := csr h 0x7C0 % 2 == 1
  let st := csr h 0x300
  let mpp := if !w && bitsOf st 11 2 == 3 then 0 else bitsOf st 11 2
  let g := setBits (setBits (setBits h 0x300 3 1 (bitsOf st 7 1)) 0x300 7 1 1) 0x300 11 2 0
  let g := setBits g 0x300 39 1 0
  let g := if mpp = 3 then g else setBits g 0x300 17 1 0
  { g with w := w || mpp == 3, priv := mpp, v := mpp != 3 && bitsOf st 39 1 == 1, pc := csr h 0x341 }

end Sys2Proof.Machine
end

