-- ==== Sys2Proof/Machine/Irq.lean ====
section
/-! DEFINITION. Interrupt sources, the router, the order in which a hart takes interrupts, and the world map (R301, R302,
R308–R311, R320, R329–R331, R538). -/

namespace Sys2Proof.Machine

open Sys2Proof

/-! ## Sources (R308, R538, R547) -/

/-- An enabled event of a unit is set, or its error summary asserts it (R308, R513); the headgate has one INTAKE bit for each ring
(R291). -/
def State.ownAsserted (s : State) (u : UnitId) : Bool :=
  (s.on u F.UNIT_ERR_IEN && s.errBits u != 0) ||
  (u == .headgate && (s.get u F.HG_EVT_INTAKE &&& s.get u F.HG_EVT_EN) != 0) ||
  (evtPairs (unitKind u)).any fun p =>
    (List.range p.copies).any fun i => s.on u p.ev i && s.get u p.en i / 2 ^ p.pos % 2 == 1

/-- A mailbox endpoint on the firmware side, of a world or of the SMBus has an event (R286). -/
def State.mboxAsserted (s : State) : Bool :=
  (List.range 1024).any (fun f => s.on .mbox F.MBF_STAT_IN_MSG f || s.on .mbox F.MBF_STAT_IN_COLLIDE f || s.on .mbox F.MBF_STAT_OUT_EMPTY f ||
    s.on .mbox F.MBF_STAT_OUT_COLLIDE f || s.on .mbox F.MBF_STAT_OUT_TIMEOUT f) ||
  (List.range 16).any (fun f => s.on .mbox F.MBN_STAT_IN_MSG f || s.on .mbox F.MBN_STAT_IN_COLLIDE f || s.on .mbox F.MBN_STAT_OUT_EMPTY f ||
    s.on .mbox F.MBN_STAT_OUT_COLLIDE f || s.on .mbox F.MBN_STAT_OUT_TIMEOUT f || s.on .mbox F.MBS_STAT_IN_MSG f ||
    s.on .mbox F.MBS_STAT_IN_COLLIDE f || s.on .mbox F.MBS_STAT_OUT_EMPTY f || s.on .mbox F.MBS_STAT_OUT_COLLIDE f ||
    s.on .mbox F.MBS_STAT_OUT_TIMEOUT f) ||
  s.on .mbox F.MBB_STAT_IN_MSG || s.on .mbox F.MBB_STAT_IN_COLLIDE || s.on .mbox F.MBB_STAT_OUT_EMPTY ||
  s.on .mbox F.MBB_STAT_OUT_COLLIDE || s.on .mbox F.MBB_STAT_OUT_TIMEOUT

/-- A counter of the core's hart has OVF with OVF_IEN 1 (R526). -/
def State.hpmAsserted (s : State) (p : Fin 36) (c : Fin 8) : Bool :=
  match s.logTile p.val with
  | some t => (List.range 29).any fun k => csr (s.hart (8 * t + c.val)) (0x7E3 + k) / 2 ^ 13 % 4 == 3
  | none => false

/-- A unit asserts its source (R308); the link units assert hub/xbar's (R538). -/
def State.unitAsserted (s : State) (u : UnitId) : Bool :=
  s.ownAsserted u ||
  match u with
  | .mbox => s.mboxAsserted
  | .core p c => s.hpmAsserted p c
  | .pmu => (List.range 16).any fun n => s.on .pmu F.PMU_OVF n && s.on .pmu F.PMU_OVF_IEN n
  | .xbar => (List.range 45).any fun n => if h : n < 45 then s.ownAsserted (.vz ⟨n, h⟩) else false
  | _ => false

/-- IRQ_SOURCE_CHANGE: the router sees a source's asserted state (R308); a unit's source follows its enabled events. -/
def execIrqSourceChange (src : Fin 3136) (s : State) : Res :=
  let s := s.clean
  match unitAt (src.val / 64) (src.val % 64) with
  | some u => .next (s.putBit .irq F.ROUTE_ASSERTED (s.unitAsserted u) src.val)
  | none => .next s

/-- The link over which a source's die sends its IRQ units: link 0 of a medium die (R392). -/
def State.irqLink (s : State) (src : Nat) : Option Nat :=
  let slot := src / 64
  if slot < 36 then some slot
  else if 44 ≤ slot ∧ slot < 48 then some (s.dieLink (slot - 44) 0)
  else if slot = 48 then some 44 else none

/-- IRQ: hub/irq receives a source's level from a die, over a link that is Active (R385, R392, R399). -/
def execIrq (src : Fin 3136) (level : Bool) (s : State) : Res :=
  let s := s.clean
  let up := (s.irqLink src.val).all fun n => if h : n < 45 then s.get (.vz ⟨n, h⟩) F.VZ_STAT_STATE == 8 else false
  .next (if up then s.putBit .irq F.ROUTE_ASSERTED level src.val else s)

/-- The lowest asserted source routed to a hart at a level: 1 M, 2 secure S, 3 normal S (R308, R328). -/
def State.irqNext (s : State) (hart level : Nat) : Option Nat :=
  (List.range 3136).find? fun i => s.on .irq F.ROUTE_ASSERTED i && s.get .irq F.ROUTE_HART i == hart && s.get .irq F.ROUTE_LEVEL i == level

/-! ## Pending and enabled interrupts (R309–R311) -/

/-- The interrupts pending for a hart at level M: MEIP, MSIP, MTIP as their codes 11, 3, 7 (R308, R311). -/
def State.mPending (s : State) (n : Nat) : List Nat :=
  match s.coreUnit n with
  | none => []
  | some u =>
    (if (s.irqNext n 1).isSome then [11] else []) ++ (if s.on u F.CORE_MSIP then [3] else []) ++
    (if s.get u F.CORE_MTIMECMP ≤ s.get .irq F.PKG_TIME then [7] else [])

/-- The S-level interrupts pending in a world's bank: SEIP, SSIP, STIP as 9, 1, 5 (R298, R308, R311). -/
def State.sPending (s : State) (n : Nat) (w : Bool) : List Nat :=
  let sip := csr (s.hart n) (bankOf w + 0x144)
  (if (s.irqNext n (if w then 2 else 3)).isSome || sip / 512 % 2 == 1 then [9] else []) ++
  (if sip / 2 % 2 == 1 then [1] else []) ++ (if sip / 32 % 2 == 1 then [5] else [])

/-- The VS-level interrupts that hvip injects, by the HS codes 10, 2, 6 (R292). -/
def vsPending (h : Hart) : List Nat := [10, 2, 6].filter fun c => csr h 0x645 / 2 ^ c % 2 == 1

/-- Where an interrupt is taken. -/
inductive IntrTo where
  | m | secure | hs | vs
  deriving DecidableEq, Repr

/-- The interrupt that a hart takes next, of ranks 2 to 5, and where (R309). -/
def State.nextIntr (s : State) (n : Nat) : Option (Nat × IntrTo) :=
  let h := s.hart n
  let on := fun (k c : Nat) => csr h k / 2 ^ c % 2 == 1
  let sieOf := fun (w : Bool) => bankOf w + 0x104
  let deleg := fun (c : Nat) => on 0x303 c
  let mOpen := h.priv != 3 || on 0x300 3
  let m := if mOpen then ((s.mPending n).filter (on 0x304)).map fun c => (c, IntrTo.m) else []
  let up := if mOpen then
      (((s.sPending n true).filter fun c => on (sieOf true) c && !deleg c) ++ ((s.sPending n false).filter fun c => on (sieOf false) c && !deleg c)).map
        fun c => (c, IntrTo.m)
    else []
  let secOpen := h.priv != 3 && (!h.w || h.priv == 0 || on (4096 + 0x100) 1)
  let sec := if secOpen then ((s.sPending n true).filter fun c => on (sieOf true) c && deleg c).map fun c => (c, IntrTo.secure) else []
  let hsOpen := h.priv != 3 && !h.w && (h.v || h.priv == 0 || on 0x100 1)
  let hs := if hsOpen then
      (((s.sPending n false).filter fun c => on (sieOf false) c && deleg c) ++ ((vsPending h).filter fun c => on 0x604 c && !on 0x603 c)).map
        fun c => (c, IntrTo.hs)
    else []
  let vsOpen := h.priv != 3 && !h.w && h.v && (h.priv == 0 || on 0x200 1)
  let vs := if vsOpen then ((vsPending h).filter fun c => on 0x604 c && on 0x603 c).map fun c => (c, IntrTo.vs) else []
  (m ++ up ++ sec ++ hs ++ vs).head?

/-- An asynchronous machine check taken (R516, R518): rank 1, interrupt code 16. -/
def State.asyncMce (s : State) (n : Nat) (u : UnitId) (r : MceRec) (rest : List MceRec) : State :=
  let s := s.setHart n { s.hart n with mce := rest }
  let s := s.recordMce n u false r
  let h := s.hart n
  s.setHart n (trapM h { intr := true, code := 16, epc := h.pc })

/-- The interrupt of ranks 2 to 5 taken (R309, R310). -/
def State.takeRanked (s : State) (n : Nat) : State :=
  let h := s.hart n
  match s.nextIntr n with
  | none => s
  | some (c, dest) =>
    let t : TrapInfo := { intr := true, code := c, epc := h.pc }
    s.setHart n (match dest with
      | .m => trapM h t
      | .secure => if h.w then trapSecure h t else trapCross h t
      | .hs => trapHS h t
      | .vs => trapVS h t)

/-- An interrupt taken at an instruction boundary, in rank order (R309, R310, R516). -/
def State.takeInterrupt (s : State) (n : Nat) (u : UnitId) : State :=
  match (s.hart n).mce with
  | r :: rest => if s.on u F.CORE_MCE_VALID then s.takeRanked n else s.asyncMce n u r rest
  | [] => s.takeRanked n

/-- INTERRUPT_TAKEN: at the boundary before the instruction at `pc` (R307, R309, R310). -/
def execInterruptTaken (hart : Fin 256) (pc : BitVec 64) (s : State) : Res :=
  let s := s.clean
  let h := s.hart hart.val
  match s.coreUnit hart.val with
  | none => .next s
  | some u =>
    if !h.run || h.halted || s.fatalStop then .next s
    else .next ((s.setHart hart.val { h with pc := pc.toNat }).takeInterrupt hart.val u)

/-- MTIMECMP_MATCH: PKG_TIME reaches a hart's CORE_MTIMECMP, so that MTIP is set (R311). -/
def execMtimecmpMatch (hart : Fin 256) (s : State) : Res :=
  let s := s.clean
  match s.coreUnit hart.val with
  | none => .next s
  | some u => .next (s.put .irq F.PKG_TIME (max (s.get .irq F.PKG_TIME) (s.get u F.CORE_MTIMECMP)))

/-! ## The world map and the masters' worlds (R301, R302, R320, R330) -/

/-- The enabled regions as the registers hold them. -/
def State.wregions (s : State) : List WRegion :=
  (List.range 32).filterMap fun r =>
    if s.get .wmap F.WREG_EN r != 0 then
      some ⟨s.get .wmap F.WREG_BASE r, s.get .wmap F.WREG_LIMIT r, s.get .wmap F.WREG_SECURE r != 0⟩
    else none

/-- WMAP_COMMIT: denied from the normal world, while LOCK is 1 and while BUSY is 1 (R302, R330). -/
def execWmapCommit (w : World) (s : State) : Res :=
  let s := s.clean
  if w == .normal || s.on .wmap F.WMAP_CTRL_LOCK || s.on .wmap F.WMAP_STAT_BUSY then .next (s.denied .wmap)
  else .next ({ s.put .wmap F.WMAP_STAT_BUSY 1 with wmapNext := some s.wregions })

/-- WMAP_COMMIT_DONE: the map is copied, every TLB entry of every hart is invalid, and BUSY falls (R302). What the range maintenance engine has reached
by then it has judged by the old map (R358). -/
def execWmapCommitDone (s : State) : Res :=
  let s := s.clean
  match s.wmapNext with
  | none => .next s
  | some rs =>
    let s := s.rmeCut
    let s := (s.put .wmap F.WMAP_STAT_EPOCH (s.get .wmap F.WMAP_STAT_EPOCH + 1)).put .wmap F.WMAP_STAT_BUSY 0
    .next { s with wmapNow := rs, wmapNext := none, harts := tmap {} (fun _ h => { h with tlb := [] }) s.harts }

/-- IOW_WORLD_CHANGE: a master's world is written, and BUSY rises; the master keeps its world until BUSY falls. Masters 11 to 13
ignore the write (R320, R331). -/
def execIowWorldChange (i : Fin 14) (secure : Bool) (w : World) (s : State) : Res :=
  let s := s.clean
  if w == .normal then .next (s.denied .iow)
  else if 11 ≤ i.val then .next s
  else
    let old := s.masterSecure i.val
    let s := { s with iowOld := (i.val, old) :: s.iowOld.filter fun p => p.1 != i.val }
    .next ((s.putBit .iow F.IOW_WORLD secure i.val).put .iow F.IOW_STAT_BUSY 1)

/-- BUSY falls, and the worlds written are in force (R320). -/
def State.iowDone (s : State) : State := if s.iowOld.isEmpty then s else { s.put .iow F.IOW_STAT_BUSY 0 with iowOld := [] }

end Sys2Proof.Machine
end

