-- ==== Sys2Proof/Machine/KeyUse.lean ====
section
/-! DEFINITION. How a medium die uses a key slot: the checks, refusals and cache of R185, and encryption under R183. -/

namespace Sys2Proof.Machine

open Sys2Proof

/-- KEY_SLOT.STATE of a slot (R187, R202). -/
def State.slotState (s : State) (k : Nat) : Nat := s.get .key F.KEY_SLOT_STATE k

/-- A SUSPEND that runs refuses the slot from its issue on (R188, R192). -/
def State.suspending (s : State) (k : Nat) : Bool :=
  match s.keys.job with
  | some j => j.op == 3 && j.slots.contains k
  | none => false

/-- The check of R185: the key engine serves the dies (R198), the slot is ACTIVE and no SUSPEND of it runs (R192). -/
def State.keyOk (s : State) (k : Nat) : Bool := s.on .key F.KEY_CTRL_EN && s.slotState k == 1 && !s.suspending k

/-- A refusal of R185, counted on the die and in the key engine. -/
def State.keyRefused (s : State) (m : Fin 4) : State :=
  ((s.count (.med m) F.MXT_CNT_REFUSED).count .key F.KEY_CNT_REFUSED).raise .key F.KEY_EVT_REFUSED

/-- A use of a slot by a die's engine: a key that is not in the die's cache is a miss (R185, R203). -/
def State.keyTouch (s : State) (m : Fin 4) (k : Nat) : State :=
  if (s.die m.val).keyCache.contains k then s else s.count (.med m) F.MXT_CNT_MISS

/-- The key of a slot as the key engine holds it. -/
def State.keyBytes (s : State) (k : Nat) : List Byte := tget [] s.keys.slots k

/-- A sector encrypted or decrypted for its place (R183, R184). -/
def State.cipher (s : State) (enc : Bool) (k act band sect : Nat) (d : List Byte) : List Byte :=
  xts enc (s.keyBytes k) (dataUnit act band sect) d

end Sys2Proof.Machine
end

