-- ==== Sys2Proof/Machine/Ldpc.lean ====
section
/-! DEFINITION. The quasi-cyclic LDPC code (R68, R71, R97): the circulant exponents, the encoder and the syndrome. A block is
a number of 256 bits, the bit of the lowest position first. -/

namespace Sys2Proof.Machine

open Sys2Proof

/-- `n` distinct elements of a list, chosen by the digits of a number. -/
def pickFrom : Nat → Nat → List Nat → List Nat
  | 0, _, _ => []
  | n + 1, v, l => let r := l.getD (v % l.length) 0; r :: pickFrom n (v / l.length) (l.erase r)

/-- The 4 block rows that information column `c` meets (R71). -/
def ldpcRows (c : Nat) : List Nat := pickFrom 4 (Config.ldpcColumn c) (List.range 16)

/-- Block row `r` meets block column `c` (R71): 4 rows of an information column; of parity column 129 + k, rows k and
k + 1, the dual diagonal. -/
def ldpcMeets (r c : Nat) : Bool :=
  if c < 129 then (ldpcRows c).contains r else r == c - 129 || r == c - 128

/-- An entry of CHD_HTAB (R97): a right shift from 0 to 255, or 0xFFFF for an all-zero block. -/
def htab (r c : Nat) : Nat := if ldpcMeets r c then Config.ldpcShift r c % 256 else 0xFFFF

/-- A block times the identity shifted right by `s`: bit i is bit i + s modulo 256 (R97). -/
def blockShift (s x : Nat) : Nat := x / 2 ^ s + x % 2 ^ s * 2 ^ (256 - s)

/-- A block times the circulant of block row `r` and block column `c`. -/
def blockTimes (r c x : Nat) : Nat := if ldpcMeets r c then blockShift (htab r c) x else 0

/-- Block `c` of a number. -/
def blockOf (u c : Nat) : Nat := bitsOf u (256 * c) 256

/-- The sum of block row `r` over the 129 information columns; the 160 positions past the data are zero (R71). -/
def infoSum (u r : Nat) : Nat := (List.range 129).foldl (fun x c => x ^^^ blockTimes r c (blockOf u c)) 0

/-- Parity blocks `r`, `r + 1`, … (`n` of them), each from the one before it (R71: linear-time encoding). -/
def parityBlocks (u : Nat) : Nat → Nat → Nat → List Nat
  | 0, _, _ => []
  | n + 1, r, prev =>
    let x := infoSum u r ^^^ (if r = 0 then 0 else blockTimes r (128 + r) prev)
    let p := blockShift ((256 - htab r (129 + r)) % 256) x
    p :: parityBlocks u n (r + 1) p

/-- The 512 parity bytes of the 4,108 data bytes of a codeword (R68, R71). -/
def ldpcParity (d : List Byte) : List Byte := leBytes 512 (joinBits 256 (parityBlocks (leNat d) 16 0 0))

/-- The 16 blocks of the syndrome of a codeword: its data bytes and its parity bytes (R71, R72). -/
def ldpcSyndrome (d par : List Byte) : List Nat :=
  let u := leNat d
  let p := leNat par
  (List.range 16).map fun r =>
    infoSum u r ^^^ (List.range 16).foldl (fun x k => x ^^^ blockTimes r (129 + k) (blockOf p k)) 0

end Sys2Proof.Machine
end

