-- ==== Sys2Proof/Machine/Sideband.lean ====
section
/-! DEFINITION. The lane and its sideband: training states, tagged messages, repeats and acknowledgements (R35–R44). -/

namespace Sys2Proof.Machine

open Sys2Proof

/-- YL_STAT.STATE of a lane (R55). -/
def State.yl (s : State) (a : Fin 96) : Nat := s.get (.act a) F.YL_STAT_STATE

/-- The lane is in T7 (R35). -/
def State.upT7 (s : State) (a : Fin 96) : Bool := s.yl a == 8

/-- Frames flow on the lane: T3 to T7 (R35). -/
def State.framing (s : State) (a : Fin 96) : Bool := decide (4 ≤ s.yl a ∧ s.yl a ≤ 8)

/-- The package ceiling of a lane: its die's ceiling, lowered to VCAP; 0 and values above act as the ceiling (R39,
R54). -/
def State.ylCeiling (s : State) (a : Fin 96) : Nat :=
  let v := s.get (.act a) F.YL_CTRL_VCAP
  if v = 0 then ylCeilingOf s.build else min v (ylCeilingOf s.build)

/-- The version that both ends run: the smaller of ceiling and VMAX; none when it is below VMIN (R39, R40). -/
def agreedVersion (ceiling vmin vmax : Nat) : Option Nat :=
  if min ceiling vmax < vmin then none else some (min ceiling vmax)

/-- LOSS_FRAMES in force: 0 acts as 1 (R58). -/
def State.lossFrames (s : State) (a : Fin 96) : Nat := max 1 (s.get (.act a) F.YL_LOSS_LOSS_FRAMES)

/-- The servo engine is alive in states 1 to 7 (R107). -/
def State.svAlive (s : State) (a : Fin 96) : Bool :=
  decide (1 ≤ s.get (.act a) F.SV_STAT_STATE ∧ s.get (.act a) F.SV_STAT_STATE ≤ 7)

/-- The heartbeat advances: EN is 1, the lane is in T7 and the servo engine is alive (R45). -/
def State.hbRuns (s : State) (a : Fin 96) : Bool :=
  s.on (.act a) F.YL_CTRL_EN && s.upT7 a && s.svAlive a

/-- The port with every TAG record, message and acknowledgement cleared, as on entry to T0 (R42, R143). -/
def laneToT0 (l : Lane) : Lane :=
  { l with badRun := 0, goodRun := 0, testBad := false, testCorr := 0, capSeen := false, idSeen := false,
           verAcked := false, echoSeen := false, fastWake := false, rxFrames := 0, txFrames := 0, out := [], waiting := [], slots := [],
           acks := [], tagSent := [], tagSeen := [], actCmd := none, wrate := 0, idleFrames := 0, sentWg := [],
           testTx := 0, testRx := 0, gateOpen := false, gateBad := false }

/-- The lane goes to a state in which no version is agreed (R55: VER is 0 before T4 completes). -/
def State.setYl (s : State) (a : Fin 96) (st : Nat) : State := s.put (.act a) F.YL_STAT_STATE st

/-- VER and READERS read 0 before T4 completes (R55). -/
def State.noVersion (s : State) (a : Fin 96) : State :=
  (s.put (.act a) F.YL_STAT_VER 0).put (.act a) F.YL_STAT_READERS 0

/-- The lane enters T0 and trains from the start (R35). -/
def State.enterT0 (s : State) (a : Fin 96) : State :=
  ((s.setYl a 1).noVersion a).setLane a (laneToT0 (s.lane a))

/-- A TAG from 1 to 255 that no message holds, or waits to be sent with, and that no frame of the last 1,024 carried (R42). -/
def freeTag (l : Lane) : Option Nat :=
  ((List.range 255).map fun k => (l.lastTag + k) % 255 + 1).find? fun t =>
    !(l.out.any fun m => m.tag == t) && !(l.slots.any fun m => m.2.1 == t) && !(l.tagSent.any fun p => p.1 == t && decide (l.txFrames < p.2 + 1024))

/-- A tagged message of the package: sent at once while fewer than 4 are outstanding, else it waits (R42). -/
def State.sbSend (s : State) (a : Fin 96) (op payload : Nat) (src : SbSrc) : State :=
  let l := s.lane a
  match (if l.out.length < 4 then freeTag l else none) with
  | some t =>
    (s.setLane a { l with
        lastTag := t, out := l.out ++ [⟨t, op, payload, src, 1⟩], slots := l.slots ++ [(op, t, payload)] }).emit (.sideband a op t payload)
  | none => s.setLane a { l with waiting := l.waiting ++ [⟨op, payload, src⟩] }

/-- A message without a TAG, which needs no acknowledgement (R41). -/
def State.sbPlain (s : State) (a : Fin 96) (op payload : Nat) : State :=
  (s.setLane a { s.lane a with slots := (s.lane a).slots ++ [(op, 0, payload)] }).emit (.sideband a op 0 payload)

/-- The oldest waiting message takes a place once one is free and a TAG too (R42). -/
def State.sbNext (s : State) (a : Fin 96) : State :=
  let l := s.lane a
  match l.waiting with
  | [] => s
  | m :: ms =>
    if l.out.length < 4 && (freeTag l).isSome then (s.setLane a { l with waiting := ms }).sbSend a m.op m.payload m.src
    else s

/-- An acknowledgement owed to the bridge. -/
def State.sbAck (s : State) (a : Fin 96) (tag stat : Nat) : State :=
  if tag = 0 then s
  else
    let l := s.lane a
    s.setLane a { l with acks := l.acks ++ [(tag, stat)],
                         tagSeen := (tag, ⟨l.rxFrames, stat⟩) :: l.tagSeen.filter fun p => p.1 != tag }

/-- The repeat record of a TAG accepted within the last 1,024 frames (R42). -/
def sbRepeat (l : Lane) (tag : Nat) : Option SbSeen :=
  (l.tagSeen.find? fun p => p.1 == tag && tag != 0 && decide (l.rxFrames < p.2.frame + 1024)).map Prod.snd

/-- A message of the bridge: a repeat is acknowledged again with the status it was given and not acted on; a new one is
acted on and acknowledged 0x00 (R42). Nothing arrives on a lane without frames. -/
def State.sbTake (s : State) (a : Fin 96) (tag : Nat) (act : State → State) : State :=
  if s.framing a then
    match sbRepeat (s.lane a) tag with
    | some r => s.setLane a { s.lane a with acks := (s.lane a).acks ++ [(tag, r.stat)] }
    | none => (act s).sbAck a tag 0
  else s

/-- A message that the lane's version does not carry: an unknown OP, status 0x01 (R42, R43). -/
def State.sbUnknown (s : State) (a : Fin 96) (tag : Nat) : State := s.sbAck a tag 1

/-- A message of a version: acted on from that Yelaz version on, before T4's agreement only for version 1 (R43). -/
def State.sbTakeVer (s : State) (a : Fin 96) (ver tag : Nat) (act : State → State) : State :=
  if ver ≤ 1 ∨ ver ≤ s.get (.act a) F.YL_STAT_VER then s.sbTake a tag act
  else if s.framing a && (sbRepeat (s.lane a) tag).isNone then s.sbUnknown a tag else s.sbTake a tag id

/-- A message for firmware goes to YL_SB_RXC and YL_SB_RXD; while FULL is 1 it is not acknowledged (R44, R58). -/
def State.sbDeliver (s : State) (a : Fin 96) (ver tag op payload : Nat) (act : State → State) : State :=
  if s.on (.act a) F.YL_SB_RXC_FULL && (sbRepeat (s.lane a) tag).isNone then s
  else s.sbTakeVer a ver tag fun s =>
    act ((((s.put (.act a) F.YL_SB_RXC_RX_OP op).raise (.act a) F.YL_SB_RXC_FULL).put (.act a) F.YL_SB_RXD_RXD payload).raise
      (.act a) F.YL_EVT_SB_RX)

/-- A GO that ends: GO clears, FAIL and TX_STAT tell how (R58). -/
def State.goEnds (s : State) (a : Fin 96) (stat : Nat) : State :=
  ((s.put (.act a) F.YL_SB_TXC_GO 0).putBit (.act a) F.YL_SB_TXC_FAIL (stat != 0)).put (.act a) F.YL_SB_TXC_TX_STAT stat

/-- YL_BRIDGE from a CAP payload (R57). -/
def State.putBridge (s : State) (a : Fin 96) (p : Nat) : State :=
  let w := fun (s : State) (f : Fld) => s.put (.act a) f (bitsOf p f.lo f.width)
  [F.YL_BRIDGE_VENDOR, F.YL_BRIDGE_MODEL, F.YL_BRIDGE_VMIN, F.YL_BRIDGE_VMAX, F.YL_BRIDGE_NREAD, F.YL_BRIDGE_HEADS,
    F.YL_BRIDGE_WLAT, F.YL_BRIDGE_BREV].foldl w s

end Sys2Proof.Machine
end

