-- ==== Sys2Proof/Machine/Sluice.lean ====
section
/-! DEFINITION. The sluice: write entries, furrow, slot ring, bursts, verify, journal and completions (R130–R166). -/

namespace Sys2Proof.Machine

open Sys2Proof

/-! ## Layouts -/

/-- A write entry from its 32 bytes (R133). -/
def writeEntryOf (bs : List Byte) : WriteEntry :=
  let w0 := wordAt bs 0
  let w1 := wordAt bs 1
  let w2 := wordAt bs 2
  let w3 := wordAt bs 3
  { tag := bitsOf w0 0 16, op := bitsOf w0 16 4, head := bitsOf w0 20 4, kslot := bitsOf w0 24 12,
    order := bitsOf w0 36 1 == 1, par := bitsOf w0 37 1 == 1, band := bitsOf w0 40 24, sect := bitsOf w1 0 13,
    column := bitsOf w1 13 6, track := bitsOf w1 24 24, addr := bitsOf w2 0 52, wedge := bitsOf w3 0 10,
    zset := bitsOf w3 10 6, start := bitsOf w3 16 16,
    reserved := bitsOf w0 38 2 != 0 || bitsOf w1 19 5 != 0 || bitsOf w1 48 16 != 0 || bitsOf w2 52 12 != 0 ||
      bitsOf w3 32 32 != 0 }

/-- The sector information word (R69). -/
def sectorInfo (band sect kslot column : Nat) : Nat :=
  placed band 0 24 + placed sect 24 13 + placed kslot 37 12 + placed column 49 6

/-- The tag of codeword `j` (R69). -/
def codewordTag (seq j : Nat) (par : Bool) (fmt info : Nat) : Nat :=
  placed seq 0 48 + placed j 48 3 + placed (bit par) 51 1 + placed fmt 52 4 + placed (bitsOf info (8 * j) 8) 56 8

/-- The 4,108 data bytes of codeword `j` of a ciphertext (R68). -/
def codewordData (cipher : List Byte) (tag j : Nat) : List Byte :=
  let d := (cipher.drop (4096 * j)).take 4096 ++ leBytes 8 tag
  d ++ leBytes 4 (crc32c d)

/-- The bits of bytes, bit 0 of each first. -/
def bytesBits (bs : List Byte) : List Nat := bs.flatMap fun b => splitBits 1 8 b.toNat

/-- Bytes from bits, bit 0 of each first. -/
def bitsBytes : Nat → List Nat → List Byte
  | 0, _ => []
  | n + 1, l => BitVec.ofNat 8 (joinBits 1 (l.take 8)) :: bitsBytes n (l.drop 8)

/-- The scrambler's seed of a sector (R70). -/
def sectorSeed (band sect : Nat) : Nat :=
  let v := (band * 8192 + sect) % 2 ^ 23
  if v = 0 then 1 else v

/-- `n` bits of the pattern 1, 1, 0, 0 (R66). -/
def pattern1100 (n : Nat) : List Nat := (List.range n).map fun i => if i % 4 < 2 then 1 else 0

/-- The 37,004 bytes of an encoded sector in the furrow (R66, R70, R75). -/
def encodeSector (cipher : List Byte) (seq band sect kslot column : Nat) (par : Bool) (fmt : Nat) : List Byte :=
  let info := sectorInfo band sect kslot column
  let cws := (List.range 8).map fun j =>
    let d := codewordData cipher (codewordTag seq j par fmt info) j
    (bytesBits (d ++ ldpcParity d)).toArray
  let payload := (List.range 36960).flatMap fun p => cws.map fun c => c.getD p 0
  let scrambled := List.zipWith (fun a b => (a + b) % 2) payload (scramble23 295680 (sectorSeed band sect))
  bitsBytes 37004 (pattern1100 256 ++ splitBits 1 64 0x9E3B57C2A1F4680D ++ scrambled ++ pattern1100 32)

/-- The four words of a journal record, without its CRC (R149). -/
def journalWords (r : JRec) : List Nat :=
  [ placed r.type 0 4 + placed r.act 8 7 + placed (bit r.e.par) 15 1 + placed r.status 16 8 + placed (bit r.touched) 24 1 +
      placed r.jidx 32 32,
    placed r.seq 0 48 + placed r.tag 48 16,
    placed r.e.band 0 24 + placed r.e.sect 24 13 + placed r.e.head 37 4 + placed r.e.column 41 6 + placed r.e.kslot 47 12,
    placed r.e.track 0 24 + placed r.slips 24 4 + placed r.rewrites 28 3 ]

/-- The 32 bytes of a journal record (R149). -/
def journalBytes (r : JRec) : List Byte :=
  let b := (wordsBytes (journalWords r)).take 28
  b ++ leBytes 4 (crc32c b)

/-- The completion of a write entry (R153). -/
def slCompletion (e : SlEntry) (status : Nat) (touched jrec : Bool) (wrap : Bool) : List Byte :=
  wordsBytes
    [ placed e.e.tag 0 16 + placed status 16 8 + placed e.slips 24 4 + placed e.rewrites 28 3 +
        placed (if jrec then e.jidx else 0) 32 32,
      placed (if e.started then e.seq else 0) 0 48 + placed (bit touched) 48 1 + placed (bit jrec) 49 1 +
        placed (if status = 0 then e.viter else 0) 52 4 + placed (bit (!wrap)) 63 1 ]

/-! ## Geometry of a wedge interval (R134, R139), in units of 0.1 ns and of 1/10,000 channel bit -/

/-- Channel bits of a wedge interval outside its gate, times 10,000 (R134). -/
def intervalBits (gateLen rate : Nat) : Nat := (154320 - 4 * gateLen) * rate

/-- Channel bits of a sector (R66). -/
def sectorBits : Nat := 296032

/-- The size of the burst after `gates` gates, resync field included (R139). -/
def burstBits (gateLen rate guard start gates sent : Nat) : Nat :=
  let whole := intervalBits gateLen rate / 10000
  if gates = 0 then min (whole - start - guard) (sectorBits - sent)
  else min (whole - 2 * guard) (sectorBits - sent + 96)

/-- An entry whose next burst begins (R139, R140): its bits, its resync field after a gate, and an empty accumulator. -/
def burstOf (gateLen guard : Nat) (e : SlEntry) : SlEntry :=
  { e with burst := true, left := burstBits gateLen e.rate guard e.e.start e.gates e.sent, pre := if e.gates = 0 then 0 else 96,
           acc := 0, frames := 0 }

/-- Where a sector ends: intervals met beyond the first, and bits after the last gate's guard. -/
def sectorSpan (gateLen rate guard start : Nat) : Nat × Nat :=
  let whole := intervalBits gateLen rate / 10000
  let first := whole - start - guard
  let later := whole - 2 * guard - 96
  if sectorBits ≤ first then (0, start + sectorBits)
  else
    let n := (sectorBits - first + later - 1) / later
    (n, guard + 96 + (sectorBits - first - (n - 1) * later))

/-- The extent of a sector on its track: start and length in units of 0.1 ns (R134). -/
def sectorExtent (gateLen rate guard wedge start : Nat) : Nat × Nat :=
  let (n, b) := sectorSpan gateLen rate guard start
  (wedge * 154320 + 4 * gateLen + start * 10000 / rate, n * 154320 + b * 10000 / rate - start * 10000 / rate)

/-- Two extents on one revolution of 540 wedges overlap. -/
def extentsMeet (x y : Nat × Nat) : Bool :=
  let rev := 540 * 154320
  decide ((y.1 + rev - x.1 % rev) % rev < x.2 ∨ (x.1 + rev - y.1 % rev) % rev < y.2)

/-- A burst fits a wedge interval (R134). -/
def burstFits (gateLen rate guard : Nat) : Bool :=
  gateLen != 0 && decide ((2 * guard + 128) * 10000 ≤ intervalBits gateLen rate)

/-- The checks of R134 on a fetched entry, but for OVERLAP. -/
def State.writeBad (s : State) (a : Fin 96) (e : WriteEntry) : Bool :=
  let u := UnitId.act a
  let rate := s.get u F.ZSET_RATE e.zset
  let gate := s.get u F.SV_FIELD_GATE_LEN
  e.op != 0 || e.reserved || e.addr % 4096 != 0 || decide (539 < e.wedge) || decide (s.get u F.YL_BRIDGE_HEADS < e.head) ||
  decide (47 < e.column) || decide (rate < 1000 ∨ 3000 < rate) || decide (intervalBits gate rate ≤ e.start * 10000) ||
  !burstFits gate rate (s.sluice a.val).guard

/-! ## Entries -/

/-- The sluice of actuator `a` holds the medium. -/
def State.slHolds (s : State) (a : Fin 96) : Bool :=
  (s.sluice a.val).ents.any fun e => e.ph == .writing || e.ph == .verifying

/-- A sector of actuator `a` is WRITING. -/
def State.slWriting (s : State) (a : Fin 96) : Bool := (s.sluice a.val).ents.any fun e => e.ph == .writing

/-- An actuator of the sweep. -/
def State.swpAct (s : State) (n : Nat) : SwpAct := tget {} s.sweep.acts n

/-- An actuator of the sweep replaced. -/
def State.setSwpAct (s : State) (n : Nat) (x : SwpAct) : State :=
  { s with sweep := { s.sweep with acts := tset {} s.sweep.acts n x } }

/-- The fill sector that is being written (R210). -/
def State.fillWriting? (s : State) (a : Fin 96) : Option SlEntry := (s.swpAct a.val).fills.find? fun e => e.ph == .writing

/-- A fill sector replaced, by its number. -/
def State.putFill (s : State) (a : Fin 96) (e : SlEntry) : State :=
  let x := s.swpAct a.val
  s.setSwpAct a.val { x with fills := x.fills.map fun y => if y.order == e.order then e else y }

/-- A fill sector ends without being written whole: no more of its bits leave, and it is a defect of this cause (R212, R213). -/
def State.fillCut (s : State) (a : Fin 96) (cause : Nat) (e : SlEntry) : State :=
  s.putFill a { e with ph := .closing, burst := false, status := cause }

/-- The fill sector that is being written, if any, ends so. -/
def State.fillCutWriting (s : State) (a : Fin 96) (cause : Nat) : State :=
  match s.fillWriting? a with
  | some e => s.fillCut a cause e
  | none => s

/-- An entry replaced, by its fetch order. -/
def State.putEnt (s : State) (a : Fin 96) (e : SlEntry) : State :=
  let l := s.sluice a.val
  s.setSluice a.val { l with ents := l.ents.map fun x => if x.order == e.order then e else x }

/-- An entry gone. -/
def State.dropEnt (s : State) (a : Fin 96) (order : Nat) : State :=
  let l := s.sluice a.val
  s.setSluice a.val { l with ents := l.ents.filter fun x => x.order != order }

/-- The entry of a fetch order. -/
def State.ent? (s : State) (a : Fin 96) (order : Nat) : Option SlEntry :=
  (s.sluice a.val).ents.find? fun x => x.order == order

/-- The events, counters and trace record that a completion status sets (R163, R165, R532). -/
def State.slStatusEvents (s : State) (a : Fin 96) (status : Nat) : State :=
  let u := UnitId.act a
  let s := s.raise u F.SL_EVT_CQ
  if status = 0x00 then s.count u F.SL_CNT_DONE
  else if status = 0x30 ∨ status = 0x31 then s.raise u F.SL_EVT_BAD_ENTRY
  else if status = 0x40 then (s.raise u F.SL_EVT_SLIP_LIMIT).traceEvent 0x13 4 u
  else if status = 0x41 then (s.raise u F.SL_EVT_REWRITE_LIMIT).traceEvent 0x13 4 u
  else s

/-- Entries completed after a passed verify, of which frames are still on record (R158). -/
def passedOf (l : Sluice) (e : SlEntry) : List Nat :=
  (if e.verified then e.order :: l.passed else l.passed).filter fun k => l.wgSeqs.any fun p => p.2 == k

/-- A completion written to the completion ring, and its events once visible (R152, R153). -/
def State.slPost (s : State) (a : Fin 96) (e : SlEntry) (status : Nat) (touched jrec : Bool) : State :=
  let u := UnitId.act a
  let n := s.get u F.SL_CQ_CFG_LOG2N
  let t := s.get u F.SL_CQ_TAIL
  let l := s.sluice a.val
  let s := s.masterWrite (dieOf a).val u (ringAt (s.get u F.SL_CQ_CFG_BASE) n 16 t)
    (slCompletion e status touched jrec l.wrap)
  let s := s.put u F.SL_CQ_TAIL ((t + 1) % 2 ^ n)
  let s := s.setSluice a.val { l with wrap := if (t + 1) % 2 ^ n = 0 then !l.wrap else l.wrap, passed := passedOf l e }
  (s.dropEnt a e.order).slStatusEvents a status

/-! ## The journal (R148–R151) -/

/-- The die's journal is full (R148). -/
def State.journalFull (s : State) (m : Fin 4) : Bool :=
  (s.get (.med m) F.SLD_JTAIL + 2 ^ 32 - s.get (.med m) F.SLD_JHEAD) % 2 ^ 32 == 2 ^ s.get (.med m) F.SLD_JCFG_JLOG2

/-- JFULL set on every actuator of the die while its journal is full (R151). -/
def State.journalFullEvent (s : State) (m : Fin 4) : State :=
  if s.journalFull m then (dieActs m.val).foldl (fun s a => s.raise (.act a) F.SL_EVT_JFULL) s else s

/-- A record sent to the keep die at the journal's tail (R148); it may fill the journal. -/
def State.journalSend (s : State) (m : Fin 4) (r : JRec) : State :=
  let t := s.get (.med m) F.SLD_JTAIL
  let d := s.die m.val
  ((s.put (.med m) F.SLD_JTAIL (t + 1)).setDie m.val { d with jfly := d.jfly ++ [{ r with jidx := t }] }).journalFullEvent m

/-- A record of an actuator has waited since its last wedge report (R151). -/
def State.journalWaited (s : State) (act : Nat) : State := s.setSluice act { s.sluice act with jwaited := true }

/-- A record written: sent at once, or waiting behind a full journal and every earlier record that waits (R151). -/
def State.journalWrite (s : State) (m : Fin 4) (r : JRec) : State :=
  if s.journalFull m || !(s.die m.val).jwait.isEmpty then
    ((s.setDie m.val { s.die m.val with jwait := (s.die m.val).jwait ++ [r] }).journalWaited r.act).journalFullEvent m
  else s.journalSend m r

/-- Waiting records sent while there is room, in order, at most `n` of them (R151). -/
def State.journalDrain (s : State) (m : Fin 4) : Nat → State
  | 0 => s
  | n + 1 =>
    match (s.die m.val).jwait with
    | [] => s
    | r :: rs =>
      if s.journalFull m then s
      else ((s.setDie m.val { s.die m.val with jwait := rs }).journalSend m r).journalDrain m n

/-- The record of an entry (R149). -/
def recordOf (a : Fin 96) (e : SlEntry) (type status : Nat) (touched : Bool) : JRec :=
  { act := a.val, idx := e.order, type := type, jidx := 0, seq := e.seq, tag := e.e.tag, e := e.e, status := status,
    touched := touched, slips := e.slips, rewrites := e.rewrites }

/-- An entry that ends without a commit: before its fill starts it completes with no record; afterwards it frees its
slot and writes a CLOSE record, after an INTENT record that was not yet written (R135, R150). -/
def State.slEnd (s : State) (a : Fin 96) (e : SlEntry) (status : Nat) (touched : Bool) : State :=
  if e.started then
    let s := if e.ph == .filling then s.journalWrite (dieOf a) (recordOf a e 1 0 false) else s
    let s := { s with keys := { s.keys with uses := s.keys.uses.filter fun k => !(k.act == a.val && k.idx == e.order && k.write) } }
    (s.putEnt a { e with ph := .closing, holds := false, status := status, touched := touched, burst := false }).journalWrite
      (dieOf a) (recordOf a e 3 status touched)
  else s.slPost a { e with status := status } status touched false

/-- A sector that counts as a failed verify: rewritten whole, or ended with REWRITE_LIMIT (R144, R145). -/
def State.slFail (s : State) (a : Fin 96) (e : SlEntry) : State :=
  let u := UnitId.act a
  let s := s.raise u F.SL_EVT_VFAIL
  if s.get u F.SL_CTRL_REWRITE_MAX < e.rewrites + 1 then s.slEnd a e 0x41 true
  else (s.count u F.SL_CNT_REWRITE).putEnt a
    { e with ph := .filled, rewrites := e.rewrites + 1, burst := false, sent := 0, left := 0, acc := 0, frames := 0,
             gates := 0, reading := false, off := false }

/-- WRITE_OK fell, or a WRITE_ABORT was accepted, while sectors are WRITING: no more of their bits leave and each counts as
a failed verify (R144). -/
def State.slAbortWriting (s : State) (a : Fin 96) : State :=
  ((s.sluice a.val).ents.filter fun e => e.ph == .writing).foldl (fun s e => s.slFail a e) s

/-- Of the entries that `p` picks, the one released first: two sectors that are WRITING or VERIFYING at once follow each
other on the track in the order of their releases (R137, R139). -/
def firstReleased (p : SlEntry → Bool) (es : List SlEntry) : Option SlEntry :=
  (es.filter p).foldl (fun best e =>
    match best with
    | none => some e
    | some b => if e.rel < b.rel then some e else some b) none

/-! ## Slot ring (R137, R138) -/

/-- LEAD in force: 0 acts as 1 (R165). -/
def State.leadOf (s : State) (a : Fin 96) : Nat := max 1 (s.get (.act a) F.SL_TUNE_LEAD)

/-- The decision wedge (R137). -/
def decisionWedge (wedge lead : Nat) : Nat := (wedge + 540 - lead) % 540

/-- The servo engine is in FOLLOW on a head and track (R137). -/
def State.followOn (s : State) (a : Fin 96) (head track : Nat) : Bool :=
  s.get (.act a) F.SV_STAT_STATE == 4 && s.get (.act a) F.SV_STAT_HEAD == head && (s.servo a.val).track == track

/-- The extent of a held entry on its track, with the gate and guard now in force. -/
def State.extentOf (s : State) (a : Fin 96) (e : WriteEntry) (rate : Nat) : Nat × Nat :=
  sectorExtent (s.get (.act a) F.SV_FIELD_GATE_LEN) rate (s.sluice a.val).guard e.wedge e.start

/-- The seven conditions of R137. -/
def State.eligible (s : State) (a : Fin 96) (e : SlEntry) : Bool :=
  let l := s.sluice a.val
  e.ph == .filled && s.followOn a e.e.head e.e.track && s.on (.act a) F.SV_STAT_WRITE_OK && s.upT7 a &&
  (s.lane a.val).wrate == e.rate && (!e.e.order || l.ents.all fun x => decide (e.order ≤ x.order)) &&
  l.ents.all fun x => !(x.ph == .writing && extentsMeet (s.extentOf a x.e x.rate) (s.extentOf a e.e e.rate))

/-- A slip of one revolution, counted, or SLIP_LIMIT instead of one slip too many (R138). -/
def State.slSlip (s : State) (a : Fin 96) (e : SlEntry) : State :=
  let u := UnitId.act a
  if s.get u F.SL_CTRL_SLIP_MAX < e.slips + 1 then s.slEnd a e 0x40 e.released
  else
    let s := s.count u F.SL_CNT_SLIP
    let s := if e.ph == .filled then s else s.count u F.SL_CNT_LATEFILL
    s.putEnt a { e with slips := e.slips + 1 }

/-- CH_DEC and CH_SYNC as a sector latches them, with the values that act (R94). -/
def State.decSet (s : State) (a : Fin 96) : DecSet :=
  let u := UnitId.act a
  let cap := fun (f : Fld) (m : Nat) => let v := s.get u f; if v = 0 ∨ m < v then m else v
  { localMax := cap F.CH_DEC_LOCAL_MAX 8, deepLocal := cap F.CH_DEC_DEEP_LOCAL 32, deepGlobal := cap F.CH_DEC_DEEP_GLOBAL 4,
    estop := s.on u F.CH_DEC_ESTOP, tol := s.get u F.CH_SYNC_TOL, win := s.get u F.CH_SYNC_WIN }

/-- A zone set of an actuator, as it stands (R61, R96). -/
def State.zoneSet (s : State) (a : Fin 96) (z : Nat) : ZoneSet :=
  let u := UnitId.act a
  let row := fun (f : Fld) (n : Nat) => (List.range n).map fun t => s.get u f z t
  { rate := s.get u F.ZSET_RATE z, joint := s.get u F.ZSET_JOINT z == 1, readers := s.get u F.YL_STAT_READERS,
    tgtAdapt := s.get u F.ZSET_TGT_ADAPT z == 1, llr := s.get u F.ZSET_LLR_SCALE z,
    delays := (s.get u F.ZSET_DLY_L z, s.get u F.ZSET_DLY_C z),
    taps := row F.ZSET_FFE0 16 ++ row F.ZSET_FFE1 16 ++ row F.ZSET_FFE2 16, target := s.get u F.ZSET_TARGET z,
    mu := (s.get u F.ZSET_MU_FFE z, s.get u F.ZSET_MU_TGT z),
    gains := [s.get u F.ZSET_KP_ACQ z, s.get u F.ZSET_KI_ACQ z, s.get u F.ZSET_KP_TRK z, s.get u F.ZSET_KI_TRK z,
      s.get u F.ZSET_ACQ_LEN z],
    np := row F.ZSET_NP 48 }

/-- The entry is released: it takes the medium, its verify is chosen, and CH_DEC, CH_SYNC and its zone set are latched for it
(R61, R76, R94, R137, R146, R161). -/
def State.slRelease (s : State) (a : Fin 96) (e : SlEntry) : State :=
  let u := UnitId.act a
  let l := s.sluice a.val
  (s.setSluice a.val { l with nextRel := l.nextRel + 1 }).putEnt a
    { e with ph := .writing, released := true, rel := l.nextRel, sent := 0, left := 0, acc := 0, frames := 0, gates := 0,
             burst := false, reading := false, off := false, dec := s.decSet a, zone := s.zoneSet a e.e.zset,
             vmode := s.on u F.SL_CTRL_VMODE || s.get u F.YL_STAT_READERS != 3 }

/-- An entry still waits for a decision: FILLING or FILLED (R135). -/
def slUndecided (e : SlEntry) : Bool :=
  e.ph == .waiting || e.ph == .filling || e.ph == .intent || e.ph == .filled

/-- Every check of R131 but the one on other actuators. -/
def State.slRingsOk (s : State) (a : Fin 96) : Bool :=
  let u := UnitId.act a
  let j := s.get (.med (dieOf a)) F.SLD_JCFG_JLOG2
  let inR := fun (n : Nat) => decide (4 ≤ n ∧ n ≤ 12)
  inR (s.get u F.SL_WQ_CFG_LOG2N) && inR (s.get u F.SL_CQ_CFG_LOG2N) && decide (12 ≤ j ∧ j ≤ 20) &&
  decide (s.get (.med (dieOf a)) F.SLD_JCFG_JBASE * 4096 + 32 * 2 ^ j ≤ mramSize) &&
  decide ((s.get (.med (dieOf a)) F.SLD_JTAIL + 2 ^ 32 - s.get (.med (dieOf a)) F.SLD_JHEAD) % 2 ^ 32 ≤ 2 ^ j) &&
  decide (1 ≤ s.get u F.SL_FURROW_COUNT ∧ s.get u F.SL_FURROW_FIRST + s.get u F.SL_FURROW_COUNT ≤ 3591)

/-- Two furrows overlap (R131). -/
def State.furrowsMeet (s : State) (a b : Fin 96) : Bool :=
  let fa := s.get (.act a) F.SL_FURROW_FIRST
  let fb := s.get (.act b) F.SL_FURROW_FIRST
  decide (fa < fb + s.get (.act b) F.SL_FURROW_COUNT ∧ fb < fa + s.get (.act a) F.SL_FURROW_COUNT)

/-- The checks of R131. -/
def State.slConfigOk (s : State) (a : Fin 96) : Bool :=
  s.slRingsOk a && (dieActs (dieOf a).val).all fun b =>
    b == a || !s.on (.act b) F.SL_CTRL_EN || !s.furrowsMeet a b

/-- The sweep runs on this actuator: writes to SL_CTRL.EN and CH_CTRL.EN are denied, and SV_CMD but HALT is refused
(R218). -/
def State.swept (s : State) (a : Fin 96) : Bool :=
  s.on .sweep F.SWP_STAT_BUSY &&
  (s.sweep.shelf || decide (s.sweep.asm / 2 ^ (a.val / 2) % 2 = 1))

/-- A fall of WRITE_OK, within the cycle (R101): SV_STAT shows it, a sector being written is stopped (R144), and WR_DROP
is set (R126). A fill sector being written stops likewise and is a defect of cause 3; WR_DROP is the sluice's alone (DESIGN
CHOICE, log 213). -/
def State.dropWriteOk (s : State) (a : Fin 96) : State :=
  let u := UnitId.act a
  if s.on u F.SV_STAT_WRITE_OK then
    let s := (s.put u F.SV_STAT_WRITE_OK 0).fillCutWriting a 3
    if s.slWriting a then
      ((s.raise u F.SV_EVT_WR_DROP).count u F.SV_CNT_WRDROP).slAbortWriting a
    else s
  else s

end Sys2Proof.Machine
end

