-- ==== Sys2Proof/Machine/SluiceCmd.lean ====
section
/-! DEFINITION. The commands and events of the sluice and its journal (R131–R166). -/

namespace Sys2Proof.Machine

open Sys2Proof

/-- SL_ENABLE: the checks of R131, then EN; a failed check sets CFG_ERR and leaves EN at 0. The sweep denies the write
(R218). -/
def execSlEnable (a : Fin 96) (s : State) : Res :=
  let s := s.clean
  let u := UnitId.act a
  if s.swept a then .next (s.denied u)
  else if s.on u F.SL_CTRL_EN then .next s
  else if s.slConfigOk a then .next (s.put u F.SL_CTRL_EN 1)
  else .next (s.raise u F.SL_EVT_CFG_ERR)

/-- Every held entry that has never been released completes with CANCELLED (R156, R157). -/
def State.slCancelAll (s : State) (a : Fin 96) (p : SlEntry → Bool) : State :=
  ((s.sluice a.val).ents.filter fun e => slUndecided e && !e.released && p e).foldl (fun s e => s.slEnd a e 0x22 false) s

/-- SL_DISABLE: fetching stops and never-released entries are cancelled (R157). -/
def execSlDisable (a : Fin 96) (s : State) : Res :=
  let s := s.clean
  if s.swept a then .next (s.denied (.act a))
  else .next ((s.put (.act a) F.SL_CTRL_EN 0).slCancelAll a fun _ => true)

/-- A free furrow slot of the actuator (R130, R136): the lowest that no entry holds. -/
def State.freeSlot? (s : State) (a : Fin 96) : Option Nat :=
  let f := s.get (.act a) F.SL_FURROW_FIRST
  ((List.range (s.get (.act a) F.SL_FURROW_COUNT)).map fun k => f + k).find? fun k =>
    !((s.sluice a.val).ents.any fun e => e.holds && e.slot == k)

/-- The three conditions of R136, with EN 1 and PAUSE 0. -/
def State.slFetches (s : State) (a : Fin 96) : Bool :=
  let u := UnitId.act a
  let held := (s.sluice a.val).ents.length
  s.on u F.SL_CTRL_EN && !s.on u F.SL_CTRL_PAUSE && s.get u F.SL_WQ_HEAD != s.get u F.SL_WQ_TAIL &&
  decide (held < 256) && (s.freeSlot? a).isSome &&
  decide (held + 1 ≤ ringFree (s.get u F.SL_CQ_CFG_LOG2N) (s.get u F.SL_CQ_HEAD) (s.get u F.SL_CQ_TAIL))

/-- WRITE: the next entry is fetched and checked for a pending cancel, BAD_ENTRY and OVERLAP (R134, R136, R156). An
entry that cannot be read, because its line is poisoned or refused, completes BAD_ENTRY. Its RATE is that of its zone set now
(DESIGN CHOICE, log 215). -/
def execWrite (a : Fin 96) (s : State) : Res :=
  let s := s.clean
  let u := UnitId.act a
  if !s.slFetches a then .next s
  else
    let n := s.get u F.SL_WQ_CFG_LOG2N
    let h := s.get u F.SL_WQ_HEAD
    let (s, ans) := s.masterRead (dieOf a).val u (ringAt (s.get u F.SL_WQ_CFG_BASE) n 32 h) 32
    let e := writeEntryOf (ans.data?.getD [])
    let h' := (h + 1) % 2 ^ n
    let l := s.sluice a.val
    let hit := l.cancels.any fun c => c.1 == e.tag
    let x : SlEntry := { idx := h, order := l.nextOrder, e := e, rate := s.get u F.ZSET_RATE e.zset, slot := (s.freeSlot? a).getD 0 }
    let s := (s.put u F.SL_WQ_HEAD h').setSluice a.val
      { l with ents := l.ents ++ [x], nextOrder := l.nextOrder + 1, cancels := l.cancels.filter fun c => c.2 != h' }
    if ans.data?.isNone then .next (s.slEnd a x 0x30 false)
    else if hit then .next (s.slEnd a x 0x22 false)
    else if s.writeBad a e then .next (s.slEnd a x 0x30 false)
    else if l.ents.any fun y => y.e.head == e.head && y.e.track == e.track &&
        extentsMeet (s.extentOf a y.e y.rate) (s.extentOf a e x.rate) then .next (s.slEnd a x 0x31 false)
    else .next s

/-- The next sequence number: 0 acts as 1 (R165). -/
def State.seqNext (s : State) (a : Fin 96) : Nat := max 1 (s.get (.act a) F.SL_SEQ_NEXT)

/-- FILL_START: the next entry in fetch order takes SL_SEQ_NEXT; its key slot is checked (R185), its source read,
encrypted and encoded into the furrow (R75, R136). A refused key and a poisoned source end the entry. -/
def execFillStart (a : Fin 96) (s : State) : Res :=
  let s := s.clean
  let u := UnitId.act a
  let l := s.sluice a.val
  if l.ents.any fun e => e.ph == .filling then .next s
  else
    match l.ents.find? fun e => e.ph == .waiting with
    | none => .next s
    | some e =>
      let n := s.seqNext a
      let e := { e with ph := .filling, started := true, seq := n }
      let s := (s.put u F.SL_SEQ_NEXT (n + 1)).putEnt a e
      if !s.keyOk e.e.kslot then .next ((s.keyRefused (dieOf a)).slEnd a e 0x23 false)
      else
        let s := s.keyTouch (dieOf a) e.e.kslot
        let (s, ans) := s.masterRead (dieOf a).val u e.e.addr 32768
        match ans.data? with
        | none => .next (s.slEnd a e 0x24 false)
        | some d =>
          let c := s.cipher true e.e.kslot a.val e.e.band e.e.sect d
          let sec := encodeSector c n e.e.band e.e.sect e.e.kslot e.e.column e.e.par 1
          .next { s with furrow := tset [] s.furrow (4096 * (dieOf a).val + e.slot) sec,
                         keys := { s.keys with uses := s.keys.uses ++ [⟨e.e.kslot, a.val, e.order, true⟩] } }

/-- FILL_DONE: the sector is in the furrow; its INTENT record is sent or waits (R136, R150, R151). -/
def execFillDone (a : Fin 96) (s : State) : Res :=
  let s := s.clean
  match (s.sluice a.val).ents.find? fun e => e.ph == .filling with
  | none => .next s
  | some e =>
    let s := { s with keys := { s.keys with uses := s.keys.uses.filter fun k => !(k.act == a.val && k.idx == e.order && k.write) } }
    .next ((s.putEnt a { e with ph := .intent }).journalWrite (dieOf a) (recordOf a e 1 0 false))

/-- What an acknowledged record does to its entry (R136, R150, R152). -/
def State.recordAcked (s : State) (r : JRec) : State :=
  let a := actOf r.act
  match s.ent? a r.idx with
  | none => s
  | some e =>
    if r.type = 1 then (if e.ph == .intent then s.putEnt a { e with ph := .filled } else s)
    else s.slPost a { e with jidx := r.jidx } e.status e.touched true

/-- JOURNAL_RECORD_ACK: the oldest record in flight is durable in the journal and acknowledged (R148, R150). -/
def execJournalRecordAck (m : Fin 4) (s : State) : Res :=
  let s := s.clean
  let d := s.die m.val
  match d.jfly with
  | [] => .next s
  | r :: rs =>
    let at_ := mramBase + s.get (.med m) F.SLD_JCFG_JBASE * 4096 + 32 * (r.jidx % 2 ^ s.get (.med m) F.SLD_JCFG_JLOG2)
    let s := (s.setDie m.val { d with jfly := rs }).masterWrite m.val (.med m) at_ (journalBytes r)
    .next (s.recordAcked r)

/-- The syndrome is zero within the LOCAL_MAX iterations that the line-rate decoder runs (R72). -/
def localSyn (d : DecSet) (synZero : Bool) (n : Nat) : Bool := synZero && decide (n ≤ d.localMax)

/-- Iterations that the line-rate decoder runs on a codeword (R72): LOCAL_MAX, or with ESTOP no more than until the syndrome
is zero. -/
def localIters (d : DecSet) (synZero : Bool) (n : Nat) : Nat := if d.estop && localSyn d synZero n then n else d.localMax

/-- ITER_MAX in force since the last wedge report: 0 acts as 1, values above LOCAL_MAX act as LOCAL_MAX (R165). -/
def State.iterLimit (s : State) (a : Fin 96) (d : DecSet) : Nat := min (max 1 (s.sluice a.val).iterMax) d.localMax

/-- The tag of a codeword's data (R68, R69). -/
def tagOf (d : List Byte) : Nat := leNat ((d.drop 4096).take 8)

/-- A codeword's CRC-32C matches (R68, R72). -/
def cwCrcOk (d : List Byte) : Bool := d.length == 4108 && crc32c (d.take 4104) == leNat (d.drop 4104)

/-- The codeword decodes: zero syndrome and matching CRC (R72). -/
def cwDecodes (synZero : Bool) (d : List Byte) : Bool := synZero && cwCrcOk d

/-- The tag that was written with codeword `j` of an entry (R69, R133). -/
def tagWritten (e : SlEntry) (j : Nat) : Nat :=
  codewordTag e.seq j e.e.par 1 (sectorInfo e.e.band e.e.sect e.e.kslot e.e.column)

/-- Codeword `j` fails verify under R76 and R147: it does not decode, its tag is not the one written, or it used more than
`lim` iterations. -/
def verifyCwFails (d : DecSet) (lim : Nat) (tag : Nat) (c : VerifyCw) : Bool :=
  !cwDecodes (localSyn d c.synZero c.iters) c.data || tagOf c.data != tag || decide (lim < localIters d c.synZero c.iters)

/-- The codewords of a verify, with their indices: eight of them, one that is absent as a decode that failed. -/
def verifyCws (obs : VerifyObs) : List (Nat × VerifyCw) := (List.range 8).map fun j => (j, obs.cws.getD j ⟨false, 0, []⟩)

/-- The codewords of a sector that fail its verify: all eight when a revolution verify met no sync mark or was off-track
(R146, R147). -/
def State.verifyBad (s : State) (a : Fin 96) (d : DecSet) (unread : Bool) (tag : Nat → Nat) (obs : VerifyObs) : Nat :=
  if unread then 8 else ((verifyCws obs).filter fun p => verifyCwFails d (s.iterLimit a d) (tag p.1) p.2).length

/-- Every verified codeword with a zero syndrome and a bad CRC counts in CH_CNT_MISCORR (R72, R95). -/
def State.verifyCount (s : State) (a : Fin 96) (d : DecSet) (unread : Bool) (obs : VerifyObs) : State :=
  if unread then s else
    s.count (.act a) F.CH_CNT_MISCORR
      ((verifyCws obs).filter fun p => localSyn d p.2.synZero p.2.iters && !cwCrcOk p.2.data).length

/-- The read-back met a sync mark: its best match has no more bit errors than CH_SYNC.TOL (R81, R146). -/
def verifySync (d : DecSet) (obs : VerifyObs) : Bool := obs.sync.any fun n => decide (n ≤ d.tol)

/-- VERIFY_RESULT: on a pass the slot is freed and the COMMIT record sent; otherwise the sector waits for a rewrite or
ends (R76, R145–R147, R150), with the zone set of the write. A revolution verify that met no sync mark or was off-track fails. -/
def execVerifyResult (a : Fin 96) (obs : VerifyObs) (s : State) : Res :=
  let s := s.clean
  let u := UnitId.act a
  match firstReleased (fun e => e.ph == .verifying && (!e.vmode || e.reading)) (s.sluice a.val).ents with
  | none => .next s
  | some e =>
    let d := e.dec
    let unread := e.vmode && (e.off || !verifySync d obs)
    let bad := s.verifyBad a d unread (tagWritten e) obs
    let s := s.verifyCount a d unread obs
    if bad = 0 then
      let e := { e with ph := .committing, holds := false, verified := true, status := 0, touched := true,
                        viter := (verifyCws obs).foldl (fun m p => max m (localIters d p.2.synZero p.2.iters)) 0 }
      .next ((s.putEnt a e).journalWrite (dieOf a) (recordOf a e 2 0 false))
    else .next ((s.count u F.SL_CNT_VFAILCW bad).slFail a e)

/-- Wedges from the last reported wedge to an entry's decision wedge. -/
def State.decisionIn (s : State) (a : Fin 96) (e : SlEntry) : Nat :=
  (decisionWedge e.e.wedge (s.sluice a.val).lead + 1080 - 1 - s.get (.act a) F.SV_STAT_WEDGE) % 540

/-- The FILLED entry with the nearest decision point (R143). -/
def State.nextFilled? (s : State) (a : Fin 96) : Option SlEntry :=
  ((s.sluice a.val).ents.filter fun e => e.ph == .filled).foldl (fun best e =>
    match best with
    | none => some e
    | some b => if s.decisionIn a e < s.decisionIn a b then some e else some b) none

/-- A refusal of WRATE_SET completes every held entry of that rate that is not yet committing or closing (R143; DESIGN CHOICE, log 217). -/
def State.rateRefused (s : State) (a : Fin 96) (rate : Nat) : State :=
  ((s.sluice a.val).ents.filter fun e => e.ph != .committing && e.ph != .closing && e.rate == rate).foldl (fun s e => s.slEnd a e 0x32 e.released)
    (s.raise (.act a) F.SL_EVT_RATE_REFUSED)

/-- SL_CANCEL: marks the entries with the TAG before the ring's TAIL; held ones that were never released complete at
once, and the cancel stays pending while unfetched entries remain. A fifth pending cancel is denied (R156). -/
def execSlCancel (a : Fin 96) (tag : Fin 65536) (s : State) : Res :=
  let s := s.clean
  let u := UnitId.act a
  let l := s.sluice a.val
  if 4 ≤ l.cancels.length then .next (s.denied u)
  else
    let t := s.get u F.SL_WQ_TAIL
    let keep := if t = s.get u F.SL_WQ_HEAD then l.cancels else l.cancels ++ [(tag.val, t)]
    .next ((s.setSluice a.val { l with cancels := keep }).slCancelAll a fun e => e.e.tag == tag.val)

/-- EN is 1 on some actuator of the die. -/
def State.dieWrites (s : State) (m : Fin 4) : Bool := (dieActs m.val).any fun a => s.on (.act a) F.SL_CTRL_EN

/-- SLD_JHEAD_WRITE: frees journal space and lets waiting records be sent; denied when it would over-run while an
actuator of the die is enabled (R151). It sets no JFULL by itself (DESIGN CHOICE, log 216). -/
def execSldJheadWrite (m : Fin 4) (v : Fin 4294967296) (s : State) : Res :=
  let s := s.clean
  if s.dieWrites m && decide (2 ^ s.get (.med m) F.SLD_JCFG_JLOG2 <
      (s.get (.med m) F.SLD_JTAIL + 2 ^ 32 - v.val) % 2 ^ 32) then .next (s.denied (.med m))
  else
    let s := s.put (.med m) F.SLD_JHEAD v.val
    .next (s.journalDrain m (s.die m.val).jwait.length)

/-- SLD_JTAIL_WRITE: restores the tail while EN is 0 on all 24 actuators of the die; denied otherwise (R159). -/
def execSldJtailWrite (m : Fin 4) (v : Fin 4294967296) (s : State) : Res :=
  let s := s.clean
  if s.dieWrites m then .next (s.denied (.med m))
  else .next (s.put (.med m) F.SLD_JTAIL v.val)

/-- A lane declared down: every held entry that is not yet committing or closing ends ABSENT (R52, R157, R158). -/
def State.slLaneDown (s : State) (a : Fin 96) : State :=
  ((s.sluice a.val).ents.filter fun e => e.ph != .committing && e.ph != .closing).foldl
    (fun s e => s.slEnd a e 0x20 e.released) s

end Sys2Proof.Machine
end

