-- ==== Sys2Proof/Machine/Channel.lean ====
section
/-! DEFINITION. The channel engine: read entries, passes, the retry ladder, tag checks, soft records and completions
(R59–R97). -/

namespace Sys2Proof.Machine

open Sys2Proof

/-! ## Layouts -/

/-- A read entry from its 32 bytes (R78). -/
def readEntryOf (bs : List Byte) : ReadEntry :=
  let w0 := wordAt bs 0
  let w1 := wordAt bs 1
  let w2 := wordAt bs 2
  let w3 := wordAt bs 3
  let op := bitsOf w0 16 4
  { tag := bitsOf w0 0 16, op := op, head := bitsOf w0 20 4, kslot := bitsOf w0 24 12, raw := bitsOf w0 36 1 == 1,
    band := bitsOf w0 40 24, sect := bitsOf w1 0 13, expSeq := bitsOf w1 16 48, addr := bitsOf w2 0 52,
    wedge := bitsOf w3 0 10, zset := bitsOf w3 10 6, window := bitsOf w3 16 16, daddr := bitsOf w3 0 52,
    reserved := bitsOf w0 37 3 != 0 || bitsOf w1 13 3 != 0 || bitsOf w2 52 12 != 0 ||
      (if op == 2 then bitsOf w3 52 12 != 0 else bitsOf w3 32 32 != 0) }

/-- The codewords of an entry that have decoded, as a mask. -/
def doneMask (x : ChEntry) : Nat := x.done.foldl (fun m p => m ||| 2 ^ p.1) 0

/-- Codewords that still fail. -/
def failing (x : ChEntry) : List Nat := (List.range 8).filter fun j => !(x.done.any fun p => p.1 == j)

/-- The data of codeword `j`, when it has decoded. -/
def cwData (x : ChEntry) (j : Nat) : Option (List Byte) := (x.done.find? fun p => p.1 == j).map Prod.snd

/-- The sector information word assembled from the codewords that decoded (R69, R87). -/
def infoWord (x : ChEntry) : Nat :=
  x.done.foldl (fun w p => w + placed (bitsOf (tagOf p.2) 56 8) (8 * p.1) 8) 0

/-- SEQ read from the tags: of the lowest codeword that decoded, 0 when none did (R80, R87). -/
def seqRead (x : ChEntry) : Nat :=
  match (List.range 8).find? fun j => (cwData x j).isSome with
  | some j => bitsOf (tagOf ((cwData x j).getD [])) 0 48
  | none => 0

/-- PAR read from the tags (R87). -/
def parRead (x : ChEntry) : Nat :=
  match (List.range 8).find? fun j => (cwData x j).isSome with
  | some j => bitsOf (tagOf ((cwData x j).getD [])) 51 1
  | none => 0

/-- SEQ, BAND and SECT of the input record of a DECODE_MEM, which stand in for the tags of the blocks that it does not hold
(R88). -/
def standIn (x : ChEntry) : Option MemRec := x.mem.filter fun r => r.mask != 0xFF

/-- The sector information word of the tag checks: BAND and SECT are the record's where it stands in (R88). -/
def checkedInfo (x : ChEntry) : Nat :=
  match standIn x with
  | some r => (infoWord x / 2 ^ 37) * 2 ^ 37 + placed r.band 0 24 + placed r.sect 24 13
  | none => infoWord x

/-- The tag checks of R74, in order: the status of the first that fails. -/
def tagCheck (x : ChEntry) : Option Nat :=
  let tags := x.done.map fun p => (p.1, tagOf p.2)
  let info := checkedInfo x
  if (tags.any fun p => bitsOf p.2 48 3 != p.1 || bitsOf p.2 0 48 != seqRead x) || (standIn x).any fun r => r.seq != seqRead x then
    some 0x13
  else if bitsOf info 0 24 != x.e.band || bitsOf info 24 13 != x.e.sect then some 0x15
  else if x.e.expSeq != 0 && decide (seqRead x < x.e.expSeq) then some 0x14
  else none

/-- The completion of a read entry (R80). -/
def chCompletion (x : ChEntry) (status soft : Nat) (wrap : Bool) : List Byte :=
  wordsBytes
    [ placed x.e.tag 0 16 + placed status 16 8 + placed (x.tried - (x.tried &&& doneMask x)) 24 8 + placed x.passes 32 4 +
        placed soft 40 12 + placed (min 255 (x.iterOf.foldl (fun m p => max m p.2) 0)) 56 8,
      placed (seqRead x) 0 48 + placed (min 255 x.mse) 48 8 + placed (bit (!wrap)) 63 1 ]

/-- A block of soft values: 12 positions of 5 bits to a 64-bit word (R87). -/
def softBlock : Nat → List Nat → List Byte
  | 0, _ => []
  | n + 1, l => leBytes 8 (joinBits 5 (l.take 12)) ++ softBlock n (l.drop 12)

/-- The soft values of a block, −16 read as −15 (R65, R87). -/
def softValues (bs : List Byte) : List Nat :=
  (List.range 36960).map fun p =>
    let v := bitsOf (wordAt bs (p / 12)) (5 * (p % 12)) 5
    if v = 16 then 17 else v

/-- The soft values of codeword `j` as the engine delivers them (R59, R65): 0 for an erased channel bit, never −16. Payload
bit 8p + j carries position p of the codeword (R70). -/
def softOut (erased : List (Nat × Nat)) (j : Nat) (l : List Nat) : List Nat :=
  l.zipIdx.map fun q =>
    if erased.any fun r => decide (r.1 ≤ 8 * q.2 + j ∧ 8 * q.2 + j < r.1 + r.2) then 0
    else if q.1 % 32 = 16 then 17 else q.1 % 32

/-- Where the head of a soft record's place comes from: the input record of a DECODE_MEM, else the entry and its latched zone
set (R87): ZSET, LLR_SCALE, BAND and SECT. That an output record of DECODE_MEM repeats ZSET and LLR_SCALE of its input is a
DESIGN CHOICE (log 174). -/
def softPlace (x : ChEntry) : Nat × Nat × Nat × Nat :=
  match x.mem with
  | some r => (r.zset, r.llr, r.band, r.sect)
  | none => (x.e.zset, x.zone.llr, x.e.band, x.e.sect)

/-- The 64-byte header of a soft record (R87). -/
def softHeader (x : ChEntry) (status mask : Nat) : List Byte :=
  let (zset, scale, band, sect) := softPlace x
  wordsBytes
    [ placed x.e.tag 0 16 + placed status 16 8 + placed mask 24 8 + placed zset 32 6,
      placed band 0 24 + placed sect 24 13,
      placed (seqRead x) 0 48,
      placed scale 0 8 + placed 1 8 8,
      infoWord x,
      placed (doneMask x) 0 8 + placed (if x.done.isEmpty then 0 else parRead x) 8 1,
      0, 0 ]

/-! ## Entries -/

/-- An entry replaced, by its ring index. -/
def State.putCh (s : State) (a : Fin 96) (x : ChEntry) : State :=
  let c := s.chan a.val
  s.setChan a.val { c with ents := c.ents.map fun y => if y.idx == x.idx then x else y }

/-- Entries that have started. -/
def startedEnts (c : Chan) : List ChEntry := c.ents.filter fun x => x.phase != .fetched

/-- The events and counters of a completion status (R92, R95). -/
def State.chStatusEvents (s : State) (a : Fin 96) (status : Nat) : State :=
  let u := UnitId.act a
  let s := s.raise u F.CH_EVT_CQ
  if status = 0x00 then s.count u F.CH_CNT_GOOD
  else if status = 0x01 then s.count u F.CH_CNT_RECOV
  else if status = 0x10 ∨ status = 0x11 then (s.count u F.CH_CNT_UNCORR).raise u F.CH_EVT_UNCORR
  else if status = 0x30 then s.raise u F.CH_EVT_BAD_ENTRY
  else if status = 0x13 ∨ status = 0x14 ∨ status = 0x15 then s.raise u F.CH_EVT_TAGCHK
  else s

/-- A completion posted: the entry leaves, its place on the medium and its deep jobs that wait are given up (R82). -/
def State.chPost (s : State) (a : Fin 96) (x : ChEntry) (status soft : Nat) : State :=
  let u := UnitId.act a
  let n := s.get u F.CH_CQ_CFG_LOG2N
  let t := s.get u F.CH_CQ_TAIL
  let c := s.chan a.val
  let s := s.masterWrite (dieOf a).val u (ringAt (s.get u F.CH_CQ_CFG_BASE) n 16 t) (chCompletion x status soft c.wrap)
  let s := s.put u F.CH_CQ_TAIL ((t + 1) % 2 ^ n)
  let s := s.setChan a.val { c with
    ents := c.ents.filter fun y => y.idx != x.idx,
    medium := if c.medium == some x.idx then none else c.medium,
    zcopy := if c.medium == some x.idx then none else c.zcopy,
    wrap := if (t + 1) % 2 ^ n = 0 then !c.wrap else c.wrap }
  let d := s.die (dieOf a).val
  let s := s.setDie (dieOf a).val { d with deepQ := d.deepQ.filter fun j => !(j.act == a.val && j.idx == x.idx) }
  s.chStatusEvents a status

/-- A soft record written to the slot at the soft ring's TAIL, when the ring has room (R86): the slot used. -/
def State.softWrite (s : State) (a : Fin 96) (x : ChEntry) (status : Nat) (want : List Nat) : State × Option Nat :=
  let u := UnitId.act a
  let n := s.get u F.CH_SOFT_CFG_LOG2N
  let t := s.get u F.CH_SOFT_TAIL
  if ringFree n (s.get u F.CH_SOFT_HEAD) t = 0 then (s.raise u F.CH_EVT_SOFT_DROP, none)
  else
    let have_ := x.soft.filter fun p => want.contains p.1
    let mask := have_.foldl (fun m p => m ||| 2 ^ p.1) 0
    let (k, s) := s.draw
    let block := fun j => match have_.find? fun p => p.1 == j with
      | some p => softBlock 3080 p.2
      | none => (List.range 24640).map (Config.softIdle k j)
    let rec_ := softHeader x status mask ++ (List.range 8).flatMap block
    let s := s.masterWrite (dieOf a).val u (ringAt (s.get u F.CH_SOFT_CFG_BASE) n 200704 t) rec_
    (s.put u F.CH_SOFT_TAIL ((t + 1) % 2 ^ n), some t)

/-- The entry ends with this status and a soft record of these codewords; with the soft ring full, with the other status
and none (R86). -/
def State.chPostSoft (s : State) (a : Fin 96) (x : ChEntry) (status full : Nat) (want : List Nat) : State :=
  match s.softWrite a x status want with
  | (s, some t) => s.chPost a x status t
  | (s, none) => s.chPost a x full 0xFFF

/-- The entry ends UNCORR with a soft record of the codewords that failed in the last pass, or UNCORR_NOSOFT when the soft
ring is full; READ_SOFT keeps status UNCORR (R84, R86). -/
def State.chUncorr (s : State) (a : Fin 96) (x : ChEntry) : State :=
  s.chPostSoft a x 0x10 (if x.e.op = 1 then 0x10 else 0x11) (if x.e.op = 1 then List.range 8 else failing x)

/-- A decoded entry's status: RECOVERED after a deep decode or a re-read of a READ or SCAN, else GOOD (R81). -/
def goodStatus (x : ChEntry) : Nat := if x.recovered && x.e.op != 1 then 0x01 else 0x00

/-- The 32 KiB of user data of the eight codewords (R68). -/
def userData (x : ChEntry) : List Byte := (List.range 8).flatMap fun j => ((cwData x j).getD []).take 4096

/-- Data, the soft record of a READ_SOFT, then the completion (R82). -/
def State.chDeliver (s : State) (a : Fin 96) (x : ChEntry) (d : List Byte) : State :=
  let s := s.masterWrite (dieOf a).val (.act a) (if x.e.op = 2 then x.e.daddr else x.e.addr) d
  if x.e.op = 1 then s.chPostSoft a x (goodStatus x) (goodStatus x) (List.range 8) else s.chPost a x (goodStatus x) 0xFFF

/-- An entry that R185 refuses. -/
def State.chKeyRefused (s : State) (a : Fin 96) (x : ChEntry) : State := (s.keyRefused (dieOf a)).chPost a x 0x23 0xFFF

/-- Decryption starts: the slot must be ACTIVE (R185). -/
def State.chDecrypt (s : State) (a : Fin 96) (x : ChEntry) : State :=
  if !s.keyOk x.e.kslot then s.chKeyRefused a x
  else s.chDeliver a x (s.cipher false x.e.kslot a.val x.e.band x.e.sect (userData x))

/-- An entry whose tags fail R74 ends with that status. A READ_SOFT with RAWDATA has its soft record all the same: recovery
reads the tags from it (R78, R170; DEDUCED, log 175). -/
def State.chTagFails (s : State) (a : Fin 96) (x : ChEntry) (st : Nat) : State :=
  if x.e.op = 1 && x.e.raw then s.chPostSoft a x st st (List.range 8) else s.chPost a x st 0xFFF

/-- All 8 codewords have decoded: tag checks, key checks, then data; a decryption waits for its key where the die's cache
misses (R74, R82, R185). -/
def State.chFinish (s : State) (a : Fin 96) (x : ChEntry) : State :=
  match tagCheck x with
  | some st => s.chTagFails a x st
  | none =>
    if x.e.op = 3 then s.chPost a x (goodStatus x) 0xFFF
    else if x.e.raw then s.chDeliver a x (userData x)
    else if bitsOf (infoWord x) 37 12 != x.e.kslot then s.chKeyRefused a x
    else if s.keyOk x.e.kslot && !(s.die (dieOf a).val).keyCache.contains x.e.kslot then
      (s.keyTouch (dieOf a) x.e.kslot).putCh a { x with phase := .decrypt }
    else s.chDecrypt a x

/-- The ladder is exhausted (R81, R84): where more than one status holds, WRONG_HEAD is given before OFFTRACK, and OFFTRACK before
NOSYNC (DESIGN CHOICE, log 221). -/
def State.chExhausted (s : State) (a : Fin 96) (x : ChEntry) : State :=
  if !x.headSeen then s.chPost a x 0x16 0xFFF
  else if x.offAll then s.chPost a x 0x21 0xFFF
  else if !x.syncSeen then s.chPost a x 0x12 0xFFF
  else s.chUncorr a x

/-- A further re-read while the ladder allows one, else the end of the ladder (R84); READ_SOFT runs one pass only. -/
def State.chNextRung (s : State) (a : Fin 96) (x : ChEntry) : State :=
  if x.e.op != 1 && decide (x.rereads < s.get (.act a) F.CH_CTRL_LADDER) then
    (s.count (.act a) F.CH_CNT_REREAD).putCh a
      { x with phase := .window, rereads := x.rereads + 1, reread := true, deepLeft := [] }
  else s.chExhausted a x

/-- Idle deep decoders take waiting codewords, at most `n` of them (R73). -/
def State.deepPump (s : State) (m : Nat) : Nat → State
  | 0 => s
  | n + 1 =>
    let d := s.die m
    match d.deepQ, d.deepRun.findIdx? Option.isNone with
    | j :: js, some k => (s.setDie m { d with deepQ := js, deepRun := d.deepRun.set k (some j) }).deepPump m n
    | _, _ => s

/-- The deep queue and the idle decoders of a die take `n` more codewords (R73). -/
def deepRoom (d : Die) (n : Nat) : Bool :=
  decide (d.deepQ.length + n ≤ 64 + (d.deepRun.filter Option.isNone).length)

/-- Codewords of an entry enter the deep queue (R73). -/
def State.deepSubmit (s : State) (a : Fin 96) (x : ChEntry) (want : List Nat) : State :=
  let m := dieOf a
  let d := s.die m.val
  let jobs := want.map fun j => DeepJob.mk a.val x.idx j
  let s := (s.setDie m.val { d with deepQ := d.deepQ ++ jobs }).putCh a { x with phase := .deep, deepLeft := want }
  (s.count (.act a) F.CH_CNT_DEEP want.length).deepPump m.val 4

/-- The deep step of a pass (R73, R84): all failed codewords enter the queue, or none and SKIP counts the pass. -/
def State.chDeep (s : State) (a : Fin 96) (x : ChEntry) : State :=
  if deepRoom (s.die (dieOf a).val) (failing x).length then s.deepSubmit a x (failing x)
  else (s.count (.med (dieOf a)) F.CHD_DEEP_SKIP).chNextRung a x

/-- Iterations added to a codeword's total. -/
def addIters (l : List (Nat × Nat)) (j n : Nat) : List (Nat × Nat) :=
  let old := ((l.find? fun p => p.1 == j).map Prod.snd).getD 0
  (j, old + n) :: l.filter fun p => p.1 != j

/-- The line-rate result of one codeword joined to its entry (R72, R85). -/
def takeCw (x : ChEntry) (erased : List (Nat × Nat)) (j : Nat) (r : CwRead) : ChEntry :=
  let x := { x with iterOf := addIters x.iterOf j (localIters x.dec r.synZero r.iters),
                    soft := x.soft ++ [(j, softOut erased j r.soft)] }
  if cwDecodes (localSyn x.dec r.synZero r.iters) r.data then { x with done := x.done ++ [(j, r.data)] } else x

/-- Tap or target `i` of a latched set as the sector's adaptation leaves it (R62): least mean squares from the latched value, with the
step size MU_FFE or MU_TGT. -/
def adaptedTap (k : Nat) (z : ZoneSet) (i : Nat) : Nat :=
  if i = 48 then Config.adapted k i z.target z.mu.2 else Config.adapted k i (z.taps.getD i 0) z.mu.1

/-- Write-back of the adapted taps and target, as the latched set had them used, unless firmware wrote the zone set since the
latch (R60–R62). It follows a read pass; a verify writes nothing back (DESIGN CHOICE, log 218). -/
def State.writeBack (s : State) (a : Fin 96) (x : ChEntry) : State :=
  let u := UnitId.act a
  if !s.on u F.CH_CTRL_WBACK || !s.on u F.CH_CTRL_ADAPT then s
  else if (s.chan a.val).zdirty then s.count u F.CH_CNT_WBLOST
  else
    let z := x.e.zset
    let (k, s) := s.draw
    let w := fun (f : Fld) (o : Nat) (s : State) =>
      (List.range 16).foldl (fun s t => s.put u f (adaptedTap k x.zone (o + t)) z t) s
    let s := w F.ZSET_FFE1 16 s
    let s := if x.zone.joint && x.zone.readers == 3 then w F.ZSET_FFE2 32 (w F.ZSET_FFE0 0 s) else s
    if x.zone.tgtAdapt then s.put u F.ZSET_TARGET (adaptedTap k x.zone 48) z else s

/-- The search finds the sync mark (R59, R67, R78, R110): within WINDOW, or CH_SYNC.WIN where it is 0, of 64 channel bits
each, with at most TOL bit errors, from samples of the entry's head; none come while the gate stays open in ACQUIRE. -/
def State.syncFound (s : State) (a : Fin 96) (x : ChEntry) (obs : PassObs) : Bool :=
  (s.chan a.val).headSeen && s.get (.act a) F.SV_STAT_STATE != 3 &&
  match obs.syncAt with
  | some (p, n) => decide (p ≤ 64 * (if x.e.window = 0 then x.dec.win else x.e.window) ∧ n ≤ x.dec.tol)
  | none => false

/-- Channel bits of one wedge with its gate, and the place of a time in it: the wedge interval and the bit in it. -/
def passPlace (rate t : Nat) : Nat × Nat :=
  let whole := 154320 * rate / 10000
  (t / max 1 whole, t % max 1 whole)

/-- The payload bit that lies `t` channel bits after the start of a sync search whose mark ended at bit `p` (R59, R66, R67, R139): the
bits between two gates but for the guards and, after a gate, the resync field; a time in a gate or a guard has the next bit's
place. -/
def payloadAt (gateLen rate guard p t : Nat) : Nat :=
  let whole := intervalBits gateLen rate / 10000
  let (i0, b0) := passPlace rate p
  let (i, b) := passPlace rate t
  let first := whole - b0 - guard
  let later := whole - 2 * guard - 96
  if i < i0 ∨ (i = i0 ∧ b < b0) then 0
  else if i = i0 then min (b - b0) first
  else first + (i - i0 - 1) * later + min (b - guard - 96) later

/-- The runs of payload bits that a pass reads without samples (R59, R67): those of the uplink frames that were bad or brought
another head's samples, each 40 ns of the pass, and, where a resync mark was not found within TOL, the bits up to the next gate
(DESIGN CHOICE, log 219). -/
def unread (gateLen guard : Nat) (c : Chan) (x : ChEntry) (obs : PassObs) : List (Nat × Nat) :=
  let rate := x.zone.rate
  let p := (obs.syncAt.map Prod.fst).getD 0
  let at_ := payloadAt gateLen rate guard p
  let run := fun (b e : Nat) => (at_ b, at_ e - at_ b)
  let wedge := 154320 * rate / 10000
  let gate := fun (k : Nat) => ((passPlace rate p).1 + k + 1) * wedge
  ((c.lostAt ++ c.missAt).map fun k => run (k * rate / 25) ((k + 1) * rate / 25)) ++
  ((obs.resync.zipIdx.filter fun q => decide (x.dec.tol < q.1)).map fun q => run (gate q.2) (gate (q.2 + 1) - 1))

/-- The channel bits that bad frames erased are counted as a pass ends, in whatever way (R59, R95): RATE / 25 for each 40 ns. -/
def State.countErased (s : State) (a : Fin 96) : State :=
  let c := s.chan a.val
  match c.ents.find? fun x => c.medium == some x.idx && x.phase == .pass with
  | some x => s.count (.act a) F.CH_CNT_ERASED (c.lostAt.length * x.zone.rate / 25)
  | none => s

/-- The codewords that a pass decodes (R78, R85): all of a READ_SOFT, else those that still fail. -/
def wanted (x : ChEntry) : List Nat := if x.e.op = 1 then List.range 8 else failing x

/-- A pass counted in its entry (R79, R80, R85). The MSE of a pass without a sync mark is the one before it (DESIGN CHOICE,
log 176). -/
def passCounted (x : ChEntry) (sync off head : Bool) (mse : Nat) : ChEntry :=
  { x with passes := x.passes + 1, phase := .window, reread := false, soft := [],
           tried := (wanted x).foldl (fun m j => m ||| 2 ^ j) x.tried, mse := if sync then mse else x.mse,
           headSeen := x.headSeen || head, syncSeen := x.syncSeen || sync, offAll := x.offAll && off,
           recovered := x.recovered || decide (0 < x.passes) }

/-- A pass ends (R79, R84, R85): what it found is joined to the entry, the medium is free, and the ladder goes on. A bad
uplink frame has erased 40 ns of channel bits (R59). -/
def State.chPassEnd (s : State) (a : Fin 96) (x : ChEntry) (obs : PassObs) : State :=
  let u := UnitId.act a
  let c := s.chan a.val
  let s := s.countErased a
  let sync := s.syncFound a x obs
  let want := wanted x
  let x := passCounted x sync c.off c.headSeen obs.mse
  let s := if sync then s else s.count u F.CH_CNT_NOSYNC
  let s := s.setChan a.val { c with medium := none, zcopy := none }
  if !sync || c.off then (s.putCh a x).chNextRung a x
  else
    let rs := want.map fun j => (j, obs.cws.getD j ⟨false, 0, [], []⟩)
    let erased := unread (s.get u F.SV_FIELD_GATE_LEN) (s.sluice a.val).guard c x obs ++
      (if c.lostAt.isEmpty then [] else obs.erased)
    let x := rs.foldl (fun x p => takeCw x erased p.1 p.2) x
    let syn := fun (r : CwRead) => localSyn x.dec r.synZero r.iters
    let s := s.count u F.CH_CNT_MISCORR (rs.filter fun p => syn p.2 && !cwCrcOk p.2.data).length
    let s := if want.length == 8 && rs.all fun p => cwDecodes (syn p.2) p.2.data then s.writeBack a x else s
    let s := s.putCh a x
    if (failing x).isEmpty then s.chFinish a x
    else if x.e.op = 1 then s.chUncorr a x
    else if s.on u F.CH_CTRL_DEEP then s.chDeep a x
    else s.chNextRung a x

/-- A pass is abandoned because the sluice takes the medium (R79). -/
def State.chAbandon (s : State) (a : Fin 96) : State :=
  let c := s.chan a.val
  match c.medium with
  | none => s
  | some k =>
    let s := (s.countErased a).setChan a.val { c with medium := none, zcopy := none, ents := c.ents.map fun x =>
      if x.idx == k then { x with phase := .window } else x }
    s.count (.act a) F.CH_CNT_RWAIT

/-- A lane declared down: every active read entry completes ABSENT with no soft values (R52). -/
def State.chLaneDown (s : State) (a : Fin 96) : State :=
  (startedEnts (s.chan a.val)).foldl (fun s x => s.chPost a x 0x20 0xFFF) (s.countErased a)

/-! ## Commands -/

/-- The rings' exponents lie in range (R89). -/
def State.chRingsOk (s : State) (a : Fin 96) : Bool :=
  let r := fun f lo hi => decide (lo ≤ s.get (.act a) f ∧ s.get (.act a) f ≤ hi)
  r F.CH_RQ_CFG_LOG2N 4 12 && r F.CH_CQ_CFG_LOG2N 4 12 && r F.CH_SOFT_CFG_LOG2N 1 11

/-- CH_ENABLE: entry processing starts, or CFG_ERR is set and the engine stays idle (R90); denied by the sweep (R218). -/
def execChEnable (a : Fin 96) (s : State) : Res :=
  let s := s.clean
  let u := UnitId.act a
  if s.swept a then .next (s.denied u)
  else
    let s := s.put u F.CH_CTRL_EN 1
    if s.chRingsOk a then .next (s.setChan a.val { s.chan a.val with fetchRun := true })
    else .next (s.raise u F.CH_EVT_CFG_ERR)

/-- Fetching stops and fetched entries that have not started complete CANCELLED (R90). -/
def State.chStop (s : State) (a : Fin 96) : State :=
  let s := (s.put (.act a) F.CH_CTRL_EN 0).setChan a.val { s.chan a.val with fetchRun := false }
  ((s.chan a.val).ents.filter fun x => x.phase == .fetched).foldl (fun s x => s.chPost a x 0x22 0xFFF) s

/-- CH_DISABLE (R90); denied by the sweep (R218). -/
def execChDisable (a : Fin 96) (s : State) : Res :=
  let s := s.clean
  if s.swept a then .next (s.denied (.act a)) else .next (s.chStop a)

/-- The completion ring has a free place for one more entry and for every other that is held (R79). -/
def State.chRoom (s : State) (a : Fin 96) (held : Nat) : Bool :=
  decide (held + 1 ≤ ringFree (s.get (.act a) F.CH_CQ_CFG_LOG2N) (s.get (.act a) F.CH_CQ_HEAD) (s.get (.act a) F.CH_CQ_TAIL))

/-- READ_ENTRY_FETCH: the next entry in ring order, when fewer than 4 are held, started or not (DESIGN CHOICE, log 177), and
the completion ring has room (R79). An entry under a pending cancel is marked (R83); one with a reserved OP, or that cannot
be read, completes BAD_ENTRY. -/
def execReadEntryFetch (a : Fin 96) (s : State) : Res :=
  let s := s.clean
  let u := UnitId.act a
  let held := (s.chan a.val).ents.length
  if !(s.on u F.CH_CTRL_EN && (s.chan a.val).fetchRun && s.get u F.CH_RQ_HEAD != s.get u F.CH_RQ_TAIL && decide (held < 4) &&
      s.chRoom a held) then .next s
  else
    let n := s.get u F.CH_RQ_CFG_LOG2N
    let h := s.get u F.CH_RQ_HEAD
    let (s, ans) := s.masterRead (dieOf a).val u (ringAt (s.get u F.CH_RQ_CFG_BASE) n 32 h) 32
    let e := readEntryOf (ans.data?.getD [])
    let h' := (h + 1) % 2 ^ n
    let c := s.chan a.val
    let x : ChEntry := { idx := h, e := e, cancelled := c.cancels.any fun p => p.1 == e.tag }
    let s := (s.put u F.CH_RQ_HEAD h').setChan a.val
      { c with ents := c.ents ++ [x], cancels := c.cancels.filter fun p => p.2 != h' }
    if ans.data?.isNone then .next (s.chPost a x 0x30 0xFFF)
    else if x.cancelled then .next (s.chPost a x 0x22 0xFFF)
    else if 4 ≤ e.op then .next (s.chPost a x 0x30 0xFFF)
    else .next s

/-- A bad entry under R81 and R63. -/
def State.readBad (s : State) (a : Fin 96) (e : ReadEntry) : Bool :=
  let u := UnitId.act a
  let rate := s.get u F.ZSET_RATE e.zset
  e.reserved || decide (s.get u F.YL_BRIDGE_HEADS < e.head) ||
  (if e.op = 2 then e.addr % 64 != 0 || e.daddr % 4096 != 0
   else (e.op != 3 && e.addr % 4096 != 0) || decide (539 < e.wedge) || decide (rate < 1000 ∨ 3000 < rate))

/-- The entry that is next to start: the first in ring order that has not started, when it has this OP and the engine
is not paused (R79, R90). -/
def State.nextRead? (s : State) (a : Fin 96) (op : Nat) : Option ChEntry :=
  let c := s.chan a.val
  match c.ents.find? fun x => x.phase == .fetched with
  | some x =>
    if x.e.op == op && !s.on (.act a) F.CH_CTRL_PAUSE && s.on (.act a) F.CH_CTRL_EN &&
        s.chRoom a (startedEnts c).length then some x else none
  | none => none

/-- A medium entry starts, or completes at once as CANCELLED, BAD_ENTRY, ABSENT or KEY_REFUSED (R79, R81, R83, R185), judged in this
order (DESIGN CHOICE, log 220). -/
def State.readStart (s : State) (a : Fin 96) (op : Nat) : State :=
  match s.nextRead? a op with
  | none => s
  | some x =>
    if x.cancelled then s.chPost a x 0x22 0xFFF
    else if s.readBad a x.e then s.chPost a x 0x30 0xFFF
    else if !s.upT7 a then s.chPost a x 0x20 0xFFF
    else if op != 3 && !x.e.raw && !s.keyOk x.e.kslot then (s.keyRefused (dieOf a)).chPost a x 0x23 0xFFF
    else s.putCh a { x with phase := .window }

/-- READ starts (R78, R79, R185). -/
def execRead (a : Fin 96) (s : State) : Res := .next (s.clean.readStart a 0)

/-- READ_SOFT starts (R78). -/
def execReadSoft (a : Fin 96) (s : State) : Res := .next (s.clean.readStart a 1)

/-- SCAN starts (R78): it needs no key. -/
def execScan (a : Fin 96) (s : State) : Res := .next (s.clean.readStart a 3)

/-- What DECODE_MEM takes from its input record (R87, R88). -/
def memRecOf (bs : List Byte) : MemRec :=
  { mask := bitsOf (wordAt bs 0) 24 8, zset := bitsOf (wordAt bs 0) 32 6, llr := bitsOf (wordAt bs 3) 0 8,
    seq := bitsOf (wordAt bs 2) 0 48, band := bitsOf (wordAt bs 1) 0 24, sect := bitsOf (wordAt bs 1) 24 13 }

/-- The blocks that a record holds. -/
def memBlocks (mask : Nat) : List Nat := (List.range 8).filter fun j => mask / 2 ^ j % 2 == 1

/-- DECODE_MEM (R73, R79, R88): the blocks of the record at ADDR go to the deep decoders; while their queue cannot take them
all, the entry waits (DEDUCED, log 178). A record without blocks completes UNCORR, a poisoned one SRC_POISON. -/
def execDecodeMem (a : Fin 96) (s : State) : Res :=
  let s := s.clean
  match s.nextRead? a 2 with
  | none => .next s
  | some x =>
    if x.cancelled then .next (s.chPost a x 0x22 0xFFF)
    else if s.readBad a x.e then .next (s.chPost a x 0x30 0xFFF)
    else if !s.upT7 a then .next (s.chPost a x 0x20 0xFFF)
    else
      let (t, ans) := s.masterRead (dieOf a).val (.act a) x.e.addr 197184
      match ans.data? with
      | none => .next (t.chPost a x 0x24 0xFFF)
      | some bs =>
        let r := memRecOf bs
        let want := memBlocks r.mask
        let soft := want.map fun j => (j, softValues ((bs.drop (64 + 24640 * j)).take 24640))
        let x := { x with dec := s.decSet a, mem := some r, tried := r.mask, soft := soft }
        if !deepRoom (t.die (dieOf a).val) want.length then .next s
        else if want.isEmpty then .next (t.chUncorr a x)
        else .next (t.deepSubmit a x want)

/-- A pass begins (R59, R61, R79, R94): the medium and the zone set are the entry's from here. CH_DEC and CH_SYNC are latched as its first
pass begins and stay for its re-reads (DESIGN CHOICE, log 222). -/
def State.passBegin (s : State) (a : Fin 96) (x : ChEntry) : State :=
  let u := UnitId.act a
  let c := s.chan a.val
  (s.setChan a.val { c with
      medium := some x.idx, zcopy := some x.e.zset, zdirty := false, off := !s.on u F.SV_STAT_ONTRACK,
      headSeen := s.get u F.YL_STAT_HEAD == x.e.head, frames := 0, lostAt := [], missAt := [] }).putCh a
    { x with phase := .pass, zone := s.zoneSet a x.e.zset, dec := if x.passes = 0 then s.decSet a else x.dec }

/-- READ_PASS_START: after the gate of its WEDGE, which SV_STAT.WEDGE reports, with the medium free, an entry latches its zone set and
starts its sync search; while the sluice holds the medium it waits a revolution (R61, R63, R78, R79). A first pass waits while an active entry
waits for a re-read. -/
def execReadPassStart (a : Fin 96) (idx : Nat) (s : State) : Res :=
  let s := s.clean
  let c := s.chan a.val
  match c.ents.find? fun x => x.idx == idx && x.phase == .window with
  | none => .next s
  | some x =>
    let rate := (s.zoneSet a x.e.zset).rate
    if s.get (.act a) F.SV_STAT_WEDGE != x.e.wedge then .next s
    else if s.slHolds a then .next (s.count (.act a) F.CH_CNT_RWAIT)
    else if c.medium.isSome then .next s
    else if !x.reread && c.ents.any fun y => y.reread && y.phase == .window then .next s
    else if rate < 1000 ∨ 3000 < rate then .next (s.chPost a x 0x30 0xFFF)
    else .next (s.passBegin a x)

/-- The entry whose pass is under way. -/
def State.passEntry? (s : State) (a : Fin 96) : Option ChEntry :=
  (s.chan a.val).ents.find? fun x => (s.chan a.val).medium == some x.idx && x.phase == .pass

/-- SYNC_WINDOW_EXPIRY: a pass without sync (R84, R85). -/
def execSyncWindowExpiry (a : Fin 96) (s : State) : Res :=
  let s := s.clean
  match s.passEntry? a with
  | none => .next s
  | some x => .next (s.chPassEnd a x ⟨none, 0, [], [], []⟩)

/-- READ_PASS_END (R82, R84, R85). -/
def execReadPassEnd (a : Fin 96) (obs : PassObs) (s : State) : Res :=
  let s := s.clean
  match s.passEntry? a with
  | none => .next s
  | some x => .next (s.chPassEnd a x obs)

/-- A deep decode's outcome within the limits latched (R72, R73, R88): a zero syndrome or not, decoded or not, and the
iterations used. A DECODE_MEM has a single pass. -/
def deepOutcome (x : ChEntry) (o : DeepObs) : Bool × Bool × Nat :=
  let g := if x.mem.isSome then 1 else x.dec.deepGlobal
  let p := max 1 o.passes
  let syn := o.synZero && decide (p ≤ g ∧ o.iters ≤ p * x.dec.deepLocal)
  let ok := cwDecodes syn o.data
  let all_ := (if ok then p else g) * x.dec.deepLocal
  (syn, ok, if x.dec.estop && syn then min o.iters all_ else all_)

/-- A deep decode's result joined to its entry (R73, R85). DECODE_MEM reports GOOD, not RECOVERED (DEDUCED, log 42). -/
def takeDeep (x : ChEntry) (cw : Nat) (o : DeepObs) : ChEntry :=
  let (_, ok, n) := deepOutcome x o
  let x := { x with deepLeft := x.deepLeft.filter fun k => k != cw, iterOf := addIters x.iterOf cw n }
  if ok then { x with done := x.done ++ [(cw, o.data)], recovered := x.mem.isNone || x.recovered } else x

/-- The last codeword of an entry is back from the deep decoders: it is whole, or goes on with its ladder; a DECODE_MEM has
none (R84, R88). -/
def State.chDeepOver (s : State) (a : Fin 96) (x : ChEntry) : State :=
  if (failing x).isEmpty then s.chFinish a x else if x.mem.isSome then s.chUncorr a x else s.chNextRung a x

/-- DEEP_DECODE_DONE: a deep decoder finishes a codeword and takes the next; the entry goes on once its last codeword
is back (R73, R84). -/
def execDeepDecodeDone (m d : Fin 4) (obs : DeepObs) (s : State) : Res :=
  let s := s.clean
  let die := s.die m.val
  match (die.deepRun.getD d.val none) with
  | none => .next s
  | some j =>
    let s := (s.setDie m.val { die with deepRun := die.deepRun.set d.val none }).deepPump m.val 1
    let a := actOf j.act
    match (s.chan a.val).ents.find? fun x => x.idx == j.idx && x.phase == .deep && x.deepLeft.contains j.cw with
    | none => .next s
    | some x =>
      let s := s.count (.act a) F.CH_CNT_MISCORR (if (deepOutcome x obs).1 && !cwCrcOk obs.data then 1 else 0)
      let x := takeDeep x j.cw obs
      let s := s.putCh a x
      .next (if x.deepLeft.isEmpty then s.chDeepOver a x else s)

/-- The entries of an actuator that wait for a key of the die's cache (R185). -/
def awaiting (c : Chan) (slot : Nat) : List ChEntry := c.ents.filter fun x => x.phase == .decrypt && x.e.kslot == slot

/-- The key of a slot comes to a die's cache; of 128 cached keys one that the spec does not name gives way (R185). -/
def State.keyFill (s : State) (m : Fin 4) (slot : Nat) : State :=
  if !s.keyOk slot || (s.die m.val).keyCache.contains slot then s
  else
    let d := s.die m.val
    let (k, s) := s.draw
    let kept := if d.keyCache.length < 128 then d.keyCache else d.keyCache.eraseIdx (Config.keyVictim m.val k % 128)
    s.setDie m.val { d with keyCache := slot :: kept }

/-- KEY_CACHE_FILL: a miss is filled from the key engine when the slot may be used, and the decryptions that wait for it start;
each is checked as it starts (R185). -/
def execKeyCacheFill (m : Fin 4) (slot : Fin 4096) (s : State) : Res :=
  let s := s.clean.keyFill m slot.val
  .next ((dieActs m.val).foldl (fun s a => (awaiting (s.chan a.val) slot.val).foldl (fun s x => s.chDecrypt a x) s) s)

/-- CH_CANCEL: entries with the TAG before TAIL complete CANCELLED when the engine reaches them; a fifth pending cancel is
denied (R83). -/
def execChCancel (a : Fin 96) (tag : Fin 65536) (s : State) : Res :=
  let s := s.clean
  let u := UnitId.act a
  let c := s.chan a.val
  if 4 ≤ c.cancels.length then .next (s.denied u)
  else
    let t := s.get u F.CH_RQ_TAIL
    let keep := if t = s.get u F.CH_RQ_HEAD then c.cancels else c.cancels ++ [(tag.val, t)]
    .next (s.setChan a.val { c with cancels := keep, ents := c.ents.map fun x =>
      if x.phase == .fetched && x.e.tag == tag.val then { x with cancelled := true } else x })

end Sys2Proof.Machine
end

