-- ==== Sys2Proof/Machine/Servo.lean ====
section
/-! DEFINITION. The servo engine and the spindle scheduler: the loop at each wedge, motion and spindle commands, lost
wedges, shocks and stops (R98–R129). -/

namespace Sys2Proof.Machine

open Sys2Proof

/-! ## Completion and messages -/

/-- SV_STAT.STATE (R107). -/
def State.svState (s : State) (a : Fin 96) : Nat := s.get (.act a) F.SV_STAT_STATE

/-- SV_STAT.STATE set. -/
def State.setSv (s : State) (a : Fin 96) (st : Nat) : State := s.put (.act a) F.SV_STAT_STATE st

/-- A command completes: its code and OP in SV_RESULT, and DONE (R108, R125). -/
def State.svDone (s : State) (a : Fin 96) (op result : Nat) : State :=
  ((s.put (.act a) F.SV_RESULT_RESULT result).put (.act a) F.SV_RESULT_OP op).raise (.act a) F.SV_EVT_DONE

/-- The OP of a motion command (R108). -/
def motionOp : Motion → Nat
  | .seek => 1 | .offset => 2 | .load => 3 | .unload => 4 | .halt => 7

/-- The OP of a spindle command (R108). -/
def spinCode : SpinOp → Nat
  | .up => 5 | .down => 6

/-- The running motion command, if any, completes. -/
def State.endMotion (s : State) (a : Fin 96) (result : Nat) : State :=
  match (s.servo a.val).motion with
  | none => s
  | some m => (s.setServo a.val { s.servo a.val with motion := none, held := none, heldFor := [] }).svDone a (motionOp m) result

/-- The running spindle command, if it is `op`, completes. -/
def State.endSpin (s : State) (a : Fin 96) (op : SpinOp) (result : Nat) : State :=
  if (s.servo a.val).spin = some op then
    (s.setServo a.val { s.servo a.val with spin := none }).svDone a (spinCode op) result
  else s

/-- The SPIN_CMD payload (R99). -/
def spinCmd (action : Nat) (gate : Bool) (ilim gateLen : Nat) (trim : Int) : Nat :=
  placed action 0 2 + placed (bit gate) 2 1 + placed ilim 8 8 + placed gateLen 32 16 + placed (unsignedOf trim 16) 48 16

/-- RETRACT sent to the bridge. -/
def State.sendRetract (s : State) (a : Fin 96) : State := s.sbSend a 0x12 0 .servo

/-- The servo reports off-track: a read pass under way and the read-back of a revolution verify fail by it (R79, R146). -/
def State.offTrack (s : State) (a : Fin 96) : State :=
  let l := s.sluice a.val
  (s.setChan a.val { s.chan a.val with off := true }).setSluice a.val
    { l with ents := l.ents.map fun e => if e.reading then { e with off := true } else e }

/-- Both signals of R101 fall: the state is no longer FOLLOW. -/
def State.noTrack (s : State) (a : Fin 96) : State := ((s.put (.act a) F.SV_STAT_ONTRACK 0).offTrack a).dropWriteOk a

/-- The heads return to the ramp: RETRACT, and UNLOADING until PARK_STAT (R108, R120). -/
def State.startUnload (s : State) (a : Fin 96) : State :=
  let s := s.setServo a.val { s.servo a.val with stopping := false }
  ((s.noTrack a).sendRetract a).setSv a 7

/-- A lost servo (R112): SERVO_LOST, RETRACT, any motion command 0x07, PARKED once PARK_STAT reports parked. -/
def State.servoLost (s : State) (a : Fin 96) : State :=
  let s := ((s.noTrack a).raise (.act a) F.SV_EVT_SERVO_LOST).endMotion a 0x07
  let s := s.setServo a.val { s.servo a.val with parkStop := true, stopping := false, lostRun := 0 }
  (s.sendRetract a).setSv a 7

/-! ## The spindle scheduler (R118, R119) -/

/-- An assembly's place on its die: 0 to 11. -/
def asmOf (a : Fin 96) : Nat := a.val % 24 / 2

/-- The even actuator of assembly `k` of die `m`. -/
def evenOf (m k : Nat) : Fin 96 := actOf (24 * m + 2 * k)

/-- The odd actuator of assembly `k` of die `m`. -/
def oddOf (m k : Nat) : Fin 96 := actOf (24 * m + 2 * k + 1)

/-- The lane on which the scheduler speaks to an assembly: the even one when it is in T7, else the odd one if that is
(R118). -/
def State.spinLane? (s : State) (m k : Nat) : Option (Fin 96) :=
  if s.upT7 (evenOf m k) then some (evenOf m k) else if s.upT7 (oddOf m k) then some (oddOf m k) else none

/-- A SPIN_CMD from the scheduler, if a lane is there to carry it. -/
def State.spinSend (s : State) (m k action ilim : Nat) : State :=
  match s.spinLane? m k with
  | some a => s.sbSend a 0x10 (spinCmd action false ilim 0 0) .spindle
  | none => s

/-- Both actuators' spindle commands of a kind complete. -/
def State.endSpinBoth (s : State) (m k : Nat) (op : SpinOp) (result : Nat) : State :=
  (s.endSpin (evenOf m k) op result).endSpin (oddOf m k) op result

/-- The assembly's request leaves the queue. -/
def State.dequeueSpin (s : State) (m k : Nat) : State :=
  s.setDie m { s.die m with spinQ := (s.die m).spinQ.filter fun x => x != k }

/-- The assembly's scheduler slot is free. -/
def State.freeSpin (s : State) (m k : Nat) : State :=
  s.setDie m { s.die m with spinRun := (s.die m).spinRun.filter fun x => x != k }

/-- A queued request is withdrawn unless the other actuator still holds a SPIN_UP (R114). -/
def State.withdrawSpin (s : State) (a : Fin 96) : State :=
  if (s.servo (twin a).val).spin = some .up then s else s.dequeueSpin (dieOf a).val (asmOf a)

/-- The last spindle report of the assembly, on either lane, says LOCK (R50, R118). -/
def State.asmLocked (s : State) (a : Fin 96) : Bool := (s.die (dieOf a).val).locked.contains (asmOf a)

/-- SPIN_UP (R108, R118). -/
def State.spinUp (s : State) (a : Fin 96) : State :=
  let m := (dieOf a).val
  let k := asmOf a
  if !s.upT7 a then s.svDone a 5 0x05
  else if !s.on (.act a) F.SV_CTRL_EN || (s.servo a.val).spin = some .up then s.svDone a 5 0x02
  else
    let s := s.endSpin a .down 0x09
    if s.asmLocked a then s.svDone a 5 0x00
    else
      let s := s.setServo a.val { s.servo a.val with spin := some .up }
      let d := s.die m
      if d.spinQ.contains k || d.spinRun.contains k then s else s.setDie m { d with spinQ := d.spinQ ++ [k] }

/-- The actuator is in states 2 to 7 (R119). -/
def State.headsOut (s : State) (a : Fin 96) : Bool := decide (2 ≤ s.svState a ∧ s.svState a ≤ 7)

/-- SPIN_DOWN, 0x02 before 0x04 (DESIGN CHOICE, log 184) (R108, R119). -/
def State.spinDown (s : State) (a : Fin 96) : State :=
  let m := (dieOf a).val
  let k := asmOf a
  if !s.upT7 a then s.svDone a 6 0x05
  else if (s.servo a.val).spin = some .down then s.svDone a 6 0x02
  else if s.headsOut a || s.headsOut (twin a) then s.svDone a 6 0x04
  else
    let s := ((s.endSpinBoth m k .up 0x09).dequeueSpin m k).freeSpin m k
    (s.setServo a.val { s.servo a.val with spin := some .down }).sbSend a 0x10 (spinCmd 2 false 0 0 0) .spindle

/-- SPIN_MAX in force: above 12 acts as 12 (R129). -/
def State.spinMax (s : State) (m : Fin 4) : Nat := min 12 (s.get (.med m) F.SVD_SPIN_SPIN_MAX)

/-- A grant of the oldest request while a slot is free (R118). -/
def State.spinGrant (s : State) (m : Fin 4) : State :=
  let d := s.die m.val
  match d.spinQ with
  | [] => s
  | k :: ks =>
    if s.spinMax m ≤ d.spinRun.length then s
    else
      let s := s.setDie m.val { d with spinQ := ks, spinRun := d.spinRun ++ [k] }
      (s.spinSend m.val k 1 (s.get (.med m) F.SVD_SPIN_ILIM)).endSpinBoth m.val k .down 0x09

/-- LOCK did not come within SPIN_TMO (R118). -/
def State.spinTimeout (s : State) (m : Fin 4) (k : Nat) : State :=
  if !(s.die m.val).spinRun.contains k then s
  else
    let s := ((s.spinSend m.val k 2 0).freeSpin m.val k)
    let s := (s.raise (.act (evenOf m.val k)) F.SV_EVT_SPIN_TMO).raise (.act (oddOf m.val k)) F.SV_EVT_SPIN_TMO
    s.endSpinBoth m.val k .up 0x08

/-- A spindle report (R116): SV_STAT follows it; LOCK ends a granted spin-up, and one that is still queued (DESIGN CHOICE, log 227);
STATE 0 ends a spin-down (R118, R119). -/
def State.spinStat (s : State) (a : Fin 96) (p : Nat) : State :=
  let m := (dieOf a).val
  let k := asmOf a
  let s := (s.put (.act a) F.SV_STAT_SPIN (bitsOf p 0 2)).put (.act a) F.SV_STAT_LOCK (bitsOf p 2 1)
  let d := s.die m
  let rest := d.locked.filter fun x => x != k
  let s := s.setDie m { d with locked := if bitsOf p 2 1 = 1 then k :: rest else rest }
  let s := if bitsOf p 2 1 = 1 then ((s.freeSpin m k).dequeueSpin m k).endSpinBoth m k .up 0x00 else s
  if bitsOf p 0 2 = 0 then s.endSpinBoth m k .down 0x00 else s

/-! ## Motion commands (R108, R109) -/

/-- A profile that a motion command may name (R109). -/
def State.profOk (s : State) (a : Fin 96) (p : Nat) : Bool :=
  s.get (.act a) F.PROF_A_ACC p != 0 && s.get (.act a) F.PROF_A_DEC p != 0 && s.get (.act a) F.PROF_V_MAX p != 0

/-- The track number fits the servo field (R109, R127). -/
def State.trackOk (s : State) (a : Fin 96) (t : Nat) : Bool := decide (t < 2 ^ s.get (.act a) F.SV_FIELD_TID_BITS)

/-- A HALT or an UNLOAD runs. -/
def State.stopRuns (s : State) (a : Fin 96) : Bool :=
  (s.servo a.val).motion == some .halt || (s.servo a.val).motion == some .unload

/-- FOLLOW, SETTLE or SEEK. -/
def State.flying (s : State) (a : Fin 96) : Bool := decide (4 ≤ s.svState a ∧ s.svState a ≤ 6)

/-- A SEEK begins: it latches its profile, head, track and offset and plans from the present reference (R108, R111). -/
def State.beginSeek (s : State) (a : Fin 96) (g : SvArgs) : State :=
  let u := UnitId.act a
  let v := s.servo a.val
  let s := s.setServo a.val { v with
    held := none, heldFor := [], track := g.track, offset := g.offset, aAcc := s.get u F.PROF_A_ACC g.prof,
    aDec := s.get u F.PROF_A_DEC g.prof, vMax := s.get u F.PROF_V_MAX g.prof,
    settleN := max 1 (s.get u F.PROF_SETTLE_N g.prof), settleWin := s.get u F.PROF_SETTLE_WIN g.prof,
    settleRun := 0, settleAll := 0 }
  (s.put u F.SV_STAT_HEAD g.head).setSv a 5

/-- An OFFSET begins: a new offset on the present target, and SETTLE (R108, R111). -/
def State.beginOffset (s : State) (a : Fin 96) (g : SvArgs) : State :=
  let u := UnitId.act a
  let v := s.servo a.val
  (s.setServo a.val { v with
    held := none, heldFor := [], offset := g.offset, settleN := max 1 (s.get u F.PROF_SETTLE_N g.prof),
    settleWin := s.get u F.PROF_SETTLE_WIN g.prof, settleRun := 0, settleAll := 0, vel := 0,
    refPos := (v.track : Int) * 256 + g.offset }).setSv a 6

/-- A motion command starts to run, or is held while the sluice writes a sector (R108). -/
def State.startMove (s : State) (a : Fin 96) (op : Nat) (mo : Motion) (g : SvArgs) : State :=
  let s := s.endMotion a 0x09
  let busy := ((s.sluice a.val).ents.filter fun e => e.ph == .writing).map fun e => e.order
  let s := s.setServo a.val { s.servo a.val with motion := some mo }
  if busy.isEmpty then (if op = 1 then s.beginSeek a g else s.beginOffset a g)
  else s.setServo a.val { s.servo a.val with held := some (op, g), heldFor := busy }

/-- SEEK and OFFSET (R108, R109). -/
def State.svMove (s : State) (a : Fin 96) (op : Nat) (g : SvArgs) : State :=
  if !s.upT7 a then s.svDone a op 0x05
  else if !s.flying a || s.stopRuns a then s.svDone a op 0x02
  else if !s.profOk a g.prof || (op = 1 && (!s.trackOk a g.track || decide (s.get (.act a) F.YL_BRIDGE_HEADS < g.head))) then
    s.svDone a op 0x03
  else s.startMove a op (if op = 1 then .seek else .offset) g

/-- LOAD (R108): refused unless PARKED; 0x03 for a bad HEAD, before 0x06 unless LOCK is reported (DESIGN CHOICE, log 184);
otherwise LOAD goes to the bridge. -/
def State.svLoad (s : State) (a : Fin 96) (g : SvArgs) : State :=
  if !s.upT7 a then s.svDone a 3 0x05
  else if s.svState a != 1 || s.stopRuns a then s.svDone a 3 0x02
  else if s.get (.act a) F.YL_BRIDGE_HEADS < g.head then s.svDone a 3 0x03
  else if !s.on (.act a) F.SV_STAT_LOCK then s.svDone a 3 0x06
  else
    let s := s.setServo a.val { s.servo a.val with motion := some .load, acq := [], parkStop := false }
    ((s.put (.act a) F.SV_STAT_HEAD g.head).sbSend a 0x13 (g.head % 16) .servo).setSv a 2

/-- A stop sequence begins: a running seek decelerates first (R108, R120). -/
def State.beginStop (s : State) (a : Fin 96) (mo : Motion) : State :=
  let s := (s.endMotion a 0x09).dropWriteOk a
  let s := s.setServo a.val { s.servo a.val with motion := some mo }
  if s.svState a = 5 && (s.servo a.val).vel != 0 then s.setServo a.val { s.servo a.val with stopping := true }
  else if s.svState a = 7 then s
  else s.startUnload a

/-- UNLOAD (R108). -/
def State.svUnload (s : State) (a : Fin 96) : State :=
  if !s.upT7 a then s.svDone a 4 0x05
  else if !s.flying a || s.stopRuns a then s.svDone a 4 0x02
  else s.beginStop a .unload

/-- HALT (R108, R120): accepted in any state with EN 1. -/
def State.svHalt (s : State) (a : Fin 96) : State :=
  if !s.upT7 a then s.svDone a 7 0x05
  else if !s.on (.act a) F.SV_CTRL_EN then s.svDone a 7 0x02
  else s.beginStop a .halt

/-- A motion command that LOAD's refusal or loss ends: 0x07, and PARKED (R108). -/
def State.loadFails (s : State) (a : Fin 96) : State :=
  if s.svState a = 2 then (s.endMotion a 0x07).setSv a 1 else s

/-- A park report (R112, R117, R120). GATE_LOCK falls as ACQUIRE opens the gate, and not before (DESIGN CHOICE, log 228). -/
def State.parkStat (s : State) (a : Fin 96) (p : Nat) : State :=
  let parked := bitsOf p 0 1 = 1
  let cause := bitsOf p 1 3
  let st := s.svState a
  let s := if parked && cause != 0 then s.raise (.act a) F.YL_EVT_RETRACTED else s
  if parked then
    if st = 7 then
      ((s.setServo a.val { s.servo a.val with parkStop := false }).endMotion a 0x00).setSv a 1
    else if cause != 0 && decide (2 ≤ st ∧ st ≤ 6) then
      let s := (((s.noTrack a).raise (.act a) F.SV_EVT_SERVO_LOST).endMotion a 0x07).setSv a 1
      s.setServo a.val { s.servo a.val with stopping := false, parkStop := false, vel := 0 }
    else s
  else if st = 2 then
    let s := s.setServo a.val { s.servo a.val with acq := [], lostRun := 0 }
    ((s.put (.act a) F.SV_STAT_GATE_LOCK 0).sbSend a 0x10 (spinCmd 0 true 0 0 0) .servo).setSv a 3
  else s

/-- A shock report (R113). -/
def State.shock (s : State) (a : Fin 96) : State :=
  let n := s.get (.act a) F.SV_WIN_SHOCK_HOLD
  ((s.setServo a.val { s.servo a.val with shockOn := true, shockLeft := n }).raise (.act a) F.SV_EVT_SHOCK_HOLD).count
    (.act a) F.SV_CNT_SHOCK

/-- The engine enters OFF as its lane goes down, or stays HALTED (R114). -/
def State.svLaneDown (s : State) (a : Fin 96) : State :=
  let s := s.noTrack a
  let s := (s.endMotion a 0x05)
  let s := (s.endSpin a .up 0x05).endSpin a .down 0x05
  let s := (s.raise (.act a) F.SV_EVT_LINK_LOST).withdrawSpin a
  let s := s.setServo a.val { s.servo a.val with stopping := false, parkStop := false, trimOut := false, vel := 0 }
  if s.svState a = 8 then s else s.setSv a 0

/-- OFF becomes PARKED once the lane is in T7 while EN is 1 (R114, R122). -/
def State.svLaneUp (s : State) (a : Fin 96) : State :=
  if s.on (.act a) F.SV_CTRL_EN && s.svState a == 0 && s.upT7 a then s.setSv a 1 else s

/-- The engine stops without a sequence (R121, R122): running commands complete 0x07, HALTED with heads loaded. -/
def State.svStop (s : State) (a : Fin 96) : State :=
  let out := s.headsOut a
  let s := s.noTrack a
  let s := ((s.endMotion a 0x07).endSpin a .up 0x07).endSpin a .down 0x07
  let s := (s.withdrawSpin a).setServo a.val { s.servo a.val with stopping := false, parkStop := false, held := none, motion := none, spin := none, vel := 0 }
  if s.svState a = 8 then s else s.setSv a (if out then 8 else 0)

/-! ## The wedge (R100–R106, R110–R113) -/

/-- The binary value of a Gray code of `n` bits. -/
def grayDecode (n g : Nat) : Nat := (List.range n).foldl (fun b k => b ^^^ (g % 2 ^ n / 2 ^ k)) 0

/-- A quotient that is exact, or one of its two neighbouring integers (no rounding is stated): the place of the calculation
tells which. -/
def narrow (place : Nat) (num den : Int) : Int :=
  if num % den ≠ 0 ∧ Config.roundUp place num then num / den + 1 else num / den

/-- A coefficient of the bank in use (R104, R128). -/
def State.coef (s : State) (a : Fin 96) (f : Fld) (sec : Nat) : Int :=
  signedOf (s.get (.act a) f (s.get (.act a) F.SV_LIM_BANK) sec) 32

/-- One section on its input (R104): its output and its new past. -/
def State.section_ (s : State) (a : Fin 96) (k : Nat) (x : Int) (p : SecState) : Int × SecState :=
  let y := narrow 0
    (s.coef a F.BANK_b0 k * x + s.coef a F.BANK_b1 k * p.x1 + s.coef a F.BANK_b2 k * p.x2 - s.coef a F.BANK_a1 k * p.y1 -
      s.coef a F.BANK_a2 k * p.y2) 0x10000000
  (y, ⟨x, p.x1, y, p.y1⟩)

/-- A run of sections from `k`, `n` of them (R104). -/
def State.sections (s : State) (a : Fin 96) : Nat → Nat → Int → List SecState → Int × List SecState
  | 0, _, x, ps => (x, ps)
  | n + 1, k, x, ps =>
    let (y, p) := s.section_ a k x (ps.getD k {})
    s.sections a n (k + 1) y (ps.set k p)

/-- Saturation to ±lim (R104). -/
def saturate (lim : Nat) (x : Int) : Int := if (lim : Int) < x then lim else if x < -(lim : Int) then -(lim : Int) else x

/-- The integer square root of `n`, searched over `k` bits from the top. -/
def isqrt : Nat → Nat → Nat → Nat
  | 0, _, r => r
  | k + 1, n, r => isqrt k n (if (r + 2 ^ k) * (r + 2 ^ k) ≤ n then r + 2 ^ k else r)

/-- A square root that is exact, or one of its two neighbouring integers (R111 states no rounding). -/
def seekRoot (n : Nat) : Nat := let r := isqrt 40 n 0; if r * r ≠ n ∧ Config.roundUp 1 n then r + 1 else r

/-- The reference velocity for a remaining distance, 1/256 track per wedge (R111). -/
def vRef (aDec vMax d : Nat) : Nat := min (vMax * 16) (seekRoot (2 * aDec * d))

/-- The seek's reference at the next wedge (R108, R111): position, velocity, acceleration and the remaining distance. In the
direction of the target the velocity rises by at most A_ACC towards v_ref; a velocity away from the target, which a SEEK that
replans can leave, rises through zero in the same way, and one above v_ref falls to it at once, for the rule limits only the rise
(DESIGN CHOICE, log 225). While a stop runs, the velocity falls by A_DEC to rest (R120). -/
def seekStep (v : Servo) : Int × Int × Int × Int :=
  let target := (v.track : Int) * 256 + v.offset
  if v.stopping then
    let n : Int := if v.vel.natAbs ≤ v.aDec then 0 else if 0 < v.vel then v.vel - v.aDec else v.vel + v.aDec
    (v.refPos + n, n, n - v.vel, 0)
  else
    let d := target - v.refPos
    let dir : Int := if 0 ≤ d then 1 else -1
    let n := dir * min (dir * v.vel + v.aAcc) (vRef v.aDec v.vMax d.natAbs : Nat)
    (v.refPos + n, n, n - v.vel, dir * (d - n))

/-- The position read from the servo field (R100): the track number and, in 1/256 track, the fraction from whichever of N
and Q is smaller in magnitude, N where they are equal (DESIGN CHOICE, log 224), and the track number's lowest bit, scaled by
PES_GAIN. -/
def State.fieldPos (s : State) (a : Fin 96) (o : WedgeObs) : Nat × Int :=
  let t := grayDecode (s.get (.act a) F.SV_FIELD_TID_BITS) o.gray
  let n := (o.burstA : Int) - o.burstB
  let q := (o.burstC : Int) - o.burstD
  let useQ := decide (q.natAbs < n.natAbs)
  let f := Config.trackFraction useQ (if useQ then q else n) (t % 2)
  (t, (t : Int) * 256 + narrow 2 (f * s.get (.act a) F.SV_FIELD_PES_GAIN) 0x100)

/-- The number of 1 bits among the low `n` of a number. -/
def onesIn (n v : Nat) : Nat := (List.range n).foldl (fun k i => k + v / 2 ^ i % 2) 0

/-- The engine accepts the address mark with up to 2 bit errors (R100). -/
def State.markFound (s : State) (a : Fin 96) (o : WedgeObs) : Bool :=
  decide (onesIn 16 (o.mark ^^^ s.get (.act a) F.SV_FIELD_SAM) ≤ 2)

/-- The prediction of a wedge's position (R110). -/
def predicted (v : Servo) (ref : Int) : Int := Config.servoPrediction v.pos ref v.vel

/-- The wedge is lost (R112): a bad frame in its gate, no address mark, or a track number more than 2 tracks from the
prediction. DESIGN CHOICE (log 171): the whole track that the predicted position lies on is compared. -/
def State.wedgeLost (s : State) (a : Fin 96) (o : WedgeObs) (pred : Int) : Bool :=
  (s.lane a.val).gateBad || !s.markFound a o || decide (2 < (((s.fieldPos a o).1 : Int) - pred / 256).natAbs)

/-- A pending coefficient swap takes effect (R105). -/
def State.swapNow (s : State) (a : Fin 96) : State :=
  (s.put (.act a) F.SV_LIM_BANK (1 - s.get (.act a) F.SV_LIM_BANK)).put (.act a) F.SV_LIM_SWAP 0

/-- The bits that SV_PES shows (R125). -/
def pesBits (e : Int) : Nat := if -32768 ≤ e ∧ e ≤ 32767 then unsignedOf e 16 else Config.pesWide e % 65536

/-- The address mark's offset from the gate opening less the nominal one (R102). -/
def State.markOffset (s : State) (a : Fin 96) (o : WedgeObs) : Int :=
  (o.markAt : Int) - o.first - s.get (.act a) F.SV_SAM_NOM

/-- Gate trimming on a read wedge (R102). -/
def State.trimWedge (s : State) (a : Fin 96) (o : WedgeObs) : State :=
  let u := UnitId.act a
  let off := s.markOffset a o
  let s := s.put u F.SV_SAM_OFF (unsignedOf off 16)
  let v := s.servo a.val
  if !s.on u F.SV_CTRL_AUTO_TRIM || off.natAbs ≤ s.get u F.SV_SHOCK_TRIM_THR then s.setServo a.val { v with trims := [] }
  else
    let l := off :: v.trims.take 2
    if l.length < 3 || v.trimOut then s.setServo a.val { v with trims := l }
    else
      let mean := narrow 3 (l.foldl (fun x y => x + y) 0) 3
      ((s.setServo a.val { v with trims := [], trimOut := true }).count u F.SV_CNT_TRIM).sbSend a 0x10
        (spinCmd 0 true 0 (s.get u F.SV_FIELD_GATE_LEN) mean) .servo

/-- The sluice's work at a wedge report: SL_TUNE as it stands, the decisions of this place, and the journal waits (R137,
R138, R151, R158, R165). An entry whose new decision wedge has just passed slips once. -/
def State.slWedge (s : State) (a : Fin 96) (w : Nat) : State :=
  let l := s.sluice a.val
  let new := s.leadOf a
  let passed := fun (e : SlEntry) =>
    let k := (w + 540 - decisionWedge e.e.wedge new) % 540
    decide (l.lead < new ∧ 1 ≤ k ∧ k ≤ new - l.lead)
  let s := s.setSluice a.val
    { l with lead := new, guard := s.get (.act a) F.SL_TUNE_GUARD, iterMax := s.get (.act a) F.SL_TUNE_ITER_MAX }
  let act := fun (s : State) (e0 : SlEntry) =>
    match s.ent? a e0.order with
    | none => s
    | some e =>
      if !slUndecided e then s
      else if decisionWedge e.e.wedge new = w then
        if s.eligible a e then (s.slRelease a e).chAbandon a else s.slSlip a e
      else if passed e && e.ph == .filled then s.slSlip a e
      else s
  let s := l.ents.foldl act s
  let waits := (s.die (dieOf a).val).jwait.any fun r => r.act == a.val
  let l := s.sluice a.val
  let s := if waits || l.jwaited then s.count (.act a) F.SL_CNT_JWAIT else s
  s.setSluice a.val { l with jwaited := waits }

/-- A held SEEK or OFFSET runs once the sectors it waited for have ended (R108). -/
def State.runHeld (s : State) (a : Fin 96) : State :=
  match (s.servo a.val).held with
  | none => s
  | some (op, g) =>
    if (s.sluice a.val).ents.any fun e => e.ph == .writing && (s.servo a.val).heldFor.contains e.order then s
    else if op = 1 then s.beginSeek a g else s.beginOffset a g

/-- The loop's arithmetic at a wedge (R104): position, reference, error and commands. -/
def State.loopWedge (s : State) (a : Fin 96) (w : Nat) (pos ref acc : Int) : State :=
  let u := UnitId.act a
  let v := s.servo a.val
  let e := ref - pos - signedOf (s.get u F.RRO (540 * s.get u F.SV_STAT_HEAD + w)) 16
  let (u8, secs) := s.sections a 8 0 e v.secs
  let kff := signedOf (s.get u F.BANK_KFF (s.get u F.SV_LIM_BANK)) 32
  let bias := signedOf (s.get u F.BANK_BIAS (s.get u F.SV_LIM_BANK)) 32
  let vcm := saturate (s.get u F.SV_LIM_VCM_LIM)
    (narrow 0 (u8 * 0x10000000 + kff * acc + bias) 0x10000000)
  let three := decide (3 ≤ s.get u F.YL_STAT_VER)
  let (m4, secs) := if three then s.sections a 4 8 e secs else (0, secs)
  let ma := if three then saturate (s.get u F.SV_LIM_MA_LIM) m4 else 0
  let s := s.setServo a.val { v with secs := secs, pos := pos, refPos := ref, pes := e }
  (s.setLane a.val { s.lane a.val with actCmd := some (vcm, ma), lastVcm := vcm, lastMa := ma }).put u F.SV_PES (pesBits e)

/-- SETTLE's test at a wedge (R111): FOLLOW, with DONE for the command that still runs. -/
def State.settleWedge (s : State) (a : Fin 96) : State :=
  let v := s.servo a.val
  let run := if v.pes.natAbs ≤ v.settleWin then v.settleRun + 1 else 0
  let s := s.setServo a.val { v with settleRun := run, settleAll := v.settleAll + 1 }
  if v.settleN ≤ run then
    let s := s.setSv a 4
    if v.motion == some .seek || v.motion == some .offset then s.endMotion a 0x00 else s
  else s

/-- ON_TRACK and WRITE_OK at a wedge (R101, R112, R113). -/
def State.trackSignals (s : State) (a : Fin 96) (lost : Bool) : State :=
  let u := UnitId.act a
  let pes := (s.servo a.val).pes.natAbs
  let follow := s.svState a == 4
  let on := follow && decide (pes ≤ s.get u F.SV_WIN_RD_WIN)
  let ok := follow && decide (pes ≤ s.get u F.SV_WIN_WR_WIN) && !lost && !(s.servo a.val).shockOn && !(s.stopRuns a)
  let s := s.putBit u F.SV_STAT_ONTRACK on
  let s := if on then s else s.offTrack a
  if ok then s.put u F.SV_STAT_WRITE_OK 1 else s.dropWriteOk a

/-- A command that misses its frame (R103): LATE, its counter and a hardware fault. -/
def State.lateWedge (s : State) (a : Fin 96) (late : Bool) : State :=
  if late then ((s.raise (.act a) F.SV_EVT_LATE).count (.act a) F.SV_CNT_LATE).record (.act a) .hwfault else s

/-- One wedge of a shock hold passes (R113). -/
def shockWedge (v : Servo) : Servo := { v with shockLeft := v.shockLeft - 1 }

/-- The sample indices that a wedge reports (R101): as read, or predicted for a lost wedge. -/
def reported (v : Servo) (o : WedgeObs) (lost : Bool) : Nat × Nat × Nat :=
  if lost then (Config.predictedIndex 0 v.repMark, Config.predictedIndex 1 v.repFirst, Config.predictedIndex 2 v.repLast)
  else (o.markAt, o.first, o.last)

/-- The wedge report to the channel engine and the sluice (R101). -/
def State.reportWedge (s : State) (a : Fin 96) (w : Nat) (idx : Nat × Nat × Nat) (lost : Bool) : State :=
  let v := s.servo a.val
  let s := s.setServo a.val { v with repMark := idx.1, repFirst := idx.2.1, repLast := idx.2.2 }
  ((s.put (.act a) F.SV_STAT_WEDGE w).putBit (.act a) F.SV_STAT_PRED lost).emit (.wedge a.val w idx.1 idx.2.1 idx.2.2 lost)

/-- A wedge in FOLLOW, SEEK or SETTLE. A SWAP still pending when the loop stops waits for the next such wedge or the next
write of SWAP (DESIGN CHOICE, log 172). -/
def State.trackWedge (s : State) (a : Fin 96) (o : WedgeObs) : State :=
  let u := UnitId.act a
  let s := if s.on u F.SV_LIM_SWAP then s.swapNow a else s
  let s := s.runHeld a
  let v := s.servo a.val
  let (ref, vel, acc, left) := if s.svState a = 5 then seekStep v else ((v.track : Int) * 256 + v.offset, 0, 0, 0)
  let pred := predicted v ref
  let lost := s.wedgeLost a o pred
  let w := if lost then (s.get u F.SV_STAT_WEDGE + 1) % 540 else o.wedge % 1024
  let (t, pos) := if lost then ((pred / 256).toNat, pred) else s.fieldPos a o
  let idx := reported v o lost
  let s := s.setServo a.val
    { shockWedge v with vel := vel, lostRun := if lost then v.lostRun + 1 else 0, wedges := v.wedges + 1 }
  let s := if lost then s.count u F.SV_CNT_LOST else s.trimWedge a o
  let s := (s.reportWedge a w idx lost).put u F.SV_STAT_TRACK t
  let s := (s.loopWedge a w pos ref acc).lateWedge a o.late
  let s :=
    if s.svState a = 6 then s.settleWedge a
    else if s.svState a = 5 then
      if v.stopping then (if vel = 0 then s.startUnload a else s)
      else if left < 256 then
        (s.setServo a.val { s.servo a.val with settleRun := 0, settleAll := 0, vel := 0 }).setSv a 6
      else s
    else s
  (s.trackSignals a lost).slWedge a w

/-- Three wedge numbers in order, latest first (R110). -/
def inOrder : List Nat → Bool
  | c :: b :: x :: _ => decide (x < 540 ∧ (x + 1) % 540 = b ∧ (b + 1) % 540 = c)
  | _ => false

/-- A wedge in ACQUIRE (R110): a mark found is a wedge read, and reported; after three wedge numbers in order the gate is
aligned and FOLLOW entered on the track read. SV_CNT_TRIM does not count that trim, which R102 does not send (DESIGN CHOICE,
log 173). -/
def State.acquireWedge (s : State) (a : Fin 96) (o : WedgeObs) : State :=
  let u := UnitId.act a
  let v := shockWedge (s.servo a.val)
  let bias := signedOf (s.get u F.BANK_BIAS (s.get u F.SV_LIM_BANK)) 32
  let vcm := saturate (s.get u F.SV_LIM_VCM_LIM) (narrow 0 bias 0x10000000)
  let s := s.setLane a.val { s.lane a.val with actCmd := some (vcm, 0), lastVcm := vcm, lastMa := 0 }
  if (s.lane a.val).gateBad || !s.markFound a o then s.setServo a.val { v with acq := [] }
  else
    let acq := o.wedge % 1024 :: v.acq.take 2
    let (t, pos) := s.fieldPos a o
    let s := (s.setServo a.val { v with acq := acq }).reportWedge a (o.wedge % 1024) (o.markAt, o.first, o.last) false
    let s := (s.put u F.SV_STAT_TRACK t).slWedge a (o.wedge % 1024)
    if inOrder acq then
      let v := s.servo a.val
      let s := s.setServo a.val { v with acq := [], track := t, offset := 0, pos := pos, refPos := (t : Int) * 256, vel := 0,
                                         lostRun := 0, trims := [], trimOut := true }
      let s := s.sbSend a 0x10 (spinCmd 0 true 0 (s.get u F.SV_FIELD_GATE_LEN) (s.markOffset a o)) .servo
      ((s.raise u F.SV_STAT_GATE_LOCK).setSv a 4).endMotion a 0x00
    else s

/-- The work at the end of a servo gate, by state (R104, R107, R110); the next gate has no bad frame yet. Wedges of ACQUIRE, FOLLOW, SEEK
and SETTLE count towards a shock hold, others do not (DESIGN CHOICE, log 226). -/
def State.svWedge (s : State) (a : Fin 96) (o : WedgeObs) : State :=
  if !s.upT7 a then s
  else
    let s := if s.svState a = 3 then s.acquireWedge a o else if s.flying a then s.trackWedge a o else s
    s.setLane a.val { s.lane a.val with gateBad := false }

end Sys2Proof.Machine
end

