-- ==== Sys2Proof/Machine/Function.lean ====
section
/-! DEFINITION. Tenant and physical functions: who serves whom, MSI-X, AER, error logs and the freeze of queues (R225–R234,
R277–R279). -/

namespace Sys2Proof.Machine

open Sys2Proof

/-! ## Indexed state -/

/-- A function by number. -/
def State.fnS (s : State) (f : Nat) : FnS := tget {} s.fns f
/-- A function replaced. -/
def State.setFn (s : State) (f : Nat) (x : FnS) : State := { s with fns := tset {} s.fns f x }
/-- A port by number. -/
def State.portS (s : State) (k : Nat) : PortS := tget {} s.ports k
/-- A port replaced. -/
def State.setPort (s : State) (k : Nat) (x : PortS) : State := { s with ports := tset {} s.ports k x }
/-- Transfer ring `r` of port `k`. -/
def State.xring (s : State) (k r : Nat) : XRing := tget {} s.xrings (16 * k + r)
/-- A transfer ring replaced. -/
def State.setXring (s : State) (k r : Nat) (x : XRing) : State := { s with xrings := tset {} s.xrings (16 * k + r) x }
/-- Queue `q` of function `f`. -/
def State.queue (s : State) (f q : Nat) : QueueS := tget {} s.queues (8 * f + q)
/-- A queue replaced. -/
def State.setQueue (s : State) (f q : Nat) (x : QueueS) : State := { s with queues := tset {} s.queues (8 * f + q) x }

/-- Function `n`, wrapped into range. -/
def fnOf (n : Nat) : Fin 1026 := ⟨n % 1026, Nat.mod_lt _ (by decide)⟩
/-- Port `n`, wrapped into range. -/
def portOf (n : Nat) : Fin 2 := ⟨n % 2, Nat.mod_lt _ (by decide)⟩
/-- The physical function of a port. -/
def pfOf (k : Fin 2) : Fin 1026 := ⟨1024 + k.val, by omega⟩

/-! ## Ports and functions (R225, R228–R231) -/

/-- SPLIT in force: above 1,024 acts as 1,024 (R255). -/
def State.split (s : State) : Nat := min 1024 (s.get .fnmgr F.FNM_CTRL_SPLIT)

/-- The port of a function (R225). -/
def State.fnPort (s : State) (f : Nat) : Fin 2 :=
  if 1024 ≤ f then portOf (f - 1024) else if f < s.split then 0 else 1

/-- The virtual function number of an FN on its port, from 1 (R225). -/
def State.vfNumber (s : State) (f : Nat) : Nat := if f < s.split then f + 1 else f - s.split + 1

/-- The functions of a port: its physical function and its virtual functions (R225). -/
def State.portFns (s : State) (k : Fin 2) : List Nat :=
  (1024 + k.val) :: (List.range 1024).filter fun f => s.fnPort f == k

/-- The entry of a tenant function is CREATED (R229). -/
def State.fnCreated (s : State) (f : Nat) : Bool := s.get .fnmgr F.FNT_STATE f == 1

/-- The virtual function of an FN is enabled: VF Enable set and its number within NumVFs (R230). -/
def State.vfEnabled (s : State) (f : Nat) : Bool :=
  let p := s.fnS (1024 + (s.fnPort f).val)
  p.vfEnable && decide (s.vfNumber f ≤ p.numVfs)

/-- A tenant function is LIVE (R230); a physical function always serves. -/
def State.fnLive (s : State) (f : Nat) : Bool := decide (1024 ≤ f) || (s.fnCreated f && s.vfEnabled f)

/-- QUEUES of a function: the pool of a CREATED entry, 0 when FREE; PF_QUEUES of a physical function, 0 acting as 1
(R231, R234, R253). -/
def State.fnQueues (s : State) (f : Nat) : Nat :=
  if 1024 ≤ f then max 1 (min 8 (s.get (.pcie (s.fnPort f)) F.PCIE_PM_PF_QUEUES))
  else if s.fnCreated f then s.get .fnmgr F.FNT_QUEUES f else 0

/-- VECTORS of a function (R234). -/
def State.fnVectors (s : State) (f : Nat) : Nat :=
  if 1024 ≤ f then 64 else if s.fnCreated f then s.get .fnmgr F.FNT_VECTORS f else 0

/-- CLASSES of a function (R234). -/
def State.fnClasses (s : State) (f : Nat) : Nat := if 1024 ≤ f then 0xF else s.get .fnmgr F.FNT_CLASSES f

/-- WEIGHT of a function, 0 acting as 1 (R256, R266, R291). -/
def State.fnWeight (s : State) (f : Nat) : Nat :=
  max 1 (if 1024 ≤ f then s.get .headgate F.HG_TUNE_PF_WT else s.get .fnmgr F.FNT_WEIGHT f)

/-- The protocol version that the ports offer: 1 when the hub is of stepping A1, else 2 (R257). -/
def protoOf (b : Build) : Nat := match b with | .b01 => 1 | .b02 => 2 | .b03 => 2

/-- The port's link is up (R251). -/
def State.linkUp (s : State) (k : Fin 2) : Bool := s.on (.pcie k) F.PCIE_STAT_LINK_UP

/-! ## AER and MSI-X -/

/-- The header of the TLP that an error names goes to AER's Header Log while that is empty (R221): its words are a free value. -/
def State.logHeader (s : State) (f : Nat) : State :=
  if (s.fnS f).hdr.isSome then s
  else
    let (n, s) := s.draw
    s.setFn f { s.fnS f with hdr := some n }

/-- An uncorrectable error logged in a function's AER; AER is set on its port (R252). -/
def State.logAer (s : State) (f : Nat) (e : AerErr) : State :=
  let s := if e == .completionTimeout then s else s.logHeader f
  let x := s.fnS f
  (s.setFn f (if x.aer.contains e then x else { x with aer := e :: x.aer })).raise (.pcie (s.fnPort f)) F.PCIE_EVT_AER

/-- An MSI-X entry. -/
def vecOf (x : FnS) (v : Nat) : MsixVec := tget {} x.vecs v

/-- A vector may be sent now: the capability enabled and unmasked, the entry unmasked and below VECTORS (R231), Bus Master
Enable 1 and the link up. -/
def State.msixGoes (s : State) (f v : Nat) : Bool :=
  let x := s.fnS f
  x.bme && x.msixEnable && !x.msixMask && !(vecOf x v).masked && decide (v < s.fnVectors f) && s.linkUp (s.fnPort f) && !x.d3

/-- A transfer, a completion or a message waits: the port leaves L1 and its substates, and stays in L0p (R243). -/
def State.leaveL1 (s : State) (k : Fin 2) : State :=
  let pm := s.get (.pcie k) F.PCIE_STAT_PM
  if 2 ≤ pm ∧ pm ≤ 4 then s.put (.pcie k) F.PCIE_STAT_PM 0 else s

/-- A TLP of a function leaves, with an ECRC where the host enables its generation (R221). -/
def State.emitTlp (s : State) (f : Nat) (o : Out) : State := (if (s.fnS f).ecrcGen then s.emit (.ecrc f) else s).emit o

/-- A TLP whose ECRC does not match is dropped and logged where the host enables ECRC checking of the function (R221). -/
def State.ecrcBad (s : State) (f : Nat) (bad : Bool) : Bool := bad && (s.fnS f).ecrcChk

/-- A vector sent, or its Pending bit set (R232, R278, R285). A message waiting takes the link out of L1 (R243). -/
def State.sendVector (s : State) (f v : Nat) : State :=
  let x := s.fnS f
  let m := vecOf x v
  if s.msixGoes f v then
    ((s.setFn f { x with vecs := tset {} x.vecs v { m with pending := false } }).leaveL1 (s.fnPort f)).emitTlp f
      (.msix f v m.addr m.data)
  else s.setFn f { x with vecs := tset {} x.vecs v { m with pending := true } }

/-- Pending vectors that may now be sent are sent. -/
def State.flushVectors (s : State) (f : Nat) : State :=
  (s.fnS f).vecs.foldl (fun s e => if e.2.pending && s.msixGoes f e.1 then s.sendVector f e.1 else s) s

/-! ## Error logs and freeze (R277–R279) -/

/-- Word 0 of a log entry (R279). -/
def logWord (cause q : Nat) (host : Bool) (f idx tag : Nat) : Nat :=
  placed cause 0 4 + placed q 4 3 + (if host then 0 else placed (bit (decide (1024 ≤ f))) 7 1 + placed (if 1024 ≤ f then 0 else f) 8 10) +
    placed idx 18 16 + placed tag 34 5

/-- An entry of the firmware error log (R279); ELOG is set. -/
def State.fwLogAdd (s : State) (cause f q idx tag : Nat) : State :=
  let n := s.get .headgate F.HG_ELOG_CNT
  let e := (logWord cause q false f idx tag, s.get .headgate F.HG_TIME)
  (({ s with fwLog := tset (0, 0) s.fwLog (n % 256) e }).put .headgate F.HG_ELOG_CNT (n + 1)).raise .headgate F.HG_EVT_ELOG

/-- An entry of a function's host error log (R279). -/
def State.hostLogAdd (s : State) (cause f q idx tag : Nat) : State :=
  let x := s.fnS f
  let e := (logWord cause q true f idx tag, s.get .headgate F.HG_TIME)
  { s with hostLog := tset (0, 0) s.hostLog (8 * f + x.logCnt % 8) e }.setFn f { x with logCnt := (x.logCnt + 1) % 2 ^ 32 }

/-- QSTAT.BUSY follows the tags (R264, R288). -/
def State.qSync (s : State) (f q : Nat) : State :=
  let x := s.queue f q
  s.put (.fn (fnOf f)) F.QSTAT_BUSY (x.fetched.length + x.admitted.length + x.held.length) q

/-- Queue `q` of function `f` freezes (R278): fetched entries are dropped and their tags freed, FROZEN and CAUSE set, both
logs written and the queue's vector sent. Under cause 7 the first entry with the tag stays (R264, R281). A queue that is frozen
already only logs, but cause 2 replaces cause 1. -/
def State.freeze (s : State) (f q cause idx tag : Nat) : State :=
  let u := UnitId.fn (fnOf f)
  let s := (s.hostLogAdd cause f q idx tag).fwLogAdd cause f q idx tag
  if s.on u F.QSTAT_FROZEN q then
    if cause = 2 ∧ s.get u F.QSTAT_CAUSE q = 1 then s.put u F.QSTAT_CAUSE 2 q else s
  else
    let s := (s.setQueue f q { s.queue f q with fetched := if cause = 7 then (s.queue f q).fetched.filter (fun e => e.tag == tag) else [] }).qSync f q
    let s := ((s.raise u F.QSTAT_FROZEN q).put u F.QSTAT_CAUSE cause q).count .headgate F.HG_CNT_FREEZE
    (s.traceEvent 0x11 2 .headgate).sendVector f (s.get u F.QCTRL_VECTOR q)

/-- Every queue of a function freezes with a cause (R277). -/
def State.freezeFn (s : State) (f cause : Nat) : State :=
  (List.range (s.fnQueues f)).foldl (fun s q => s.freeze f q cause 0 0) s

/-- The cause under which the queues of every virtual function are held frozen (R206, R218): 4 during a shelf sanitise and in
Sanitise entered at start-up, 5 during a shelf format. -/
def State.tenantHold (s : State) : Option Nat :=
  if s.on .sweep F.SWP_STAT_BUSY && s.sweep.shelf then some (if s.sweep.op = 2 then 4 else 5)
  else if s.mode == .sanitise && s.sweep.boot then some 4 else none

/-- Every queue of every virtual function freezes (R218, R277 causes 4 and 5). -/
def State.freezeTenants (s : State) (cause : Nat) : State :=
  ((List.range 1024).filter fun f => s.fnCreated f).foldl (fun s f => s.freezeFn f cause) s

/-- The queues of function `f` freeze when a hold is on (R206, R218). -/
def State.holdTenant (s : State) (f : Nat) : State :=
  match s.tenantHold with
  | some c => s.freezeFn f c
  | none => s

/-! ## Reset of a function's registers (R245, R247, R288) -/

/-- The queue registers of a function at their reset values but FROZEN and CAUSE, and no queue work left but tags that
firmware holds; completions that waited for a place are discarded and counted (R273). -/
def State.resetQueueRegs (s : State) (f q : Nat) : State :=
  let u := UnitId.fn (fnOf f)
  let s := s.count .headgate F.HG_CNT_CPLDROP (s.queue f q).held.length
  let s := [F.QP_SQ_LOG2N, F.QP_SQ_BASE, F.QP_CQ_LOG2N, F.QP_CQ_BASE, F.QCTRL_EN, F.QCTRL_VECTOR, F.QCTRL_IEN, F.QCTRL_COAL_N,
    F.QCTRL_COAL_US, F.QSTAT_ENABLED, F.QSTAT_REFUSED, F.QSTAT_SQ_HEAD].foldl (fun s x => s.put u x 0 q) s
  let s := s.put u F.QCTRL_CLASS 2 q
  (s.setQueue f q { admitted := (s.queue f q).admitted }).qSync f q

/-- Configuration space, MSI-X, CHANGED and the queue registers of a function return to their reset values; the host error
log stays unless the reset is conventional (R245, R258, R279). -/
def State.resetFn (s : State) (f : Nat) (conventional : Bool) : State :=
  let u := UnitId.fn (fnOf f)
  let s := (List.range 8).foldl (fun s q => s.resetQueueRegs f q) s
  let s := ((s.put u F.FN_INFO_CHANGED 0).put u F.QP_CTRL_VER_REQ 0).put u F.QP_CTRL_VER 0
  let s := s.setFn f { logCnt := if conventional then 0 else (s.fnS f).logCnt }
  if conventional then { s with hostLog := s.hostLog.filter fun e => e.1 / 8 != f } else s

end Sys2Proof.Machine
end

