-- ==== Sys2Proof/Machine/Key.lean ====
section
/-! DEFINITION. The key engine: key slots, wrapped copies and the key commands (R187–R192, R198–R202). A wrapped copy is
idealised: a state word and a body authenticate only as this package wrote them for that slot (R189). -/

namespace Sys2Proof.Machine

open Sys2Proof

/-! ## Wrapped copies (R189, R190) -/

/-- The code of a mark, as the slot state that the copy records (R187). -/
def markCode : KeyMark → Nat
  | .empty => 0 | .active => 1 | .suspended => 2 | .erasing => 3

/-- Where the keystore lies (R189, R198): at STORE once LOCK holds; before that, where it was when the pending sanitise began
(R216). -/
def State.storeAt (s : State) : Nat :=
  (if s.on .key F.KEY_CTRL_LOCK then s.get .key F.KEY_CTRL_STORE else s.sweep.store) * 0x80000

/-- MRAM offset of the wrapped copy of slot `k` (R189). -/
def State.copyAt (s : State) (k : Nat) : Nat := s.storeAt + 128 * k

/-- The 120 bytes of a copy's body. -/
def bodyBytes (w : Wrapped) : List Byte := (List.range 120).map (Config.keyBody w.slot w.fn w.ns w.key)

/-- The state word of a copy of slot `k`: a free value that is not zero, since a word of zeros is an empty copy. -/
def stateWord (k : Nat) (m : KeyMark) (gen : Nat) : Nat := Config.keyStateWord k (markCode m) gen % (2 ^ 64 - 1) + 1

/-- What a copy's state word records, by the latest word written for the slot that equals it: a mark and GEN; a word of zeros is an empty copy that records no GEN; a word that
this package never wrote for the slot does not authenticate. -/
def State.copyMark (s : State) (k : Nat) : Option (KeyMark × Nat) :=
  let w := leNat (s.mramBytes (s.copyAt k + 120) 8)
  if w = 0 then some (.empty, 0)
  else if !s.keys.secret then none
  else (s.keys.marks.find? fun p => p.1 == k && stateWord k p.2.1 p.2.2 == w).map Prod.snd

/-- The key and owner of an authentic body. -/
def State.copyBody (s : State) (k : Nat) : Option Wrapped :=
  let b := s.mramBytes (s.copyAt k) 120
  if s.keys.secret then s.keys.issued.find? fun w => w.slot == k && bodyBytes w == b else none

/-- The state word of a copy written. -/
def State.putMark (s : State) (k : Nat) (m : KeyMark) (gen : Nat) : State :=
  let s := s.putMram (s.copyAt k + 120) (leBytes 8 (stateWord k m gen))
  { s with keys := { s.keys with marks := (k, m, gen) :: s.keys.marks.erase (k, m, gen) } }

/-- The body of a copy written. -/
def State.putBody (s : State) (w : Wrapped) : State :=
  let s := s.putMram (s.copyAt w.slot) (bodyBytes w)
  { s with keys := { s.keys with issued := w :: s.keys.issued.erase w } }

/-! ## Slots (R187, R202) -/

/-- A slot's state set; NACTIVE follows (R200). -/
def State.setSlot (s : State) (k st : Nat) : State :=
  let was := s.slotState k
  let n := s.get .key F.KEY_STAT_NACTIVE - bit (was == 1) + bit (st == 1)
  (s.put .key F.KEY_SLOT_STATE st k).put .key F.KEY_STAT_NACTIVE n

/-- A slot's owner and GEN set. -/
def State.setOwner (s : State) (k ns fn gen : Nat) : State :=
  ((s.put .key F.KEY_SLOT_NS ns k).put .key F.KEY_SLOT_FN fn k).put .key F.KEY_SLOT_GEN gen k

/-- A key placed in hub SRAM, or taken from it. -/
def State.putKey (s : State) (k : Nat) (key : List Byte) : State :=
  { s with keys := { s.keys with slots := tset [] s.keys.slots k key } }

/-- The slots purged from all four caches of medium dies (R190 step 3). -/
def State.purge (s : State) (ks : List Nat) : State :=
  ([0, 1, 2, 3] : List Nat).foldl (fun s m =>
    s.setDie m { s.die m with keyCache := (s.die m).keyCache.filter fun k => !ks.contains k }) s

/-- Steps 3 and 4 of R190 for one slot whose copy is marked erasing with GEN `gen`: the key material is gone, the copy is
empty, GEN rises by 1 modulo 2^16 and the slot is EMPTY. -/
def State.finishErase (s : State) (k gen : Nat) : State :=
  let g := (gen + 1) % 2 ^ 16
  let s := ((s.putMram (s.copyAt k) (List.replicate 120 0)).putMark k .empty g).putKey k []
  (s.setSlot k 0).setOwner k 0 0 g

/-- The wrapped copy of every slot marked erasing, whatever the slot's state, and every slot purged (R208). -/
def State.markAllErasing (s : State) : State :=
  ((List.range 4096).foldl (fun s k =>
    let gen := if s.slotState k != 0 then s.get .key F.KEY_SLOT_GEN k else match s.copyMark k with | some (_, g) => g | none => 0
    ((s.putMark k .erasing gen).setSlot k 3).put .key F.KEY_SLOT_GEN gen k) s).purge (List.range 4096)

/-- Steps 3 and 4 of R190 for every slot (R208). -/
def State.finishAllErases (s : State) : State :=
  (List.range 4096).foldl (fun s k => s.finishErase k (s.get .key F.KEY_SLOT_GEN k)) s

/-! ## Commands -/

/-- A command completes: RESULT, DONE, and BUSY falls (R188, R200, R201). -/
def State.keyEnd (s : State) (result : Nat) : State :=
  (({ s with keys := { s.keys with job := none } }.put .key F.KEY_STAT_BUSY 0).put .key F.KEY_STAT_RESULT result).raise .key
    F.KEY_EVT_DONE

/-- A command runs until KEY_CMD_DONE. -/
def State.keyRuns (s : State) (j : KeyJob) : State :=
  { s with keys := { s.keys with job := some j } }.put .key F.KEY_STAT_BUSY 1

/-- A shelf sanitise runs, up to its Report phase, or is pending (R208, R216). -/
def State.shelfSanitise (s : State) : Bool :=
  s.sweep.op == 2 && s.sweep.shelf &&
  ((s.on .sweep F.SWP_STAT_BUSY && s.get .sweep F.SWP_STAT_PHASE != 5) || s.on .sweep F.SWP_STAT_PENDING)

/-- The gate before every key command: the normal world is ignored with a denied access (R3, R192), and so is a command
written while BUSY is 1, in the hub's summary (R192); during a shelf sanitise every command completes with 0x02 (R208). -/
def State.keyGate (s : State) (w : World) (run : State → State) : State :=
  match w with
  | .normal => s.denied .key
  | .secure =>
    if s.on .key F.KEY_STAT_BUSY then s.denied .hub else if s.shelfSanitise then s.keyEnd 0x02 else run s

/-- LOAD and RESTORE are allowed in Provisioning and Deployed and complete with 0x02 otherwise (R488). -/
def State.keyLifecycle (s : State) (run : State → State) : State :=
  if s.get .cfg F.CFG_STAT_LCS = 1 ∨ s.get .cfg F.CFG_STAT_LCS = 2 then run s else s.keyEnd 0x02

/-- LOCK is 1: LOAD, RESTORE and ERASE complete with 0x05 until it is (R189). -/
def State.keyLocked (s : State) (run : State → State) : State :=
  if s.on .key F.KEY_CTRL_LOCK then run s else s.keyEnd 0x05

/-- The slots of a scope (R188): the slot, the slots that an owner function holds, or all. An EMPTY slot has no owner. -/
def State.scopeSlots (s : State) (scope slot fn : Nat) : List Nat :=
  if scope = 0 then [slot]
  else if scope = 1 then (List.range 4096).filter fun k => s.slotState k != 0 && s.get .key F.KEY_SLOT_FN k == fn
  else List.range 4096

/-- The GEN that the existing copy of a slot records: none where its state word, or the body of an active or suspended copy,
fails authentication (R188). -/
def State.copyGen (s : State) (k : Nat) : Nat :=
  match s.copyMark k with
  | some (.active, g) | some (.suspended, g) => if (s.copyBody k).isSome then g else 0
  | some (_, g) => g
  | none => 0

/-- LOAD (R188, R192, R200): the body of the copy is written first, under a state word that reads empty with the slot's GEN;
the rest follows at KEY_CMD_DONE (R190). -/
def State.keyLoad (s : State) (slot fn ns : Nat) : State :=
  if s.slotState slot != 0 then s.keyEnd 0x02
  else
    let src := s.get .key F.KEY_SRC_ADDR / 64 * 64
    let (s, ans) := s.masterRead 11 .key src 64
    match ans.data? with
    | none => s.keyEnd 0x06
    | some key =>
      if key.take 32 == key.drop 32 then s.keyEnd 0x03
      else
        let gen := s.copyGen slot
        let w : Wrapped := ⟨slot, fn, ns, key⟩
        ((s.putMark slot .empty gen).putBody w).keyRuns ⟨1, [], 0x00, true, some ⟨w, gen, src⟩⟩

/-- The end of a LOAD: the state word of the copy is written last, the source is zeroed, and the slot enters ACTIVE with its
owner and GEN (R188, R190). -/
def State.keyLoaded (s : State) (j : KeyLoadJob) : State :=
  let k := j.body.slot
  let s := ((s.putMark k .active j.gen).masterWrite 11 .key j.src (List.replicate 64 0)).putKey k j.body.key
  (s.setSlot k 1).setOwner k j.body.ns j.body.fn j.gen

/-- KEY_LOAD (R188). -/
def execKeyLoad (w : World) (slot : Fin 4096) (fn : Fin 1024) (ns : Fin 4) (s : State) : Res :=
  .next (s.clean.keyGate w fun s => s.keyLifecycle fun s => s.keyLocked fun s => s.keyLoad slot.val fn.val ns.val)

/-- RESTORE of one EMPTY slot: the state that the copy records, and the result (R188, R190). -/
def State.restoreSlot (s : State) (k : Nat) : State × Nat :=
  match s.copyMark k with
  | none => (s, 0x04)
  | some (.empty, _) => (s, 0x08)
  | some (.erasing, g) => ((s.purge [k]).finishErase k g, 0x07)
  | some (m, g) =>
    match s.copyBody k with
    | none => (s, 0x04)
    | some b => (((s.putKey k b.key).setSlot k (markCode m)).setOwner k b.ns b.fn g, 0x00)

/-- RESTORE over the whole scope: slots that are not EMPTY, and empty copies, are passed over; the first failure is
reported (R188). -/
def State.restoreAll (s : State) (first : Nat) : List Nat → State × Nat
  | [] => (s, first)
  | k :: ks =>
    if s.slotState k != 0 then s.restoreAll first ks
    else
      let (s, r) := s.restoreSlot k
      s.restoreAll (if first = 0 && r != 0x08 then r else first) ks

/-- KEY_RESTORE (R188): SCOPE 0 and 2. -/
def execKeyRestore (w : World) (scope : Fin 3) (slot : Fin 4096) (s : State) : Res :=
  .next (s.clean.keyGate w fun s =>
    if scope.val = 1 then s.keyEnd 0x02
    else s.keyLifecycle fun s => s.keyLocked fun s =>
      if scope.val = 0 then
        if s.slotState slot.val != 0 then s.keyEnd 0x02
        else
          let (s, r) := s.restoreSlot slot.val
          s.keyRuns ⟨2, [], r, true, none⟩
      else
        let (s, r) := s.restoreAll 0 (List.range 4096)
        s.keyRuns ⟨2, [], r, true, none⟩)

/-- KEY_SUSPEND (R188): the slot leaves the caches and is refused from now on; it enters SUSPENDED once its uses have
ended. -/
def execKeySuspend (w : World) (scope : Fin 3) (slot : Fin 4096) (fn : Fin 1024) (s : State) : Res :=
  .next (s.clean.keyGate w fun s =>
    let ks := (s.scopeSlots scope.val slot.val fn.val).filter fun k => s.slotState k == 1
    if scope.val = 2 || (scope.val = 0 && ks.isEmpty) then s.keyEnd 0x02
    else (s.purge ks).keyRuns ⟨3, ks, 0x00, false, none⟩)

/-- KEY_RESUME (R188). -/
def execKeyResume (w : World) (scope : Fin 3) (slot : Fin 4096) (fn : Fin 1024) (s : State) : Res :=
  .next (s.clean.keyGate w fun s =>
    let ks := (s.scopeSlots scope.val slot.val fn.val).filter fun k => s.slotState k == 2
    if scope.val = 2 || (scope.val = 0 && ks.isEmpty) then s.keyEnd 0x02
    else
      (ks.foldl (fun s k => (s.putMark k .active (s.get .key F.KEY_SLOT_GEN k)).setSlot k 1) s).keyRuns ⟨4, [], 0x00, true, none⟩)

/-- Step 1 of R190: the slots of an erase that have a key, and the EMPTY ones whose copy is marked erasing, are marked in
ascending order; any other EMPTY slot is passed over. -/
def State.markErasing (s : State) : List Nat → State × List Nat
  | [] => (s, [])
  | k :: ks =>
    if s.slotState k = 0 then
      match s.copyMark k with
      | some (.erasing, g) =>
        let (s, r) := (s.put .key F.KEY_SLOT_GEN g k).markErasing ks
        (s, k :: r)
      | _ => s.markErasing ks
    else
      let s := (s.putMark k .erasing (s.get .key F.KEY_SLOT_GEN k)).setSlot k 3
      let (s, r) := s.markErasing ks
      (s, k :: r)

/-- KEY_ERASE (R190): the marks, then the purge; the keys go once every use has ended. -/
def execKeyErase (w : World) (scope : Fin 3) (slot : Fin 4096) (fn : Fin 1024) (s : State) : Res :=
  .next (s.clean.keyGate w fun s => s.keyLocked fun s =>
    let (s, ks) := s.markErasing (s.scopeSlots scope.val slot.val fn.val)
    (s.purge ks).keyRuns ⟨5, ks, 0x00, ks.isEmpty, none⟩)

/-- No encryption or decryption that started with a key of these slots is under way. -/
def State.keysDrained (s : State) (ks : List Nat) : Bool := !(s.keys.uses.any fun u => ks.contains u.slot)

/-- KEY_ERASE_DRAINED (R190 step 4): the keys in SRAM and the copies' material become zeros. -/
def execKeyEraseDrained (s : State) : Res :=
  let s := s.clean
  match s.keys.job with
  | none => .next s
  | some j =>
    if j.op != 5 || j.drained || !s.keysDrained j.slots then .next s
    else
      let s := j.slots.foldl (fun s k => s.finishErase k (s.get .key F.KEY_SLOT_GEN k)) s
      .next { s with keys := { s.keys with job := some { j with slots := [], drained := true } } }

/-- KEY_CMD_DONE: the command that runs finishes; a LOAD makes its copy active; a SUSPEND marks its copies and its slots enter SUSPENDED once their uses
have ended (R188). -/
def execKeyCmdDone (s : State) : Res :=
  let s := s.clean
  match s.keys.job with
  | none => .next s
  | some j =>
    if j.op = 3 then
      if s.keysDrained j.slots then
        .next ((j.slots.foldl (fun s k => (s.putMark k .suspended (s.get .key F.KEY_SLOT_GEN k)).setSlot k 2) s).keyEnd j.result)
      else .next s
    else if j.drained then .next (((j.load.map fun l => s.keyLoaded l).getD s).keyEnd j.result)
    else .next s

/-- KEY_CMD_RESERVED: OP 0 or 6–15, SCOPE 3, or a SCOPE that the OP does not take, completes with 0x02 (R188, R199). -/
def execKeyCmdReserved (w : World) (op scope : Nat) (s : State) : Res :=
  let reserved := decide (op = 0 ∨ 5 < op ∨ 2 < scope) || (op == 1 && scope != 0) || (op == 2 && scope == 1) ||
    ((op == 3 || op == 4) && scope == 2)
  .next (s.clean.keyGate w fun s => if reserved then s.keyEnd 0x02 else s)

end Sys2Proof.Machine
end

