-- ==== Sys2Proof/Machine/Sweep.lean ====
section
/-! DEFINITION. The sweep: format and sanitise, their phases, fill sectors, defects and progress records (R204–R220). -/

namespace Sys2Proof.Machine

open Sys2Proof

/-! ## Progress records (R214) -/

/-- A 64-byte record with its WGEN and CRC (R214). -/
def progressBytes (words : List Nat) (wgen : Nat) : List Byte :=
  let b := (wordsBytes words ++ List.replicate 56 0).take 56 ++ leBytes 4 wgen
  b ++ leBytes 4 (crc32c b)

/-- WGEN of a copy, when its CRC matches. -/
def copyWgen (bs : List Byte) : Option Nat :=
  if leNat (bs.drop 60) = crc32c (bs.take 60) then some (leNat ((bs.drop 56).take 4)) else none

/-- A record written into the copy with the lower WGEN, with a WGEN one above the other copy's; a copy whose CRC fails is
the lower (R214). -/
def State.putProgress (s : State) (off : Nat) (words : List Nat) : State :=
  let a := copyWgen (s.mramBytes off 64)
  let b := copyWgen (s.mramBytes (off + 64) 64)
  match a, b with
  | none, _ => s.putMram off (progressBytes words (b.getD 0 + 1))
  | some x, none => s.putMram (off + 64) (progressBytes words (x + 1))
  | some x, some y =>
    if x ≤ y then s.putMram off (progressBytes words (y + 1)) else s.putMram (off + 64) (progressBytes words (x + 1))

/-- The valid copy of a record (R214). -/
def State.getProgress (s : State) (off : Nat) : Option (List Byte) :=
  let a := s.mramBytes off 64
  let b := s.mramBytes (off + 64) 64
  match copyWgen a, copyWgen b with
  | none, none => none
  | some _, none => some a
  | none, some _ => some b
  | some x, some y => if x < y then some b else some a

/-- The words of the header (R214). -/
def State.headerWords (s : State) (phase result : Nat) : List Nat :=
  let w := s.sweep
  [ placed w.op 0 4 + placed phase 4 4 + placed w.method 8 2 + placed w.passes 10 2 + placed (bit w.verify) 12 1 +
      placed (bit w.shelf) 13 1 + placed (s.get .sweep F.SWP_STAT_PASS) 14 2 + placed w.starts 16 16 + placed w.seed 32 32,
    w.asm, placed w.geomCrc 0 32 + placed w.geomN 32 32,
    placed (w.before + (s.get .aon F.AON_SECONDS - w.began)) 0 32 + placed result 32 8 ]

/-- The header written with a PHASE and RESULT. -/
def State.putHeader (s : State) (phase result : Nat) : State := s.putProgress (s.sweep.area * 16384) (s.headerWords phase result)

/-- The record of actuator `n` written (R214, R215). -/
def State.putActRecord (s : State) (n : Nat) (x : SwpAct) : State :=
  s.putProgress (s.sweep.area * 16384 + 128 + 128 * n)
    [ placed x.gidx 0 16 + placed x.state 16 8 + placed x.track 40 24, placed x.seqNext 0 48,
      placed x.tracks 0 32 + placed x.defects 32 32, x.sectors ]

/-- The records of every actuator written (R214). -/
def State.putRecords (s : State) : State := (List.range 96).foldl (fun s n => s.putActRecord n (s.swpAct n)) s

/-- An assembly mask covers an actuator. -/
def inAsm (asm : Nat) (n : Nat) : Bool := asm / 2 ^ (n / 2) % 2 == 1

/-- The actuators in scope. -/
def State.swpScope (s : State) : List (Fin 96) := allActs.filter fun a => inAsm s.sweep.asm a.val

/-! ## Geometry (R209, R210) -/

/-- A geometry entry from its 16 bytes (R209). -/
def geomOf (bs : List Byte) : GeomEntry :=
  let w0 := wordAt bs 0
  let w1 := wordAt bs 1
  { act := bitsOf w0 0 7, head := bitsOf w0 8 4, zset := bitsOf w0 12 6, first := bitsOf w0 24 24, last := bitsOf w1 0 24,
    reserved := bitsOf w0 7 1 != 0 || bitsOf w0 18 6 != 0 || bitsOf w0 48 16 != 0 || bitsOf w1 24 40 != 0 }

/-- `n` entries of a table. -/
def geomList : Nat → List Byte → List GeomEntry
  | 0, _ => []
  | n + 1, bs => geomOf (bs.take 16) :: geomList n (bs.drop 16)

/-- The table named by SWP_GEOM and SWP_GEOM_N: its entries and CRC (R209, R214, R217). -/
def State.readGeom (s : State) : State × Option (List GeomEntry × Nat) :=
  let n := s.get .sweep F.SWP_GEOM_N
  if n = 0 ∨ 65536 < n then (s, none)
  else
    let (s, ans) := s.masterRead 12 .sweep (s.get .sweep F.SWP_GEOM * 16) (16 * n)
    match ans.data? with
    | none => (s, none)
    | some bs => (s, some (geomList n bs, crc32c bs))

/-- The cases of R209 that refuse a table. -/
def State.geomBad (s : State) (asm : Nat) (g : List GeomEntry) : Bool :=
  (g.any fun e => e.reserved || decide (95 < e.act) || decide (e.last < e.first)) ||
  (allActs.any fun a => inAsm asm a.val && !(g.any fun e => e.act == a.val)) ||
  g.any fun e =>
    let u := UnitId.act (actOf e.act)
    let rate := s.get u F.ZSET_RATE e.zset
    inAsm asm e.act && (decide (s.get u F.YL_BRIDGE_HEADS < e.head) || decide (rate < 1000 ∨ 3000 < rate) ||
      !burstFits (s.get u F.SV_FIELD_GATE_LEN) rate (s.get u F.SL_TUNE_GUARD))

/-- The entry in progress of an actuator. -/
def State.swpEntry (s : State) (x : SwpAct) : GeomEntry := s.sweep.geom.getD x.gidx ⟨0, 0, 0, 0, 0, false⟩

/-- The index of the first entry of an actuator at or after `k`. -/
def State.nextEntry (s : State) (n k : Nat) : Option Nat :=
  ((List.range s.sweep.geom.length).drop k).find? fun i => (s.sweep.geom.getD i ⟨0, 0, 0, 0, 0, false⟩).act == n

/-- The sectors of a track after interval `i`, bit `b`: how many fit before the start wedge's gate opens again, and the
interval in which the last one ends (R210). -/
def trackPlan (gate rate guard gap : Nat) : Nat → Nat → Nat → Nat × Nat → Nat × Nat
  | 0, _, _, r => r
  | n + 1, i, b, r =>
    let whole := intervalBits gate rate / 10000
    let (i, b) := if whole - guard ≤ b then (i + 1, guard) else (i, b)
    let (k, e) := sectorSpan gate rate guard b
    if 540 ≤ i + k then r else trackPlan gate rate guard gap n (i + k) (e + gap) (r.1 + 1, i + k)

/-- The plan of the present track: its sectors, and the interval of its last postamble. -/
def State.swpPlan (s : State) (a : Fin 96) : Nat × Nat :=
  let u := UnitId.act a
  let e := s.swpEntry (s.swpAct a.val)
  let guard := (s.sluice a.val).guard
  trackPlan (s.get u F.SV_FIELD_GATE_LEN) (s.get u F.ZSET_RATE e.zset) guard (s.get .sweep F.SWP_TUNE_GAP) 8192 0 guard (0, 0)

/-- SKEW in force: 0 acts as 1 (R220). -/
def State.swpSkew (s : State) : Nat := max 1 (s.get .sweep F.SWP_TUNE_SKEW)

/-! ## Phases (R207) -/

/-- The phases that an operation runs, in order (R207). -/
def swpPhases (op method : Nat) (shelf : Bool) : List Nat :=
  if op = 1 then (if shelf then [1, 3, 4, 5] else [1, 4, 5])
  else if shelf then [1] ++ (if method = 1 ∨ method = 3 then [2] else []) ++ [3] ++ (if method = 2 ∨ method = 3 then [4] else []) ++ [5]
  else [1, 4, 5]

/-- The sweep enters a phase: the header with the new PHASE is written; the first action waits until it is durable. -/
def State.enterPhase (s : State) (p : Nat) : State :=
  let s := s.put .sweep F.SWP_STAT_PHASE p
  { s with sweep := { s.sweep with begun := false } }.putHeader p 0xFF

/-- The phase after the present one. -/
def State.nextPhase (s : State) : State :=
  let p := s.get .sweep F.SWP_STAT_PHASE
  match (swpPhases s.sweep.op s.sweep.method s.sweep.shelf).find? fun q => decide (p < q) with
  | some q => s.enterPhase q
  | none => s

/-- Tracks of a list of entries. -/
def geomTracks (g : List GeomEntry) : Nat := g.foldl (fun n e => n + (e.last + 1 - e.first)) 0

/-- Tracks that an actuator has done in the present pass: all of its entries once it is done; else its entries before the
one in progress, and that one's tracks before the present. -/
def State.tracksDone (s : State) (n : Nat) (x : SwpAct) : Nat :=
  let mine := s.sweep.geom.filter fun e => e.act == n
  let past := (s.sweep.geom.take x.gidx).filter fun e => e.act == n
  if x.state = 0 then 0 else if x.state = 3 then geomTracks mine else geomTracks past + (x.track - (s.swpEntry x).first)

/-- Tracks done, in thousandths of the table (R220). -/
def State.swpPermille (s : State) : State :=
  let total := geomTracks (s.sweep.geom.filter fun e => inAsm s.sweep.asm e.act)
  let done := s.sweep.acts.foldl (fun n p => n + s.tracksDone p.1 p.2) 0
  s.put .sweep F.SWP_STAT_PERMILLE (if total = 0 then 0 else done * 1000 / total)

/-- A seek of the sweep to its track (R210). -/
def State.swpSeek (s : State) (a : Fin 96) : State :=
  let x := s.swpAct a.val
  (s.setSwpAct a.val { x with step := 3, sect := 0, next := 0, fills := [], slips := 0 }).svMove a 1
    ⟨s.get .sweep F.SWP_TUNE_PROF, (s.swpEntry x).head, x.track, 0⟩

/-- The next pass begins, or the Report phase, once no actuator waits or runs (R207). -/
def State.swpCheckEnd (s : State) : State :=
  if s.get .sweep F.SWP_STAT_PHASE != 4 || !s.sweep.begun || s.sweep.acts.any fun p => p.2.state == 1 || p.2.state == 2 then s
  else
    let pass := s.get .sweep F.SWP_STAT_PASS
    if pass + 1 < s.sweep.passes && s.sweep.acts.any fun p => p.2.state == 3 then
      let s := (s.put .sweep F.SWP_STAT_PASS (pass + 1)).putHeader 4 0xFF
      (((s.sweep.acts.filter fun p => p.2.state == 3).map fun p => p.1).foldl (fun s n =>
        let x := s.swpAct n
        let g := (s.nextEntry n 0).getD 0
        let x := { x with state := 2, gidx := g, startWedge := 0 }
        let x := { x with track := (s.swpEntry x).first }
        ((s.setSwpAct n x).putActRecord n x).swpSeek (actOf n)) s).swpPermille
    else s.nextPhase

/-- An actuator is stopped: it ends where it stands, and its assembly's bit in SWP_MISS is set (R213). -/
def State.swpStop (s : State) (a : Fin 96) : State :=
  let x := s.swpAct a.val
  if x.state = 1 ∨ x.state = 2 then
    let x := { x with state := 4, step := 0, fills := [] }
    let miss := s.get .sweep F.SWP_MISS
    (((s.setSwpAct a.val x).putActRecord a.val x).put .sweep F.SWP_MISS (miss ||| 2 ^ (a.val / 2))).raise .sweep F.SWP_EVT_STOPPED
      |>.swpCheckEnd
  else s

/-- The sweep's LOAD: an actuator that does not enter LOADING is stopped (R108, R210). -/
def State.swpLoad (s : State) (a : Fin 96) : State :=
  let x := s.swpAct a.val
  let s := (s.setSwpAct a.val { x with step := 2 }).svLoad a ⟨0, (s.swpEntry x).head, 0, 0⟩
  if s.svState a = 2 then s else s.swpStop a

/-- What the end of the sweep's own servo command leads to: SPIN_UP, then LOAD, then the seek; anything but 0x00 from
SPIN_UP or LOAD stops the actuator (R210). -/
def State.swpPoll (s : State) (a : Fin 96) : State :=
  let u := UnitId.act a
  let x := s.swpAct a.val
  let good := s.get u F.SV_RESULT_RESULT == 0
  if x.state != 2 then s
  else if x.step = 1 then
    if (s.servo a.val).spin.isSome then s
    else if good && s.get u F.SV_RESULT_OP == 5 then s.swpLoad a
    else s.swpStop a
  else if x.step = 2 then
    if (s.servo a.val).motion.isSome then s
    else if good && s.get u F.SV_RESULT_OP == 3 then s.swpSeek a
    else s.swpStop a
  else s

/-- The rate of the entry in progress of an actuator: its zone set's RATE (R209). -/
def State.swpRate (s : State) (a : Fin 96) : Nat := s.get (.act a) F.ZSET_RATE (s.swpEntry (s.swpAct a.val)).zset

/-- The first decision of a track (R137, R210): in FOLLOW on it, with the lane in T7 and its rate acknowledged (R143; DESIGN
CHOICE, log 213), the writing begins; otherwise it slips a revolution, and beyond SLIP_MAX slips in a row the actuator is
stopped. -/
def State.swpWedge (s : State) (a : Fin 96) (w : Nat) : State :=
  let x := s.swpAct a.val
  if x.state != 2 || x.step != 3 || decisionWedge x.startWedge (s.leadOf a) != w then s
  else if s.followOn a (s.swpEntry x).head x.track && s.upT7 a && (s.lane a.val).wrate == s.swpRate a then
    s.setSwpAct a.val { x with step := 4, slips := 0, sect := 0, next := 0, fills := [] }
  else if s.get (.act a) F.SL_CTRL_SLIP_MAX < x.slips + 1 then s.swpStop a
  else s.setSwpAct a.val { x with slips := x.slips + 1 }

/-- The sweep's SPIN_UP: one refused because firmware's SPIN_UP still runs stops the actuator (R108, R210). -/
def State.swpSpin (s : State) (a : Fin 96) : State :=
  let t := (s.setSwpAct a.val { s.swpAct a.val with state := 2, step := 1 }).spinUp a
  if (s.servo a.val).spin = some .up then t.swpStop a else t.swpPoll a

/-- The first action of phase 4: SPIN_UP for every in-scope actuator not yet done (R210). -/
def State.swpSpinAll (s : State) : State :=
  ((s.sweep.acts.filter fun p => p.2.state == 1).map fun p => actOf p.1).foldl (fun s a => s.swpSpin a) s

/-- The journals of the dies zeroed, JTAIL and JHEAD 0; the whole keystore zeroed for a sanitise (R207). A die whose JLOG2 is
0 has no journal (R166). -/
def State.swpMetadata (s : State) : State :=
  let region := fun (s : State) (base len : Nat) => { s with mram := tkeep (fun k => !decide (base ≤ k ∧ k < base + len)) s.mram }
  let s := ([0, 1, 2, 3] : List (Fin 4)).foldl (fun s m =>
    let u := UnitId.med m
    let j := s.get u F.SLD_JCFG_JLOG2
    let s := if j = 0 then s else region s (s.get u F.SLD_JCFG_JBASE * 4096) (32 * 2 ^ j)
    (s.put u F.SLD_JTAIL 0).put u F.SLD_JHEAD 0) s
  if s.sweep.op = 2 then region s s.storeAt 0x80000 else s

/-- SWP_PHASE_BEGIN (R207, R208, R210, R218): the Crypto phase begins once the key engine's command has ended (R188). -/
def execSwpPhaseBegin (s : State) : Res :=
  let s := s.clean
  let p := s.get .sweep F.SWP_STAT_PHASE
  if !s.on .sweep F.SWP_STAT_BUSY || s.sweep.begun || (p == 2 && s.on .key F.KEY_STAT_BUSY) then .next s
  else
    let s := { s with sweep := { s.sweep with begun := true } }.raise .sweep F.SWP_EVT_PHASE
    if p = 1 then
      let s := s.swpScope.foldl (fun s a => (((s.put (.act a) F.SL_CTRL_EN 0).slCancelAll a fun _ => true).chStop a)) s
      .next ((s.tenantHold.map fun c => s.freezeTenants c).getD s)
    else if p = 2 then .next s.markAllErasing
    else if p = 3 then .next s.swpMetadata
    else if p = 4 then
      .next s.putRecords.swpSpinAll.swpCheckEnd
    else .next s

/-- SWP_QUIESCE_DONE: SL_STAT.IDLE and CH_STAT.IDLE on every in-scope actuator (R207). -/
def execSwpQuiesceDone (s : State) : Res :=
  let s := s.clean
  if s.on .sweep F.SWP_STAT_BUSY && s.get .sweep F.SWP_STAT_PHASE == 1 && s.sweep.begun &&
      s.swpScope.all fun a => (s.sluice a.val).ents.isEmpty && (s.chan a.val).ents.isEmpty then .next s.nextPhase
  else .next s

/-- SWP_CRYPTO_DONE: every use of a key has ended, and steps 3 and 4 of R190 run for every slot (R208). -/
def execSwpCryptoDone (s : State) : Res :=
  let s := s.clean
  if s.on .sweep F.SWP_STAT_BUSY && s.get .sweep F.SWP_STAT_PHASE == 2 && s.sweep.begun && s.keys.uses.isEmpty then
    .next s.finishAllErases.nextPhase
  else .next s

/-- SWP_METADATA_DONE (R207). -/
def execSwpMetadataDone (s : State) : Res :=
  let s := s.clean
  if s.on .sweep F.SWP_STAT_BUSY && s.get .sweep F.SWP_STAT_PHASE == 3 && s.sweep.begun then .next s.nextPhase else .next s

/-! ## Fill sectors (R211–R213) -/

/-- The 32 KiB of plaintext of a fill sector (R211). -/
def State.fillData (s : State) : List Byte :=
  if s.sweep.op = 2 && s.sweep.seed != 0 then seq31Bytes 32768 (s.sweep.seed ^^^ s.get .sweep F.SWP_STAT_PASS)
  else List.replicate 32768 0

/-- A defect entry (R213). -/
def defectBytes (a head cause track sect : Nat) (wrap : Bool) : List Byte :=
  wordsBytes [placed a 0 7 + placed head 8 4 + placed cause 12 4 + placed track 16 24 + placed sect 40 13, placed (bit (!wrap)) 63 1]

/-- A defect counted and posted, or counted as lost while the ring is full (R212). -/
def State.swpDefect (s : State) (a : Fin 96) (cause sect : Nat) : State :=
  let x := s.swpAct a.val
  let e := s.swpEntry x
  let s := (s.setSwpAct a.val { x with defects := x.defects + 1 }).count .sweep F.SWP_CNT_DEFECT
  let n := s.get .sweep F.SWP_DQ_CFG_LOG2N
  let t := s.get .sweep F.SWP_DQ_TAIL
  if n < 4 ∨ 12 < n ∨ ringFree n (s.get .sweep F.SWP_DQ_HEAD) t = 0 then
    (s.count .sweep F.SWP_CNT_DEFLOST).raise .sweep F.SWP_EVT_DQ_FULL
  else
    let s := s.masterWrite 12 .sweep (ringAt (s.get .sweep F.SWP_DQ_CFG_BASE) n 16 t)
      (defectBytes a.val e.head cause x.track sect s.sweep.wrap)
    let t' := (t + 1) % 2 ^ n
    { s with sweep := { s.sweep with wrap := if t' = 0 then !s.sweep.wrap else s.sweep.wrap } }.put .sweep F.SWP_DQ_TAIL t'

/-- The tag of codeword `j` of a fill sector (R69, R211). -/
def fillTag (seq sect j : Nat) : Nat := codewordTag seq j false 2 (sectorInfo 0xFFFFFF sect 0 0)

/-- The place of sector `k` of a track: the wedge interval after the start wedge, and its first bit in it (R210). -/
def fillPlace (gate rate guard gap : Nat) : Nat → Nat × Nat
  | 0 => (0, guard)
  | k + 1 =>
    let (i, b) := fillPlace gate rate guard gap k
    let (n, e) := sectorSpan gate rate guard b
    if intervalBits gate rate / 10000 - guard ≤ e + gap then (i + n + 1, guard) else (i + n, e + gap)

/-- Sector `k` of the present track as it is released (R210–R212): its tags, place and rate, the actuator's next sequence number,
and CH_DEC, CH_SYNC and the kind of verify latched as for a sector of the sluice (R94, R146). -/
def State.fillEntry (s : State) (a : Fin 96) (k : Nat) : SlEntry :=
  let u := UnitId.act a
  let x := s.swpAct a.val
  let g := s.swpEntry x
  let p := fillPlace (s.get u F.SV_FIELD_GATE_LEN) (s.swpRate a) ((s.sluice a.val).guard) (s.get .sweep F.SWP_TUNE_GAP) k
  { idx := k, order := (s.sluice a.val).nextOrder,
    e := { writeEntryOf [] with head := g.head, track := x.track, band := 0xFFFFFF, sect := k, zset := g.zset,
                                wedge := (x.startWedge + p.1) % 540, start := p.2 },
    rate := s.swpRate a, slot := 0, ph := .writing, started := true, seq := s.seqNext a, released := true, holds := false,
    dec := s.decSet a, zone := s.zoneSet a g.zset, vmode := s.on u F.SL_CTRL_VMODE || s.get u F.YL_STAT_READERS != 3 }

/-- The bytes of a fill sector (R66, R211). -/
def State.fillBytes (s : State) (e : SlEntry) : List Byte :=
  encodeSector s.fillData e.seq 0xFFFFFF e.e.sect 0 0 false 2

/-- The next sector of the track is released (R210–R212): it takes the actuator's next sequence number; one whose release finds
WRITE_OK at 0 is not written, a defect of cause 3. -/
def State.fillRelease (s : State) (a : Fin 96) : State :=
  let u := UnitId.act a
  let x := s.swpAct a.val
  let e := s.fillEntry a x.next
  let ok := s.on u F.SV_STAT_WRITE_OK
  let e := if ok then burstOf (s.get u F.SV_FIELD_GATE_LEN) ((s.sluice a.val).guard) e else { e with ph := .closing, status := 3 }
  let l := s.sluice a.val
  let s := ((s.put u F.SL_SEQ_NEXT (e.seq + 1)).setSluice a.val { l with nextOrder := l.nextOrder + 1 }).setSwpAct a.val
    { x with next := x.next + 1, fills := x.fills ++ [e] }
  if ok then s.emit (.fillSector a.val e.e.head x.track e.e.sect (s.fillBytes e)) else s

/-- The next burst of the sweep's track (R139, R210): of the fill sector being written, or of the next one as it is released. -/
def State.fillBurst (s : State) (a : Fin 96) : State :=
  let u := UnitId.act a
  let x := s.swpAct a.val
  match s.fillWriting? a with
  | some e =>
    if e.burst || e.sent = sectorBits || !s.on u F.SV_STAT_WRITE_OK then s
    else s.putFill a (burstOf (s.get u F.SV_FIELD_GATE_LEN) ((s.sluice a.val).guard) e)
  | none => if x.state == 2 && x.step == 4 && decide (x.next < (s.swpPlan a).1) then s.fillRelease a else s

/-- BURST_START: the next burst of the sector being written begins at its place after a gate (R139); of two sectors
released, the first released is written first; during a sweep, a fill sector's (R210). -/
def execBurstStart (a : Fin 96) (s : State) : Res :=
  let s := s.clean
  let u := UnitId.act a
  match firstReleased (fun e => e.ph == .writing) (s.sluice a.val).ents with
  | none => .next (s.fillBurst a)
  | some e =>
    if e.burst || e.sent = sectorBits || !s.on u F.SV_STAT_WRITE_OK then .next s
    else .next (s.putEnt a (burstOf (s.get u F.SV_FIELD_GATE_LEN) (s.sluice a.val).guard e))

/-- A sector whose postamble is sent (R139). -/
def sectorWritten (e : SlEntry) : SlEntry := { e with ph := .verifying, burst := false, left := 0, sent := sectorBits }

/-- SECTOR_WRITE_END: the postamble is sent; the sector enters VERIFYING (R139, R147, R210). -/
def execSectorWriteEnd (a : Fin 96) (s : State) : Res :=
  let s := s.clean
  match firstReleased (fun e => e.ph == .writing) (s.sluice a.val).ents with
  | none => .next (match s.fillWriting? a with
    | some e => s.putFill a (sectorWritten e)
    | none => s)
  | some e => .next (s.putEnt a (sectorWritten e))

/-- A revolution verify of this sector may begin (R146). -/
def readsBack (e : SlEntry) : Bool := e.ph == .verifying && e.vmode && !e.reading

/-- REVOLUTION_VERIFY_START: one revolution after writing, the read-back begins (R146, R212); it is off-track while ON_TRACK
is 0. -/
def execRevolutionVerifyStart (a : Fin 96) (s : State) : Res :=
  let s := s.clean
  let off := !s.on (.act a) F.SV_STAT_ONTRACK
  match firstReleased readsBack (s.sluice a.val).ents with
  | none => .next (match if s.sweep.verify then (s.swpAct a.val).fills.find? readsBack else none with
    | some e => s.putFill a { e with reading := true, off := off }
    | none => s)
  | some e => .next (s.putEnt a { e with reading := true, off := off })

/-- The write rate that the actuator needs next (R143): that of the FILLED entry with the nearest decision point, or of the track
that the sweep waits to write (R210). -/
def State.nextRate? (s : State) (a : Fin 96) : Option Nat :=
  match s.nextFilled? a with
  | some e => some e.rate
  | none => if (s.swpAct a.val).state == 2 && (s.swpAct a.val).step == 3 then some (s.swpRate a) else none

/-- WRATE_SET: sent when the next FILLED entry, or the sweep's track, needs another rate and no sector is WRITING (R142, R143,
R210). -/
def execWrateSet (a : Fin 96) (s : State) : Res :=
  let s := s.clean
  match s.nextRate? a with
  | none => .next s
  | some rate =>
    if s.slWriting a || (s.lane a.val).wrate == rate || !s.upT7 a || ((s.lane a.val).out.any fun m => m.op == 0x15) ||
        ((s.lane a.val).waiting.any fun m => m.op == 0x15) then .next s
    else .next (s.sbSend a 0x15 rate .sluice)

/-- A fill sector's read-back is off-track or meets no sync mark (R146). -/
def fillUnread (e : SlEntry) (obs : VerifyObs) : Bool := e.vmode && (e.off || !verifySync e.dec obs)

/-- The codewords of a fill sector that fail its verify (R147, R212). -/
def State.fillBad (s : State) (a : Fin 96) (e : SlEntry) (obs : VerifyObs) : Nat :=
  s.verifyBad a e.dec (fillUnread e obs) (fillTag e.seq e.e.sect) obs

/-- The cause of the defect that a fill sector becomes (R212, R213): its own when it was not written whole, 1 when its verify failed,
and 0 for none. -/
def State.fillCause (s : State) (a : Fin 96) (e : SlEntry) (obs : VerifyObs) : Nat :=
  if e.status != 0 then e.status else if s.sweep.verify && s.fillBad a e obs != 0 then 1 else 0

/-- A fill sector's verify counts its codewords as a verify of the sluice does (R95, R147, R164); one that was not written whole, or
needs no verify, counts none. -/
def State.fillVerified (s : State) (a : Fin 96) (e : SlEntry) (obs : VerifyObs) : State :=
  if !s.sweep.verify || e.status != 0 then s
  else (s.verifyCount a e.dec (fillUnread e obs) obs).count (.act a) F.SL_CNT_VFAILCW (s.fillBad a e obs)

/-- The result of a fill sector may come (R212): it was cut short, or it is written, and its read-back has begun where the sweep
verifies one revolution later. -/
def State.fillEnds (s : State) (e : SlEntry) : Bool :=
  e.ph == .closing || (e.ph == .verifying && (!s.sweep.verify || !e.vmode || e.reading))

/-- SWP_FILL_SECTOR_RESULT: the result of the oldest fill sector without one is in; a failure is a defect (R211, R212). One that was
never released counts as not written. -/
def execSwpFillSectorResult (a : Fin 96) (obs : VerifyObs) (s : State) : Res :=
  let s := s.clean
  let x := s.swpAct a.val
  match x.fills with
  | [] => .next s
  | e :: es =>
    if x.state != 2 || x.step != 4 || !s.fillEnds e then .next s
    else
      let cause := s.fillCause a e obs
      let y := { x with sect := x.sect + 1, fills := es }
      let s := s.fillVerified a e obs
      let s := if e.status = 3 && e.sent = 0 then s.setSwpAct a.val y
        else (s.setSwpAct a.val { y with sectors := x.sectors + 1 }).count .sweep F.SWP_CNT_SECT
      .next (if cause = 0 then s else s.swpDefect a cause e.e.sect)

/-- SWP_TRACK_DONE: the last result of the track is in; the record is updated, and the actuator seeks to its next track or
is done (R210, R215); after the seal opened during a FORMAT it stops (R219). -/
def execSwpTrackDone (a : Fin 96) (s : State) : Res :=
  let s := s.clean
  let x := s.swpAct a.val
  let (n, last) := s.swpPlan a
  if x.state != 2 || x.step != 4 || decide (x.sect < n) then .next s
  else
    let e := s.swpEntry x
    let x := { x with tracks := x.tracks + 1, seqNext := s.seqNext a,
                      startWedge := (x.startWedge + last + s.swpSkew) % 540 }
    let y := if x.track < e.last then { x with track := x.track + 1 }
      else match s.nextEntry a.val (x.gidx + 1) with
        | some g => { x with gidx := g, track := (s.sweep.geom.getD g ⟨0, 0, 0, 0, 0, false⟩).first }
        | none => { x with state := 3, step := 0 }
    let s := ((s.setSwpAct a.val y).putActRecord a.val y).swpPermille
    if y.state = 3 then .next s.swpCheckEnd
    else if s.sweep.sealStop then .next (s.swpStop a)
    else .next (s.swpSeek a)

/-- A lane declared down during the sweep: its current sector becomes a defect of cause 1 and the actuator is stopped
(R219). -/
def State.swpLaneDown (s : State) (a : Fin 96) : State :=
  let x := s.swpAct a.val
  if x.state != 2 then s.swpStop a
  else if x.step = 4 && decide (x.sect < (s.swpPlan a).1) then
    (s.swpDefect a 1 (((s.fillWriting? a).map fun e => e.e.sect).getD x.sect)).swpStop a
  else s.swpStop a

/-! ## Commands (R204–R206, R217, R220) -/

/-- A command completes at once with a result. -/
def State.swpRefuse (s : State) (result : Nat) : State := s.put .sweep F.SWP_STAT_RESULT result

/-- The checks of R205 that come before every start. -/
def State.swpGate (s : State) (w : World) (run : State → State) : State :=
  match w with
  | .normal => s.denied .sweep
  | .secure =>
    if s.mode = .diagnostic then s.swpRefuse 0x02
    else if s.on .sweep F.SWP_STAT_BUSY then s.swpRefuse 0x01
    else if s.on .sweep F.SWP_STAT_PENDING then s.swpRefuse 0x02
    else if !s.on .sweep F.SWP_CTRL_LOCK then s.swpRefuse 0x05
    else if s.mode = .twelve ∨ s.mode = .serve then run s
    else s.swpRefuse 0x02

/-- Presence as it stands (R490, R493). -/
def State.present (s : State) : Bool := s.get .cfg F.CFG_STAT_PRES != 0

/-- The seal is open (R491). -/
def State.sealOpen (s : State) : Bool := s.on .cfg F.CFG_STAT_SEAL_OPEN

/-- An operation starts: the records are written, the mode changes, BUSY is set and the first phase is entered (R206, R207,
R214). -/
def State.swpStart (s : State) (op method passes : Nat) (verify shelf : Bool) (asm : Nat) (g : List GeomEntry) (crc : Nat) : State :=
  let asm := if shelf then 2 ^ 48 - 1 else asm % 2 ^ 48
  let w : Sweep :=
    { op := op, method := method, passes := max 1 passes, verify := verify, shelf := shelf, asm := asm,
      seed := s.get .sweep F.SWP_SEED, starts := 1, began := s.get .aon F.AON_SECONDS, geomCrc := crc, geomN := g.length, geom := g,
      wrap := s.sweep.wrap, retMode := s.mode, area := s.get .sweep F.SWP_CTRL_PROG, store := s.get .key F.KEY_CTRL_STORE }
  let s := { s with sweep := w }
  let s := (allActs.filter fun a => inAsm asm a.val && !g.isEmpty).foldl (fun s a =>
    let k := (s.nextEntry a.val 0).getD 0
    s.setSwpAct a.val { state := 1, gidx := k, track := (g.getD k ⟨0, 0, 0, 0, 0, false⟩).first, seqNext := s.seqNext a }) s
  let s := (((s.put .sweep F.SWP_STAT_OP op).put .sweep F.SWP_STAT_BUSY 1).put .sweep F.SWP_STAT_PASS 0).put .sweep F.SWP_STAT_PERMILLE 0
  let s := (s.put .sweep F.SWP_MISS 0).put .sweep F.SWP_STAT_RESULT 0
  (s.putRecords.setMode (if op = 1 then .format else .sanitise)).enterPhase 1

/-- FORMAT (R204, R209). -/
def execFormat (w : World) (verify shelf : Bool) (asm : Nat) (s : State) : Res :=
  .next (s.clean.swpGate w fun s =>
    let lcs := s.get .cfg F.CFG_STAT_LCS
    if lcs = 0 ∨ 3 < lcs then s.swpRefuse 0x02
    else if shelf && !s.present then s.swpRefuse 0x0B
    else if s.sealOpen then s.swpRefuse 0x0C
    else
      match s.readGeom with
      | (s, none) => s.swpRefuse 0x03
      | (s, some (g, crc)) =>
        if s.geomBad (if shelf then 2 ^ 48 - 1 else asm % 2 ^ 48) g then s.swpRefuse 0x03
        else s.swpStart 1 0 1 verify shelf asm g crc)

/-- SANITISE (R204, R209): METHOD 0 is no method, and METHOD 1 or 3 needs the whole shelf. -/
def execSanitise (w : World) (method passes : Fin 4) (verify shelf : Bool) (asm : Nat) (s : State) : Res :=
  .next (s.clean.swpGate w fun s =>
    let m := method.val
    if s.get .cfg F.CFG_STAT_LCS = 0 then s.swpRefuse 0x02
    else if m = 0 || (!shelf && m != 2) then s.swpRefuse 0x03
    else if shelf && !s.present && !(m == 1 && s.sealOpen) then s.swpRefuse 0x0B
    else if m = 1 then s.swpStart 2 m 1 verify shelf asm [] 0
    else
      match s.readGeom with
      | (s, none) => s.swpRefuse 0x03
      | (s, some (g, crc)) =>
        if s.geomBad (if shelf then 2 ^ 48 - 1 else asm % 2 ^ 48) g then s.swpRefuse 0x03
        else s.swpStart 2 m passes.val verify shelf asm g crc)

/-- The operation that a progress header records: the fields of `Sweep`, with PHASE, PASS and RESULT (R214). -/
def headerOf (bs : List Byte) : Sweep × Nat × Nat × Nat :=
  let w0 := wordAt bs 0
  let w2 := wordAt bs 2
  let w3 := wordAt bs 3
  ({ op := bitsOf w0 0 4, method := bitsOf w0 8 2, passes := bitsOf w0 10 2, verify := bitsOf w0 12 1 == 1,
     shelf := bitsOf w0 13 1 == 1, asm := bitsOf (wordAt bs 1) 0 48, seed := bitsOf w0 32 32, starts := bitsOf w0 16 16,
     before := bitsOf w3 0 32, geomCrc := bitsOf w2 0 32, geomN := bitsOf w2 32 32 },
    bitsOf w0 4 4, bitsOf w0 14 2, bitsOf w3 32 8)

/-- An actuator's state at a resume (R217): states 1, 2 and 4 restart at their recorded track with SEQ_NEXT plus 8,192. -/
def State.resumeAct (s : State) (a : Fin 96) : State :=
  let bs := (s.getProgress (s.sweep.area * 16384 + 128 + 128 * a.val)).getD []
  let w0 := wordAt bs 0
  let w2 := wordAt bs 2
  let st := bitsOf w0 16 8
  let back := st == 1 || st == 2 || st == 4
  let x : SwpAct :=
    { state := if back then 1 else st, gidx := bitsOf w0 0 16, track := bitsOf w0 40 24,
      seqNext := bitsOf (wordAt bs 1) 0 48 + (if back then 8192 else 0), tracks := bitsOf w2 0 32, defects := bitsOf w2 32 32,
      sectors := wordAt bs 3 }
  let s := s.setSwpAct a.val x
  if back then s.put (.act a) F.SL_SEQ_NEXT x.seqNext else s

/-- RESUME on acceptance: phase 4 restarts at the recorded PASS, or the Report phase of an operation without one; a shelf
operation holds the tenants' queues (R217, R218). -/
def State.swpResume (s : State) (g : List GeomEntry) : State :=
  let boot := s.mode == .sanitise
  let w := { s.sweep with geom := g, starts := s.sweep.starts + 1, retMode := if boot then .twelve else s.mode, boot := false,
                          sealStop := false, acts := [] }
  let s := { s with sweep := w }
  let s := if g.isEmpty then s else s.swpScope.foldl (fun s a => s.resumeAct a) s
  let s := ((s.put .sweep F.SWP_STAT_BUSY 1).put .sweep F.SWP_STAT_PENDING 0).put .sweep F.SWP_STAT_RESULT 0
  let s := (s.put .sweep F.SWP_STAT_OP w.op).put .sweep F.SWP_MISS 0
  let s := (s.setMode (if w.op = 1 then .format else .sanitise)).swpPermille.enterPhase (if g.isEmpty then 5 else 4)
  (s.tenantHold.map fun c => s.freezeTenants c).getD s

/-- RESUME (R205, R206, R217). -/
def execResume (w : World) (s : State) : Res :=
  let s := s.clean
  match w with
  | .normal => .next (s.denied .sweep)
  | .secure =>
    if s.mode = .diagnostic then .next (s.swpRefuse 0x02)
    else if s.on .sweep F.SWP_STAT_BUSY then .next (s.swpRefuse 0x01)
    else if !s.on .sweep F.SWP_STAT_PENDING then .next (s.swpRefuse 0x02)
    else if !s.on .sweep F.SWP_CTRL_LOCK then .next (s.swpRefuse 0x05)
    else if !(s.mode == .twelve || s.mode == .serve || s.mode == .recovery || (s.mode == .sanitise && s.sweep.boot)) then
      .next (s.swpRefuse 0x02)
    else if s.sweep.geomN = 0 then .next (s.swpResume [])
    else
      match s.readGeom with
      | (s, none) => .next (s.swpRefuse 0x0D)
      | (s, some (g, crc)) =>
        if g.length = s.sweep.geomN && crc = s.sweep.geomCrc then .next (s.swpResume g) else .next (s.swpRefuse 0x0D)

/-- The operation ends: RESULT in the header and the register, BUSY and PENDING 0, the mode returned (R206, R207). -/
def State.swpEnd (s : State) (result : Nat) (mode : Mode) : State :=
  let s := s.putHeader (s.get .sweep F.SWP_STAT_PHASE) result
  let s := ((s.put .sweep F.SWP_STAT_RESULT result).put .sweep F.SWP_STAT_BUSY 0).put .sweep F.SWP_STAT_PENDING 0
  (s.put .sweep F.SWP_STAT_PHASE 0).setMode mode

/-- ABORT (R205, R206, R219): a running FORMAT, but for its Report phase, or a pending one, ends with 0x09. -/
def execAbort (w : World) (s : State) : Res :=
  let s := s.clean
  match w with
  | .normal => .next (s.denied .sweep)
  | .secure =>
    if s.mode = .diagnostic then .next (s.swpRefuse 0x02)
    else if s.on .sweep F.SWP_STAT_BUSY then
      if s.sweep.op = 1 && s.get .sweep F.SWP_STAT_PHASE != 5 then
        .next ({ s with sweep := { s.sweep with acts := [] } }.swpEnd 0x09 s.sweep.retMode)
      else .next (s.swpRefuse 0x02)
    else if s.on .sweep F.SWP_STAT_PENDING && s.sweep.op == 1 && (s.mode == .twelve || s.mode == .serve || s.mode == .recovery) then
      .next (s.swpEnd 0x09 s.mode)
    else .next (s.swpRefuse 0x02)

/-- SWP_CMD_RESERVED (R220): an OP other than 1 to 4. -/
def execSwpCmdReserved (w : World) (op : Nat) (s : State) : Res :=
  let s := s.clean
  match w with
  | .normal => .next (s.denied .sweep)
  | .secure => if 1 ≤ op % 16 ∧ op % 16 ≤ 4 then .next s else .next (s.swpRefuse 0x02)

/-- SWP_REPORT (R207, R213, R219). -/
def execSwpReport (s : State) : Res :=
  let s := s.clean
  if !s.on .sweep F.SWP_STAT_BUSY || s.get .sweep F.SWP_STAT_PHASE != 5 || !s.sweep.begun then .next s
  else
    let result := if s.sweep.sealStop then 0x0C else if s.get .sweep F.SWP_MISS != 0 then 0x0E else 0x00
    .next ((s.swpEnd result s.sweep.retMode).raise .sweep F.SWP_EVT_DONE)

/-- What the controller does with the progress header before any hart starts (R216): an unfinished SANITISE in phases 1 to
3 runs its remaining phases up to 3; PENDING reads 1 for every unfinished operation. The answer tells whether the header
recorded a SANITISE in phases 1 to 3. -/
def State.swpAtLoad (s : State) : State × Bool :=
  let s := s.put .sweep F.SWP_STAT_PENDING 0
  match s.getProgress (s.sweep.area * 16384) with
  | none => (s, false)
  | some bs =>
    let (w, phase, pass, result) := headerOf bs
    if result != 0xFF || phase = 0 || (w.op != 1 && w.op != 2) then (s, false)
    else
      let s := { s with sweep := { w with began := s.get .aon F.AON_SECONDS, area := s.sweep.area, store := s.sweep.store } }
      let s := ((s.put .sweep F.SWP_STAT_PENDING 1).put .sweep F.SWP_STAT_OP w.op).put .sweep F.SWP_STAT_PASS pass
      if w.op = 2 && phase ≤ 3 then
        let ps := swpPhases w.op w.method w.shelf
        let run := fun p => ps.contains p && decide (phase ≤ p)
        let s := if run 2 then s.markAllErasing.finishAllErases else s
        ((if run 3 then s.swpMetadata else s).putHeader ((ps.find? fun p => decide (3 < p)).getD 5) 0xFF, true)
      else (s, false)

end Sys2Proof.Machine
end

