-- ==== Sys2Proof/Machine/ServoCmd.lean ====
section
/-! DEFINITION. The servo engine's commands and events, each with what the sweep engine does with its end (R98–R129,
R210, R218). -/

namespace Sys2Proof.Machine

open Sys2Proof

/-- A command that the sweep's ownership refuses: 0x02 for every SV_CMD but HALT while the link is up (R108, R218). -/
def State.svFirm (s : State) (a : Fin 96) (op : Nat) (run : State → State) : State :=
  if s.upT7 a && s.swept a then s.svDone a op 0x02 else run s

/-- SERVO_WEDGE (R100–R106, R110–R113): the loop's work, and the sweep's decision at that wedge: the one that the loop reports,
or the one that passes while no loop runs (R210). -/
def execServoWedge (a : Fin 96) (o : WedgeObs) (s : State) : Res :=
  let t := s.clean.svWedge a o
  let t := t.swpWedge a (if s.upT7 a && s.flying a then t.get (.act a) F.SV_STAT_WEDGE else o.wedge)
  .next (t.swpPoll a)

/-- ACQUIRE_TIMEOUT (R110). -/
def execAcquireTimeout (a : Fin 96) (s : State) : Res :=
  let s := s.clean
  .next (if s.svState a = 3 then (s.servoLost a).swpPoll a else s)

/-- LOST_MAX in force: 0 acts as 1 (R127). -/
def State.lostMax (s : State) (a : Fin 96) : Nat := max 1 (s.get (.act a) F.SV_WIN_LOST_MAX)

/-- SERVO_LOST (R112). -/
def execServoLost (a : Fin 96) (s : State) : Res :=
  let s := s.clean
  .next (if s.flying a && decide (s.lostMax a ≤ (s.servo a.val).lostRun) then (s.servoLost a).swpPoll a else s)

/-- SETTLE_TIMEOUT (R111): the command completes with 0x0A, and the state stays SETTLE. -/
def execSettleTimeout (a : Fin 96) (s : State) : Res :=
  let s := s.clean
  let v := s.servo a.val
  let late := s.svState a == 6 && decide (s.get (.act a) F.SV_SHOCK_SETTLE_MAX ≤ v.settleAll)
  .next (if late && (v.motion == some .seek || v.motion == some .offset) then (s.endMotion a 0x0A).swpPoll a else s)

/-- SHOCK_HOLD_END (R113). -/
def execShockHoldEnd (a : Fin 96) (s : State) : Res :=
  let s := s.clean
  let v := s.servo a.val
  .next (if v.shockOn && v.shockLeft == 0 then s.setServo a.val { v with shockOn := false } else s)

/-- The loop runs: FOLLOW, SEEK and SETTLE await a wedge boundary for a swap (R105). -/
def State.coefSwap (s : State) (a : Fin 96) : State :=
  if s.flying a then s.raise (.act a) F.SV_LIM_SWAP else s.swapNow a

/-- COEF_SWAP (R105). -/
def execCoefSwap (a : Fin 96) (s : State) : Res := .next (s.clean.coefSwap a)

/-- SV_CTRL.EN written 1 (R114, R121, R122): HALTED becomes OFF, and OFF becomes PARKED in T7. -/
def State.svEnable (s : State) (a : Fin 96) : State :=
  let s := s.raise (.act a) F.SV_CTRL_EN
  (if s.svState a = 8 then s.setSv a 0 else s).svLaneUp a

/-- SV_ENABLE (R122). -/
def execSvEnable (a : Fin 96) (s : State) : Res := .next (s.clean.svEnable a)

/-- SV_CTRL.EN written 0 (R121, R122). -/
def State.svDisable (s : State) (a : Fin 96) : State :=
  ((s.put (.act a) F.SV_CTRL_EN 0).svStop a).swpPoll a

/-- SV_DISABLE (R122). -/
def execSvDisable (a : Fin 96) (s : State) : Res := .next (s.clean.svDisable a)

/-- SEEK (R108, R109). -/
def execSeek (a : Fin 96) (g : SvArgs) (s : State) : Res := .next (s.clean.svFirm a 1 fun s => s.svMove a 1 g)

/-- OFFSET (R108, R109). -/
def execOffset (a : Fin 96) (g : SvArgs) (s : State) : Res := .next (s.clean.svFirm a 2 fun s => s.svMove a 2 g)

/-- SV_LOAD (R108, R117). -/
def execSvLoad (a : Fin 96) (g : SvArgs) (s : State) : Res := .next (s.clean.svFirm a 3 fun s => s.svLoad a g)

/-- UNLOAD (R108). -/
def execUnload (a : Fin 96) (s : State) : Res := .next (s.clean.svFirm a 4 fun s => s.svUnload a)

/-- SPIN_UP (R108, R118). -/
def execSpinUp (a : Fin 96) (s : State) : Res := .next (s.clean.svFirm a 5 fun s => s.spinUp a)

/-- SPIN_DOWN (R108, R119). -/
def execSpinDown (a : Fin 96) (s : State) : Res := .next (s.clean.svFirm a 6 fun s => s.spinDown a)

/-- HALT (R108, R120, R218): accepted under a sweep too, and it stops the sweep of the actuator. -/
def State.haltCmd (s : State) (a : Fin 96) : State :=
  let t := s.svHalt a
  if s.upT7 a && s.on (.act a) F.SV_CTRL_EN && s.swept a then t.swpStop a else t

/-- HALT (R120). -/
def execHalt (a : Fin 96) (s : State) : Res := .next (s.clean.haltCmd a)

/-- SV_CMD_RESERVED (R108, R123): OP 8 to 15 complete with 0x03; OP 0 issues nothing. -/
def execSvCmdReserved (a : Fin 96) (op : Nat) (s : State) : Res :=
  .next (if 8 ≤ op % 16 then s.clean.svDone a (op % 16) 0x03 else s.clean)

/-- A write of SV_CMD (R108, R123). -/
def State.svCommand (s : State) (a : Fin 96) (op : Nat) (g : SvArgs) : State :=
  match op % 16 with
  | 0 => s
  | 1 => s.svFirm a 1 fun s => s.svMove a 1 g
  | 2 => s.svFirm a 2 fun s => s.svMove a 2 g
  | 3 => s.svFirm a 3 fun s => s.svLoad a g
  | 4 => s.svFirm a 4 fun s => s.svUnload a
  | 5 => s.svFirm a 5 fun s => s.spinUp a
  | 6 => s.svFirm a 6 fun s => s.spinDown a
  | 7 => s.haltCmd a
  | _ => s.svDone a (op % 16) 0x03

/-- SPIN_GRANT (R118). -/
def execSpinGrant (m : Fin 4) (s : State) : Res := .next (s.clean.spinGrant m)

/-- Both actuators of an assembly as the sweep sees their completed commands. -/
def State.swpPollBoth (s : State) (m k : Nat) : State := (s.swpPoll (evenOf m k)).swpPoll (oddOf m k)

/-- SPIN_TIMEOUT (R118). -/
def execSpinTimeout (m : Fin 4) (k : Fin 12) (s : State) : Res :=
  .next ((s.clean.spinTimeout m k.val).swpPollBoth m.val k.val)

end Sys2Proof.Machine
end

