-- ==== Sys2Proof/Machine/Stripe.lean ====
section
/-! DEFINITION. The stripe engines: descriptors, the Reed–Solomon stripe code and degraded stripes (R167–R182,
R193–R197). -/

namespace Sys2Proof.Machine

open Sys2Proof

/-! ## Layouts -/

/-- A descriptor from its 64 bytes (R172). -/
def stripeDescOf (bs : List Byte) : StripeDesc :=
  let w0 := wordAt bs 0
  let w1 := wordAt bs 1
  let w2 := wordAt bs 2
  { tag := bitsOf w0 0 16, op := bitsOf w0 16 4, k := bitsOf w0 20 6, p := bitsOf w0 26 4, auto := bitsOf w0 30 1 == 1,
    len := bitsOf w0 32 10, erase := bitsOf w1 0 48, list := bitsOf w2 0 52,
    reserved := bitsOf w0 31 1 != 0 || bitsOf w0 42 22 != 0 || bitsOf w1 48 16 != 0 || bitsOf w2 52 12 != 0 ||
      (bs.drop 24).any fun b => b != 0 }

/-- An entry of the column list (R173). -/
structure StripeCol where
  addr : Nat
  act : Nat
  valid : Bool
  reserved : Bool
  deriving DecidableEq, Repr

/-- Entry `c` of a column list (R173). -/
def stripeColOf (bs : List Byte) (c : Nat) : StripeCol :=
  let w := wordAt bs c
  { addr := bitsOf w 0 52, act := bitsOf w 52 7, valid := bitsOf w 63 1 == 1, reserved := bitsOf w 59 4 != 0 }

/-- The columns of a stripe, by number: 0 to K−1 and 40 to 40+P−1 (R167). -/
def stripeCols (k p : Nat) : List Nat := List.range k ++ (List.range p).map fun i => 40 + i

/-- The row of a column in the stripe code, over the K data columns (R167). -/
def stripeRow (k c : Nat) : List Nat :=
  (List.range k).map fun j => if c < 40 then (if c = j then 1 else 0) else stripeCoef (c - 40) j

/-! ## Solving for the erased columns (R167, R174) -/

/-- A row scaled. -/
def rowScale (f : Nat) (r : List Nat) : List Nat := r.map (gfMul f)

/-- A row less a multiple of another. -/
def rowSub (r q : List Nat) (f : Nat) : List Nat := List.zipWith (fun a b => a ^^^ gfMul f b) r q

/-- One step of Gauss–Jordan elimination: rows finished, rows left. -/
def gaussStep (st : List (List Nat) × List (List Nat)) (c : Nat) : List (List Nat) × List (List Nat) :=
  match st.2.find? fun r => r.getD c 0 != 0 with
  | none => st
  | some r =>
    let q := rowScale (gfInv (r.getD c 0)) r
    let clear := fun x => rowSub x q (x.getD c 0)
    (st.1.map clear ++ [q], (st.2.erase r).map clear)

/-- The inverse of a square matrix over GF(2^8). -/
def gfInverse (m : List (List Nat)) : List (List Nat) :=
  let n := m.length
  let aug := (List.range n).map fun i => m.getD i [] ++ (List.range n).map fun j => if i = j then 1 else 0
  ((List.range n).foldl gaussStep ([], aug)).1.map fun r => r.drop n

/-- A row vector times a matrix. -/
def rowTimes (v : List Nat) (m : List (List Nat)) : List Nat :=
  (List.zipWith rowScale v m).foldl (fun x y => List.zipWith (fun a b => a ^^^ b) x y) (List.replicate v.length 0)

/-- The sum of columns of bytes with coefficients (R167). -/
def combine (coefs : List Nat) (cols : List (List Byte)) : List Byte :=
  (List.zip coefs cols).foldl (fun x y => List.zipWith (fun a b => a ^^^ BitVec.ofNat 8 (gfMul y.1 b.toNat)) x y.2)
    (List.replicate 64 0)

/-! ## Descriptors -/

/-- The actuator is marked in STR_DOWN (R180, R196). -/
def State.strDown (s : State) (a : Nat) : Bool :=
  if a < 64 then s.get (.stripe 0) F.STR_DOWN_LO / 2 ^ a % 2 == 1
  else decide (a < 96) && s.get (.stripe 0) F.STR_DOWN_HI / 2 ^ (a - 64) % 2 == 1

/-- STR_DOWN gains an actuator, and DOWN is set on all four engines (R180). -/
def State.setStrDown (s : State) (a : Fin 96) : State :=
  let s := if s.strDown a.val then s
    else if a.val < 64 then s.put (.stripe 0) F.STR_DOWN_LO (s.get (.stripe 0) F.STR_DOWN_LO + 2 ^ a.val)
    else s.put (.stripe 0) F.STR_DOWN_HI (s.get (.stripe 0) F.STR_DOWN_HI + 2 ^ (a.val - 64))
  ([0, 1, 2, 3] : List (Fin 4)).foldl (fun s k => s.raise (.stripe k) F.STR_EVT_DOWN) s

/-- The erasure set of a REBUILD: ERASE, and under AUTO every column of the stripe whose actuator is marked (R172, R174,
R181). -/
def State.erasureSet (s : State) (d : StripeDesc) (col : Nat → StripeCol) : List Nat :=
  (stripeCols d.k d.p).filter fun c =>
    d.erase / 2 ^ c % 2 == 1 || (d.auto && s.strDown (col c).act)

/-- The columns that the operation uses: read, then written (R174). -/
def stripeUse (d : StripeDesc) (col : Nat → StripeCol) (lost : List Nat) : List Nat × List Nat :=
  let all := stripeCols d.k d.p
  if d.op = 1 then (List.range d.k, (List.range d.p).map fun i => 40 + i)
  else if d.op = 2 then ((all.filter fun c => (col c).valid && !lost.contains c).take d.k, lost.filter fun c => (col c).valid)
  else (all, [])

/-- Two VALID entries of the stripe name actuators of one assembly (R175). -/
def sharedAssembly (d : StripeDesc) (col : Nat → StripeCol) : Bool :=
  let v := (stripeCols d.k d.p).filter fun c => (col c).valid
  v.any fun c => v.any fun e => c != e && (col c).act / 2 == (col e).act / 2

/-- The checks of R175 that need no column list. -/
def descBad (d : StripeDesc) : Bool :=
  d.op == 0 || decide (3 < d.op) || d.reserved || d.k == 0 || decide (40 < d.k) || d.p == 0 || decide (8 < d.p) || d.len == 0 ||
  decide (512 < d.len) || d.list % 64 != 0 ||
  (List.range 48).any fun c => d.erase / 2 ^ c % 2 == 1 && !(stripeCols d.k d.p).contains c

/-- The checks of R175 on the column list. -/
def listBad (d : StripeDesc) (col : Nat → StripeCol) (lost : List Nat) : Bool :=
  let (rd, wr) := stripeUse d col lost
  (stripeCols d.k d.p).any (fun c => (col c).reserved) ||
  (rd ++ wr).any (fun c => (col c).addr % 64 != 0) ||
  (d.op != 2 && (stripeCols d.k d.p).any fun c => !(col c).valid) ||
  (d.op == 2 && lost.isEmpty) || (d.auto && sharedAssembly d col)

/-- The rate of an engine's next source read, in GB/s: RATE_LIM, then the weirs' halvings, down to 4 GB/s (R196, R456). -/
def State.stripeRate (s : State) (k : Fin 4) : Nat :=
  let lim := s.get (.stripe k) F.STR_TUNE_RATE_LIM
  let full := if 1 ≤ lim ∧ lim ≤ 32 then lim else 32
  max (min full 4) (full / 2 ^ s.weir.halve)

/-- One 64-byte offset of a descriptor's sources: a poisoned or refused line is none (R178, R322). -/
def State.readLines (s : State) (k : Fin 4) (off : Nat) : List Nat → State × List (Option (List Byte))
  | [] => (s, [])
  | a :: as =>
    let (s, r) := s.masterRead (4 + k.val) (.stripe k) (a + off) 64
    let s := if r.data?.isNone then s.count (.stripe k) F.STR_CNT_POISON else s
    let (s, rs) := s.readLines k off as
    (s, r.data? :: rs)

/-- Two buffers of `len` bytes overlap. -/
def buffersMeet (len a b : Nat) : Bool := decide (a < b + len ∧ b < a + len)

/-- Output `i` of a descriptor overlaps another buffer that the descriptor reads or writes (R179). -/
def outputMeets (len : Nat) (rd wr : List Nat) (i : Nat) : Bool :=
  let a := wr.getD i 0
  rd.any (buffersMeet len a) || (wr.eraseIdx i).any (buffersMeet len a)

/-- The output at one offset: the sum over the columns read, or 64 free bytes where the buffer overlaps another (R174,
R179). -/
def stripeOut (free : Option Nat) (at_ : Nat) (sum : List Byte) : List Byte :=
  match free with
  | some n => (List.range 64).map fun i => Config.overlapByte n (at_ + i)
  | none => sum

/-- One 64-byte offset of a descriptor: outputs written, and what was met: poison, parity rows that differ. -/
def State.stripeLine (s : State) (k : Fin 4) (rd : List Nat) (wr : List (Nat × Option Nat)) (coefs : List (List Nat)) (np off : Nat) :
    State × Bool × Nat :=
  let (s, ls) := s.readLines k off rd
  if ls.any Option.isNone then (wr.foldl (fun s a => s.masterPoison (4 + k.val) (.stripe k) (a.1 + off) 64) s, true, 0)
  else
    let cols := ls.map fun o => o.getD []
    let outs := coefs.map fun c => combine c (cols.take c.length)
    let miss := (List.range np).foldl (fun m i =>
      if outs.getD i [] == cols.getD (cols.length - np + i) [] then m else m + 2 ^ i) 0
    ((List.zip wr outs).foldl (fun s p =>
      s.masterWrite (4 + k.val) (.stripe k) (p.1.1 + off) (stripeOut p.1.2 (p.1.1 + off) p.2)) s, false, miss)

/-- `n` lines from offset `off`: whether poison was met and which parity rows differ. -/
def State.stripeLines (s : State) (k : Fin 4) (rd : List Nat) (wr : List (Nat × Option Nat)) (coefs : List (List Nat)) (np : Nat) :
    Nat → Nat → State × Bool × Nat
  | 0, _ => (s, false, 0)
  | n + 1, off =>
    let (s, p1, m1) := s.stripeLine k rd wr coefs np off
    let (s, p2, m2) := s.stripeLines k rd wr coefs np n (off + 64)
    (s, p1 || p2, m1 ||| m2)

/-- The coefficients of the outputs over the columns read (R167, R174). -/
def stripeCoefs (d : StripeDesc) (rd wr : List Nat) : List (List Nat) :=
  if d.op = 2 then
    let inv := gfInverse (rd.map (stripeRow d.k))
    wr.map fun c => rowTimes (stripeRow d.k c) inv
  else (List.range d.p).map fun i => stripeRow d.k (40 + i)

/-- A mask of columns. -/
def colMask (l : List Nat) : Nat := l.foldl (fun m c => m + 2 ^ c) 0

/-- The work of a descriptor that starts (R174, R175, R178). -/
def State.stripeRun (s : State) (k : Fin 4) (idx : Nat) (d : StripeDesc) : State × StripeJob :=
  if descBad d then (s, ⟨idx, d.tag, 0x30, 0, 0⟩)
  else
    let (s, ans) := s.masterRead (4 + k.val) (.stripe k) d.list 384
    match ans.data? with
    | none => (s, ⟨idx, d.tag, 0x24, 0, 0⟩)
    | some bs =>
      let col := stripeColOf bs
      let lost := if d.op = 2 then s.erasureSet d col else []
      if listBad d col lost then (s, ⟨idx, d.tag, 0x30, 0, 0⟩)
      else
        let (rd, wr) := stripeUse d col lost
        if d.op = 2 && decide (rd.length < d.k) then (s, ⟨idx, d.tag, 0x33, 0, colMask lost⟩)
        else
          let src := rd.map fun c => (col c).addr
          let dst := wr.map fun c => (col c).addr
          let (n, t) := s.draw
          let meets := (List.range dst.length).map fun i => if outputMeets (64 * d.len) src dst i then some n else none
          let s := if meets.any Option.isSome then t else s
          let s := s.setStripe k.val { s.stripe k.val with rate := s.stripeRate k }
          let np := if d.op = 3 then d.p else 0
          let (s, poison, miss) := s.stripeLines k src (dst.zip meets) (stripeCoefs d rd wr) np d.len 0
          let status := if poison then 0x24 else if miss != 0 then 0x34 else 0x00
          (s, ⟨idx, d.tag, status, if poison then 0 else miss, colMask lost⟩)

/-- An engine's state replaced, with STR_STAT as it shows it (R194). -/
def State.putStripe (s : State) (k : Fin 4) (e : StripeEng) : State :=
  ((s.setStripe k.val e).putBit (.stripe k) F.STR_STAT_IDLE (e.active.isEmpty && e.fetched.isNone)).put (.stripe k)
    F.STR_STAT_ACTIVE e.active.length

/-- The next descriptor in ring order, fetched when none is waiting (R171, R177). One that cannot be read has a reserved
OP. -/
def State.stripeNext? (s : State) (k : Fin 4) : State × Option (Nat × StripeDesc) :=
  let u := UnitId.stripe k
  let e := s.stripe k.val
  match e.fetched with
  | some x => (s, some x)
  | none =>
    let h := s.get u F.STR_DQ_HEAD
    if !(s.on u F.STR_CTRL_EN && e.run && h != s.get u F.STR_DQ_TAIL) then (s, none)
    else
      let n := s.get u F.STR_DQ_CFG_LOG2N
      let (s, ans) := s.masterRead (4 + k.val) u (ringAt (s.get u F.STR_DQ_CFG_BASE) n 64 h) 64
      (s.put u F.STR_DQ_HEAD ((h + 1) % 2 ^ n), some (h, stripeDescOf (ans.data?.getD (List.replicate 64 0))))

/-- A descriptor may start: EN 1, PAUSE 0, fewer than two active, and a place in the completion ring for it and for
every active one (R177, R194). -/
def State.stripeMay (s : State) (k : Fin 4) : Bool :=
  let u := UnitId.stripe k
  let n := (s.stripe k.val).active.length
  s.on u F.STR_CTRL_EN && !s.on u F.STR_CTRL_PAUSE && decide (n < 2) &&
  decide (n + 1 ≤ ringFree (s.get u F.STR_CQ_CFG_LOG2N) (s.get u F.STR_CQ_HEAD) (s.get u F.STR_CQ_TAIL))

/-- The next descriptor starts when its OP is `op` or reserved; one that may not start yet, or has another OP, stays
fetched. -/
def State.stripeStart (s : State) (k : Fin 4) (op : Nat) : State :=
  match s.stripeNext? k with
  | (s, none) => s
  | (s, some (idx, d)) =>
    if s.stripeMay k && (d.op == op || d.op == 0 || decide (3 < d.op)) then
      let (s, job) := s.stripeRun k idx d
      s.putStripe k { s.stripe k.val with fetched := none, active := (s.stripe k.val).active ++ [job] }
    else s.putStripe k { s.stripe k.val with fetched := some (idx, d) }

/-- ENCODE starts (R174). -/
def execEncode (k : Fin 4) (s : State) : Res := .next (s.clean.stripeStart k 1)

/-- REBUILD starts (R174, R181). -/
def execRebuild (k : Fin 4) (s : State) : Res := .next (s.clean.stripeStart k 2)

/-- CHECK starts (R174). -/
def execCheck (k : Fin 4) (s : State) : Res := .next (s.clean.stripeStart k 3)

/-- The two words of a stripe completion (R176). -/
def stripeCompletion (j : StripeJob) (wrap : Bool) : List Byte :=
  wordsBytes [placed j.tag 0 16 + placed j.status 16 8 + placed j.mismatch 24 8, placed j.used 0 48 + placed (bit (!wrap)) 63 1]

/-- The events and counters of a stripe completion (R195, R196). -/
def State.stripeEvents (s : State) (k : Fin 4) (status : Nat) : State :=
  let u := UnitId.stripe k
  let s := (s.raise u F.STR_EVT_CQ).count u F.STR_CNT_DESC
  if status = 0x34 then (s.raise u F.STR_EVT_MISMATCH).count u F.STR_CNT_MISMATCH
  else if status = 0x33 then (s.raise u F.STR_EVT_TOO_MANY).count u F.STR_CNT_TOOMANY
  else if status = 0x30 then s.raise u F.STR_EVT_BAD_ENTRY
  else if status = 0x24 then s.raise u F.STR_EVT_POISON
  else s

/-- A completion posted (R171, R176, R177). -/
def State.stripePost (s : State) (k : Fin 4) (j : StripeJob) : State :=
  let u := UnitId.stripe k
  let n := s.get u F.STR_CQ_CFG_LOG2N
  let t := s.get u F.STR_CQ_TAIL
  let e := s.stripe k.val
  let s := s.masterWrite (4 + k.val) u (ringAt (s.get u F.STR_CQ_CFG_BASE) n 16 t) (stripeCompletion j e.wrap)
  let s := (s.put u F.STR_CQ_TAIL ((t + 1) % 2 ^ n)).setStripe k.val
    { e with wrap := if (t + 1) % 2 ^ n = 0 then !e.wrap else e.wrap }
  s.stripeEvents k j.status

/-- STRIPE_DESC_DONE: an active descriptor's outputs are visible and its completion is posted (R177). -/
def execStripeDescDone (k : Fin 4) (idx : Nat) (s : State) : Res :=
  let s := s.clean
  match (s.stripe k.val).active.find? fun j => j.idx == idx with
  | none => .next s
  | some j =>
    let s := s.putStripe k { s.stripe k.val with active := (s.stripe k.val).active.filter fun x => x.idx != idx }
    .next (s.stripePost k j)

/-- STR_ENABLE: the engine starts, or CFG_ERR is set and it stays idle (R171, R194). -/
def execStrEnable (k : Fin 4) (s : State) : Res :=
  let s := s.clean
  let u := UnitId.stripe k
  let ok := fun f => decide (4 ≤ s.get u f ∧ s.get u f ≤ 12)
  let good := ok F.STR_DQ_CFG_LOG2N && ok F.STR_CQ_CFG_LOG2N
  let s := (s.put u F.STR_CTRL_EN 1).putStripe k { s.stripe k.val with run := good }
  .next (if good then s else s.raise u F.STR_EVT_CFG_ERR)

/-- STR_DISABLE: fetching stops, a descriptor fetched and not started completes CANCELLED, active ones finish (R194). -/
def execStrDisable (k : Fin 4) (s : State) : Res :=
  let s := s.clean
  let e := s.stripe k.val
  let s := (s.put (.stripe k) F.STR_CTRL_EN 0).putStripe k { e with run := false, fetched := none }
  match e.fetched with
  | none => .next s
  | some (idx, d) => .next (s.stripePost k ⟨idx, d.tag, 0x22, 0, 0⟩)

/-- STR_DOWN_CLEAR: W1C, for all four engines (R180, R196). -/
def execStrDownClear (mask : Nat) (s : State) : Res :=
  let s := s.clean
  let lo := s.get (.stripe 0) F.STR_DOWN_LO
  let hi := s.get (.stripe 0) F.STR_DOWN_HI
  .next ((s.put (.stripe 0) F.STR_DOWN_LO (lo ^^^ (lo &&& mask))).put (.stripe 0) F.STR_DOWN_HI (hi ^^^ (hi &&& (mask / 2 ^ 64))))

end Sys2Proof.Machine
end

