-- ==== Sys2Proof/Machine/HeadLink.lean ====
section
/-! DEFINITION. The head-link port: training, frames in both directions, sideband messages and acknowledgements, lane
loss and lane sleep (R25–R58). -/

namespace Sys2Proof.Machine

open Sys2Proof

/-! ## Loss of the lane (R36, R52, R114) -/

/-- A firmware message outstanding ends with the lane (R52, R58). -/
def State.goLost (s : State) (a : Fin 96) : State := if s.on (.act a) F.YL_SB_TXC_GO then s.goEnds a 0xFF else s

/-- The work of an actuator whose lane is declared down: sluice, read entries, servo, sweep, firmware message, stripes,
and DOWN (R36, R52, R114, R180, R219). -/
def State.declareDown (s : State) (a : Fin 96) : State :=
  let s := ((s.slLaneDown a).chLaneDown a).svLaneDown a
  (((((s.swpLaneDown a).goLost a).setStrDown a).raise (.act a) F.YL_EVT_DOWN).traceLink (.act a))

/-- The lane stops in a state that sends nothing, or off: no version, no messages (R35, R39, R54). -/
def State.laneStops (s : State) (a : Fin 96) (st : Nat) : State :=
  (((s.goLost a).setYl a st).noVersion a).setLane a (laneToT0 (s.lane a))

/-- The lane trains from T0 (R35). -/
def State.laneRetrains (s : State) (a : Fin 96) : State := (s.goLost a).enterT0 a

/-- LANE_DOWN (R28, R36): after LOSS_FRAMES consecutive bad frames in T3 and later, or as the bridge's signal is lost in T1
and T2. TRIES stays as it was (DESIGN CHOICE, log 181). -/
def execLaneDown (a : Fin 96) (s : State) : Res :=
  let s := s.clean
  let st := s.yl a
  if st = 2 ∨ st = 3 ∨ (s.framing a ∧ s.lossFrames a ≤ (s.lane a.val).badRun) then
    .next ((s.declareDown a).laneRetrains a)
  else .next s

/-! ## Enable, retrain, sleep (R35, R51, R54) -/

/-- YL_CTRL.EN written 1: training starts from T0. -/
def State.laneEnable (s : State) (a : Fin 96) : State :=
  if s.on (.act a) F.YL_CTRL_EN then s
  else ((((s.put (.act a) F.YL_CTRL_EN 1).put (.act a) F.YL_STAT_TRIES 0).put (.act a) F.YL_STAT_BRIDGE 0).laneRetrains a)

/-- LANE_ENABLE (R35). -/
def execLaneEnable (a : Fin 96) (s : State) : Res := .next (s.clean.laneEnable a)

/-- YL_CTRL.EN written 0: idle, the lane declared down from T7, and STATE 0 (R36, R54). -/
def State.laneDisable (s : State) (a : Fin 96) : State :=
  let st := s.yl a
  let s := s.put (.act a) F.YL_CTRL_EN 0
  let s := if st = 0 ∨ st = 9 ∨ st = 10 ∨ st = 11 then s else s.emit (.laneIdle a.val)
  (if st = 8 then s.declareDown a else s).laneStops a 0

/-- LANE_DISABLE (R54). -/
def execLaneDisable (a : Fin 96) (s : State) : Res := .next (s.clean.laneDisable a)

/-- YL_CTRL.RETRAIN written 1: from T0 with the restart count cleared, an up lane declared down (R36, R54). A lane that
is not enabled does not train. -/
def State.laneRetrain (s : State) (a : Fin 96) : State :=
  if !s.on (.act a) F.YL_CTRL_EN then s
  else (((if s.upT7 a then s.declareDown a else s).put (.act a) F.YL_STAT_TRIES 0).laneRetrains a)

/-- RETRAIN (R54). -/
def execRetrain (a : Fin 96) (s : State) : Res := .next (s.clean.laneRetrain a)

/-- YL_CTRL.RETRACT written 1: RETRACT goes to the bridge while frames flow (R43, R54). -/
def State.laneRetract (s : State) (a : Fin 96) : State := if s.framing a then s.sbSend a 0x12 0 .port else s

/-- RETRACT (R54). -/
def execRetract (a : Fin 96) (s : State) : Res := .next (s.clean.laneRetract a)

/-- A message of an OP is outstanding or waits. -/
def State.sbHas (s : State) (a : Fin 96) (op : Nat) : Bool :=
  (s.lane a.val).out.any (fun m => m.op == op) || (s.lane a.val).waiting.any fun m => m.op == op

/-- YL_CTRL.SLEEP set: under Yelaz 4 the port sends SLEEP (R51). -/
def State.laneSleep (s : State) (a : Fin 96) : State :=
  let s := s.put (.act a) F.YL_CTRL_SLEEP 1
  if s.upT7 a && decide (4 ≤ s.get (.act a) F.YL_STAT_VER) && !s.sbHas a 0x40 then s.sbSend a 0x40 0 .port else s

/-- SLEEP_REQUEST (R51). -/
def execSleepRequest (a : Fin 96) (s : State) : Res := .next (s.clean.laneSleep a)

/-- A sleeping lane wakes through T1, T3, T5 and a short T6; it trains, so the acknowledged rate is cleared (R51,
R143). -/
def State.beginWake (s : State) (a : Fin 96) : State :=
  ((s.setYl a 2).setLane a { s.lane a with fastWake := true, badRun := 0, goodRun := 0, wrate := 0 }).emit (.clockPattern a)

/-- YL_CTRL.SLEEP cleared (R51). -/
def State.laneWake (s : State) (a : Fin 96) : State :=
  let s := s.put (.act a) F.YL_CTRL_SLEEP 0
  if s.yl a = 9 then s.beginWake a else s

/-- SLEEP_WAKE (R51). -/
def execSleepWake (a : Fin 96) (s : State) : Res := .next (s.clean.laneWake a)

/-- SLEEP accepted by the bridge: electrical idle; a SLEEP cleared meanwhile wakes the lane (R51). -/
def State.fallAsleep (s : State) (a : Fin 96) : State :=
  if !s.upT7 a then s
  else
    let s := s.setYl a 9
    if s.on (.act a) F.YL_CTRL_SLEEP then s else s.beginWake a

/-! ## Training (R35, R36, R39) -/

/-- YL_DETECT_BURST (R35). -/
def execYlDetectBurst (a : Fin 96) (s : State) : Res :=
  let s := s.clean
  .next (if s.yl a = 1 then s.emit (.clockBurst a.val) else s)

/-- YL_T0_DETECT (R35, R55): T1 sends the clock pattern without a break. -/
def execYlT0Detect (a : Fin 96) (s : State) : Res :=
  let s := s.clean
  .next (if s.yl a = 1 then ((s.setYl a 2).raise (.act a) F.YL_STAT_BRIDGE).emit (.clockPattern a) else s)

/-- The version that T4 agrees, under the ceiling as the step began (R39, R54). -/
def State.t4Version (s : State) (a : Fin 96) : Option Nat :=
  agreedVersion (s.lane a).ceil (s.get (.act a) F.YL_BRIDGE_VMIN) (s.get (.act a) F.YL_BRIDGE_VMAX)

/-- CAP and ID are in hand in T4: VER_SET goes out once, where versions overlap (R35, R39). -/
def State.verSet (s : State) (a : Fin 96) : State :=
  let l := s.lane a
  match s.t4Version a with
  | some v => if s.yl a = 5 && l.capSeen && l.idSeen && !l.verAcked && !s.sbHas a 3 then s.sbSend a 3 v .port else s
  | none => s

/-- Entry to T2: PRBS13 (R35). -/
def State.enterT2 (s : State) (a : Fin 96) : State := (s.setYl a 3).emit (.prbs13 a)

/-- Entry to T3: the scramblers of both directions are seeded (R27). -/
def State.enterT3 (s : State) (a : Fin 96) : State :=
  (s.setYl a 4).setLane a
    { s.lane a with scrambler := 2 ^ 31 - 1, descrambler := 2 ^ 31 - 1, goodRun := 0, badRun := 0 }

/-- Entry to T4: the ceiling and VCAP take effect, CAP_REQ and ID_REQ go out (R35, R54). -/
def State.enterT4 (s : State) (a : Fin 96) : State :=
  let s := (s.setYl a 5).setLane a
    { s.lane a with capSeen := false, idSeen := false, verAcked := false, ceil := s.ylCeiling a }
  (s.sbSend a 1 0 .port).sbSend a 4 0 .port

/-- Entry to T5: an ECHO, which carries no TAG (R35, R43). -/
def State.enterT5 (s : State) (a : Fin 96) : State :=
  ((s.setYl a 6).setLane a { s.lane a with echoSeen := false }).sbPlain a 6 0

/-- T4 ends: the version agreed, or Reject (R35, R39, R55). -/
def State.endT4 (s : State) (a : Fin 96) : State :=
  let l := s.lane a
  if !(l.capSeen && l.idSeen) then s
  else
    match s.t4Version a with
    | none => ((s.laneStops a 11).raise (.act a) F.YL_EVT_REJECT).traceLink (.act a)
    | some v =>
      if !l.verAcked then s
      else
        let n := if 2 ≤ v ∧ s.get (.act a) F.YL_BRIDGE_NREAD = 3 then 3 else 1
        (((s.put (.act a) F.YL_STAT_VER v).put (.act a) F.YL_STAT_READERS n)).enterT5 a

/-- Entry to T6: its test starts (R35). -/
def State.enterT6 (s : State) (a : Fin 96) : State :=
  (s.setYl a 7).setLane a { s.lane a with testBad := false, testCorr := 0, testTx := 0, testRx := 0 }

/-- Idle frames of T6 in each direction (R35, R51). -/
def testFrames (l : Lane) : Nat := if l.fastWake then 100 else 25000

/-- T6 has passed its frames both ways (R35). -/
def testOver (l : Lane) : Bool := decide (testFrames l ≤ l.testTx ∧ testFrames l ≤ l.testRx)

/-- T6 ends in T7: UP, and the servo engine's way out of OFF (R35, R36, R114). -/
def State.endT6 (s : State) (a : Fin 96) : State :=
  let l := s.lane a
  if !testOver l || l.testBad || decide (s.get (.act a) F.YL_LOSS_TEST_CORR < l.testCorr) then s
  else
    let s := ((s.setYl a 8).setLane a { l with fastWake := false, idleFrames := 0 }).raise (.act a) F.YL_EVT_UP
    (s.svLaneUp a).traceLink (.act a)

/-- YL_STEP_EXIT (R35, R36, R39, R51). The operand is the round trip of T5, in symbols. -/
def execYlStepExit (a : Fin 96) (rtt : Nat) (s : State) : Res :=
  let s := s.clean
  let l := s.lane a
  match s.yl a with
  | 2 => .next (if l.fastWake then s.enterT3 a else s.enterT2 a)
  | 3 => .next (s.enterT3 a)
  | 4 => .next (if l.goodRun < 16 then s else if l.fastWake then s.enterT5 a else s.enterT4 a)
  | 5 => .next (s.endT4 a)
  | 6 => .next (if l.echoSeen then (s.enterT6 a).put (.act a) F.YL_RTT_RTT rtt else s)
  | 7 => .next (s.endT6 a)
  | _ => .next s

/-- YL_STEP_TIMEOUT (R35, R51): the fourth step failure enters Failed; a failed wake trains in full. -/
def execYlStepTimeout (a : Fin 96) (s : State) : Res :=
  let s := s.clean
  let n := s.get (.act a) F.YL_STAT_TRIES
  if s.yl a < 2 ∨ 7 < s.yl a then .next s
  else if n < 3 ∨ (s.lane a.val).fastWake then .next ((s.put (.act a) F.YL_STAT_TRIES (min 3 (n + 1))).laneRetrains a)
  else .next (((s.laneStops a 10).raise (.act a) F.YL_EVT_FAILED).traceLink (.act a))

/-! ## Sideband: acknowledgements and resends (R42) -/

/-- What the end of a tagged message does for its sender: stat is the ACK_STAT, or 0x100 for abandonment. -/
def State.sbEnds (s : State) (a : Fin 96) (m : SbTx) (stat : Nat) : State :=
  match m.src with
  | .firmware => s.goEnds a (if stat = 0x100 then 0xFD else stat)
  | .sluice =>
    if stat = 0 then s.setLane a { s.lane a with wrate := m.payload % 65536 }
    else if stat = 2 then s.rateRefused a m.payload else s
  | .servo =>
    if m.op = 0x13 then (if stat = 0 then s else (s.loadFails a).swpPoll a)
    else if m.op = 0x10 && bitsOf m.payload 2 1 == 1 && bitsOf m.payload 32 16 != 0 && stat != 0x100 then
      s.setServo a { s.servo a with trimOut := false }
    else s
  | .port =>
    if stat != 0 then s
    else if m.op = 0x40 then s.fallAsleep a
    else if m.op = 3 then s.setLane a { s.lane a with verAcked := true }
    else s
  | .spindle => s

/-- A tagged message leaves its place. -/
def State.sbRemove (s : State) (a : Fin 96) (tag : Nat) : State :=
  s.setLane a { s.lane a with out := (s.lane a).out.filter fun m => m.tag != tag }

/-- An acknowledgement received (R42). -/
def State.sbAcked (s : State) (a : Fin 96) (tag stat : Nat) : State :=
  match (s.lane a).out.find? fun m => m.tag == tag with
  | some m => if s.framing a then (((s.sbRemove a tag).sbEnds a m (stat % 256)).sbNext a) else s
  | none => s

/-- SIDEBAND_ACKNOWLEDGEMENT (R42). -/
def execSidebandAcknowledgement (a : Fin 96) (tag stat : Nat) (s : State) : Res := .next (s.clean.sbAcked a tag stat)

/-- Sends of a message before it is abandoned (R42). -/
def sbLimit (op : Nat) : Nat := if op = 0x15 then 24 else 8

/-- SB_RESEND_TIMER (R42): the message is sent again with its TAG, or abandoned. -/
def execSbResendTimer (a : Fin 96) (tag : Nat) (s : State) : Res :=
  let s := s.clean
  let l := s.lane a
  match l.out.find? fun m => m.tag == tag with
  | none => .next s
  | some m =>
    if !s.framing a then .next s
    else if m.sends < sbLimit m.op then
      .next ((s.setLane a { l with
        out := l.out.map fun x => if x.tag == tag then { x with sends := x.sends + 1 } else x,
        slots := l.slots ++ [(m.op, tag, m.payload)] }).emit (.sideband a m.op tag m.payload))
    else .next ((((s.sbRemove a tag).raise (.act a) F.YL_EVT_SB_LOST).sbEnds a m 0x100).sbNext a)

/-! ## Messages of the bridge (R43, R44, R49) -/

/-- CAP into YL_BRIDGE (R57). -/
def State.onCap (s : State) (a : Fin 96) (p : Nat) : State :=
  ((s.putBridge a p).setLane a { s.lane a with capSeen := true }).verSet a

/-- ID into YL_SERIAL (R57). -/
def State.onId (s : State) (a : Fin 96) (p : Nat) : State :=
  ((s.put (.act a) F.YL_SERIAL p).setLane a { s.lane a with idSeen := true }).verSet a

/-- ECHO: in T5 the answer to the package's own, whatever its payload (DESIGN CHOICE, log 182), otherwise returned unchanged
(R35, R43). -/
def State.onEcho (s : State) (a : Fin 96) (p : Nat) : State :=
  if s.yl a = 6 then s.setLane a { s.lane a with echoSeen := true } else s.sbPlain a 6 p

/-- SPIN_STAT, and what the sweep does with the commands that it ends (R116). -/
def State.onSpinStat (s : State) (a : Fin 96) (p : Nat) : State := (s.spinStat a p).swpPollBoth (dieOf a).val (asmOf a)

/-- PARK_STAT (R112, R117, R120). -/
def State.onParkStat (s : State) (a : Fin 96) (p : Nat) : State := (s.parkStat a p).swpPoll a

/-- SHOCK (R43, R113). -/
def State.onShock (s : State) (a : Fin 96) : State := ((s.shock a).dropWriteOk a).raise (.act a) F.YL_EVT_SHOCK

/-- The package sent the frame numbered `q` last with WG = 0 (R49). -/
def wgZero (l : Lane) (q : Nat) : Bool := l.sentWg.any fun p => p.1 == q % 256 && !p.2

/-- WRITE_ABORT (R49, R144, R158): discarded when the named frame and the next one both went out with WG = 0; otherwise
WABORT, and the sector whose frame it names counts as a failed verify while it is written or verified; LATEABORT counts one
whose verify has passed. A fill sector that it names, or that is being written, is a defect of cause 2 (R212). -/
def State.onWriteAbort (s : State) (a : Fin 96) (p : Nat) : State :=
  let q := p % 256
  let u := UnitId.act a
  if wgZero (s.lane a) q && wgZero (s.lane a) (q + 1) then s.count u F.YL_FEC_WABORT_DISC
  else
    let s := s.raise u F.YL_EVT_WABORT
    match (s.sluice a).wgSeqs.find? fun x => x.1 == q || x.1 == (q + 1) % 256 with
    | none => (s.slAbortWriting a).fillCutWriting a 2
    | some x =>
      match s.ent? a x.2, (s.swpAct a.val).fills.find? fun e => e.order == x.2 with
      | some e, _ =>
        if e.ph == .writing || e.ph == .verifying then s.slFail a e
        else if e.verified then s.count u F.SL_CNT_LATEABORT else s
      | none, some e => if e.ph == .closing then s else s.fillCut a 2 e
      | none, none => if (s.sluice a).passed.contains x.2 then s.count u F.SL_CNT_LATEABORT else s

/-- CAP (R43, R57). -/
def execCap (a : Fin 96) (m : SbIn) (s : State) : Res := .next (s.clean.sbTake a m.tag fun s => s.onCap a m.payload)

/-- ID (R43, R57). -/
def execId (a : Fin 96) (m : SbIn) (s : State) : Res := .next (s.clean.sbTake a m.tag fun s => s.onId a m.payload)

/-- ECHO (R43). -/
def execEcho (a : Fin 96) (m : SbIn) (s : State) : Res := .next (s.clean.sbTake a m.tag fun s => s.onEcho a m.payload)

/-- SPIN_STAT (R116). -/
def execSpinStat (a : Fin 96) (m : SbIn) (s : State) : Res :=
  .next (s.clean.sbTake a m.tag fun s => s.onSpinStat a m.payload)

/-- PARK_STAT (R112). -/
def execParkStat (a : Fin 96) (m : SbIn) (s : State) : Res :=
  .next (s.clean.sbTake a m.tag fun s => s.onParkStat a m.payload)

/-- PREAMP_VAL (R44). -/
def execPreampVal (a : Fin 96) (m : SbIn) (s : State) : Res := .next (s.clean.sbDeliver a 1 m.tag 0x22 m.payload id)

/-- ENV (R44). -/
def execEnv (a : Fin 96) (m : SbIn) (s : State) : Res := .next (s.clean.sbDeliver a 1 m.tag 0x30 m.payload id)

/-- FAULT (R43, R44, R56). -/
def execFault (a : Fin 96) (m : SbIn) (s : State) : Res :=
  .next (s.clean.sbDeliver a 1 m.tag 0x31 m.payload fun s => s.raise (.act a) F.YL_EVT_FAULT)

/-- WRITE_ABORT (R49). -/
def execWriteAbort (a : Fin 96) (m : SbIn) (s : State) : Res :=
  .next (s.clean.sbTake a m.tag fun s => s.onWriteAbort a m.payload)

/-- SHOCK (R113): Yelaz 3 and later. -/
def execShock (a : Fin 96) (m : SbIn) (s : State) : Res := .next (s.clean.sbTakeVer a 3 m.tag fun s => s.onShock a)

/-- HEALTH (R44): Yelaz 4. -/
def execHealth (a : Fin 96) (m : SbIn) (s : State) : Res := .next (s.clean.sbDeliver a 4 m.tag 0x42 m.payload id)

/-- A message by its OP, as an uplink frame carries it (R43, R44); an OP that the bridge does not send is unknown. -/
def State.sbMessage (s : State) (a : Fin 96) (op tag p : Nat) : State :=
  match op with
  | 0x00 => s.sbTake a tag id
  | 0x02 => s.sbTake a tag fun s => s.onCap a p
  | 0x05 => s.sbTake a tag fun s => s.onId a p
  | 0x06 => s.sbTake a tag fun s => s.onEcho a p
  | 0x11 => s.sbTake a tag fun s => s.onSpinStat a p
  | 0x14 => s.sbTake a tag fun s => s.onParkStat a p
  | 0x22 => s.sbDeliver a 1 tag 0x22 p id
  | 0x30 => s.sbDeliver a 1 tag 0x30 p id
  | 0x31 => s.sbDeliver a 1 tag 0x31 p fun s => s.raise (.act a) F.YL_EVT_FAULT
  | 0x32 => s.sbTake a tag fun s => s.onWriteAbort a p
  | 0x33 => s.sbTakeVer a 3 tag fun s => s.onShock a
  | 0x42 => s.sbDeliver a 4 tag 0x42 p id
  | _ => if 0x80 ≤ op then s.sbDeliver a 1 tag op p id
         else if s.framing a && (sbRepeat (s.lane a) tag).isNone then s.sbUnknown a tag else s.sbTake a tag id

/-- BRIDGE_MAKER_MESSAGE (R44): OP 0x80 to 0xFF. -/
def execBridgeMakerMessage (a : Fin 96) (op : Nat) (m : SbIn) (s : State) : Res :=
  .next (s.clean.sbDeliver a 1 m.tag (0x80 + op % 128) m.payload id)

/-! ## Firmware's messages (R44, R58) -/

/-- The OPs that firmware may send (R44). -/
def goAllowed (op : Nat) : Bool := op == 0x12 || op == 0x20 || op == 0x21 || decide (0x80 ≤ op)

/-- GO written 1 (R44, R58). -/
def State.go (s : State) (a : Fin 96) : State :=
  let u := UnitId.act a
  let op := s.get u F.YL_SB_TXC_TX_OP
  if s.on u F.YL_SB_TXC_GO then s.denied u
  else if !goAllowed op then s.goEnds a 0xFE
  else if !s.upT7 a then s.goEnds a 0xFF
  else (s.raise u F.YL_SB_TXC_GO).sbSend a op (s.get u F.YL_SB_TXD_TXD) .firmware

/-- GO (R44, R58). -/
def execGo (a : Fin 96) (s : State) : Res := .next (s.clean.go a)

/-- SB_RX_RELEASE (R58). -/
def execSbRxRelease (a : Fin 96) (s : State) : Res := .next (s.clean.put (.act a) F.YL_SB_RXC_FULL 0)

/-! ## Frames -/

/-- An uplink frame through the receiver (R27): the descrambler's register after it, its bits without correction, and what
the Reed–Solomon decoder makes of them: the symbols corrected and the 2,000 data bits. -/
def receiveFrame (r : Nat) (f : UplinkFrame) : Nat × Nat × Option (Nat × Nat) :=
  let (bits, r') := scramble31 2240 (pam4 (f.levels % 2 ^ 2240)) r
  (r', bits, (rsDecode (splitBits 10 224 bits)).map fun p => (p.1, joinBits 10 (p.2.take 200)))

/-- The frame is good: RS decoding succeeded and the CRC-24 matches (R28). -/
def goodFrame (d : Nat) : Bool := frameCrc (d % 2 ^ 1976) == bitsOf d 1976 24

/-- A bad uplink frame (R28, R49, R58, R59): inside a servo gate, or with SG in its bits as received, it spoils the wedge; else
a pass under way loses its samples. -/
def State.uplinkBad (s : State) (a : Fin 96) (bits : Nat) : State :=
  let l := s.lane a
  let c := s.chan a
  let gate := l.gateOpen || bitsOf bits 10 1 == 1
  let s := (s.count (.act a) F.YL_FEC_UNCORR).setLane a
    { l with rxFrames := l.rxFrames + 1, badRun := l.badRun + 1, goodRun := 0, testBad := true,
             gateBad := l.gateBad || gate }
  if c.medium.isSome then
    s.setChan a { c with frames := c.frames + 1, lostAt := if gate then c.lostAt else c.frames :: c.lostAt }
  else s

/-- A good frame counted and kept (R28, R29, R35): its idle frames count in T6. -/
def State.uplinkKeep (s : State) (a : Fin 96) (corr d : Nat) : State :=
  let l := s.lane a
  s.setLane a { l with
    rxFrames := l.rxFrames + 1, badRun := 0, goodRun := l.goodRun + 1, testCorr := l.testCorr + corr, upData := d,
    testRx := if s.yl a = 7 ∧ bitsOf d 8 2 = 1 then l.testRx + 1 else l.testRx,
    gateOpen := bitsOf d 10 1 == 1 && bitsOf d 11 1 == 0 }

/-- The samples of a good frame in a pass under way (R59, R81): of the entry's head, or of another and so none of the pass. -/
def State.uplinkHead (s : State) (a : Fin 96) (head : Nat) : State :=
  let c := s.chan a
  match s.passEntry? a with
  | some x =>
    if x.e.head = head then s.setChan a { c with frames := c.frames + 1, headSeen := true }
    else s.setChan a { c with frames := c.frames + 1, missAt := c.frames :: c.missAt }
  | none => s

/-- A good uplink frame (R28, R29, R42, R55, R113): its samples and flags are delivered, its sideband field acted on. -/
def State.uplinkGood (s : State) (a : Fin 96) (corr d : Nat) : State :=
  let u := UnitId.act a
  let s := (s.uplinkKeep a corr d).uplinkHead a (bitsOf d 16 4)
  let s := (s.put u F.YL_STAT_PARKED (bitsOf d 15 1)).put u F.YL_STAT_HEAD (bitsOf d 16 4)
  let s := if s.upT7 a && decide (3 ≤ s.get u F.YL_STAT_VER) && decide (s.get u F.SV_SHOCK_SHOCK_THR < bitsOf d 1864 8) then
      (s.shock a).dropWriteOk a else s
  let s := s.sbAcked a (bitsOf d 1896 8) (bitsOf d 1904 8)
  s.sbMessage a (bitsOf d 1880 8) (bitsOf d 1888 8) (bitsOf d 1912 64)

/-- UPLINK_FRAME: received, corrected and judged (R27, R28, R58). -/
def State.uplink (s : State) (a : Fin 96) (f : UplinkFrame) : State :=
  let l := s.lane a
  let (r, bits, got) := receiveFrame l.descrambler f
  let s := s.setLane a { l with descrambler := r }
  match got with
  | none => s.uplinkBad a bits
  | some (corr, d) =>
    let s := s.count (.act a) F.YL_FEC_CORR corr
    if goodFrame d then s.uplinkGood a corr d else s.uplinkBad a bits

/-- UPLINK_FRAME (R28). -/
def execUplinkFrame (a : Fin 96) (f : UplinkFrame) (s : State) : Res :=
  let s := s.clean
  .next (if s.framing a then s.uplink a f else s)

/-- The resync field of a burst after a gate (R67). -/
def resyncBits : List Nat := pattern1100 64 ++ splitBits 1 32 0xD42B71E5

/-- The write bits of the next frame of a burst: how many, the bits, and the entry after them (R140). -/
def burstFrame (whole : List Byte) (e : SlEntry) : Nat × Nat × SlEntry :=
  let acc := if e.frames < 2 then 0 else e.acc + e.rate
  let n := min (if e.frames < 2 then 120 else acc / 25) e.left
  let k := min n e.pre
  let bytes := whole.drop (e.sent / 8)
  let sector := (List.range (n - k)).map fun i =>
    let j := e.sent + i
    bitsOf ((bytes.getD (j / 8 - e.sent / 8) 0).toNat) (j % 8) 1
  let bits := (resyncBits.drop (96 - e.pre)).take k ++ sector
  (n, joinBits 1 bits,
   { e with left := e.left - n, pre := e.pre - k, sent := e.sent + (n - k), frames := e.frames + 1, acc := acc - 25 * (acc / 25),
            burst := decide (e.left - n ≠ 0), gates := if e.left - n = 0 then e.gates + 1 else e.gates })

/-- The 2,000 data bits of a downlink frame (R27, R30, R41). -/
def downData (f : DownFrame) : Nat :=
  let d := placed f.seq 0 8 + placed f.type 8 2 + placed (bit f.wg) 10 1 + placed f.hbSeq 12 4 + placed f.head 16 4 +
    placed f.wcount 32 8 + placed f.wbits 40 120 + placed f.sbOp 160 8 + placed f.sbTag 168 8 + placed f.ackTag 176 8 +
    placed f.ackStat 184 8 + placed f.sbPayload 192 64 + placed (unsignedOf f.vcm 16) 1912 16 +
    placed (unsignedOf f.ma 16) 1928 16 + placed (bit f.actValid) 1944 1
  d + placed (frameCrc d) 1976 24

/-- The TYPE of the frames of a training step (R30, R35): training in T3, idle in T4 to T6, data in T7. -/
def downType (st : Nat) : Nat := if st = 4 then 2 else if st = 8 then 0 else 1

/-- WG of the last frame sent (R139). -/
def lastWg (l : Lane) : Bool := (l.sentWg.headD (0, false)).2

/-- The sector being written (R139, R210): of the sluice's the first released, from its furrow slot; else the sweep's; with its
bytes. -/
def State.writingSector? (s : State) (a : Fin 96) : Option (SlEntry × List Byte) :=
  match firstReleased (fun e => e.ph == .writing) (s.sluice a).ents with
  | some e => some (e, tget [] s.furrow (4096 * (dieOf a).val + e.slot))
  | none => (s.fillWriting? a).map fun e => (e, s.fillBytes e)

/-- The sector whose write bits the next frame carries (R139): the one being written, while its burst runs; a burst begins only after
a frame with WG 0. -/
def State.burstEntry? (s : State) (a : Fin 96) : Option (SlEntry × List Byte) :=
  match s.writingSector? a with
  | some (e, bs) => if s.upT7 a && e.burst && !(e.frames == 0 && lastWg (s.lane a)) then some (e, bs) else none
  | none => none

/-- A sector being written replaced, the sluice's or the sweep's. -/
def State.putWriting (s : State) (a : Fin 96) (e : SlEntry) : State :=
  if (s.ent? a e.order).isSome then s.putEnt a e else s.putFill a e

/-- The fields of the next downlink frame (R30, R42, R45): the oldest waiting message and acknowledgement, `n` write bits and,
when one is ready, the servo command; MA is 0 below Yelaz 3. -/
def State.nextFrame (s : State) (a : Fin 96) (hb n bits : Nat) (wg : Bool) : DownFrame :=
  let l := s.lane a
  let msg := l.slots.headD (0, 0, 0)
  let ack := l.acks.headD (0, 0)
  { seq := l.txSeq, type := downType (s.yl a), wg := wg, hbSeq := hb, head := s.get (.act a) F.SV_STAT_HEAD, wcount := n,
    wbits := bits, sbOp := msg.1, sbTag := msg.2.1, ackTag := ack.1, ackStat := ack.2, sbPayload := msg.2.2,
    vcm := l.lastVcm, ma := if 3 ≤ s.get (.act a) F.YL_STAT_VER then l.lastMa else 0,
    actValid := s.upT7 a && l.actCmd.isSome }

/-- The lane after a frame with this WG and heartbeat (R30, R35, R42, R45, R49): the TAG that the frame carried was sent now. -/
def laneSent (l : Lane) (st hb scr : Nat) (adv wg : Bool) : Lane :=
  let tag := (l.slots.headD (0, 0, 0)).2.1
  { l with
    txSeq := (l.txSeq + 1) % 256, hbSeq := hb, idleFrames := if adv then 0 else l.idleFrames + 1, scrambler := scr,
    txFrames := l.txFrames + 1, testTx := if st = 7 then l.testTx + 1 else l.testTx, slots := l.slots.tail,
    acks := l.acks.tail, actCmd := none, sentWg := (l.txSeq, wg) :: l.sentWg.filter (fun p => p.1 != l.txSeq),
    tagSent := if tag = 0 then l.tagSent else (tag, l.txFrames) :: l.tagSent.filter fun p => p.1 != tag }

/-- The next downlink frame: the heartbeat advances with ACT_VALID, or when `beat` says so; a message that waits for a TAG or
a place is tried again (R30, R42, R45, R139, R140). -/
def State.sendFrame (s : State) (a : Fin 96) (beat : Bool) : State :=
  let l := s.lane a
  let ent := s.burstEntry? a
  let adv := s.hbRuns a && ((s.upT7 a && l.actCmd.isSome) || beat)
  let hb := if adv then (l.hbSeq + 1) % 16 else l.hbSeq
  let (n, bits, e') := match ent with
    | some (e, bs) => burstFrame bs e
    | none => (0, 0, { idx := 0, order := 0, e := writeEntryOf [], rate := 0, slot := 0 })
  let f := s.nextFrame a hb n bits ent.isSome
  let (line, scr) := scramble31 2240 (rsFrame (downData f)) l.scrambler
  let s := s.setLane a (laneSent l (s.yl a) hb scr adv ent.isSome)
  let sl := s.sluice a
  let keep := sl.wgSeqs.filter fun p => p.1 != l.txSeq
  let s := match ent with
    | some _ => (s.setSluice a { sl with wgSeqs := (l.txSeq, e'.order) :: keep }).putWriting a e'
    | none => s.setSluice a { sl with wgSeqs := keep }
  (s.emit (.downlink a f (pam4 line))).sbNext a

/-- DOWNLINK_FRAME (R30). -/
def execDownlinkFrame (a : Fin 96) (s : State) : Res :=
  let s := s.clean
  .next (if s.framing a then s.sendFrame a false else s)

/-- HEARTBEAT_IDLE_FRAME (R45): a frame without a servo command that advances the heartbeat. -/
def execHeartbeatIdleFrame (a : Fin 96) (s : State) : Res :=
  let s := s.clean
  .next (if s.hbRuns a && (s.lane a.val).actCmd.isNone then s.sendFrame a true else s)

end Sys2Proof.Machine
end

