-- ==== Sys2Proof/Machine/Mailbox.lean ====
section
/-! DEFINITION. Mailboxes: endpoints, commits, takes, timeouts and held messages (R282–R290). The board management
controller's endpoint has no register page: its fields stand in offsets that no address reaches. -/

namespace Sys2Proof.Machine

open Sys2Proof

/-- The fields of an endpoint (R289). -/
structure MbFlds where
  out : Fld
  inn : Fld
  full : Fld
  inColl : Fld
  inMsg : Fld
  outFull : Fld
  outEmpty : Fld
  outColl : Fld
  outTmo : Fld
  deriving DecidableEq, Repr

/-- The fields of the board management controller's endpoint. -/
def bmcFlds : MbFlds :=
  { out := { off := 0xC000, lo := 0, width := 32, acc := .ro, stride2 := 4, count2 := 4 },
    inn := { off := 0xC010, lo := 0, width := 32, acc := .ro, stride2 := 4, count2 := 4 },
    full := { off := 0xC020, lo := 0, width := 1, acc := .ro }, inColl := { off := 0xC020, lo := 2, width := 1, acc := .ro },
    inMsg := { off := 0xC020, lo := 3, width := 1, acc := .ro }, outFull := { off := 0xC020, lo := 8, width := 1, acc := .ro },
    outEmpty := { off := 0xC020, lo := 9, width := 1, acc := .ro }, outColl := { off := 0xC020, lo := 10, width := 1, acc := .ro },
    outTmo := { off := 0xC020, lo := 11, width := 1, acc := .ro } }

/-- The fields of an endpoint (R289). -/
def mbFlds : MbEnd → MbFlds
  | .host _ => ⟨F.MBH_OUT, F.MBH_IN, F.MBH_STAT_IN_FULL, F.MBH_STAT_IN_COLLIDE, F.MBH_STAT_IN_MSG, F.MBH_STAT_OUT_FULL,
      F.MBH_STAT_OUT_EMPTY, F.MBH_STAT_OUT_COLLIDE, F.MBH_STAT_OUT_TIMEOUT⟩
  | .fw _ => ⟨F.MBF_OUT, F.MBF_IN, F.MBF_STAT_IN_FULL, F.MBF_STAT_IN_COLLIDE, F.MBF_STAT_IN_MSG, F.MBF_STAT_OUT_FULL,
      F.MBF_STAT_OUT_EMPTY, F.MBF_STAT_OUT_COLLIDE, F.MBF_STAT_OUT_TIMEOUT⟩
  | .normal _ => ⟨F.MBN_OUT, F.MBN_IN, F.MBN_STAT_IN_FULL, F.MBN_STAT_IN_COLLIDE, F.MBN_STAT_IN_MSG, F.MBN_STAT_OUT_FULL,
      F.MBN_STAT_OUT_EMPTY, F.MBN_STAT_OUT_COLLIDE, F.MBN_STAT_OUT_TIMEOUT⟩
  | .secure _ => ⟨F.MBS_OUT, F.MBS_IN, F.MBS_STAT_IN_FULL, F.MBS_STAT_IN_COLLIDE, F.MBS_STAT_IN_MSG, F.MBS_STAT_OUT_FULL,
      F.MBS_STAT_OUT_EMPTY, F.MBS_STAT_OUT_COLLIDE, F.MBS_STAT_OUT_TIMEOUT⟩
  | .smbFw => ⟨F.MBB_OUT, F.MBB_IN, F.MBB_STAT_IN_FULL, F.MBB_STAT_IN_COLLIDE, F.MBB_STAT_IN_MSG, F.MBB_STAT_OUT_FULL,
      F.MBB_STAT_OUT_EMPTY, F.MBB_STAT_OUT_COLLIDE, F.MBB_STAT_OUT_TIMEOUT⟩
  | .bmc => bmcFlds

/-- The unit page that holds an endpoint. -/
def mbUnit : MbEnd → UnitId
  | .host f => .fn (fnOf f.val)
  | .fw _ | .normal _ | .secure _ | .smbFw | .bmc => .mbox

/-- The copy of an endpoint's fields in its page. -/
def mbIndex : MbEnd → Nat
  | .fw f => f.val
  | .normal w | .secure w => w.val
  | .host _ | .smbFw | .bmc => 0

/-- The endpoint at the other end. -/
def mbPeer : MbEnd → MbEnd
  | .host f => .fw f | .fw f => .host f | .normal w => .secure w | .secure w => .normal w | .smbFw => .bmc | .bmc => .smbFw

/-- A flag of an endpoint. -/
def State.mbOn (s : State) (e : MbEnd) (f : Fld) : Bool := s.get (mbUnit e) f (mbIndex e) != 0

/-- A flag of an endpoint set or cleared. -/
def State.mbPut (s : State) (e : MbEnd) (f : Fld) (v : Nat) : State := s.put (mbUnit e) f v (mbIndex e)

/-- OUT or IN words of an endpoint. -/
def State.mbWord (s : State) (e : MbEnd) (f : Fld) (i : Nat) : Nat := s.get (mbUnit e) f (mbIndex e) i

/-- A clock drives the page of a unit (R453). -/
def clocksUnit (c : ClockUnit) (u : UnitId) : Bool :=
  match c with
  | .tile p => unitSlot u == p.val
  | .hub => unitSlot u == 40
  | .med m => unitSlot u == 44 + m.val

/-- The clock of a unit is stopped, at either level (R453). -/
def State.unitGated (s : State) (u : UnitId) : Bool := s.clocks.any fun c => clocksUnit c u

/-- A unit is ready and its clock runs (R285, R453). -/
def State.unitServes (s : State) (u : UnitId) : Bool := s.on u F.UNIT_READY_READY && !s.unitGated u

/-- The unit that receives for an endpoint: the port for a host's, hub/mbox for firmware's; the board management
controller always receives (its endpoint lies in the always-on domain, R287). -/
def State.mbServer (s : State) : MbEnd → Option UnitId
  | .host f => some (.pcie (s.fnPort f.val))
  | .fw _ | .normal _ | .secure _ | .smbFw => some .mbox
  | .bmc => none

/-- An endpoint receives now (R285). -/
def State.mbReady (s : State) (e : MbEnd) : Bool := (s.mbServer e).all s.unitServes

/-- An event at an endpoint: its bit, and for a host driver MSI-X vector 0 (R286). -/
def State.mbEvent (s : State) (e : MbEnd) (f : Fld) : State :=
  let s := s.mbPut e f 1
  match e with
  | .host n => s.sendVector n.val 0
  | .fw _ | .normal _ | .secure _ | .smbFw | .bmc => s

/-- A held message demands a clock (R285, R453): its receiver's unit is to run again. -/
def State.wakeDemanded (s : State) (c : ClockUnit) : Bool := s.mbHeld.any fun e => (s.mbServer e).any fun u => clocksUnit c u

/-- A message arrives: IN_MSG now, or held until the receiver's unit is ready, a wake demand meanwhile (R285). -/
def State.mbArrive (s : State) (e : MbEnd) : State :=
  if s.mbReady e then s.mbEvent e (mbFlds e).inMsg
  else { s with mbHeld := if s.mbHeld.contains e then s.mbHeld else s.mbHeld ++ [e] }

/-- The timeout for a sender's next commit, 0 when disabled (R284, R290). -/
def State.mbTimeout (s : State) (e : MbEnd) : Nat :=
  match e with
  | .host _ | .fw _ => s.get .mbox F.MBX_TMO_TEN_MS
  | .normal _ | .secure _ => s.get .mbox F.MBX_TMO_WORLD_MS
  | .smbFw | .bmc => s.get .mbox F.MBX_TMO_SMB_100MS

/-- The timeout of the sender's last commit (R290). -/
def State.mbDue (s : State) (e : MbEnd) : Nat := ((s.mbTmo.find? fun p => p.1 == e).map fun p => p.2).getD 0

/-- A commit takes the timeout that stands (R290). -/
def State.mbArm (s : State) (e : MbEnd) : State :=
  { s with mbTmo := (e, s.mbTimeout e) :: s.mbTmo.filter fun p => p.1 != e }

/-- A commit (R282): the four OUT words go to the receiver's IN box; onto a full box, they replace its message and both
ends see the collision. The timeout that stands governs the message (R290). -/
def State.mbCommit (s : State) (e : MbEnd) (w3 : Nat) : State :=
  let r := mbPeer e
  let s := s.put (mbUnit e) (mbFlds e).out w3 (mbIndex e) 3
  let full := s.mbOn r (mbFlds r).full
  let s := (List.range 4).foldl (fun s i => s.put (mbUnit r) (mbFlds r).inn (s.mbWord e (mbFlds e).out i) (mbIndex r) i) s
  let s := ((s.mbPut r (mbFlds r).full 1).mbPut e (mbFlds e).outFull 1).mbArm e
  let s := if full then ((s.mbEvent r (mbFlds r).inColl).mbEvent e (mbFlds e).outColl).count .headgate F.HG_CNT_MBCOLL else s
  s.mbArrive r

/-- A commit by firmware to the endpoint of a FREE function is ignored and denied (R286). -/
def State.mbRefused (s : State) (e : MbEnd) : Bool :=
  match e with
  | .fw f => !s.fnCreated f.val
  | .host _ | .normal _ | .secure _ | .smbFw | .bmc => false

/-- MB_COMMIT: OUT word 3 is written (R282, R286). -/
def execMbCommit (e : MbEnd) (w3 : Nat) (s : State) : Res :=
  let s := s.clean
  if s.mbRefused e then .next (s.denied .mbox) else .next (s.mbCommit e w3)

/-- A take (R283): the box empties and the sender sees OUT_EMPTY. -/
def State.mbTake (s : State) (e : MbEnd) : State :=
  if s.mbOn e (mbFlds e).full then
    let p := mbPeer e
    let s := (s.mbPut e (mbFlds e).full 0).mbPut p (mbFlds p).outFull 0
    ({ s with mbHeld := s.mbHeld.filter fun x => x != e }).mbEvent p (mbFlds p).outEmpty
  else s

/-- TAKE (R283). -/
def execTake (e : MbEnd) (s : State) : Res := .next (s.clean.mbTake e)

/-- MB_TIMEOUT (R284): the sender's message is still not taken; the time of a held message has not begun. -/
def execMbTimeout (e : MbEnd) (s : State) : Res :=
  let s := s.clean
  if s.mbOn e (mbFlds e).outFull && s.mbDue e != 0 && !s.mbHeld.contains (mbPeer e) then
    .next (s.mbEvent e (mbFlds e).outTmo)
  else .next s

/-- MB_DELIVER_HELD (R285): the receiver's unit is ready, so IN_MSG reaches it. -/
def execMbDeliverHeld (e : MbEnd) (s : State) : Res :=
  let s := s.clean
  if s.mbHeld.contains e && s.mbReady e then
    .next (({ s with mbHeld := s.mbHeld.filter fun x => x != e }).mbEvent e (mbFlds e).inMsg)
  else .next s

/-- SMB_ALERT_N is asserted: an event of the board management controller's endpoint is set that MBX_SMB_ALERT enables (R290,
R435). -/
def State.smbAlert (s : State) : Bool :=
  [bmcFlds.inMsg, bmcFlds.inColl, bmcFlds.outEmpty, bmcFlds.outColl, bmcFlds.outTmo].zipIdx.any fun e =>
    s.on .mbox e.1 && (s.get .mbox F.MBX_SMB_ALERT).testBit e.2

end Sys2Proof.Machine
end

