-- ==== Sys2Proof/Machine/MemCtl.lean ====
section
/-! DEFINITION. The commands of the stack controllers and of hub/memmap: write-backs, scrubbing, the memory map and the fill
engine (R362–R384). -/

namespace Sys2Proof.Machine

open Sys2Proof

/-! ## Controllers -/

/-- MC_CORRECTION_WRITEBACK: the oldest queued rewrite of a stack; `hard` where the line read back still needs correction
(R375). -/
def execMcCorrectionWriteback (k : Fin 8) (hard : Bool) (s : State) : Res := .next (s.clean.mcWriteback k hard)

/-- 64-byte lines of a stack (R376). -/
def stackLines : Nat := 402653184

/-- SCRUB_READ: the scrubber reads its next local line; byte `i` of it is met with the wrong bits `bits` (R374, R376). -/
def execScrubRead (k : Fin 8) (i : Fin 64) (bits : BitVec 13) (s : State) : Res :=
  let s := s.clean
  let u := UnitId.mc k
  if !s.on u F.MC_SCRUB_EN then .next s
  else
    let pos := s.get u F.MC_SCRUB_POS
    let line := addrOf k.val (64 * pos) / 64
    let a := 64 * line + i.val
    let s := { s with flips := tset 0 s.flips a (tget 0 s.flips a ^^^ bits.toNat) }
    let s := match s.annexAt a with
      | some r => s.annexScrub r line
      | none => (s.mcRead line true).1
    .next (s.put u F.MC_SCRUB_POS ((pos + 1) % stackLines))

/-- The trip value of a die (R432). -/
def tripOf : DieKind → Int
  | .keep => 115
  | .stack _ => 105
  | .tile | .hub | .medium => 125

/-- The field of THM_STAT that shows a kind of die. -/
def thmFld : DieKind → Fld
  | .tile => F.THM_STAT_TILE_MAX | .hub => F.THM_STAT_HUB | .medium => F.THM_STAT_MED_MAX | .keep => F.THM_STAT_KEEP
  | .stack _ => F.THM_STAT_STACK_MAX

/-- The warning margin (R441). -/
def State.warnMargin (s : State) : Int := max 1 (s.get .therm F.THM_CTRL_WARN_C)

/-- A reading, in °C, of a kind of die: WARN is set when it comes within WARN_C of the trip value (R441). -/
def State.warnAt (s : State) (die : DieKind) (temp : Int) : State :=
  if tripOf die - s.warnMargin ≤ temp then s.raise .therm F.THM_EVT_WARN else s

/-- THM_STAT.STACK_MAX follows the stacks' temperatures (R440). -/
def State.stackMax (s : State) : State :=
  let ts := ([0, 1, 2, 3, 4, 5, 6, 7] : List (Fin 8)).map fun k => signedOf (s.get (.mc k) F.MC_STAT_TEMP) 8
  s.put .therm F.THM_STAT_STACK_MAX (unsignedOf (ts.foldl max (-128)) 8)

/-- A stack's temperature, in °C, is read (R362, R381, R441): HOT follows whether it is above 85. -/
def State.stackRead (s : State) (k : Fin 8) (temp : BitVec 8) : State :=
  let u := UnitId.mc k
  let hot := decide (85 < temp.toInt)
  let rise := hot && !s.on u F.MC_STAT_HOT
  let s := ((s.put u F.MC_STAT_TEMP temp.toNat).putBit u F.MC_STAT_HOT hot).stackMax
  (if rise then s.raise u F.MC_EVT_HOT else s).warnAt (.stack k) temp.toInt

/-- STACK_HOT (R362, R381). -/
def execStackHot (k : Fin 8) (temp : BitVec 8) (s : State) : Res := .next (s.clean.stackRead k temp)

/-! ## The memory map (R368–R371) -/

/-- The enabled regions as the registers hold them. -/
def State.mregions (s : State) : List MRegion :=
  (List.range 16).filterMap fun r =>
    if s.get .memmap F.MREG_EN r != 0 then
      some ⟨s.get .memmap F.MREG_STRONG r != 0, s.get .memmap F.MREG_BASE r, s.get .memmap F.MREG_LIMIT r, s.get .memmap F.MREG_ANNEX r⟩
    else none

/-- Every two entries of a list satisfy `p`. -/
def pairsAll {α : Type} (p : α → α → Bool) : List α → Bool
  | [] => true
  | x :: xs => xs.all (p x) && pairsAll p xs

/-- A region lies below TOP, and the annex of a strong one within annex space (R370). -/
def regionOk (top : Nat) (r : MRegion) : Bool :=
  decide (r.base ≤ r.limit) && decide (2 * (r.limit + 1) ≤ top) &&
  (!r.strong || decide (top ≤ r.annex ∧ r.annex + (r.limit + 1 - r.base) ≤ 384))

/-- Two regions, and their annexes, do not overlap (R370). -/
def regionsApart (x y : MRegion) : Bool :=
  decide (x.limit < y.base ∨ y.limit < x.base) &&
  (!(x.strong && y.strong) || decide (x.annex + (x.limit + 1 - x.base) ≤ y.annex ∨ y.annex + (y.limit + 1 - y.base) ≤ x.annex))

/-- What covers GiB `g` under a list of regions: nothing but the light code, or the strong code with this annex unit. -/
def codeAt (rs : List MRegion) (g : Nat) : Option Nat :=
  (rs.find? fun r => r.strong && decide (r.base ≤ g ∧ g ≤ r.limit)).map fun r => r.annex + (g - r.base)

/-- The GiB whose annex is the 512 MiB unit `u`. -/
def annexUse (rs : List MRegion) (u : Nat) : Option Nat :=
  (rs.find? fun r => r.strong && decide (r.annex ≤ u ∧ u < r.annex + (r.limit + 1 - r.base))).map fun r => r.base + (u - r.annex)

/-- Ranges of DRAM that a change of map leaves undefined: every GiB whose code or annex changed, every annex that changed
(R371). -/
def changedRanges (old new : List MRegion) : List (Nat × Nat) :=
  ((List.range 192).filterMap fun g => if codeAt old g = codeAt new g then none else some (g * 2 ^ 30, (g + 1) * 2 ^ 30)) ++
  ((List.range 384).filterMap fun u => if annexUse old u = annexUse new u then none else some (u * 2 ^ 29, (u + 1) * 2 ^ 29))

/-- A range of DRAM left undefined. -/
def State.lose (s : State) (r : Nat × Nat) : State :=
  let (k, s) := s.draw
  let out := fun (a : Nat) => decide (a < r.1 ∨ r.2 ≤ a)
  { s with lost := ⟨r.1, r.2, k, []⟩ :: s.lost, fresh := tkeep out s.fresh, dram := tkeep out s.dram, flips := tkeep out s.flips,
           poison := tkeep (fun l => out (64 * l)) s.poison }

/-- MEMMAP_COMMIT: denied from the normal world, while LOCK or FILL_BUSY is 1, and while BUSY is 1; refused with ERR when the
regions break R370 (R370, R380, R384). -/
def execMemmapCommit (w : World) (s : State) : Res :=
  let s := s.clean
  if w == .normal || s.on .memmap F.MEMMAP_CTRL_LOCK || s.on .memmap F.FILL_BUSY || s.on .memmap F.MEMMAP_STAT_BUSY then
    .next (s.denied .memmap)
  else
    let rs := s.mregions
    let top := s.get .memmap F.MEM_TOP
    if rs.all (regionOk top) && pairsAll regionsApart rs then
      .next ({ (s.put .memmap F.MEMMAP_STAT_ERR 0).put .memmap F.MEMMAP_STAT_BUSY 1 with mregNext := some (rs, top) })
    else .next (s.put .memmap F.MEMMAP_STAT_ERR 1)

/-- MEMMAP_COMMIT_DONE: BUSY falls and the new map is in force (R370, R371). -/
def execMemmapCommitDone (s : State) : Res :=
  let s := s.clean
  match s.mregNext with
  | none => .next s
  | some (rs, top) =>
    let s := (changedRanges s.mregNow rs).foldl (fun s r => s.lose r) s
    .next ({ s.put .memmap F.MEMMAP_STAT_BUSY 0 with mregNow := rs, memTop := min top 384, mregNext := none })

/-! ## The fill engine (R378) -/

/-- FILL_GO: starts the fill, or sets FILL_ERR; denied from the normal world, while a commit is in progress and while a fill
runs (R378, R380). -/
def execFillGo (w : World) (s : State) : Res :=
  let s := s.clean
  if w == .normal || s.on .memmap F.MEMMAP_STAT_BUSY || s.on .memmap F.FILL_BUSY then .next (s.denied .memmap)
  else
    let lo := s.get .memmap F.FILL_BASE
    let hi := s.get .memmap F.FILL_LIMIT
    if hi < lo ∨ dramSize ≤ 4096 * hi then .next (s.put .memmap F.FILL_ERR 1)
    else .next ({ (s.put .memmap F.FILL_ERR 0).put .memmap F.FILL_BUSY 1 with fill := some (4096 * lo, 4096 * hi + 4095) })

/-- What is left of an undefined range when bytes `lo` to `hi` are filled: the rest of it, in which their check bits are good. -/
def lostOutside (lo hi : Nat) (r : LostRange) : List LostRange :=
  let r := { r with fills := (lo, hi) :: r.fills }
  (if r.lo < lo then [{ r with hi := min r.hi lo }] else []) ++ (if hi + 1 < r.hi then [{ r with lo := max r.lo (hi + 1) }] else [])

/-- A wrong bit stored at `a` goes when bytes `lo` to `hi` are written: it lies there, or in their annex. -/
def State.filled (s : State) (lo hi a : Nat) : Bool :=
  decide (lo ≤ a ∧ a ≤ hi) ||
  s.mregNow.any fun r => r.strong && decide (r.annex * 2 ^ 29 ≤ a ∧ a < (r.annex + (r.limit + 1 - r.base)) * 2 ^ 29) &&
    decide (lo ≤ annexData r a ∧ annexData r a ≤ hi)

/-- Zeros, with good check bits, in bytes `lo` to `hi` of DRAM: poison there is cleared, queued rewrites of them are dropped,
and armed injections of a line take effect (R375, R378, R382, R514). -/
def State.zeroFill (s : State) (lo hi : Nat) : State :=
  let inLine := fun (l : Nat) => decide (lo ≤ 64 * l ∧ 64 * l ≤ hi)
  let s := (List.range 8).foldl (fun s k => ((s.wbq k).filter fun e => inLine e.line).foldl (fun s e => s.wbDrop e.line allBytes) s) s
  let s := { s with dram := tkeep (fun a => !decide (lo ≤ a ∧ a ≤ hi)) s.dram, poison := tkeep (fun l => !inLine l) s.poison,
                    lost := s.lost.flatMap (lostOutside lo hi), fresh := tkeep (fun a => !decide (lo ≤ a ∧ a ≤ hi)) s.fresh,
                    flips := tkeep (fun a => !s.filled lo hi a) s.flips }
  let inject := fun (s : State) (k : Fin 8) =>
    let l := s.get (.mc k) F.INJ_ADDR
    if inLine l && stackOf (64 * l) == k then s.mcInject l else s
  [0, 1, 2, 3, 4, 5, 6, 7].foldl inject s

/-- FILL_DONE_MEM: the last line is written and FILL_BUSY falls (R378). -/
def execFillDoneMem (s : State) : Res :=
  let s := s.clean
  match s.fill with
  | none => .next s
  | some (lo, hi) =>
    if s.mode == .loading then .next s else .next ({ (s.zeroFill lo hi).put .memmap F.FILL_BUSY 0 with fill := none })

end Sys2Proof.Machine
end

