-- ==== Sys2Proof/Machine/Transfer.lean ====
section
/-! DEFINITION. Transfer rings: descriptors, requests to host memory, completions, and how transfers end (R235–R242,
R244–R247, R254). -/

namespace Sys2Proof.Machine

open Sys2Proof

/-! ## Layouts -/

/-- A transfer descriptor from its 32 bytes (R236). -/
def xferDescOf (bs : List Byte) : XferDesc :=
  let w0 := wordAt bs 0
  let w2 := wordAt bs 2
  { tag := bitsOf w0 0 16, op := bitsOf w0 16 4, fn := bitsOf w0 20 10, pf := bitsOf w0 30 1 == 1, ro := bitsOf w0 31 1 == 1,
    len := bitsOf w0 32 26, haddr := wordAt bs 1, daddr := bitsOf w2 0 52,
    reserved := bitsOf w0 58 6 != 0 || bitsOf w2 52 12 != 0 || wordAt bs 3 != 0 }

/-- The two words of a transfer completion (R238). -/
def xferCompletion (d : XferDesc) (status done : Nat) (wrap : Bool) : List Byte :=
  wordsBytes [placed d.tag 0 16 + placed status 16 8 + placed d.fn 24 10, placed done 0 22 + placed (bit (!wrap)) 63 1]

/-- A descriptor's function. -/
def xferFn (k : Fin 2) (d : XferDesc) : Nat := if d.pf then 1024 + k.val else d.fn

/-- The checks of R237. -/
def State.xferBad (s : State) (k : Fin 2) (d : XferDesc) : Bool :=
  d.op == 0 || decide (2 < d.op) || d.reserved || d.len == 0 || decide (2097152 < d.len) || decide (2 ^ 64 < d.haddr + d.len) ||
  decide (dramSize < d.daddr + d.len) || (d.pf && d.fn != 0) || (!d.pf && (s.fnPort d.fn != k || !s.fnCreated d.fn))

/-! ## Ring state -/

/-- A ring's state replaced, with IDLE and ACTIVE as it shows them (R254). -/
def State.putXring (s : State) (k : Fin 2) (r : Nat) (x : XRing) : State :=
  ((s.setXring k.val r x).put (.pcie k) F.XR_STAT_IDLE (bit (x.active.isEmpty && x.fetched.isNone)) r).put (.pcie k)
    F.XR_STAT_ACTIVE x.active.length r

/-- A transfer completion posted, and its events (R238, R240, R254). -/
def State.xferPost (s : State) (k : Fin 2) (r : Nat) (d : XferDesc) (status done : Nat) : State :=
  let u := UnitId.pcie k
  let n := s.get u F.XC_CFG_LOG2N r
  let t := s.get u F.XC_TAIL r
  let x := s.xring k.val r
  let s := s.masterWrite (8 + k.val) u (ringAt (s.get u F.XC_CFG_BASE r) n 16 t) (xferCompletion d status done x.wrap)
  let s := (s.put u F.XC_TAIL ((t + 1) % 2 ^ n) r).setXring k.val r { x with wrap := if (t + 1) % 2 ^ n = 0 then !x.wrap else x.wrap }
  let s := s.raise u F.XR_EVT_CQ r
  if status = 0x30 then s.raise u F.XR_EVT_BAD_ENTRY r
  else if 0x50 ≤ status ∧ status ≤ 0x56 then s.raise u F.XR_EVT_HOST_ERR r
  else s

/-- An active transfer replaced, by its ring index. -/
def State.putXfer (s : State) (k : Fin 2) (r : Nat) (x : Xfer) : State :=
  let g := s.xring k.val r
  s.setXring k.val r { g with active := g.active.map fun y => if y.idx == x.idx then x else y }

/-- Requests of a transfer that are outstanding. -/
def State.xferReqs (s : State) (k : Fin 2) (r idx : Nat) : List HostReqS :=
  (s.portS k.val).reqs.filter fun q => q.ring == r && q.idx == idx

/-- Bytes moved (R238, R239): before the first byte that was not delivered. -/
def State.xferDone (s : State) (k : Fin 2) (r : Nat) (x : Xfer) : Nat :=
  let open_ := (s.xferReqs k r x.idx).map fun q => q.off + q.got
  (x.next :: (x.missing ++ open_)).foldl min x.d.len

/-- A transfer ends and is posted: it leaves the ring's active set. -/
def State.xferEnd (s : State) (k : Fin 2) (r : Nat) (x : Xfer) (status : Nat) : State :=
  let done := s.xferDone k r x
  let g := s.xring k.val r
  (s.putXring k r { g with active := g.active.filter fun y => y.idx != x.idx }).xferPost k r x.d status done

/-! ## Requests (R236, R240) -/

/-- A tag that no request and no hold uses. -/
def freeReqTag (p : PortS) : Option Nat :=
  (List.range 1024).find? fun t =>
    !(p.reqs.any fun q => q.tag == t) && !(p.timedOut.any fun q => q.1 == t) && !(p.orphans.any fun q => q.1 == t)

/-- The function's requests may be issued (R244, R245). -/
def State.mayIssue (s : State) (k : Fin 2) (f : Nat) : Bool :=
  (s.fnS f).bme && !(s.fnS f).resetting && !(s.fnS f).d3 && s.linkUp k

/-- A write request handed to the link layer. -/
def State.sendTlp (s : State) (k : Fin 2) (f : Nat) (t : HostTlp) : State :=
  s.emitTlp f (.hostWrite k.val f t.addr t.data t.ep t.ro)

/-- SHARE of a function (R228, R241, R253). -/
def State.fnShare (s : State) (k : Fin 2) (f : Nat) : Nat :=
  if 1024 ≤ f then s.get (.pcie k) F.PCIE_PM_PF_SHARE else s.get .fnmgr F.FNT_SHARE f

/-- A transfer has a request that may be issued now: a read request needs a free tag. -/
def State.xferReady (s : State) (k : Fin 2) (x : Xfer) : Bool :=
  !x.stop && decide (x.next < x.d.len) && s.mayIssue k x.fn &&
  (x.d.op != 1 || (freeReqTag (s.portS k.val)).isSome)

/-- The transfers of a port that have a request to issue, with their rings, in ring order. -/
def State.xfersReady (s : State) (k : Fin 2) : List (Nat × Xfer) :=
  (List.range 16).flatMap fun r => ((s.xring k.val r).active.filter fun x => s.xferReady k x).map fun x => (r, x)

/-- Bytes that a function has had over its SHARE; one that had no work starts level with the least of its kind, with a SHARE or
without, that has. -/
def State.servedOf (s : State) (k : Fin 2) (l : List (Nat × Nat)) (f : Nat) : Nat :=
  match l.find? fun p => p.1 == f with
  | some p => p.2
  | none => (((l.filter fun p => (s.fnShare k p.1 == 0) == (s.fnShare k f == 0)).map fun p => p.2).min?).getD 0

/-- Function `f` is served before `g` (R241): a function with a SHARE before one without; else the one that has had less over
its SHARE, functions with SHARE 0 counting alike. -/
def State.before (s : State) (k : Fin 2) (l : List (Nat × Nat)) (f g : Nat) : Bool :=
  let a := s.fnShare k f
  let b := s.fnShare k g
  if (a == 0) != (b == 0) then b == 0 else decide (s.servedOf k l f < s.servedOf k l g)

/-- The transfer whose request the port's arbiter grants next (R241). -/
def State.xferPick (s : State) (k : Fin 2) (l : List (Nat × Nat)) : List (Nat × Xfer) → Option (Nat × Xfer)
  | [] => none
  | p :: ps =>
    match s.xferPick k l ps with
    | none => some p
    | some q => if s.before k l q.2.fn p.2.fn then some q else some p

/-- The read request of a transfer at its next offset: it respects Max Read Request Size and the 4 KiB boundaries of host
memory (R236). -/
def State.readRequest (s : State) (k : Fin 2) (r : Nat) (x : Xfer) (len : Nat) : State :=
  let p := s.portS k.val
  match freeReqTag p with
  | none => s
  | some t =>
    let s := (s.setPort k.val { p with reqs := p.reqs ++ [⟨t, x.fn, r, x.idx, x.next, len, 0⟩] }).putXfer k r
      { x with next := x.next + len }
    s.emitTlp x.fn (.hostRead k.val t x.fn (x.d.haddr + x.next) len)

/-- The write request of a transfer at its next offset (R236, R239): it respects Max Payload Size and the 4 KiB boundaries, and
carries EP when its source is poisoned. -/
def State.writeRequest (s : State) (k : Fin 2) (r : Nat) (x : Xfer) (len : Nat) : State :=
  let (s, ans) := s.masterRead (8 + k.val) (.pcie k) (x.d.daddr + x.next) len
  let t : HostTlp := ⟨x.d.haddr + x.next, ans.data?.getD (List.replicate len 0), ans.data?.isNone,
    x.d.ro && (s.fnS (1024 + k.val)).relaxed⟩
  let x := { x with status := if t.ep && x.status == 0 then 0x24 else x.status }
  (s.sendTlp k x.fn t).putXfer k r { x with next := x.next + len }

/-- The length of a transfer's request at offset `o` (R236). -/
def State.requestLen (s : State) (k : Fin 2) (x : Xfer) (o : Nat) : Nat :=
  let pf := s.fnS (1024 + k.val)
  min (min (if x.d.op = 1 then pf.maxRead else pf.maxPayload) (4096 - (x.d.haddr + o) % 4096)) (x.d.len - o)

/-- The next request of a transfer, and the arbiter's account of its bytes (R236, R241). -/
def State.xferGrant (s : State) (k : Fin 2) (l : List (Nat × Nat)) (r : Nat) (x : Xfer) : State :=
  let len := s.requestLen k x x.next
  let had := s.servedOf k l x.fn + len * 2 ^ 32 / max 1 (s.fnShare k x.fn)
  let s := s.setPort k.val { s.portS k.val with served := (x.fn, had) :: l.filter fun p => p.1 != x.fn }
  if x.d.op = 1 then s.readRequest k r x len else s.writeRequest k r x len

/-- Requests granted one by one to the functions that have work, in proportion to SHARE, at most `n` (R241), of the transfers of
one OP, until `stop`. A function without work keeps no claim: what it leaves unused is the others'. -/
def State.xferPump (s : State) (k : Fin 2) (op : Nat) (stop : State → Bool) : Nat → State
  | 0 => s
  | n + 1 =>
    if stop s then s
    else
      let all_ := s.xfersReady k
      let l := (s.portS k.val).served.filter fun p => all_.any fun q => q.2.fn == p.1
      match s.xferPick k l (all_.filter fun q => q.2.d.op == op) with
      | none => s
      | some (r, x) => (s.xferGrant k l r x).xferPump k op stop n

/-- Read requests of every active transfer of a port issued while tags are free. -/
def State.issueAll (s : State) (k : Fin 2) : State := s.xferPump k 1 (fun _ => false) 1024

/-- Every request of a transfer is issued, or none will be. -/
def State.xferIssued (s : State) (k : Fin 2) (r idx : Nat) : Bool :=
  (s.xring k.val r).active.all fun x => x.idx != idx || x.d.op != 2 || x.stop || decide (x.d.len ≤ x.next)

/-- Write requests handed to the link layer in the arbiter's order until the last one of a transfer is (R240, R241): at most every
request of 256 active transfers. -/
def State.issueWrites (s : State) (k : Fin 2) (r idx : Nat) : State :=
  s.xferPump k 2 (fun s => s.xferIssued k r idx) (256 * 16385)

/-- The write requests of a transfer that are not handed over, at most `n`. -/
def State.writesLeft (s : State) (k : Fin 2) (x : Xfer) : Nat → Nat → Nat
  | 0, _ => 0
  | n + 1, o => if x.d.op = 1 ∨ x.stop ∨ x.d.len ≤ o then 0 else 1 + s.writesLeft k x n (o + s.requestLen k x o)

/-- The bytes of write requests that wait at a port (R243). -/
def State.bytesWaiting (s : State) (k : Fin 2) : Nat :=
  (List.range 16).foldl (fun n r => ((s.xring k.val r).active.filter fun x => x.d.op == 2 && !x.stop).foldl
    (fun n x => n + (x.d.len - x.next)) n) 0

/-! ## Starting (R237, R240, R243–R247) -/

/-- The next descriptor in ring order, fetched when none is waiting. One that cannot be read has a reserved OP. -/
def State.xferNext? (s : State) (k : Fin 2) (r : Nat) : State × Option (Nat × XferDesc) :=
  let u := UnitId.pcie k
  let g := s.xring k.val r
  match g.fetched with
  | some x => (s, some x)
  | none =>
    let h := s.get u F.XQ_HEAD r
    if !(s.get u F.XR_CTRL_EN r == 1 && g.run && h != s.get u F.XQ_TAIL r) then (s, none)
    else
      let n := s.get u F.XQ_CFG_LOG2N r
      let (s, ans) := s.masterRead (8 + k.val) u (ringAt (s.get u F.XQ_CFG_BASE r) n 32 h) 32
      (s.put u F.XQ_HEAD ((h + 1) % 2 ^ n) r, some (h, xferDescOf (ans.data?.getD (List.replicate 32 0))))

/-- A place in the completion ring for one descriptor more than the active ones. -/
def State.xferRoom (s : State) (k : Fin 2) (r : Nat) : Bool :=
  let u := UnitId.pcie k
  decide ((s.xring k.val r).active.length + 1 ≤ ringFree (s.get u F.XC_CFG_LOG2N r) (s.get u F.XC_HEAD r) (s.get u F.XC_TAIL r))

/-- A descriptor may start: EN 1, PAUSE 0, fewer than 16 active, and a place in the completion ring for it and for every
active one. -/
def State.xferMay (s : State) (k : Fin 2) (r : Nat) : Bool :=
  let u := UnitId.pcie k
  s.get u F.XR_CTRL_EN r == 1 && s.get u F.XR_CTRL_PAUSE r == 0 && decide ((s.xring k.val r).active.length < 16) && s.xferRoom k r

/-- A fetched descriptor that will not start completes with a status and DONE 0, at once or when the completion ring has a
place (R244, R245, R247, R254). A reset or the loss of the link governs over a status met before (R246, R247). -/
def State.endFetched (s : State) (k : Fin 2) (r : Nat) (st : Nat) : State :=
  let g := s.xring k.val r
  match g.fetched with
  | none => s
  | some (_, d) =>
    let st := if st = 0x55 ∨ st = 0x56 then st else g.doom.getD st
    if s.xferRoom k r then (s.putXring k r { g with fetched := none, doom := none }).xferPost k r d st 0
    else s.setXring k.val r { g with doom := some st }

/-- The fetched descriptors of the functions that `p` names end (R243–R247). -/
def State.endFetchedOf (s : State) (k : Fin 2) (p : Nat → Bool) (st : Nat) : State :=
  (List.range 16).foldl (fun s r => match (s.xring k.val r).fetched with
    | some (_, d) => if p (xferFn k d) && !s.xferBad k d then s.endFetched k r st else s
    | none => s) s

/-- Why a transfer ends as it starts: a bad entry, a link that is down, a reset, Bus Master Enable 0 or D3hot. -/
def State.xferRefusal (s : State) (k : Fin 2) (d : XferDesc) : Option Nat :=
  let f := s.fnS (xferFn k d)
  if s.xferBad k d then some 0x30
  else if !s.linkUp k then some 0x56
  else if f.resetting then some 0x55
  else if !f.bme || f.d3 then some 0x54
  else none

/-- A transfer that starts: read requests are issued among those of the others, and write requests wait for the link (R240, R241). The
port leaves L1, and leaves L0p once more than 8 KiB wait (R243). -/
def State.xferRun (s : State) (k : Fin 2) (r idx : Nat) (d : XferDesc) : State :=
  let g := s.xring k.val r
  let s := s.leaveL1 k
  let s := s.putXring k r { g with active := g.active ++ [{ idx := idx, d := d, fn := xferFn k d }] }
  let s := if s.get (.pcie k) F.PCIE_STAT_PM = 1 ∧ 8192 < s.bytesWaiting k then s.put (.pcie k) F.PCIE_STAT_PM 0 else s
  s.issueAll k

/-- The next descriptor starts when its OP is `op` or reserved; one that may not start yet, or has another OP, stays
fetched. -/
def State.xferStart (s : State) (k : Fin 2) (r op : Nat) : State :=
  match s.xferNext? k r with
  | (s, none) => s
  | (s, some (idx, d)) =>
    if (s.xring k.val r).doom.isSome then s.endFetched k r 0
    else if s.xferMay k r && (d.op == op || d.op == 0 || decide (2 < d.op)) then
      let s := s.putXring k r { s.xring k.val r with fetched := none }
      match s.xferRefusal k d with
      | some st => s.xferPost k r d st 0
      | none => s.xferRun k r idx d
    else s.putXring k r { s.xring k.val r with fetched := some (idx, d) }

/-- HOST_READ (R236, R240). -/
def execHostRead (k : Fin 2) (r : Fin 16) (s : State) : Res := .next (s.clean.xferStart k r.val 1)

/-- HOST_WRITE (R236, R240). -/
def execHostWrite (k : Fin 2) (r : Fin 16) (s : State) : Res := .next (s.clean.xferStart k r.val 2)

/-! ## Completions -/

/-- A status met by a transfer: the first host error stands; one that comes while Bus Master Enable is being cleared replaces
MASTER_DISABLED, and any replaces SRC_POISON (R244, R246). -/
def xferStatus (x : Xfer) (st : Nat) : Nat := if x.status = 0 ∨ x.status = 0x24 ∨ x.status = 0x54 then st else x.status

/-- A request leaves the port's set. -/
def State.dropReq (s : State) (k : Fin 2) (tag : Nat) : State :=
  let p := s.portS k.val
  s.setPort k.val { p with reqs := p.reqs.filter fun q => q.tag != tag }

/-- A request that ends without all its data: what it lacks, the status, and no further request of the transfer. -/
def State.reqFails (s : State) (k : Fin 2) (q : HostReqS) (st : Nat) : State :=
  let s := s.dropReq k q.tag
  match (s.xring k.val q.ring).active.find? fun x => x.idx == q.idx with
  | none => s
  | some x => s.putXfer k q.ring { x with missing := (q.off + q.got) :: x.missing, stop := true, status := xferStatus x st }

/-- Data of a completion written to DRAM (R236, R239): with EP, as poisoned lines. -/
def State.reqData (s : State) (k : Fin 2) (q : HostReqS) (ep : Bool) (data : List Byte) : State :=
  match (s.xring k.val q.ring).active.find? fun x => x.idx == q.idx with
  | none => s
  | some x =>
    let bs := data.take (q.len - q.got)
    let at_ := x.d.daddr + q.off + q.got
    let s := s.masterWrite (8 + k.val) (.pcie k) at_ bs
    let s := if ep then (s.masterPoison (8 + k.val) (.pcie k) at_ bs.length).putXfer k q.ring { x with status := xferStatus x 0x53 } else s
    let p := s.portS k.val
    let got := q.got + bs.length
    if q.len ≤ got then s.dropReq k q.tag
    else s.setPort k.val { p with reqs := p.reqs.map fun y => if y.tag == q.tag then { y with got := got } else y }

/-- HOST_COMPLETION (R221, R239, R242, R245): one with a bad ECRC is dropped and logged where checking is enabled; data is written; UR and CA end the request; one that comes after its timeout is
discarded, logged and counted; one for a function reset since is discarded, and the last of its request frees the tag. -/
def execHostCompletion (k : Fin 2) (tag : Fin 1024) (st : CplStatus) (ep : Bool) (data : List Byte) (s : State) : Res :=
  let s := s.clean
  let p := s.portS k.val
  let f := ((p.reqs.find? fun q => q.tag == tag.val).map HostReqS.fn).getD (1024 + k.val)
  if s.ecrcBad f (st == .badEcrc) then .next (s.logAer f .ecrcError) else
  match p.reqs.find? fun q => q.tag == tag.val with
  | some q =>
    match st with
    | .success | .badEcrc => .next ((s.reqData k q ep data).issueAll k)
    | .ur => .next ((s.reqFails k q 0x51).issueAll k)
    | .ca => .next ((s.reqFails k q 0x52).issueAll k)
  | none =>
    match p.timedOut.find? fun e => e.1 == tag.val with
    | some e => .next ((s.logAer e.2 .unexpectedCompletion).count (.pcie k) F.PCIE_CNT_LATECPL)
    | none =>
      match p.orphans.find? fun e => e.1 == tag.val with
      | some (g, f, left) =>
        let rest := p.orphans.filter fun e => e.1 != tag.val
        let more := (st == .success || st == .badEcrc) && decide (data.length < left)
        .next ((s.setPort k.val { p with orphans := if more then rest ++ [(g, f, left - data.length)] else rest }).issueAll k)
      | none => .next (s.logAer (1024 + k.val) .unexpectedCompletion)

/-- XFER_DONE: the last request has completed, or the last write request is handed over now, and the completion is posted
(R240). -/
def execXferDone (k : Fin 2) (r : Fin 16) (idx : Nat) (s : State) : Res :=
  let s := s.clean.issueWrites k r.val idx
  match (s.xring k.val r.val).active.find? fun x => x.idx == idx with
  | none => .next s
  | some x =>
    if !(s.xferReqs k r.val idx).isEmpty then .next s
    else if x.stop || decide (x.d.len ≤ x.next) then .next (s.xferEnd k r.val x x.status)
    else .next s

/-- HOST_READ_TIMEOUT (R242): Completion Timeout logged and counted, HOST_TIMEOUT for the transfer, its tag held. -/
def execHostReadTimeout (k : Fin 2) (tag : Fin 1024) (s : State) : Res :=
  let s := s.clean
  let p := s.portS k.val
  let timeout := fun (s : State) (f : Nat) =>
    let p := s.portS k.val
    ((s.setPort k.val { p with timedOut := p.timedOut ++ [(tag.val, f)] }).raise (.pcie k) F.PCIE_EVT_CTO).count (.pcie k) F.PCIE_CNT_CTO
      |>.logAer f .completionTimeout
  match p.reqs.find? fun q => q.tag == tag.val with
  | some q => .next (timeout (s.reqFails k q 0x50) q.fn)
  | none =>
    match p.orphans.find? fun e => e.1 == tag.val with
    | some e => .next (timeout (s.setPort k.val { p with orphans := p.orphans.filter fun e => e.1 != tag.val }) e.2.1)
    | none => .next s

/-- TAG_HOLD_EXPIRY (R242). -/
def execTagHoldExpiry (k : Fin 2) (tag : Fin 1024) (s : State) : Res :=
  let s := s.clean
  let p := s.portS k.val
  .next ((s.setPort k.val { p with timedOut := p.timedOut.filter fun e => e.1 != tag.val }).issueAll k)

/-- XFER_RING_ENABLE (R254): EN 1 starts the ring, or sets CFG_ERR and leaves it idle; EN 0 cancels a descriptor fetched
and not started. -/
def execXferRingEnable (k : Fin 2) (r : Fin 16) (en : Bool) (s : State) : Res :=
  let s := s.clean
  let u := UnitId.pcie k
  let g := s.xring k.val r.val
  let ok := fun f => decide (4 ≤ s.get u f r.val ∧ s.get u f r.val ≤ 12)
  if en then
    let good := ok F.XQ_CFG_LOG2N && ok F.XC_CFG_LOG2N
    let s := (s.put u F.XR_CTRL_EN 1 r.val).putXring k r.val { g with run := good }
    .next (if good then s else s.raise u F.XR_EVT_CFG_ERR r.val)
  else
    .next (((s.put u F.XR_CTRL_EN 0 r.val).setXring k.val r.val { g with run := false }).endFetched k r.val 0x22)

/-! ## How transfers end with their function or port (R244–R247) -/

/-- The transfers of a function stop: write requests not yet handed over are dropped and counted, and each ends with
MASTER_DISABLED once its issued requests have completed; one not yet started ends now (R243, R244). -/
def State.disableXfers (s : State) (f : Nat) : State :=
  let k := s.fnPort f
  let s := s.endFetchedOf k (fun x => x == f) 0x54
  (List.range 16).foldl (fun s r =>
    ((s.xring k.val r).active.filter fun x => x.fn == f).foldl (fun s x =>
      let s := s.count (.pcie k) F.PCIE_CNT_DROPPED (s.writesLeft k x 16385 x.next)
      s.putXfer k r { x with stop := true, status := xferStatus x 0x54 }) s) s

/-- The transfers of a function end now with a status; write requests not handed over are dropped and counted; tags of
issued requests stay held until their completions arrive or time out (R245), or are freed (R247). One not yet started ends
with DONE 0. -/
def State.killXfers (s : State) (k : Fin 2) (p : Nat → Bool) (status : Nat) (hold : Bool) : State :=
  let s := (List.range 16).foldl (fun s r =>
    ((s.xring k.val r).active.filter fun x => p x.fn).foldl (fun s x =>
      (s.count (.pcie k) F.PCIE_CNT_DROPPED (s.writesLeft k x 16385 x.next)).xferEnd k r x status) s) s
  let s := s.endFetchedOf k p status
  let q := s.portS k.val
  let gone := q.reqs.filter fun x => p x.fn
  s.setPort k.val { q with reqs := q.reqs.filter fun x => !(p x.fn),
                           orphans := if hold then q.orphans ++ gone.map fun x => (x.tag, x.fn, x.len - x.got) else q.orphans }

end Sys2Proof.Machine
end

