-- ==== Sys2Proof/Machine/Endpoint.lean ====
section
/-! DEFINITION. The ports and functions: link events, resets, Bus Master Enable, virtual functions, the function table and
link power (R221–R234, R243–R256). -/

namespace Sys2Proof.Machine

open Sys2Proof

/-- The modes in which a port may train (R222). -/
def portMode (m : Mode) : Bool :=
  match m with
  | .twelve | .serve | .still | .sanitise | .format | .recovery => true
  | .off | .keep | .waking | .loading | .shutdownTest | .diagnostic => false

/-- TotalVFs and InitialVFs of a port (R225). -/
def State.totalVfs (s : State) (k : Fin 2) : Nat :=
  if s.mode = .recovery then 0 else if k = 0 then s.split else 1024 - s.split

/-- NUMVFS as PCIE_STAT shows it (R251). -/
def State.syncNumVfs (s : State) (k : Fin 2) : State :=
  let p := s.fnS (1024 + k.val)
  s.put (.pcie k) F.PCIE_STAT_NUMVFS (if p.vfEnable then p.numVfs else 0)

/-- The bit of PCIE_FN_EVT of a tenant function (R252). -/
def State.fnEvent (s : State) (f : Nat) : State :=
  if 1024 ≤ f then s
  else
    let u := UnitId.pcie (s.fnPort f)
    let w := s.get u F.PCIE_FN_EVT (f / 32)
    s.put u F.PCIE_FN_EVT (w ||| 2 ^ (f % 32)) (f / 32)

/-- VFE is set when VF Enable or NumVFs is no longer what it was (R252). -/
def State.vfeChanged (s old : State) (k : Fin 2) : State :=
  let f := 1024 + k.val
  if (s.fnS f).vfEnable == (old.fnS f).vfEnable && (s.fnS f).numVfs == (old.fnS f).numVfs then s
  else s.raise (.pcie k) F.PCIE_EVT_VFE

/-- A link lost, or PERSTn_N asserted (R247): transfers end with LINK_DOWN, tags are freed, every queue of the port
freezes, configuration space resets, CFG_READY falls. -/
def State.portDown (s : State) (k : Fin 2) : State :=
  let u := UnitId.pcie k
  let old := s
  let s := s.killXfers k (fun _ => true) 0x56 false
  let s := s.setPort k.val {}
  let s := ((((s.put u F.PCIE_STAT_LINK_UP 0).put u F.PCIE_STAT_RATE 0).put u F.PCIE_STAT_WIDTH 0).put u F.PCIE_STAT_FLIT 0).put u
    F.PCIE_STAT_PM 5
  let fs := s.portFns k
  let s := fs.foldl (fun s f => s.freezeFn f 3) s
  let s := fs.foldl (fun s f => s.resetFn f true) s
  ((((s.put u F.PCIE_CTRL_CFG_READY 0).raise u F.PCIE_EVT_LINK_DOWN).syncNumVfs k).vfeChanged old k).traceLink u

/-- PERST_ASSERT (R247, R251, R252). -/
def execPerstAssert (k : Fin 2) (s : State) : Res :=
  let s := s.clean
  let u := UnitId.pcie k
  if s.on u F.PCIE_STAT_PERST then .next s
  else .next (((s.put u F.PCIE_STAT_PERST 1).raise u F.PCIE_EVT_PERST).portDown k)

/-- PERST_DEASSERT (R222, R251, R252). -/
def execPerstDeassert (k : Fin 2) (s : State) : Res :=
  let s := s.clean
  let u := UnitId.pcie k
  if s.on u F.PCIE_STAT_PERST then .next ((s.put u F.PCIE_STAT_PERST 0).raise u F.PCIE_EVT_PERST) else .next s

/-- The port trains (R222); not once a SHUTDOWN has been accepted (R445). -/
def State.portTrains (s : State) (k : Fin 2) : Bool :=
  s.on (.pcie k) F.PCIE_CTRL_EN && !s.on (.pcie k) F.PCIE_STAT_PERST && portMode s.mode && s.pwrNext != some 3

/-- The widest link that MAX_WIDTH allows (R250). -/
def maxLanes (code : Nat) : Nat := if code = 0 then 16 else if code = 1 then 8 else if code = 2 then 4 else 1

/-- PCIE_LINK_UP (R221, R251, R252): within MAX_RATE and MAX_WIDTH, and in flit mode at 64 GT/s. -/
def execPcieLinkUp (k : Fin 2) (rate : Fin 6) (width : Nat) (flit : Bool) (s : State) : Res :=
  let s := s.clean
  let u := UnitId.pcie k
  let fits := decide (rate.val ≤ s.get u F.PCIE_CTRL_MAX_RATE ∧ width ≤ maxLanes (s.get u F.PCIE_CTRL_MAX_WIDTH)) &&
    [1, 4, 8, 16].contains width && (flit || decide (rate.val < 5))
  if !s.portTrains k || s.linkUp k || !fits then .next s
  else
    .next (((((((s.put u F.PCIE_STAT_LINK_UP 1).put u F.PCIE_STAT_RATE rate.val).put u F.PCIE_STAT_WIDTH width).putBit u
      F.PCIE_STAT_FLIT flit).put u F.PCIE_STAT_PM 0).raise u F.PCIE_EVT_LINK_UP).traceLink u)

/-- PCIE_LINK_DOWN (R247). -/
def execPcieLinkDown (k : Fin 2) (s : State) : Res :=
  let s := s.clean
  if s.linkUp k then .next (s.portDown k) else .next s

/-- PCIE_ENABLE (R226): denied while FNM_CTRL.LOCK is 0. -/
def execPcieEnable (k : Fin 2) (s : State) : Res :=
  let s := s.clean
  if s.on .fnmgr F.FNM_CTRL_LOCK then .next (s.put (.pcie k) F.PCIE_CTRL_EN 1) else .next (s.denied (.pcie k))

/-- CFG_READY (R224). -/
def execCfgReady (k : Fin 2) (s : State) : Res := .next (s.clean.put (.pcie k) F.PCIE_CTRL_CFG_READY 1)

/-- A configuration write of the host reaches a function: the link is up, CFG_READY is 1, the function exists and no reset
is in progress (R224, R231, R245). -/
def State.cfgReach (s : State) (f : Nat) : Bool :=
  let k := s.fnPort f
  s.linkUp k && s.on (.pcie k) F.PCIE_CTRL_CFG_READY && (decide (1024 ≤ f) || s.vfEnabled f) && !(s.fnS f).resetting

/-- Bus Master Enable cleared (R244). -/
def State.busMasterClear (s : State) (f : Nat) : State :=
  if !(s.fnS f).bme then s
  else
    let s := (s.setFn f { s.fnS f with bme := false }).disableXfers f
    let s := ((s.raise (.pcie (s.fnPort f)) F.PCIE_EVT_BME_CLR).fnEvent f)
    s.freezeFn f 1

/-- BUS_MASTER_DISABLE (R244, R252). -/
def execBusMasterDisable (f : Fin 1026) (s : State) : Res :=
  let s := s.clean
  if s.cfgReach f.val then .next (s.busMasterClear f.val) else .next s

/-- Bus Master Enable set: requests may be issued; queues stay frozen (R244). -/
def State.busMasterSet (s : State) (f : Nat) : State := (s.setFn f { s.fnS f with bme := true }).flushVectors f

/-- BUS_MASTER_ENABLE (R244). -/
def execBusMasterEnable (f : Fin 1026) (s : State) : Res :=
  let s := s.clean
  if s.cfgReach f.val then .next (s.busMasterSet f.val) else .next s

/-- The reset of one function (R245): Bus Master Enable falls first, so that no message of the function is sent (R244). -/
def State.flr (s : State) (f : Nat) : State :=
  let k := s.fnPort f
  let s := s.setFn f { s.fnS f with bme := false }
  let s := s.killXfers k (fun x => x == f) 0x55 true
  let s := s.freezeFn f 2
  let s := ((s.resetFn f false).raise (.pcie k) F.PCIE_EVT_FLR).fnEvent f
  s.setFn f { s.fnS f with resetting := true }

/-- VF Enable cleared: every enabled virtual function of the port is reset (R245). -/
def State.vfClear (s : State) (k : Fin 2) : State :=
  let p := s.fnS (1024 + k.val)
  if !p.vfEnable then s
  else
    let fs := (List.range 1024).filter fun f => s.fnPort f == k && s.vfEnabled f
    let s := fs.foldl (fun s f => s.flr f) s
    let s := s.setFn (1024 + k.val) { s.fnS (1024 + k.val) with vfEnable := false }
    ((s.raise (.pcie k) F.PCIE_EVT_FLR).raise (.pcie k) F.PCIE_EVT_VFE).syncNumVfs k

/-- FUNCTION_LEVEL_RESET (R245): a reset of the physical function also clears VF Enable. -/
def execFunctionLevelReset (f : Fin 1026) (s : State) : Res :=
  let s := s.clean
  if !s.cfgReach f.val then .next s
  else if 1024 ≤ f.val then
    let k := s.fnPort f.val
    .next ((((s.vfClear k).flr f.val).syncNumVfs k).vfeChanged s k)
  else .next (s.flr f.val)

/-- FUNCTION_RESET_DONE: the function answers configuration requests again (R245). -/
def execFunctionResetDone (f : Fin 1026) (s : State) : Res :=
  let s := s.clean
  .next (s.setFn f.val { s.fnS f.val with resetting := false })

/-- NumVFs set with VF Enable (R230, R252). -/
def State.vfSet (s : State) (k : Fin 2) (n : Nat) : State :=
  ((s.setFn (1024 + k.val) { s.fnS (1024 + k.val) with vfEnable := true, numVfs := n }).raise (.pcie k) F.PCIE_EVT_VFE).syncNumVfs k

/-- VF_ENABLE_SET (R225, R230): NumVFs up to TotalVFs. -/
def execVfEnableSet (k : Fin 2) (n : Nat) (s : State) : Res :=
  let s := s.clean
  if s.cfgReach (1024 + k.val) && decide (n ≤ s.totalVfs k) && !(s.fnS (1024 + k.val)).vfEnable then .next (s.vfSet k n)
  else .next s

/-- VF_ENABLE_CLEAR (R245). -/
def execVfEnableClear (k : Fin 2) (s : State) : Res :=
  let s := s.clean
  if s.cfgReach (1024 + k.val) then .next (s.vfClear k) else .next s

/-- A function enters D3hot: it holds no transfer (R243). -/
def State.d3Enter (s : State) (f : Nat) : State := (s.setFn f { s.fnS f with d3 := true }).disableXfers f

/-- D3HOT_ENTRY (R243). -/
def execD3hotEntry (f : Fin 1026) (s : State) : Res :=
  let s := s.clean
  if s.cfgReach f.val then .next (s.d3Enter f.val) else .next s

/-! ## The function table (R228–R232) -/

/-- SHARE over the CREATED entries of a port (R229). -/
def State.shareSum (s : State) (k : Fin 2) : Nat :=
  ((List.range 1024).filter fun f => s.fnCreated f && s.fnPort f == k).foldl (fun n f => n + s.get .fnmgr F.FNT_SHARE f) 0

/-- The checks of R229. -/
def State.fnPoolsOk (s : State) (f : Nat) : Bool :=
  let q := s.get .fnmgr F.FNT_QUEUES f
  let v := s.get .fnmgr F.FNT_VECTORS f
  let sh := s.get .fnmgr F.FNT_SHARE f
  let k := s.fnPort f
  decide (1 ≤ q ∧ q ≤ 8 ∧ 1 ≤ v ∧ v ≤ 16 ∧ sh ≤ 4096 ∧ s.shareSum k + sh + s.get (.pcie k) F.PCIE_PM_PF_SHARE ≤ 4096)

/-- FN_CREATE (R229). -/
def execFnCreate (f : Fin 1024) (s : State) : Res :=
  let s := s.clean
  if s.fnCreated f.val then .next s
  else if s.fnPoolsOk f.val then .next ((s.put .fnmgr F.FNT_STATE 1 f.val).holdTenant f.val)
  else .next (s.raise .fnmgr F.FNM_EVT_REFUSED)

/-- A function has a command admitted, or a transfer held (R230). -/
def State.fnBusy (s : State) (f : Nat) : Bool :=
  let k := s.fnPort f
  ((List.range 8).any fun q => !(s.queue f q).admitted.isEmpty || !(s.queue f q).held.isEmpty) ||
  (List.range 16).any fun r =>
    ((s.xring k.val r).active.any fun x => x.fn == f) ||
    (match (s.xring k.val r).fetched with | some (_, d) => xferFn k d == f | none => false)

/-- FN_FREE (R230). -/
def execFnFree (f : Fin 1024) (s : State) : Res :=
  let s := s.clean
  if !s.fnCreated f.val then .next s
  else if s.fnLive f.val || s.fnBusy f.val then .next (s.raise .fnmgr F.FNM_EVT_REFUSED)
  else .next (s.put .fnmgr F.FNT_STATE 0 f.val)

/-- The register field of a live setting (R256). -/
def liveFld : LiveField → Fld
  | .classes => F.FNT_CLASSES | .weight => F.FNT_WEIGHT | .quota => F.FNT_QUOTA

/-- A write to live settings of a CREATED function (R232): CHANGED is set and vector 0 sent, once for the write. -/
def State.liveWritten (s : State) (f : Nat) : State :=
  if s.fnCreated f then (s.put (.fn (fnOf f)) F.FN_INFO_CHANGED 1).sendVector f 0 else s

/-- FN_LIVE_FIELD_WRITE (R229, R232). -/
def execFnLiveFieldWrite (f : Fin 1024) (field : LiveField) (v : Nat) (s : State) : Res :=
  .next ((s.clean.put .fnmgr (liveFld field) v f.val).liveWritten f.val)

/-! ## Link power (R243) -/

/-- The link's power state set. -/
def State.setPm (s : State) (k : Fin 2) (v : Nat) : State := s.put (.pcie k) F.PCIE_STAT_PM v

/-- L0P_ENTRY: the host enables L0p, and L0P_IDLE is not 0 (R243, R253). -/
def execL0pEntry (k : Fin 2) (s : State) : Res :=
  let s := s.clean
  if s.linkUp k && s.get (.pcie k) F.PCIE_STAT_PM == 0 && (s.fnS (1024 + k.val)).l0pEn && s.get (.pcie k) F.PCIE_PM_L0P_IDLE != 0 then
    .next (s.setPm k 1)
  else .next s

/-- The host enables L1: ASPM's L1, or the physical function in D3hot (R243). -/
def State.l1Enabled (s : State) (k : Fin 2) : Bool :=
  let x := s.fnS (1024 + k.val)
  x.aspm / 2 % 2 == 1 || x.d3

/-- An LTR message with the values of PCIE_PM, while the host enables LTR and they are not those last sent (R221, R253). -/
def State.sendLtr (s : State) (k : Fin 2) : State :=
  let v := (s.get (.pcie k) F.PCIE_PM_LTR_SNOOP, s.get (.pcie k) F.PCIE_PM_LTR_NOSNOOP)
  if !(s.fnS (1024 + k.val)).ltrEn || (s.portS k.val).ltr == some v then s
  else (s.setPort k.val { s.portS k.val with ltr := some v }).emit (.ltr k.val v.1 v.2)

/-- L1_ENTRY: the host enables L1, and no request is outstanding, held after a reset, or waiting; changed LTR values are sent at the idle interval (R243,
R253). -/
def execL1Entry (k : Fin 2) (s : State) : Res :=
  let s := s.clean
  if s.linkUp k && s.l1Enabled k && decide (s.get (.pcie k) F.PCIE_STAT_PM ≤ 1) && (s.portS k.val).reqs.isEmpty &&
      (s.portS k.val).orphans.isEmpty && s.bytesWaiting k == 0 then
    .next (((s.sendLtr k).setPm k 2).count (.pcie k) F.PCIE_CNT_L1)
  else .next s

/-- Nanoseconds of a latency in PCI Express's encoding: a value in bits 9:0 and a scale of 32^n in bits 12:10. -/
def ltrNanos (v : Nat) : Nat := v % 1024 * 32 ^ (v / 1024 % 8)

/-- The last LTR values sent allow L1.2: neither is below the host's threshold. -/
def State.ltrAllows (s : State) (k : Fin 2) : Bool :=
  let t := ltrNanos (s.fnS (1024 + k.val)).ltrThr
  (s.portS k.val).ltr.any fun p => decide (t ≤ ltrNanos p.1 ∧ t ≤ ltrNanos p.2)

/-- The substate of L1 that the port enters, as PM shows it (R243, R251): L1.2 or L1.1 where the host's L1 PM Substates control
enables it for this L1 and, for L1.2, the last LTR value allows it; else L1. -/
def State.l1Substate (s : State) (k : Fin 2) : Nat :=
  let x := s.fnS (1024 + k.val)
  let on := fun (n : Nat) => x.l1ss / 2 ^ (if x.d3 then n else n + 2) % 2 == 1
  if on 0 && s.ltrAllows k then 4 else if on 1 then 3 else 2

/-- CLKREQ_RELEASE (R243). -/
def execClkreqRelease (k : Fin 2) (s : State) : Res :=
  let s := s.clean
  if s.linkUp k && s.get (.pcie k) F.PCIE_STAT_PM == 2 then .next (s.setPm k (s.l1Substate k)) else .next s

/-- L1_EXIT (R243). -/
def execL1Exit (k : Fin 2) (s : State) : Res :=
  let s := s.clean
  if s.linkUp k then .next (s.setPm k 0) else .next s

end Sys2Proof.Machine
end

