-- ==== Sys2Proof/Machine/Queue.lean ====
section
/-! DEFINITION. Command queues and the headgate: doorbells, fetch, admission, completions, freeze and restart (R257–R281,
R288, R291). -/

namespace Sys2Proof.Machine

open Sys2Proof

/-! ## Queues (R258–R262) -/

/-- The queue is enabled and not draining (R259, R262). -/
def State.qEnabled (s : State) (f q : Nat) : Bool :=
  s.on (.fn (fnOf f)) F.QSTAT_ENABLED q && !(s.queue f q).draining

/-- Tags busy on a queue (R264). -/
def busyTags (x : QueueS) : List Nat := (x.fetched.map fun e => e.tag) ++ x.admitted ++ x.held.map fun h => h.tag

/-- VER_REQ_WRITE (R258): ignored while any queue of the function is enabled. -/
def execVerReqWrite (f : Fin 1026) (v : Fin 256) (s : State) : Res :=
  let s := s.clean
  let u := UnitId.fn f
  if (List.range 8).any fun q => s.on u F.QSTAT_ENABLED q then .next s
  else .next ((s.put u F.QP_CTRL_VER_REQ v.val).put u F.QP_CTRL_VER (min v.val (protoOf s.build)))

/-- The cases of R259 in which an enable is refused. -/
def State.enableRefused (s : State) (f q : Nat) : Bool :=
  let u := UnitId.fn (fnOf f)
  let sq := s.get u F.QP_SQ_LOG2N q
  let cq := s.get u F.QP_CQ_LOG2N q
  s.get u F.QP_CTRL_VER == 0 || decide (s.fnQueues f ≤ q) || !(s.fnS f).bme || decide (sq < 1 ∨ 12 < sq) ||
  decide (cq < 5 ∨ 12 < cq) || s.fnClasses f / 2 ^ s.get u F.QCTRL_CLASS q % 2 == 0 ||
  decide (s.fnVectors f ≤ s.get u F.QCTRL_VECTOR q) || s.on u F.QSTAT_FROZEN q

/-- An enable under R259: refused, REFUSED is set and ENABLED stays 0. -/
def State.qEnable (s : State) (f q : Nat) : State :=
  let u := UnitId.fn (fnOf f)
  if s.enableRefused f q then (s.put u F.QSTAT_REFUSED 1 q).put u F.QSTAT_ENABLED 0 q
  else ((s.put u F.QCTRL_EN 1 q).put u F.QSTAT_REFUSED 0 q).put u F.QSTAT_ENABLED 1 q

/-- QUEUE_ENABLE (R259); one on a queue that still drains waits for ENABLED to fall (R281). -/
def execQueueEnable (f : Fin 1026) (q : Fin 8) (s : State) : Res :=
  let s := s.clean
  if (s.queue f.val q.val).draining then .next (s.put (.fn f) F.QCTRL_EN 1 q.val)
  else if s.on (.fn f) F.QSTAT_ENABLED q.val then .next s
  else .next (s.qEnable f.val q.val)

/-- QUEUE_DISABLE (R262, R281): fetched entries are dropped, completions that wait are discarded and counted, and the
firmware log gains cause 0. On a frozen queue EN is ignored. -/
def execQueueDisable (f : Fin 1026) (q : Fin 8) (s : State) : Res :=
  let s := s.clean
  let u := UnitId.fn f
  if s.on u F.QSTAT_FROZEN q.val then .next s
  else
    let s := s.put u F.QCTRL_EN 0 q.val
    if !s.on u F.QSTAT_ENABLED q.val || (s.queue f.val q.val).draining then .next s
    else
      let x := s.queue f.val q.val
      let s := s.count .headgate F.HG_CNT_CPLDROP x.held.length
      let s := (s.setQueue f.val q.val { x with fetched := [], held := [], draining := true, coal := 0 }).qSync f.val q.val
      .next (s.fwLogAdd 0 f.val q.val 0 0)

/-- QUEUE_DISABLE_DRAINED (R262): no tag is busy, so ENABLED falls; an enable that waited is then judged. -/
def execQueueDisableDrained (f : Fin 1026) (q : Fin 8) (s : State) : Res :=
  let s := s.clean
  let x := s.queue f.val q.val
  if !x.draining || !(busyTags x).isEmpty then .next s
  else
    let s := (s.setQueue f.val q.val { x with draining := false }).put (.fn f) F.QSTAT_ENABLED 0 q.val
    if s.on (.fn f) F.QCTRL_EN q.val then .next (s.qEnable f.val q.val) else .next s

/-! ## Doorbells (R260, R261) -/

/-- A doorbell discarded and counted (R261). -/
def State.doorbellLost (s : State) : State := s.count .headgate F.HG_CNT_DBDISC

/-- SQ_TAIL (R261, R281). -/
def execSqTail (f : Fin 1026) (q : Fin 8) (v : Fin 65536) (s : State) : Res :=
  let s := s.clean
  let u := UnitId.fn f
  if !s.qEnabled f.val q.val || s.on u F.QSTAT_FROZEN q.val || decide (s.fnQueues f.val ≤ q.val) then .next s.doorbellLost
  else if 2 ^ s.get u F.QP_SQ_LOG2N q.val ≤ v.val then .next (s.freeze f.val q.val 8 v.val 0)
  else .next (s.setQueue f.val q.val { s.queue f.val q.val with sqTail := v.val })

/-- The completion queue is full (R260). -/
def State.cqFull (s : State) (f q : Nat) : Bool :=
  let x := s.queue f q
  decide (ringFree (s.get (.fn (fnOf f)) F.QP_CQ_LOG2N q) x.cqHead x.cqTail = 0)

/-- The queue's interrupt after a completion (R273): at once, or coalesced under version 2. -/
def State.cplVector (s : State) (f q : Nat) : State :=
  let u := UnitId.fn (fnOf f)
  let x := s.queue f q
  let n := s.get u F.QCTRL_COAL_N q
  if !s.on u F.QCTRL_IEN q then s
  else if s.get u F.QP_CTRL_VER < 2 ∨ n ≤ 1 ∨ s.get u F.QCTRL_COAL_US q = 0 ∨ n ≤ x.coal + 1 then
    (s.setQueue f q { x with coal := 0 }).sendVector f (s.get u F.QCTRL_VECTOR q)
  else s.setQueue f q { x with coal := x.coal + 1 }

/-- A completion written to the CQ in host memory, with the phase bit (R273, R274); its tag is free. -/
def State.cplWrite (s : State) (f q : Nat) (h : HeldPost) : State :=
  let u := UnitId.fn (fnOf f)
  let x := s.queue f q
  let n := s.get u F.QP_CQ_LOG2N q
  let bs := wordsBytes [h.result,
    placed h.tag 0 5 + placed h.status 16 16 + placed (s.get u F.QSTAT_SQ_HEAD q) 32 16 + placed (bit (!x.wrap)) 63 1]
  let s := (s.leaveL1 (s.fnPort f)).emitTlp f
    (.hostWrite (s.fnPort f).val f (s.get u F.QP_CQ_BASE q * 4096 + 16 * x.cqTail) bs false false)
  let t := (x.cqTail + 1) % 2 ^ n
  ((s.setQueue f q { x with cqTail := t, wrap := if t = 0 then !x.wrap else x.wrap }).qSync f q).cplVector f q

/-- A posted completion may be written to the CQ (R273). -/
def State.cplGoes (s : State) (f q : Nat) : Bool :=
  s.qEnabled f q && (s.fnS f).bme && s.linkUp (s.fnPort f) && !(s.fnS f).resetting

/-- Completions that waited for a place are written while there is one, at most `n` (R273). -/
def State.releaseHeld (s : State) (f q : Nat) : Nat → State
  | 0 => s
  | n + 1 =>
    let x := s.queue f q
    match x.held with
    | [] => s
    | h :: hs =>
      if s.cqFull f q then s
      else ((s.setQueue f q { x with held := hs }).cplWrite f q h).releaseHeld f q n

/-- Completions that waited are discarded and counted (R273). -/
def State.dropHeld (s : State) (f q : Nat) : State :=
  let x := s.queue f q
  ((s.setQueue f q { x with held := [] }).qSync f q).count .headgate F.HG_CNT_CPLDROP x.held.length

/-- The driver has freed places of the CQ: completions that waited are written, or discarded where none may be (R273). -/
def State.cqFreed (s : State) (f q : Nat) : State :=
  if (s.queue f q).held.isEmpty then s else if s.cplGoes f q then s.releaseHeld f q 32 else s.dropHeld f q

/-- CQ_HEAD (R260, R261): entries are freed, and completions that waited for a place are written. -/
def execCqHead (f : Fin 1026) (q : Fin 8) (v : Fin 65536) (s : State) : Res :=
  let s := s.clean
  let u := UnitId.fn f
  if !s.qEnabled f.val q.val || decide (s.fnQueues f.val ≤ q.val) then .next s.doorbellLost
  else if 2 ^ s.get u F.QP_CQ_LOG2N q.val ≤ v.val then .next (s.freeze f.val q.val 8 v.val 0)
  else .next ((s.setQueue f.val q.val { s.queue f.val q.val with cqHead := v.val }).cqFreed f.val q.val)

/-! ## Fetch (R263–R265) -/

/-- The port fetches for the queue now. -/
def State.qFetches (s : State) (f q : Nat) : Bool :=
  let u := UnitId.fn (fnOf f)
  let x := s.queue f q
  s.qEnabled f q && !s.on u F.QSTAT_FROZEN q && (s.fnS f).bme && !(s.fnS f).d3 && s.linkUp (s.fnPort f) && decide ((busyTags x).length < 32) &&
  decide (x.fetched.length < 4) && s.get u F.QSTAT_SQ_HEAD q != x.sqTail

/-- A read of a queue's next entry, in SQ order, goes to the host with a free request tag (R224, R260). -/
def State.sqRead (s : State) (f q tag : Nat) : State :=
  let u := UnitId.fn (fnOf f)
  let k := s.fnPort f
  (s.leaveL1 k).emitTlp f
    (.hostRead k.val tag f (s.get u F.QP_SQ_BASE q * 4096 + 64 * s.get u F.QSTAT_SQ_HEAD q) 64)

/-- SQ_FETCH: the next entry in SQ order is read from host memory; a fetch error, a nonzero zero field or a busy tag freezes the
queue. -/
def execSqFetch (f : Fin 1026) (q : Fin 8) (res : FetchRes) (s : State) : Res :=
  let s := s.clean
  let u := UnitId.fn f
  if !s.qFetches f.val q.val || s.fatalStop then .next s
  else
    let h := s.get u F.QSTAT_SQ_HEAD q.val
    match freeReqTag (s.portS (s.fnPort f.val).val), res with
    | none, _ => .next s
    | some t, .error => .next ((s.sqRead f.val q.val t).freeze f.val q.val 9 h 0)
    | some t, .entry bs =>
      let s := s.sqRead f.val q.val t
      let bs := (bs ++ List.replicate 64 0).take 64
      let w := leNat (bs.take 4)
      let x := s.queue f.val q.val
      if bitsOf w 5 3 != 0 || bitsOf w 17 15 != 0 then .next (s.freeze f.val q.val 6 h 0)
      else if (busyTags x).contains (bitsOf w 0 5) then .next (s.freeze f.val q.val 7 h (bitsOf w 0 5))
      else
        let e : CmdEntry := ⟨bitsOf w 0 5, bitsOf w 16 1 == 1, bs, s.get .headgate F.HG_TIME⟩
        let s := s.put u F.QSTAT_SQ_HEAD ((h + 1) % 2 ^ s.get u F.QP_SQ_LOG2N q.val) q.val
        .next ((s.setQueue f.val q.val { x with fetched := x.fetched ++ [e] }).qSync f.val q.val)

/-! ## Admission (R266–R270) -/

/-- An intake ring has a free place (R266, R269). -/
def State.intakeFree (s : State) (c : Nat) : Bool :=
  decide (0 < ringFree (s.get .headgate F.IN_CFG_LOG2N c) (s.get .headgate F.IN_HEAD c) (s.get .headgate F.IN_TAIL c))

/-- The queue is a candidate (R266). A queue frozen with cause 7 holds at most the first entry with the tag, which is admitted
(R281). -/
def State.candidate (s : State) (f q : Nat) : Bool :=
  let u := UnitId.fn (fnOf f)
  let x := s.queue f q
  let c := s.get u F.QCTRL_CLASS q
  s.qEnabled f q && (!s.on u F.QSTAT_FROZEN q || s.get u F.QSTAT_CAUSE q == 7) && s.fnLive f && s.fnClasses f / 2 ^ c % 2 == 1 && s.intakeFree c &&
  (match x.fetched with | [] => false | e :: _ => !e.fence || (x.admitted.isEmpty && x.held.isEmpty))

/-- The candidates: function, queue and class, in order of function and queue. -/
def State.candidates (s : State) : List (Nat × Nat × Nat) :=
  (s.queues.map fun e => (e.1 / 8, e.1 % 8)).filterMap fun p =>
    if s.candidate p.1 p.2 then some (p.1, p.2, s.get (.fn (fnOf p.1)) F.QCTRL_CLASS p.2) else none

/-- A class weight in force: 0 acts as 1 (R291). -/
def State.classWeight (s : State) (c : Nat) : Int :=
  (max 1 (s.get .headgate (if c = 1 then F.HG_TUNE_WT_HIGH else if c = 2 then F.HG_TUNE_WT_NORM else F.HG_TUNE_WT_BULK)) : Nat)

/-- The first element with the largest key. -/
def argMax (key : Nat → Int) : List Nat → Option Nat
  | [] => none
  | x :: xs =>
    match argMax key xs with
    | none => some x
    | some y => if key x < key y then some y else some x

/-- The class of the admission, with the credits and the urgent run after it (R266). -/
def State.pickClass (s : State) (cs : List Nat) : Option Nat × HeadgateS :=
  let g := s.hg
  let run := max 1 (s.get .headgate F.HG_TUNE_URG_RUN)
  let others := [1, 2, 3].filter fun c => cs.contains c
  if cs.contains 0 && (decide (g.urgRun < run) || others.isEmpty) then (some 0, { g with urgRun := g.urgRun + 1 })
  else
    let up := (List.range 3).map fun i => g.credit.getD i 0 + if others.contains (i + 1) then s.classWeight (i + 1) else 0
    match argMax (fun c => up.getD (c - 1) 0) others with
    | none => (none, { g with urgRun := 0 })
    | some c =>
      let sum := others.foldl (fun n c => n + s.classWeight c) 0
      (some c, { g with urgRun := 0, credit := up.set (c - 1) (up.getD (c - 1) 0 - sum) })

/-- The function of the admission in a class, with the function credits after it (R266). Ties go to the physical functions,
then to the lower FN. -/
def State.pickFn (s : State) (g : HeadgateS) (c : Nat) (fs : List Nat) : Option Nat × HeadgateS :=
  let key := fun f => tget 0 g.fcredit (1026 * c + f) + (s.fnWeight f : Int)
  let order := fs.filter (fun f => decide (1024 ≤ f)) ++ fs.filter fun f => decide (f < 1024)
  match argMax key order with
  | none => (none, g)
  | some f =>
    let sum := fs.foldl (fun n f => n + (s.fnWeight f : Int)) 0
    let t := fs.foldl (fun t x => tset 0 t (1026 * c + x) (key x - if x = f then sum else 0)) g.fcredit
    (some f, { g with fcredit := t })

/-- The next candidate queue after the one served last (R266). -/
def nextQueue (last : Nat) (qs : List Nat) : Option Nat :=
  ((List.range 8).map fun i => (last + 1 + i) % 8).find? fun q => qs.contains q

/-- The intake entry (R270). -/
def State.intakeEntry (s : State) (f q c : Nat) (e : CmdEntry) : List Byte :=
  let pf := decide (1024 ≤ f)
  e.bytes ++ wordsBytes
    [ placed (if pf then 0 else f) 0 10 + placed (bit pf) 10 1 + placed (s.fnPort f).val 11 1 + placed q 12 3 + placed c 16 2 +
        placed e.tag 18 5, e.time, 0, 0, 0, 0, 0, 0 ]

/-- A queue's first fetched entry admitted: its intake entry, the ring's tail, INTAKE and the class's counter (R265, R269). -/
def State.letIn (s : State) (f q c : Nat) : State :=
  let x := s.queue f q
  match x.fetched with
  | [] => s
  | e :: es =>
    let n := s.get .headgate F.IN_CFG_LOG2N c
    let t := s.get .headgate F.IN_TAIL c
    let s := s.masterWrite 10 .headgate (ringAt (s.get .headgate F.IN_CFG_BASE c) n 128 t) (s.intakeEntry f q c e)
    let s := s.put .headgate F.IN_TAIL ((t + 1) % 2 ^ n) c
    let s := (s.setQueue f q { x with fetched := es, admitted := x.admitted ++ [e.tag] }).qSync f q
    (s.put .headgate F.HG_EVT_INTAKE (s.get .headgate F.HG_EVT_INTAKE ||| 2 ^ c)).count .headgate F.HG_CNT_ADMIT 1 c

/-- HG_ADMISSION (R266). -/
def execHgAdmission (s : State) : Res :=
  let s := s.clean
  if !(s.on .headgate F.HG_CTRL_EN && s.hg.run && !s.on .headgate F.HG_CTRL_PAUSE) || s.fatalStop then .next s
  else
    let cs := s.candidates
    match s.pickClass ((cs.map fun p => p.2.2).eraseDups) with
    | (none, _) => .next s
    | (some c, g) =>
      let here := cs.filter fun p => p.2.2 == c
      match s.pickFn g c ((here.map fun p => p.1).eraseDups) with
      | (none, _) => .next s
      | (some f, g) =>
        match nextQueue (tget 7 g.served (1026 * c + f)) ((here.filter fun p => p.1 == f).map fun p => p.2.1) with
        | none => .next s
        | some q =>
          .next ((({ s with hg := { g with served := tset 7 g.served (1026 * c + f) q } }).letIn f q c).pmuEvent 0x0A { cls := c })

/-! ## Completions (R271–R276) -/

/-- A post rejected (R272). -/
def State.badPost (s : State) (f q tag : Nat) : State :=
  ((s.count .headgate F.HG_CNT_BADPOST).raise .headgate F.HG_EVT_BADPOST).fwLogAdd 11 f q 0 tag

/-- A post that is taken: discarded on request, written or held while the queue can take it, otherwise discarded and counted
(R271, R273). -/
def State.takePost (s : State) (f q : Nat) (h : HeldPost) (discard : Bool) : State :=
  let x := s.queue f q
  let freed := { x with admitted := x.admitted.filter fun t => t != h.tag }
  if discard then (s.setQueue f q freed).qSync f q
  else if s.cplGoes f q then
    if s.cqFull f q || !x.held.isEmpty then (s.setQueue f q { freed with held := x.held ++ [h] }).qSync f q
    else (s.setQueue f q freed).cplWrite f q h
  else ((s.setQueue f q freed).qSync f q).count .headgate F.HG_CNT_CPLDROP

/-- POST_CONSUME: the next entry of a post ring (R271–R273). One that cannot be read is rejected. -/
def execPostConsume (p : Fin 4) (s : State) : Res :=
  let s := s.clean
  let u := UnitId.headgate
  let h := s.get u F.PQ_HEAD p.val
  if h = s.get u F.PQ_TAIL p.val then .next s
  else
    let n := s.get u F.PQ_CFG_LOG2N p.val
    let (s, ans) := s.masterRead 10 u (ringAt (s.get u F.PQ_CFG_BASE p.val) n 32 h) 32
    let s := s.put u F.PQ_HEAD ((h + 1) % 2 ^ n) p.val
    let bs := ans.data?.getD []
    let w := wordAt bs 0
    let pf := bitsOf w 10 1 == 1
    let f := if pf then 1024 + bitsOf w 11 1 else bitsOf w 0 10
    let q := bitsOf w 12 3
    let tag := bitsOf w 15 5
    let zero := bitsOf w 21 11 == 0 && bitsOf w 48 16 == 0 && wordAt bs 2 == 0 && wordAt bs 3 == 0 && (!pf || bitsOf w 0 10 == 0)
    if ans.data?.isNone || !zero || !(s.queue f q).admitted.contains tag then .next (s.badPost f q tag)
    else .next (s.takePost f q ⟨tag, bitsOf w 32 16, wordAt bs 1⟩ (bitsOf w 20 1 == 1))

/-- COALESCE_TIMEOUT: the vector is sent while IEN is 1 (R273). -/
def execCoalesceTimeout (f : Fin 1026) (q : Fin 8) (s : State) : Res :=
  let s := s.clean
  let x := s.queue f.val q.val
  if x.coal = 0 then .next s
  else
    let s := s.setQueue f.val q.val { x with coal := 0 }
    .next (if s.on (.fn f) F.QCTRL_IEN q.val then s.sendVector f.val (s.get (.fn f) F.QCTRL_VECTOR q.val) else s)

/-! ## Firmware's freeze and restart (R277, R280, R291) -/

/-- The function that HG_RESTART and HG_FREEZE name. -/
def hgFn (fn : Fin 1024) (pf : Bool) (port : Fin 2) : Nat := if pf then 1024 + port.val else fn.val

/-- The queues of a mask. -/
def maskQueues (mask : Nat) : List Nat := (List.range 8).filter fun q => mask / 2 ^ q % 2 == 1

/-- HG_FREEZE (R277 cause 10). -/
def execHgFreeze (fn : Fin 1024) (pf : Bool) (port : Fin 2) (mask : Fin 256) (s : State) : Res :=
  let s := s.clean
  let f := hgFn fn pf port
  .next (((maskQueues mask.val).filter fun q => decide (q < s.fnQueues f)).foldl (fun s q => s.freeze f q 10 0 0) s)

/-- The cause of a freeze no longer holds (R280). -/
def State.causeOver (s : State) (f cause : Nat) : Bool :=
  let k := s.fnPort f
  if cause = 1 then (s.fnS f).bme
  else if cause = 2 then !(s.fnS f).resetting
  else if cause = 3 then s.linkUp k && s.on (.pcie k) F.PCIE_CTRL_CFG_READY
  else if cause = 4 ∨ cause = 5 then s.mode != .sanitise && s.mode != .format
  else true

/-- No cause arises in the cycle of the restart (R218, R281): the hold of a shelf operation stays on every virtual function. -/
def State.restartFree (s : State) (f cause : Nat) : Bool := s.causeOver f cause && (decide (1024 ≤ f) || s.tenantHold.isNone)

/-- One queue restarted, or RESTART_REFUSED (R280). -/
def State.restart (s : State) (f q : Nat) : State :=
  let u := UnitId.fn (fnOf f)
  if s.on u F.QSTAT_FROZEN q && s.restartFree f (s.get u F.QSTAT_CAUSE q) && (s.queue f q).admitted.isEmpty then
    let s := s.resetQueueRegs f q
    (s.put u F.QSTAT_FROZEN 0 q).put u F.QSTAT_CAUSE 0 q
  else s.raise .headgate F.HG_EVT_RESTART_REFUSED

/-- A restart in whose cycle a cause arises on the queue: the cause is logged, and the restart is refused (R278, R281). -/
def State.restartMet (s : State) (f q cause : Nat) : State :=
  (if q < s.fnQueues f then s.freeze f q cause 0 0 else s).raise .headgate F.HG_EVT_RESTART_REFUSED

/-- HG_RESTART (R280, R281); `arise` is a cause of R277 that arises on the queues in the same cycle. -/
def execHgRestart (fn : Fin 1024) (pf : Bool) (port : Fin 2) (mask : Fin 256) (arise : Option (Fin 11)) (s : State) : Res :=
  let f := hgFn fn pf port
  .next ((maskQueues mask.val).foldl (fun s q => match arise with
    | some c => s.restartMet f q c.val
    | none => s.restart f q) s.clean)

/-- HG_ENABLE (R291): admission starts, or CFG_ERR is set and it stays off. -/
def execHgEnable (s : State) : Res :=
  let s := s.clean
  let u := UnitId.headgate
  let ok := (List.range 4).all fun c =>
    decide (4 ≤ s.get u F.IN_CFG_LOG2N c ∧ s.get u F.IN_CFG_LOG2N c ≤ 12 ∧ 4 ≤ s.get u F.PQ_CFG_LOG2N c ∧ s.get u F.PQ_CFG_LOG2N c ≤ 12)
  let s := (s.put u F.HG_CTRL_EN 1)
  let s := { s with hg := { s.hg with run := ok } }
  .next (if ok then s else s.raise u F.HG_EVT_CFG_ERR)

end Sys2Proof.Machine
end

