-- ==== Sys2Proof/Machine/Flit.lean ====
section
/-! DEFINITION. Units and flits of a Valiez link: operation codes, data headers, the control slot and its CRC (R385, R388,
R389, R391, R397, R403). -/

namespace Sys2Proof.Machine

open Sys2Proof

/-! ## Units (R388) -/

/-- Bits `lo` to `lo + n - 1` of a unit. -/
def unitField (u : VzUnit) (lo n : Nat) : Nat := u.bits.toNat / 2 ^ lo % 2 ^ n

/-- OP of a request, snoop, response or data header. -/
def unitOp (u : VzUnit) : Nat := unitField u 0 5

/-- LEN of a data header: the data units that follow it. -/
def unitLen (u : VzUnit) : Nat := unitField u 31 3

/-- ZERO of a data header: every byte of the line is zero. -/
def unitZero (u : VzUnit) : Bool := unitField u 30 1 == 1

/-- An OP that is defined for a network. -/
def opDefined (net : Fin 4) (op : Nat) : Bool :=
  decide (1 ≤ op) && decide (op ≤ match net with
    | 0 => 10
    | 1 => 5
    | 2 => 8
    | _ => 5)

/-! ## Credits (R389, R391) -/

/-- A receiver's buffers on a network of a link (R391): none for snoops at the hub or on the keep link. -/
def vzBuffers (n : Fin 45) (toHub : Bool) : Nat → Nat
  | 0 => if n.val = 44 then 16 else 48
  | 1 => if n.val = 44 || toHub then 0 else 32
  | 2 => if n.val = 44 then 16 else 64
  | _ => if n.val = 44 then 40 else 160

/-- What a sender has taken for a flit: its units, last first, its totals of units sent, the data units of the message under way that
it still owes, and whether a data header has had to wait. -/
structure Taken where
  units : List VzUnit := []
  sent : List Nat
  left : Nat
  wait : Bool := false

/-- One unit more for a flit, or left where it is (R389): a unit goes while its sender holds a credit for it, and a data header while it
holds credits for itself and for its data units, which follow it in order. A header with ZERO goes under version 2 alone, with LEN 0
(R403). -/
def takeUnit (n : Fin 45) (toHub : Bool) (ver : Nat) (seen : List Nat) (t : Taken) (u : VzUnit) : Taken :=
  let k := u.net.val
  let free := vzBuffers n toHub k - (t.sent.getD k 0 + 256 - seen.getD k 0) % 256
  let go := fun (left : Nat) =>
    { t with units := u :: t.units, sent := t.sent.set k ((t.sent.getD k 0 + 1) % 256), left := left }
  if k < 3 then (if 1 ≤ free then go t.left else t)
  else if t.wait then t
  else if 0 < t.left then go (t.left - 1)
  else if unitLen u < free && decide (unitLen u ≤ 4) && (!unitZero u || (ver == 2 && unitLen u == 0)) then go (unitLen u)
  else { t with wait := true }

/-- The units of each network among a list. -/
def perNet (us : List VzUnit) : List Nat := (List.range 4).map fun k => (us.filter fun u => u.net.val == k).length

/-- Units that a receiver discards because their OP is undefined for their network, and the data units still owed after them (R388):
those that follow a data header have no OP. -/
def badOps (left : Nat) : List VzUnit → Nat × Nat
  | [] => (0, left)
  | u :: us =>
    if u.net = 3 ∧ 0 < left then badOps (left - 1) us
    else
      let ok := opDefined u.net (unitOp u)
      let (b, l) := badOps (if u.net = 3 then (if ok then unitLen u else 0) else left) us
      (b + (if ok then 0 else 1), l)

/-! ## Flits (R397) -/

/-- A number's bytes, lowest first, without a list of powers. -/
def bytesOf : Nat → Nat → List Byte
  | 0, _ => []
  | n + 1, w => BitVec.ofNat 8 (w % 256) :: bytesOf n (w / 256)

/-- The CRC-32C of a flit: over its bits [95:0] and then [2047:128], lowest byte first. -/
def flitCrc (w : Nat) : Nat := crc32c (bytesOf 12 (w % 2 ^ 96) ++ bytesOf 240 (w / 2 ^ 128))

/-- The 2,048 bits of a flit: the control slot, with SEQ, ACK, NAK, NET, VALID and the credit totals, and up to 15 units; TRAIN is 0. -/
def flitWord (f : VzSend) (next ack : Nat) (nak : Bool) (freed : List Nat) : Nat :=
  let us := (f.units.take 15).zipIdx
  let ctl := (f.seq.getD next) % 256 + placed ack 8 8 + placed (bit nak) 16 1
  let ctl := us.foldl (fun x e => x + placed e.1.net.val (18 + 2 * e.2) 2 + placed 1 (48 + e.2) 1) ctl
  let ctl := (List.range 4).foldl (fun x k => x + placed (freed.getD k 0) (64 + 8 * k) 8) ctl
  let w := us.foldl (fun x e => x + e.1.bits.toNat * 2 ^ (128 * (e.2 + 1))) ctl
  w + flitCrc w * 2 ^ 96

/-- A flit as its receiver reads it from 2,048 bits. One with VALID 0 has no sequence number. -/
def readFlit (w : Nat) : VzIn :=
  let slots := (List.range 15).filter fun i => bitsOf w (48 + i) 1 == 1
  let units := slots.map fun i => VzUnit.mk (Fin.ofNat 4 (bitsOf w (18 + 2 * i) 2)) (BitVec.ofNat 128 (w / 2 ^ (128 * (i + 1))))
  { flit := ⟨if units.isEmpty then none else some (w % 256), units⟩, ack := bitsOf w 8 8, nak := bitsOf w 16 1 == 1,
    freed := (List.range 4).map fun k => bitsOf w (64 + 8 * k) 8, bad := bitsOf w 96 32 != flitCrc w }

end Sys2Proof.Machine
end

