-- ==== Sys2Proof/Machine/Valiez.lean ====
section
/-! DEFINITION. The Valiez links: flits, training, width, loss and isolation; request timeouts (R388–R417). -/

namespace Sys2Proof.Machine

open Sys2Proof

/-! ## Links -/

/-- All links. -/
def allLinks : List (Fin 45) := (List.range 45).map fun k => ⟨k % 45, Nat.mod_lt _ (by decide)⟩
/-- The unit of a link's hub end. -/
def vzUnit (n : Fin 45) : UnitId := .vz n
/-- A link's ends and training. -/
def State.link (s : State) (n : Fin 45) : VzLink := tget {} s.links n.val
/-- A link's ends and training replaced. -/
def State.setLink (s : State) (n : Fin 45) (l : VzLink) : State := { s with links := tset {} s.links n.val l }

/-- Lanes of a direction at full width (R396). -/
def vzLanes (n : Fin 45) : Nat := if n.val = 44 then 4 else 32
/-- Physical lanes of a direction (R396). -/
def vzPhys (n : Fin 45) : Nat := if n.val = 44 then 5 else 34

/-- The agents and ports behind a link: a tile, a medium die, or keep. -/
def vzPort (n : Fin 45) : Nat := if n.val < 36 then n.val else if n.val < 44 then 36 + (n.val - 36) / 2 else 58

/-- The other link of a medium die (R396). -/
def vzTwin (n : Fin 45) : Option (Fin 45) :=
  if h : 36 ≤ n.val ∧ n.val < 44 then
    some (if n.val % 2 = 0 then ⟨n.val + 1, by omega⟩ else ⟨n.val - 1, by omega⟩)
  else none

/-- STATE of a link (R399). -/
def State.vzState (s : State) (n : Fin 45) : Nat := s.get (vzUnit n) F.VZ_STAT_STATE
/-- STATE of a link set. -/
def State.setVzState (s : State) (n : Fin 45) (v : Nat) : State := s.put (vzUnit n) F.VZ_STAT_STATE v

/-- Set lanes of a mask. -/
def lanesIn (m : Nat) : Nat := ((List.range 34).filter fun i => inMask m i).length

/-- The lowest `k` lanes of a mask, as a mask. -/
def lowest (m k : Nat) : Nat := (((List.range 34).filter fun i => inMask m i).take k).foldl (fun a i => a + 2 ^ i) 0

/-- The map of a direction from its good lanes: the mask and the width (2 full, 1 half, 0 unusable) (R401). -/
def vzMap (w good : Nat) : Nat × Nat :=
  if w ≤ lanesIn good then (lowest good w, 2) else if w / 2 ≤ lanesIn good then (lowest good (w / 2), 1) else (0, 0)

/-- The width of a mask that a sender drives (R402). -/
def widthOf (w m : Nat) : Nat := if lanesIn m = w then 2 else if w / 2 ≤ lanesIn m then 1 else 0

/-- What a link shows while it carries no flits: no version, widths, masks or half-width idle (R414, R416). -/
def State.vzClear (s : State) (n : Fin 45) : State :=
  let u := vzUnit n
  let s := (s.put u F.VZ_STAT_VER 0).put u F.VZ_STAT_HALF_IDLE 0
  (((s.put u F.VZ_STAT_TXW 0).put u F.VZ_STAT_RXW 0).put u F.VZ_TX_MASK 0).put u F.VZ_RX_MASK 0

/-- A link begins to train in full: Detect, no kept masks, and both culverts empty (R399, R400, R410). -/
def State.vzFull (s : State) (n : Fin 45) : State :=
  let l := s.link n
  let s := s.setLink n { l with hubFast := false, dieFast := false, hubKept := none, dieKept := none,
                                hub := { l.hub with culvert := [] }, die := { l.die with culvert := [] } }
  (s.vzClear n).setVzState n 1

/-- A link begins a fast retrain, when it has kept masks (R400). -/
def State.vzFast (s : State) (n : Fin 45) : State :=
  let l := s.link n
  if l.hubKept.isNone then s.vzFull n
  else
    let s := s.setLink n { l with hubFast := true, dieFast := l.dieKept.isSome }
    let s := (s.raise (vzUnit n) F.VZ_EVT_RETRAIN).count (vzUnit n) F.VZ_CNT_RETRAIN
    ((s.put (vzUnit n) F.VZ_STAT_VER 0).put (vzUnit n) F.VZ_STAT_HALF_IDLE 0).setVzState n 2

/-- A link leaves Active other than for a fast retrain (R415). -/
def State.vzLeft (s : State) (n : Fin 45) : State :=
  if s.vzState n = 8 then (s.raise (vzUnit n) F.VZ_EVT_DOWN).traceLink (vzUnit n) else s

/-! ## Losing a link (R406–R408) -/

/-- The hub acts for an isolated agent whose link went down (R408): COMP_ACK for every home transaction that awaits one from it; its own
requests are abandoned, those that a home works on with nothing to answer; and its answers to snoops are MISS. -/
def State.abandonAgent (s : State) (port : Nat) : State :=
  let s := { s with net := s.net.filter fun m => !(m.src == port || m.dst == port), reqs := s.reqs.filter fun r => r.port != port,
                    homes := tmap {} (fun _ (h : HLine) =>
                      { h with waitq := h.waitq.filter fun r => r.port != port,
                               txn := h.txn.map (fun (t : HTxn) => if t.r.port == port && !isOwnOp t.r.op then { t with gone := true } else t) }) s.homes }
  let held := (s.homes.filter fun e => e.2.txn.any fun t => t.comp && t.r.port == port).map fun e => e.1
  let s := held.foldl (fun s l => s.homeCompAck l) s
  let waiting := (s.homes.filter fun e => e.2.txn.any fun t => t.wait.contains port || t.wbWait.contains port).map fun e => e.1
  waiting.foldl (fun s l => (s.noWb l port).homeAck l port .miss none .s) s

/-- The loss of an isolated link: units for the far die are discarded and counted (R408). -/
def State.isolatedLoss (s : State) (n : Fin 45) : State :=
  let l := s.link n
  let units := (l.hub.replay.map fun f => f.units.length).foldl (fun a b => a + b) 0
  ((s.count (vzUnit n) F.VZ_CNT_DISC units).setLink n { l with hub := {}, die := {} }).abandonAgent (vzPort n)

/-- One end's flits moved behind those of the other link's end (R406). -/
def joinReplay (o x : VzEnd) : VzEnd :=
  let moved := x.replay.zipIdx.map fun e => { e.1 with seq := (o.seq + e.2) % 256 }
  { o with seq := (o.seq + moved.length) % 256, replay := o.replay ++ moved,
           again := if moved.isEmpty then o.again else some (o.again.getD o.replay.length) }

/-- A link is lost, in Failed or Off (R406–R408): a medium die goes on over its other link while that is not lost; otherwise the loss
of what was once Active is package-fatal, unless the link is isolated. -/
def State.vzLost (s : State) (n : Fin 45) : State :=
  let u := vzUnit n
  let l := s.link n
  let gone := fun (s : State) =>
    let s := s.setLink n { s.link n with wasUp := false }
    if s.on u F.VZ_CTRL_ISOLATE then s.isolatedLoss n else s.packageFatal 0x07 u (unitBase u) n.val
  match vzTwin n with
    | some m =>
      let o := s.link m
      if s.vzState m = 0 ∨ s.vzState m = 9 then (if l.wasUp || o.wasUp then gone (s.setLink m { o with wasUp := false }) else s)
      else
        let s := (s.setLink m { o with hub := joinReplay o.hub l.hub, die := joinReplay o.die l.die }).setLink n
          { l with hub := {}, die := {}, moved := true }
        if l.wasUp || s.vzState m = 8 then s.raise u F.VZ_EVT_DOWN else s
    | none => if !l.wasUp then s else gone s

/-! ## Training (R399–R404) -/

/-- A link enters Failed (R399). -/
def State.vzFail (s : State) (n : Fin 45) : State :=
  let u := vzUnit n
  ((((s.vzClear n).put u F.VZ_STAT_TRIES 3).raise u F.VZ_EVT_FAILED).setVzState n 9).traceLink u |>.vzLost n

/-- The hub's ceiling on a link, lowered by VCAP (R404, R413). -/
def State.vzCeiling (s : State) (n : Fin 45) : Nat :=
  let c := vzCeilingOf s.build
  let v := s.get (vzUnit n) F.VZ_CTRL_VCAP
  if v = 0 ∨ c < v then c else v

/-- The ceiling that the far end of a link sends: its die's own, lowered by VCAP (R403, R404). -/
def State.vzFar (s : State) (n : Fin 45) : Nat :=
  let c := vzOfStep (stepOf s.build (linkDie n))
  let v := s.get (vzUnit n) F.VZ_CTRL_VCAP
  if v = 0 ∨ c < v then c else v

/-- The lanes of a direction that a training tests: in full every lane that the fuses leave, fast the kept ones (R400, R401). -/
def testLanes (fast : Bool) (kept : Option Nat) (fuse phys : Nat) : Nat :=
  if fast then kept.getD 0 else (2 ^ phys - 1) - (fuse % 2 ^ phys)

/-- Step 3 ends: lanes with an error have failed, and each direction is mapped or unusable (R399, R401). -/
def State.vzLaneTest (s : State) (n : Fin 45) (o : VzObs) : State :=
  let u := vzUnit n
  let l := s.link n
  let tx := testLanes l.dieFast (l.dieKept.map Prod.fst) (s.get u F.VZ_TX_FUSE) (vzPhys n)
  let rx := testLanes l.hubFast (l.hubKept.map Prod.snd) (s.get u F.VZ_RX_FUSE) (vzPhys n)
  let goodTx := tx &&& o.tx.toNat
  let goodRx := rx &&& o.rx.toNat
  let s := s.count u F.VZ_CNT_LANEFAIL (lanesIn tx - lanesIn goodTx + (lanesIn rx - lanesIn goodRx))
  let (mtx, wtx) := vzMap (vzLanes n) goodTx
  let (mrx, wrx) := vzMap (vzLanes n) goodRx
  let s := s.setLink n { l with good := (mtx, mrx) }
  if wtx = 0 ∨ wrx = 0 then s.vzFail n
  else
    let s := if wtx = 1 ∨ wrx = 1 then s.raise u F.VZ_EVT_WIDTH else s
    s.setVzState n 4

/-- Step 5: each sender's ECHO against the receiver's MAP (R402). A sender in a fast retrain drives its kept mask less any lane
that MAP leaves out. -/
def State.vzCheck (s : State) (n : Fin 45) : State :=
  let u := vzUnit n
  let l := s.link n
  let drive := fun (fast : Bool) (kept : Option Nat) (map : Nat) => if fast then (kept.getD 0) &&& map else map
  let tx := drive l.hubFast (l.hubKept.map Prod.fst) l.good.1
  let rx := drive l.dieFast (l.dieKept.map Prod.snd) l.good.2
  if tx = l.good.1 && rx = l.good.2 then
    let w := vzLanes n
    let s := (s.put u F.VZ_TX_MASK tx).put u F.VZ_RX_MASK rx
    ((s.put u F.VZ_STAT_TXW (widthOf w tx)).put u F.VZ_STAT_RXW (widthOf w rx)).setVzState n 6
  else
    let s := (s.raise u F.VZ_EVT_MISMATCH).count u F.VZ_CNT_MISMATCH
    (s.setLink n { l with mism := l.mism + 1, hubKept := none, dieKept := none, hubFast := false, dieFast := false }).setVzState n 10

/-- The interrupt sources of a die are sent again when a link to it returns to Active (R392). -/
def State.resendIrqs (s : State) (n : Fin 45) : State :=
  let slot := if n.val < 36 then n.val else if n.val < 44 then 44 + (n.val - 36) / 2 else 48
  (List.range 64).foldl (fun s k => match unitAt slot k with
    | some u => if s.unitAsserted u then s.raise .irq F.ROUTE_ASSERTED (64 * slot + k) else s
    | none => s) s

/-- Step 7 ends: credits anew, the round trip, and Active (R399). -/
def State.vzUp (s : State) (n : Fin 45) (rtt : Nat) : State :=
  let u := vzUnit n
  let l := s.link n
  let fresh := fun (e : VzEnd) => { e with sent := perNet (e.replay.flatMap fun f => f.units), seen := [0, 0, 0, 0], freed := [0, 0, 0, 0], nak := false, nakSeen := false,
                                           badAt := [], again := if e.replay.isEmpty then none else some 0 }
  let kept := some (s.get u F.VZ_TX_MASK, s.get u F.VZ_RX_MASK)
  let s := s.setLink n { l with hub := fresh l.hub, die := fresh l.die, hubKept := kept, dieKept := kept, mism := 0, wasUp := true }
  let s := ((s.put u F.VZ_RTT rtt).put u F.VZ_STAT_TRIES 0).raise u F.VZ_EVT_UP
  ((s.setVzState n 8).traceLink u).resendIrqs n

/-- VZ_DETECT: clock energy is seen (R399). -/
def execVzDetect (n : Fin 45) (s : State) : Res :=
  let s := s.clean
  .next (if s.vzState n = 1 then s.setVzState n 2 else s)

/-- VZ_STEP_DONE: a training step meets its exit (R399–R404). -/
def execVzStepDone (n : Fin 45) (o : VzObs) (s : State) : Res :=
  let s := s.clean
  let u := vzUnit n
  .next (match s.vzState n with
    | 2 => s.setVzState n 3
    | 3 => s.vzLaneTest n o
    | 4 => s.setVzState n 5
    | 5 => s.vzCheck n
    | 6 =>
      (s.put u F.VZ_STAT_VER (min (s.vzCeiling n) (s.vzFar n))).setVzState n 7
    | 7 => s.vzUp n o.rtt.toNat
    | _ => s)

/-- VZ_MISMATCH_HOLD_END: both ends have discarded their masks; training in full, or Failed after three in a row (R402). -/
def execVzMismatchHoldEnd (n : Fin 45) (s : State) : Res :=
  let s := s.clean
  .next (if s.vzState n = 10 then (if 3 ≤ (s.link n).mism then s.vzFail n else s.vzFull n) else s)

/-- VZ_STEP_TIMEOUT: training restarts in full, or enters Failed at the fourth failure (R399). -/
def execVzStepTimeout (n : Fin 45) (s : State) : Res :=
  let s := s.clean
  let st := s.vzState n
  let tries := s.get (vzUnit n) F.VZ_STAT_TRIES
  .next (if 2 ≤ st ∧ st ≤ 7 then
      if tries < 3 then (s.put (vzUnit n) F.VZ_STAT_TRIES (tries + 1)).vzFull n else s.vzFail n
    else s)

/-- EN of a link written: training from Off, or Off, which is a loss (R407, R413). -/
def State.vzEnable (s : State) (n : Fin 45) (en : Bool) : State :=
  let u := vzUnit n
  if en == s.on u F.VZ_CTRL_EN then s
  else if en then ((s.put u F.VZ_CTRL_EN 1).put u F.VZ_STAT_TRIES 0).vzFull n
  else ((((s.put u F.VZ_CTRL_EN 0).vzLeft n).vzFull n).setVzState n 0).vzLost n

/-- VZ_ENABLE (R407, R413). -/
def execVzEnable (n : Fin 45) (en : Bool) (s : State) : Res := .next (s.clean.vzEnable n en)

/-- RETRAIN of a link written (R400, R409, R413); in Off it has no effect. -/
def State.vzRetrain (s : State) (n : Fin 45) (full : Bool) : State :=
  let u := vzUnit n
  let st := s.vzState n
  if st = 0 then s
  else if st = 8 && !full then s.vzFast n
  else if st = 9 && !full then (s.put u F.VZ_STAT_TRIES 0).vzFast n
  else ((s.vzLeft n).put u F.VZ_STAT_TRIES 0).vzFull n

/-- VZ_RETRAIN (R409, R413). -/
def execVzRetrain (n : Fin 45) (full : Bool) (s : State) : Res := .next (s.clean.vzRetrain n full)

/-- ISOLATE of a link set; `loss`: the link is lost in the same cycle, and counts as isolated (R407, R408). -/
def execIsolateSet (n : Fin 45) (loss : Bool) (s : State) : Res :=
  let s := s.clean.put (vzUnit n) F.VZ_CTRL_ISOLATE 1
  .next (if loss && s.vzState n = 8 then (s.vzLeft n).vzFail n else s)

/-- ISOLATE_CLEAR (R408). -/
def execIsolateClear (n : Fin 45) (s : State) : Res := .next (s.clean.put (vzUnit n) F.VZ_CTRL_ISOLATE 0)

/-- HALF_IDLE_ENTER: a full-width link of version 2 has sent no unit for IDLE_US (R405). -/
def execHalfIdleEnter (n : Fin 45) (s : State) : Res :=
  let s := s.clean
  let u := vzUnit n
  let may := s.vzState n = 8 && s.get u F.VZ_STAT_VER == 2 && s.get u F.VZ_STAT_TXW == 2 && s.get u F.VZ_STAT_RXW == 2 &&
    s.get u F.VZ_TUNE_IDLE_US != 0
  .next (if may then s.put u F.VZ_STAT_HALF_IDLE 1 else s)

/-- HALF_IDLE_EXIT (R405). -/
def execHalfIdleExit (n : Fin 45) (s : State) : Res := .next (s.clean.put (vzUnit n) F.VZ_STAT_HALF_IDLE 0)

/-! ## Flits (R397, R398) -/

/-- The next flit of an end: one sent again after a NAK or a retrain with the units that it had, a new one with units, or an empty one;
at most 64 are unacknowledged (R397, R398). -/
def nextFlit (n : Fin 45) (toHub : Bool) (ver : Nat) (e : VzEnd) (want : List VzUnit) : VzEnd × VzSend :=
  match e.again with
  | some i =>
    match e.replay[i]? with
    | some f =>
      ({ e with replay := e.replay.set i { f with sends := f.sends + 1 }, again := if i + 1 < e.replay.length then some (i + 1) else none },
        ⟨some f.seq, f.units⟩)
    | none => ({ e with again := none }, ⟨none, []⟩)
  | none =>
    let t := (want.take 15).foldl (takeUnit n toHub ver e.seen) { sent := e.sent, left := e.dataOut }
    let units := t.units.reverse
    if units.isEmpty || 64 ≤ e.replay.length then (e, ⟨none, []⟩)
    else
      ({ e with seq := (e.seq + 1) % 256, replay := e.replay ++ [⟨e.seq, 1, units⟩], sent := t.sent, dataOut := t.left }, ⟨some e.seq, units⟩)

/-- Flits up to an acknowledged SEQ leave the replay buffer (R398). -/
def acked (e : VzEnd) (ack : Nat) : VzEnd :=
  match e.replay.findIdx? fun f => f.seq == ack with
  | some i => { e with replay := e.replay.drop (i + 1), again := (e.again.map fun a => a - (i + 1)).filter fun a => decide (a < e.replay.length - (i + 1)) }
  | none => e

/-- Bad flits within the last millisecond (R398). -/
def recentBad (e : VzEnd) (now : Nat) : Nat := (e.badAt.filter fun t => decide (now < t + 100000)).length

/-- A receiver's end after a flit: accepted when good and in order, answered with NAK otherwise (R398). -/
def receive (r : VzEnd) (x : VzIn) (now : Nat) : VzEnd :=
  if x.bad then { r with nak := true, badAt := (now :: r.badAt).take 256 }
  else
    let r := { acked r x.ack with seen := x.freed, nakSeen := x.nak || r.nakSeen }
    match x.flit.seq with
    | none => { r with nak := false }
    | some q =>
      if q = (r.rx + 1) % 256 then
        { r with rx := q, nak := false, freed := List.zipWith (fun a b => (a + b) % 256) r.freed (perNet x.flit.units),
                 dataIn := (badOps r.dataIn x.flit.units).2 }
      else { r with nak := true }

/-- The units of a flit that its receiver discards: it accepts the flit, and their OP is undefined (R388). -/
def discarded (r : VzEnd) (x : VzIn) : Nat :=
  if !x.bad && x.flit.seq == some ((r.rx + 1) % 256) then (badOps r.dataIn x.flit.units).1 else 0

/-! ## Culverts (R410, R411) -/

/-- Entries of a culvert (R411). -/
def culvertEntries : Crossing → Nat
  | .core _ _ _ | .link _ _ | .med _ _ => 16
  | .port _ _ => 32
  | .aon _ => 4

/-- The gated clock of a link's die; the keep die's is never gated (R453). -/
def vzClock (n : Fin 45) : Option ClockUnit :=
  if h : n.val < 36 then some (.tile ⟨n.val, h⟩)
  else if h : n.val < 44 then some (.med ⟨(n.val - 36) / 2, by omega⟩) else none

/-- The clock of a link end runs (R410, R453). -/
def State.vzClocked (s : State) (n : Fin 45) (hubEnd : Bool) : Bool :=
  if hubEnd then !s.clocks.contains .hub else (vzClock n).all fun c => !s.clocks.contains c

/-- One end of a link. -/
def State.vzEnd (s : State) (n : Fin 45) (hubEnd : Bool) : VzEnd := if hubEnd then (s.link n).hub else (s.link n).die
/-- One end of a link replaced. -/
def State.setVzEnd (s : State) (n : Fin 45) (hubEnd : Bool) (e : VzEnd) : State :=
  s.setLink n (if hubEnd then { s.link n with hub := e } else { s.link n with die := e })

/-- Units with an undefined OP discarded at a receiving port (R388). -/
def State.badUnits (s : State) (port k : Nat) : State :=
  if k = 0 then s else ((s.record (portUnit port) .uncorrected).raise .xbar F.XB_EVT_BADOP).count .xbar F.XB_CNT_BADOP k

/-- Every flit in a link end's culvert passes to the end, in order, while its clock runs (R410). -/
def State.vzDrain (s : State) (n : Fin 45) (hubEnd : Bool) : State :=
  if !s.vzClocked n hubEnd then s
  else
    let e := s.vzEnd n hubEnd
    let now := s.get .irq F.PKG_TIME
    let (r, k) := e.culvert.foldl (fun p x => (receive p.1 x now, p.2 + discarded p.1 x)) ({ e with culvert := [] }, 0)
    let s := (s.setVzEnd n hubEnd r).badUnits (if hubEnd then 59 else vzPort n) k
    if hubEnd then s.count (vzUnit n) F.VZ_CNT_CRC (e.culvert.filter fun x => x.bad).length else s

/-- The links whose ends pass their culverts' flits as a clock runs again. -/
def State.vzDrainAll (s : State) : State :=
  allLinks.foldl (fun s n => (s.vzDrain n true).vzDrain n false) s

/-- FLIT_RECEIVED: one end of an Active link sends its next flit, with units from `want`, and the other receives the bits that `noise`
leaves of it (R397, R398). The flit crosses the receiving end's culvert: it rests there while that end's clock is stopped, and a
full culvert makes the sender wait (R410, R411). -/
def execFlitReceived (n : Fin 45) (toHub : Bool) (want : List VzUnit) (noise : BitVec 2048) (s : State) : Res :=
  let s := s.clean
  let r := s.vzEnd n toHub
  if s.vzState n != 8 || !s.vzClocked n (!toHub) || decide (culvertEntries (.link n toHub) ≤ r.culvert.length) then .next s
  else
    let x := s.vzEnd n (!toHub)
    let (x', f) := nextFlit n toHub (s.get (vzUnit n) F.VZ_STAT_VER) x want
    let s := s.setVzEnd n (!toHub) x'
    let w := flitWord f x'.seq x'.rx x'.nak x'.freed ^^^ noise.toNat
    let s := s.setVzEnd n toHub { r with culvert := r.culvert ++ [readFlit w] }
    let s := if x.again.isSome && !toHub then s.count (vzUnit n) F.VZ_CNT_REPLAY else s
    .next (s.vzDrain n toHub)

/-- NAK: an end that received NAK sends again every flit after ACK (R398). -/
def execNak (n : Fin 45) (hubEnd : Bool) (s : State) : Res :=
  let s := s.clean
  let l := s.link n
  let e := if hubEnd then l.hub else l.die
  let e' := { e with nakSeen := false, again := if e.replay.isEmpty then none else some 0 }
  .next (if e.nakSeen then s.setLink n (if hubEnd then { l with hub := e' } else { l with die := e' }) else s)

/-- FAST_RETRAIN_START: one flit has been sent REPLAY_MAX times, or more than CRC_THR flits were bad within 1 ms (R398). -/
def execFastRetrainStart (n : Fin 45) (s : State) : Res :=
  let s := s.clean
  let u := vzUnit n
  let l := s.link n
  let most := max 2 (s.get u F.VZ_TUNE_REPLAY_MAX)
  let thr := max 1 (s.get u F.VZ_TUNE_CRC_THR)
  let due := fun (e : VzEnd) => e.replay.any (fun f => decide (most ≤ f.sends)) || decide (thr < recentBad e (s.get .irq F.PKG_TIME))
  .next (if s.vzState n = 8 && (due l.hub || due l.die) then s.vzFast n else s)

/-! ## Timeouts and bad units (R388, R394, R395) -/

/-- BADOP_UNIT: a unit with an undefined OP is discarded at its receiving port (R388). -/
def execBadopUnit (port : Fin 60) (s : State) : Res :=
  .next (s.clean.badUnits port.val 1)

/-- The OP code of a request (R388). -/
def opCode : ReqOp → Nat
  | .rdS => 1 | .rdU => 2 | .upg => 3 | .rdOnce => 4 | .wrFull => 5 | .wrPtl => 6 | .amo => 7 | .evict => 8 | .wb => 2
  | _ => 0

/-- A timeout reported to hub/xbar (R394, R395). -/
def State.tmoLog (s : State) (src txn op addr : Nat) : State :=
  let s := ((s.put .xbar F.XB_TLOG_SRC src).put .xbar F.XB_TLOG_TXN txn).put .xbar F.XB_TLOG_OP op
  ((s.put .xbar F.XB_TLOG_ADDR addr).raise .xbar F.XB_EVT_TIMEOUT).count .xbar F.XB_CNT_TMO

/-- The first XB_TLOG word (R412). -/
def State.tlogWord (s : State) : Nat :=
  s.get .xbar F.XB_TLOG_SRC + s.get .xbar F.XB_TLOG_TXN * 64 + s.get .xbar F.XB_TLOG_OP * 65536

/-- A package-fatal timeout (R394, R520, R523). -/
def State.tmoFatal (s : State) (cause : Nat) (u : UnitId) (addr : Nat) : State := s.packageFatal cause u addr s.tlogWord

/-- The answers that a request still awaits (R339, R395): DATA for a read, an AMO or a copy, and the last word. -/
def answersLeft (r : OReq) : HeldTxn :=
  let data := r.op == some .rdS || r.op == some .rdU || r.op == some .rdOnce || r.op == some .amo
  ⟨r.port, r.txn, data && r.got.isNone, r.comp.isNone⟩

/-- A request's timer expires: its initiator ends it as R394 states, and the TXN stays held (R395). -/
def State.reqTimeout (s : State) (r : OReq) : State :=
  let s := { s with reqs := s.reqs.filter (fun x => x != r), heldTxn := s.heldTxn ++ [answersLeft r] }
  let s := if r.core.isSome then s.setTileTxn r.port r.line { s.tileTxn r.port r.line with hub := false, req := none } else s
  let u := portUnit r.port
  match r.op with
  | none =>
    let s := s.tmoLog r.port r.txn (if r.nc then 10 else 9) r.line
    match r.hart with
    | some h =>
      let s := s.record ((s.coreUnit h).getD u) .uncorrected
      if r.nc then s.raiseAsync u h ⟨4, (s.hart h).w, false, 6, r.line⟩
      else s.preciseMce ⟨⟨h % 256, Nat.mod_lt _ (by decide)⟩, (s.hart h).pc, false, 0⟩ r.line 2 6 r.line
    | none =>
      if r.nc && decide (36 ≤ r.port ∧ r.port < 40) && decide (mramBase ≤ r.line ∧ r.line < mramBase + mramSize) then
        s.tmoFatal 0x04 u r.line
      else ((s.emit (.err 5)).record u .uncorrected)
  | some op =>
    let s := s.tmoLog r.port r.txn (opCode op) (64 * r.line)
    match op with
    | .rdOnce | .wrFull | .wrPtl => (s.emit (.err 5)).record u .uncorrected
    | _ => (s.emit (.err 5)).tmoFatal 0x05 u (64 * r.line)

/-- The timer of an agent's WB or EVICT expires. -/
def State.noticeTimeout (s : State) (agent line : Nat) (op : ReqOp) : State :=
  match s.reqs.find? fun r => r.port == agent && r.line == line && r.op == some op with
  | some r => s.reqTimeout r
  | none => s

/-- REQUEST_TIMEOUT (R394). -/
def execRequestTimeout (t : TmoWhat) (s : State) : Res :=
  let s := s.clean
  .next (match t with
    | .req port txn =>
      match s.reqs.find? fun r => r.port == port.val && r.txn == txn.val with
      | some r => s.reqTimeout r
      | none => s
    | .wb agent line => s.noticeTimeout agent.val line.toNat .wb
    | .evict agent line => s.noticeTimeout agent.val line.toNat .evict
    | .snoop line agent =>
      if (s.hline line.toNat).txn.any fun t => t.wait.contains agent.val || t.wbWait.contains agent.val then
        (s.tmoLog (homePort line.toNat) 0 31 (64 * line.toNat)).tmoFatal 0x06 (.home (homeOf line.toNat)) (64 * line.toNat)
      else s)

/-- TXN_HOLD_EXPIRY (R395). -/
def execTxnHoldExpiry (port : Fin 60) (txn : Fin 1024) (s : State) : Res :=
  let s := s.clean
  .next { s with heldTxn := s.heldTxn.filter fun e => !(e.port == port.val && e.txn == txn.val) }

end Sys2Proof.Machine
end

