-- ==== Sys2Proof/Machine/Reset.lean ====
section
/-! DEFINITION. Resets: which registers outlive a cold or a warm reset, the resets of the whole package, and the reset of one
die or domain (R6, R191, R443, R446, R521). -/

namespace Sys2Proof.Machine

open Sys2Proof

/-! ## Registers by their key -/

/-- Bits from the start of a field's first copy to the start of copy `i`, `j`. -/
def copyBit (f : Fld) (i j : Nat) : Nat := 8 * (f.off + f.stride * i + f.stride2 * j) + f.lo

/-- Some copy of a field starts at bit `b` of its page. -/
def fldStarts (f : Fld) (b : Nat) : Bool :=
  (List.range f.count2).any fun j =>
    let first := copyBit f 0 j
    decide (first ≤ b) &&
      (if f.count ≤ 1 then b == first else (b - first) % (8 * f.stride) == 0 && decide ((b - first) / (8 * f.stride) < f.count))

/-- The unit in whose page a register key lies. -/
def keyUnit (k : Nat) : Option UnitId :=
  let a := k / 8 - 0x00F000000000
  let slot := a / 2 ^ 32
  let sub := a / 2 ^ 16 % 2 ^ 16
  if slot = 49 then (if h : sub < 1026 then some (.fn ⟨sub, h⟩) else none) else unitAt slot sub

/-- The bit of its page at which a register key lies. -/
def keyBit (k : Nat) : Nat := k % 2 ^ 19

/-- One of a list of fields starts at a key's bit. -/
def startsOne (fs : List Fld) (k : Nat) : Bool := fs.any fun f => fldStarts f (keyBit k)

/-- Registers set from fuses, and the number that hub/err reads from its area: no reset changes them (R401, R493, R524). -/
def fuseKey (k : Nat) : Bool :=
  match keyUnit k with
  | some (.vz _) => startsOne [F.VZ_TX_FUSE, F.VZ_RX_FUSE] k
  | some .cfg => startsOne [F.CFG_STAT_LCS, F.CFG_STAT_RECSEG] k
  | some .err => startsOne [F.FATAL_N] k
  | _ => false

/-- Registers of the always-on domain (R287, R290, R435, R441, R464, R490). -/
def aonKey (k : Nat) : Bool :=
  match keyUnit k with
  | some .aon | some .therm => true
  | some .mbox =>
    let o := keyBit k / 8
    decide (0x108 ≤ o ∧ o < 0x10C) || decide (0xA800 ≤ o ∧ o < 0xA840) || decide (0xC000 ≤ o ∧ o < 0xC040)
  | some .cfg => startsOne [F.CFG_STAT_PRES, F.CFG_STAT_PRES_S, F.CFG_STAT_SEAL_OPEN] k
  | _ => false

/-- Registers that outlive a cold reset of the package (R6, R443): the readings of dies that lose power do not (R440). -/
def coldKey (k : Nat) : Bool :=
  fuseKey k || (aonKey k && !(keyUnit k == some .therm &&
    startsOne [F.THM_STAT_TILE_MAX, F.THM_STAT_HUB, F.THM_STAT_MED_MAX, F.THM_STAT_STACK_MAX] k))

/-- Registers that a warm reset keeps beside those that their tables mark (R251, R311, R340, R467, R496). -/
def warmExtra (u : UnitId) (k : Nat) : Bool :=
  match u with
  | .keep => true
  | .irq => startsOne [F.PKG_TIME] k
  | .headgate => startsOne [F.HG_TIME] k
  | .pcie _ => startsOne [F.PCIE_STAT_PERST] k
  | .pwr => startsOne [F.PWR_DOM_DOM_REQ, F.PWR_DOM_STATE, F.PWR_DOM_HELD, F.PWR_DOM_PEND, F.PWR_DOM_RESULT] k
  | .cfg => startsOne [F.CFG_TMAP_PHYS, F.CFG_TMAP_VALID, F.CFG_TMAP_HALF, F.CFG_PTILE_STATE] k
  | _ => false

/-- Registers that outlive a warm reset of the package (R6, R443). -/
def warmKey (k : Nat) : Bool :=
  fuseKey k || aonKey k ||
  match keyUnit k with
  | none => false
  | some u => warmExtra u k || startsOne ((page_hdr ++ pageFlds (unitKind u)).filter Fld.kept) k

/-! ## The package -/

/-- What survives every loss of power: the queue, what was driven out, the build, fuses, MRAM with its poison, and the records
that stand for the package area's contents (R443, R462, R503). -/
def State.unpowered (s : State) : State :=
  { State.reset with
    pending := s.pending, out := s.out, build := s.build, mode := s.mode, regs := tkeep fuseKey s.regs, mram := s.mram,
    poison := tkeep (fun l => decide (mramBase / 64 ≤ l)) s.poison,
    keys := { marks := s.keys.marks, issued := s.keys.issued, secret := s.keys.secret },
    sweep := { area := s.sweep.area, store := s.sweep.store },
    life := s.life, recSeg := s.recSeg, st := { s.st with active := none, fuse := none, draft := [], iso := [], applied := [] },
    recoveries := s.recoveries, freeCount := s.freeCount }

/-- A cold reset of the package (R443): MRAM and the always-on domain are kept; DRAM is left undefined (R362, R377). -/
def State.coldReset (s : State) : State :=
  { s.unpowered with
    regs := tkeep coldKey s.regs, vrEn := s.vrEn, straps := s.straps, thermTrip := s.thermTrip,
    wake := s.wake, wakeBad := s.wakeBad, pmb := s.pmb, vin := s.vin, vinAt := s.vinAt, pwrHeld := s.pwrHeld, sealGen := s.sealGen,
    presence := s.presence, pkgTicks := s.pkgTicks,
    mbHeld := s.mbHeld.filter (fun e => e == MbEnd.smbFw), mbTmo := s.mbTmo.filter (fun p => p.1 == MbEnd.bmc) }.lose (0, dramSize)

/-- Xjuh registers and filters of a hart, which a warm reset keeps (R323). -/
def keptCsr (k : Nat) : Bool :=
  let c := k % 4096
  [0x5C0, 0x5C1, 0x5C2, 0x6C1, 0x7C0, 0x7C1, 0x7C2, 0xCC0, 0xCC1, 0xCC2, 0xCC3].contains c || decide (0x7E3 ≤ c ∧ c ≤ 0x7FF)

/-- A hart after a warm reset. -/
def warmHart (h : Hart) : Hart := { csr := h.csr.filter fun e => keptCsr e.1 }

/-- The records that a die has sent to the keep die become durable (R150, R521 step 2). -/
def State.journalFlush (s : State) (m : Fin 4) : State :=
  (s.die m.val).jfly.foldl (fun s r =>
    let at_ := mramBase + s.get (.med m) F.SLD_JCFG_JBASE * 4096 + 32 * (r.jidx % 2 ^ s.get (.med m) F.SLD_JCFG_JLOG2)
    s.masterWrite m.val (.med m) at_ (journalBytes r)) s

/-- The links that train when the hub leaves reset: those of the keep die and the medium dies (R400, R459). -/
def startLinks : List (Fin 45) := [36, 37, 38, 39, 40, 41, 42, 43, 44]

/-- A PENDING operation stays pending over a warm reset (R220, R476). -/
def State.keepPending (s old : State) : State :=
  if old.on .sweep F.SWP_STAT_PENDING then
    ((({ s with sweep := { old.sweep with boot := false } }.put .sweep F.SWP_STAT_PENDING 1).put .sweep F.SWP_STAT_OP
      (old.get .sweep F.SWP_STAT_OP)).put .sweep F.SWP_STAT_PASS (old.get .sweep F.SWP_STAT_PASS))
  else s

/-- The domain of a gated die. -/
def clockDom : ClockUnit → Option (Fin 43)
  | .tile p => some ⟨p.val, by omega⟩
  | .med m => some ⟨36 + m.val, by omega⟩
  | .hub => none

/-- STATE of a gated die's domain (R467). -/
def State.clockState (s : State) (u : ClockUnit) (v : Nat) : State :=
  match clockDom u with
  | some d => if s.get .pwr F.PWR_DOM_STATE d.val < 2 then s.put .pwr F.PWR_DOM_STATE v d.val else s
  | none => s

/-- Every gated clock runs again (R463). -/
def State.ungateAll (s : State) : State := { s.clocks.foldl (fun s u => s.clockState u 0) s with clocks := [], deep := [] }

/-- A warm reset of every die except the always-on domain and the keep die (R443): DRAM and the maps in force stay, every key
slot enters EMPTY (R191), and the links train in full (R400). -/
def State.warmReset (s : State) : State :=
  let s := [0, 1, 2, 3].foldl (fun s m => s.journalFlush m) s.ungateAll
  let w : State :=
    { s.coldReset with
      regs := tkeep warmKey s.regs, dram := s.dram, poison := s.poison, lost := s.lost, fresh := s.fresh, flips := s.flips,
      mcLog := s.mcLog, fwLog := s.fwLog, errLog := s.errLog, trace := s.trace, wmapNow := s.wmapNow, mregNow := s.mregNow,
      memTop := s.memTop, harts := tmap {} (fun _ h => warmHart h) s.harts, mbHeld := s.mbHeld, mbTmo := s.mbTmo, freeCount := s.freeCount,
      halves := s.halves, svid := s.svid, ssid := s.ssid, lockedWays := s.lockedWays, domTo := s.domTo,
      st := { s.coldReset.st with applied := s.st.applied } }
  startLinks.foldl (fun s n => s.vzFull n) (w.keepPending s)

/-! ## One die or domain (R443, R446) -/

/-- The registers of a slot at their cold values. -/
def State.dropSlot (s : State) (slot : Nat) : State :=
  { s with regs := tkeep (fun k => (keyUnit k).all fun u => unitSlot u != slot) s.regs }

/-- The registers of a unit at their cold values. -/
def State.dropUnit (s : State) (u : UnitId) : State := { s with regs := tkeep (fun k => keyUnit k != some u) s.regs }

/-- The copies and messages of an agent are gone (R408, R446). -/
def State.dropAgent (s : State) (agent : Nat) : State :=
  { s with copies := tkeep (fun k => k % 64 != agent) s.copies, cores := tkeep (fun k => k / 8 % 64 != agent) s.cores,
           tiles := tkeep (fun k => k % 64 != agent) s.tiles, reqs := s.reqs.filter (fun r => r.port != agent),
           net := s.net.filter (fun m => !(m.src == agent || m.dst == agent)), l1s := tkeep (fun k => k / 8 % 64 != agent) s.l1s,
           evbufs := s.evbufs.filter (fun e => e.1 != agent) }

/-- The far end of a link forgets its masks as its die loses its state, and both culverts empty (R400, R410). -/
def State.dieLinkGone (s : State) (n : Fin 45) : State :=
  s.setLink n { s.link n with dieKept := none, die := {}, hub := { (s.link n).hub with culvert := [] } }

/-- Physical tile `p` loses its state: its cores, harts and copies (R446, R486). -/
def State.tileGone (s : State) (p : Fin 36) : State :=
  let s : State := match s.logTile p.val with
    | some t => (List.range 8).foldl (fun s c => s.setHart (8 * t + c) {}) s
    | none => s
  ((s.dropSlot p.val).dropAgent p.val).dieLinkGone ⟨p.val, by omega⟩

/-- Medium die `m` loses its state (R446). -/
def State.dieGone (s : State) (m : Fin 4) : State :=
  let mine := fun (a : Nat) => a / 24 == m.val
  let s := (s.dropSlot (44 + m.val)).dropAgent (36 + m.val)
  let s := { s with lanes := tkeep (fun a => !mine a) s.lanes, chans := tkeep (fun a => !mine a) s.chans,
                    servos := tkeep (fun a => !mine a) s.servos, sluices := tkeep (fun a => !mine a) s.sluices,
                    furrow := tkeep (fun k => k / 4096 != m.val) s.furrow, dies := tkeep (fun k => k != m.val) s.dies,
                    keys := { s.keys with uses := s.keys.uses.filter fun u => !mine u.act } }
  (s.dieLinkGone ⟨36 + 2 * m.val, by omega⟩).dieLinkGone ⟨37 + 2 * m.val, by omega⟩

/-- The PHY and port logic of a port lose their state; the function table is the hub's (R446). -/
def State.portGone (s : State) (k : Fin 2) : State :=
  let fs := s.portFns k
  let s := fs.foldl (fun s f => s.dropUnit (.fn (fnOf f))) s
  let s := s.dropUnit (.pcie k)
  { s with ports := tset {} s.ports k.val {}, fns := tkeep (fun f => !fs.contains f) s.fns,
           queues := tkeep (fun q => !fs.contains (q / 8)) s.queues, xrings := tkeep (fun r => r / 16 != k.val) s.xrings,
           hostLog := tkeep (fun q => !fs.contains (q / 8)) s.hostLog }

/-- The stripe engines lose their state (R446). -/
def State.stripesGone (s : State) : State :=
  let s := [0, 1, 2, 3].foldl (fun s (k : Fin 4) => s.dropUnit (.stripe k)) s
  { s with stripes := [] }

/-- The self-test index of a domain's die or units (R446, R499). -/
def domTest (d : Nat) : Nat := if d < 40 then d else d + 16

/-- A switchable domain loses its state, and its units will come up from a cold reset (R446), which applies their repairs anew (R506). -/
def State.domainGone (s : State) (d : Fin 43) : State :=
  let s := { s with st := { s.st with applied := tset none s.st.applied (domTest d.val) none } }
  if h : d.val < 36 then s.tileGone ⟨d.val, h⟩
  else if h : d.val < 40 then s.dieGone ⟨d.val - 36, by omega⟩
  else if h : d.val < 42 then s.portGone ⟨d.val - 40, by omega⟩
  else s.stripesGone

/-- The links of a domain's die. -/
def domLinks (d : Fin 43) : List (Fin 45) :=
  if h : d.val < 36 then [⟨d.val, by omega⟩]
  else if h : d.val < 40 then [⟨36 + 2 * (d.val - 36), by omega⟩, ⟨37 + 2 * (d.val - 36), by omega⟩]
  else []

/-- The far end of a link is reset and trains in full (R399, R400, R402). A hub end in a fast retrain goes on with its kept masks, and one
in Failed stays there. -/
def State.vzFar0 (s : State) (n : Fin 45) : State :=
  let st := s.vzState n
  if st = 9 then s
  else if (s.link n).hubFast && decide (2 ≤ st ∧ st ≤ 7) then
    (s.setLink n { s.link n with dieFast := false, dieKept := none }).setVzState n 2
  else s.vzFull n

/-- No clock of a domain's die is gated any longer: with its power its gating is gone (R446, R453). -/
def State.dropClock (s : State) (d : Fin 43) : State :=
  let other := fun (c : ClockUnit) => match c with
    | .tile p => p.val != d.val
    | .med m => 36 + m.val != d.val
    | .hub => true
  { s with clocks := s.clocks.filter other, deep := s.deep.filter other }

/-- A domain's power is gone: its links are lost and its units' state with it (R407, R446). -/
def State.domainOff (s : State) (d : Fin 43) : State :=
  let s := s.dropClock d
  let s := (domLinks d).foldl (fun s n => if s.vzState n = 0 then s else ((s.vzLeft n).vzFar0 n).vzLost n) s
  s.domainGone d

/-- A domain's power is up: links that are enabled train in full (R400, R446). -/
def State.domainOn (s : State) (d : Fin 43) : State :=
  (domLinks d).foldl (fun s n => if s.on (.vz n) F.VZ_CTRL_EN then s.vzFar0 n else s) s

end Sys2Proof.Machine
end

