-- ==== Sys2Proof/Machine/Wake.lean ====
section
/-! DEFINITION. Supply, thermal trips, presence, the seal, the SMBus target, PMBus exchanges and the wake sequence (R427–R441,
R457–R464, R490, R491, R287). -/

namespace Sys2Proof.Machine

open Sys2Proof

/-! ## The wake record (R462) -/

/-- `n` with the `width` bits from `lo` replaced by `v`. -/
def withBits (n lo width v : Nat) : Nat := n - bitsOf n lo width * 2 ^ lo + placed v lo width

/-- The wake record written: the registers that mirror it and the older of its two copies. -/
def State.putWrec (s : State) (w0 w1 w2 : Nat) : State :=
  (((s.put .aon F.AON_WREC0 w0).put .aon F.AON_WREC1 w1).put .aon F.AON_WREC2 w2).putProgress pkgArea [w0, w1, w2]

/-- COUNT of the last record written in the area. -/
def State.wakeCount (s : State) : Nat :=
  match s.getProgress pkgArea with
  | some bs => bitsOf (wordAt bs 0) 32 32
  | none => 0

/-- The lowest bit of a mask of sources. -/
def lowestBit (m : Nat) : Nat := ((List.range 8).find? fun i => m / 2 ^ i % 2 == 1).getD 0

/-- The record of a wake as it is accepted, which adds `more` to COUNT, or of a source during a trip hold (R461, R462). -/
def State.recordWake (s : State) (srcs from_ result step attempt more : Nat) : State :=
  s.putWrec (placed srcs 0 8 + placed (lowestBit srcs) 8 3 + placed from_ 12 4 + placed result 16 8 + placed step 24 4 +
      placed attempt 28 4 + placed (s.wakeCount + more) 32 32) (s.get .aon F.AON_SECONDS) 0

/-- The record written again when a wake ends (R462); DURATION, in µs, is a free value. -/
def State.wakeEnds (s : State) (result w2 : Nat) : State :=
  let (k, s) := s.draw
  let w0 := s.get .aon F.AON_WREC0
  let w0 := withBits (withBits (withBits w0 16 8 result) 24 4 s.wake.step) 28 4 s.wake.attempt
  s.putWrec w0 (withBits (s.get .aon F.AON_WREC1) 32 32 (Config.wakeMicros k)) w2

/-! ## Entering Keep and Off (R431, R433, R442, R461) -/

/-- A PWR_CMD transition ends (R444). -/
def State.transitionEnds (s : State) : State := (s.put .aon F.AON_MODE_BUSY 0).raise .aon F.AON_EVT_CMD_DONE

/-- A transition that a thermal trip or a package-fatal error cuts has ended (R442, R444). -/
def State.cutTransition (s : State) : State := if s.on .aon F.AON_MODE_BUSY then s.transitionEnds else s

/-- The regulator enables driven anew. -/
def State.driveEn (s : State) (v : Nat) : State := if s.vrEn = v then s else { s with vrEn := v }.emit (.vrEn v)

/-- VR_EN3 to VR_EN0 fall in that order (R445, R461). -/
def State.lowerInTurn (s : State) : State := [3, 2, 1, 0].foldl (fun s q => s.driveEn (s.vrEn % 2 ^ q)) s

/-- Keep: the enables are low, and everything but the always-on domain and the keep die's MRAM loses its state. -/
def State.enterKeep (s : State) : State :=
  { (s.cutTransition.driveEn 0).coldReset with pmb := none, vin := none, vinAt := [] }.setMode .keep

/-- Off: nothing keeps its state but MRAM and fuses (R431). -/
def State.enterOff (s : State) : State := { (s.driveEn 0).unpowered with mode := .off }

/-- A deferred PWR_CMD at a cold reset, which clears every hold: it runs, and is not allowed in Waking (R442, R448). -/
def State.dropDeferred (s : State) : State :=
  if s.pwrHeld.isNone then s
  else ({ s with pwrHeld := none }.put .aon F.AON_MODE_HELD 0).put .aon F.AON_MODE_RESULT 0x02

/-- The attempt starts: a cold reset, and the regulator step with the first exchange to 0x40 (R459, R460). -/
def State.startWake (s : State) (attempt : Nat) : State :=
  let s := ((s.coldReset).setMode .waking).dropDeferred
  { s with wake := { step := 1, attempt := attempt, held := 0 }, wakeBad := false, vin := none,
           pmb := some { q := 0, send := .clearFaults } }

/-- A wake is accepted (R457, R461, R462). -/
def State.acceptWake (s : State) (srcs from_ : Nat) : State :=
  ((s.count .aon F.AON_CNT_WAKE).recordWake srcs from_ 0xFF 1 1 1).startWake 1

/-! ## Sources (R457, R461, R463) -/

/-- A wake source, by its bit: accepted in Keep, recorded in a trip hold, joined to SRC in Waking, and kept until Keep in Shutdown
test. -/
def State.wakeSource (s : State) (b : Nat) : State :=
  match s.mode with
  | .keep =>
    if s.on .aon F.AON_MODE_TRIP_HOLD then
      let held := s.wake.held ||| 2 ^ b
      { s.recordWake held 1 0x08 0 0 0 with wake := { s.wake with held := held } }
    else s.acceptWake (2 ^ b) 1
  | .waking => s.putWrec (s.get .aon F.AON_WREC0 ||| 2 ^ b) (s.get .aon F.AON_WREC1) (s.get .aon F.AON_WREC2)
  | .shutdownTest => { s with wake := { s.wake with held := s.wake.held ||| 2 ^ b } }
  | _ => s

/-- A source with an enable (R457). -/
def State.wakeIf (s : State) (en : Fld) (b : Nat) : State := if s.on .aon en then s.wakeSource b else s

/-- PWRON_ASSERT (R431, R439, R463). -/
def execPwronAssert (s : State) : Res := .next s.clean.enterOff

/-- VAUX_LOSS (R442). -/
def execVauxLoss (s : State) : Res := .next s.clean.enterOff

/-- SEAL_OUT is seeded from the random source, never with zeros alone (R436). -/
def State.sealSeed (s : State) : State :=
  let (k, s) := s.draw
  { s with sealGen := 1 + Config.sealSeed k % 255 }

/-- PWRON_RISE: the straps are sampled, SEAL_OUT is seeded and Waking begins, from Off or from the state right after reset (R435, R436, R442,
R457). -/
def execPwronRise (straps : Fin 4) (s : State) : Res :=
  let s := s.clean
  if s.isOff then .next ({ s with straps := straps.val }.sealSeed.acceptWake 0x80 0) else .next s

/-! ## Temperature (R432, R433, R440, R441) -/

/-- THERMAL_TRIP: the enables drop, THERM_TRIP_N is asserted, and the package is in Keep with TRIP set and the trip hold
running; a wake ends with 0x09 (R433, R461, R463). -/
def execThermalTrip (die : DieKind) (s : State) : Res :=
  let _ := die
  let s := s.clean
  if s.isOff then .next s
  else
    let s := if s.mode == .waking then { s.wakeEnds 0x09 (s.get .aon F.AON_WREC2) with wakeBad := true } else s
    let s := (s.raise .therm F.THM_EVT_TRIP).put .aon F.AON_MODE_TRIP_HOLD 1
    .next ({ s with thermTrip := true, wake := { held := s.wake.held } }.enterKeep)

/-- THERMAL_WARN: a reading, in °C, of a kind of die, or of a stack's own register; WARN is set when it comes within WARN_C of the trip value
(R440, R441). -/
def execThermalWarn (die : DieKind) (temp : BitVec 8) (s : State) : Res :=
  let s := s.clean
  .next (match die with
    | .stack k => s.stackRead k temp
    | die => (s.put .therm (thmFld die) temp.toNat).warnAt die temp.toInt)

/-- TRIP_CLEAR: TRIP written with 1 releases THERM_TRIP_N (R433, R441). -/
def execTripClear (s : State) : Res :=
  .next { s.clean.put .therm F.THM_EVT_TRIP 0 with thermTrip := false }

/-! ## The seal and presence (R436, R490, R491) -/

/-- SEAL_OPEN: the loop is found open; CFG_EVT.SEAL, a wake source, and a running FORMAT will stop (R436, R491, R219). -/
def execSealOpen (s : State) : Res :=
  let s := s.clean
  if s.isOff || s.sealOpen then .next s
  else
    let s := (s.put .cfg F.CFG_STAT_SEAL_OPEN 1).raise .cfg F.CFG_EVT_SEAL
    let s := if s.on .sweep F.SWP_STAT_BUSY && s.sweep.op == 1 then { s with sweep := { s.sweep with sealStop := true } } else s
    .next (s.wakeIf F.AON_WAKE_EN_SEAL 4)

/-- SEAL_CLOSE (R491). -/
def execSealClose (s : State) : Res := .next (s.clean.put .cfg F.CFG_STAT_SEAL_OPEN 0)

/-- PRES as it stands: a press window, or a jumper in Provisioning or Diagnostic (R490, R493). -/
def State.presCode (s : State) : Nat :=
  let lcs := s.get .cfg F.CFG_STAT_LCS
  if s.presence.window then 1 else if s.presence.jumper && (lcs == 1 || lcs == 3) then 2 else 0

/-- CFG_STAT.PRES follows presence; CFG_EVT.PRES when it begins (R490, R494). -/
def State.syncPres (s : State) : State :=
  let old := s.get .cfg F.CFG_STAT_PRES
  let new := s.presCode
  let s := s.put .cfg F.CFG_STAT_PRES new
  if old = 0 ∧ new ≠ 0 then s.raise .cfg F.CFG_EVT_PRES else s

/-- PRESENCE_PRESS: a fall of PRESENT_N, accepted after 20 ms, opens a window of 60 s and is a wake source (R434, R490). -/
def execPresencePress (s : State) : Res :=
  let s := s.clean
  if s.isOff || s.presence.low then .next s
  else
    let s := { s with presence := { s.presence with low := true, window := true } }
    .next (((s.put .cfg F.CFG_STAT_PRES_S 60).syncPres).wakeIf F.AON_WAKE_EN_PRESENT 3)

/-- PRESENCE_WINDOW_END (R490). -/
def execPresenceWindowEnd (s : State) : Res :=
  let s := s.clean
  .next (({ s with presence := { s.presence with window := false } }.put .cfg F.CFG_STAT_PRES_S 0).syncPres)

/-- PRESENCE_JUMPER: a low level held for more than 10 min (R490). -/
def execPresenceJumper (s : State) : Res :=
  let s := s.clean
  .next (if s.presence.low then { s with presence := { s.presence with jumper := true } }.syncPres else s)

/-- PRESENCE_RELEASE (R490). -/
def execPresenceRelease (s : State) : Res :=
  let s := s.clean
  .next ({ s with presence := { s.presence with low := false, jumper := false } }.syncPres)

/-- AON_ALARM_MATCH: AON_SECONDS reaches AON_ALARM; 0 disables the alarm (R457, R464). -/
def execAonAlarmMatch (s : State) : Res :=
  let s := s.clean
  let t := s.get .aon F.AON_ALARM
  if s.isOff || t = 0 then .next s
  else .next ((s.put .aon F.AON_SECONDS (max t (s.get .aon F.AON_SECONDS))).wakeIf F.AON_WAKE_EN_ALARM 5)

/-! ## The SMBus target (R287, R435, R458) -/

/-- SMB_ADDRESS_MATCH: an address byte after a START; a match is a wake source (R435, R457, R458). -/
def execSmbAddressMatch (addr : Fin 128) (s : State) : Res :=
  let s := s.clean
  .next (if !s.isOff && addr.val == 0x4C + s.straps then (s.emit (.smbAck true)).wakeIf F.AON_WAKE_EN_SMB_MATCH 0 else s)

/-- SMB_MODE_READ: command 0x48 (R458). -/
def execSmbModeRead (s : State) : Res :=
  let s := s.clean
  if s.isOff then .next s
  else
    .next (s.emit (.value (modeCode s.mode + placed (bit (portMode s.mode)) 4 1 + placed (s.get .aon F.AON_MODE_TRIP_HOLD) 5 1 +
      placed (bit s.wakeBad) 6 1)))

/-- SMB_WAKE_COMMAND: command 0x49; any value but 0x01 is acknowledged and ignored (R457, R458). -/
def execSmbWakeCommand (data : Byte) (s : State) : Res :=
  let s := s.clean
  if s.isOff then .next s
  else
    let s := s.emit (.smbAck true)
    .next (if data = 0x01 then s.wakeSource 2 else s)

/-- SMB_MB_WRITE: command 0x40; a byte count other than 16 is not acknowledged and commits nothing; a commit is a wake source (R287, R457). -/
def execSmbMbWrite (bytes : List Byte) (s : State) : Res :=
  let s := s.clean
  if s.isOff then .next s
  else if bytes.length != 16 then .next (s.emit (.smbAck false))
  else
    let word := fun k => leNat ((bytes.drop (4 * k)).take 4)
    let s := (List.range 3).foldl (fun s k => s.put .mbox bmcFlds.out (word k) 0 k) (s.emit (.smbAck true))
    .next ((s.mbCommit .bmc (word 3)).wakeSource 1)

/-- SMB_MB_READ: command 0x41 returns the 16 bytes of IN words 0 to 3 (R287). -/
def execSmbMbRead (s : State) : Res :=
  let s := s.clean
  if s.isOff then .next s else .next (s.emit (.value (joinBits 32 ((List.range 4).map fun k => s.get .mbox bmcFlds.inn 0 k))))

/-- SMB_MB_STAT: command 0x42 (R287, R289). -/
def execSmbMbStat (s : State) : Res :=
  let s := s.clean
  let g := fun f => s.get .mbox f
  let hi := [bmcFlds.outFull, bmcFlds.outEmpty, bmcFlds.outColl, bmcFlds.outTmo].map g
  let lo := [g bmcFlds.full, 0, g bmcFlds.inColl, g bmcFlds.inMsg]
  if s.isOff then .next s else .next (s.emit (.value (joinBits 1 (hi ++ lo))))

/-- SMB_MB_FLAGS: command 0x43 takes the message and clears flags (R287). -/
def execSmbMbFlags (data : Byte) (s : State) : Res :=
  let s := s.clean
  if s.isOff then .next s
  else
    let flags := [bmcFlds.inColl, bmcFlds.inMsg, bmcFlds.outEmpty, bmcFlds.outColl, bmcFlds.outTmo].zipIdx
    let s := flags.foldl (fun s e => if data.toNat / 2 ^ (e.2 + 1) % 2 = 1 then s.put .mbox e.1 0 else s) s
    .next (if data.toNat % 2 = 1 then s.mbTake .bmc else s)

/-! ## The wake sequence (R459–R461) -/

/-- Bits of STATUS_WORD that tell no fault: OFF, BUSY and POWER_GOOD#. -/
def statusFault (w : Nat) : Bool := (w &&& 0xF73F) != 0

/-- A wake fails: the enables fall in turn, the record is written, WAKE_FAIL is set, and the package is in Keep, where RETRY_S runs
while attempts remain (R461). -/
def State.wakeFails (s : State) (code w2 : Nat) : State :=
  let s := (s.lowerInTurn.wakeEnds code w2).raise .aon F.AON_EVT_WAKE_FAIL
  let again := decide (s.wake.attempt ≤ s.get .aon F.AON_TUNE_RETRY_N)
  { s with wake := { attempt := s.wake.attempt, retry := again }, wakeBad := true }.enterKeep

/-- The voltage of a VIN code, in mV (R428); codes above 8 act as 8 (R466). -/
def vinOf (code : Nat) : Nat := 1760 + 10 * min 8 code

/-- A quarter's VOUT_COMMAND in a change of VIN (R451, R460). -/
def State.vinSend (s : State) (v : VinS) (q : Nat) : State :=
  { s with vin := some { v with quarter := q, stage := .command }, pmb := some { q := q, send := .vout v.mv } }

/-- A change of VIN begins with quarter 0; one under way ends first (R451, R460). -/
def State.startVin (s : State) (mv : Nat) : State :=
  match s.vin with
  | some v => { s with vin := some { v with next := some mv } }
  | none => s.vinSend ⟨mv, 0, .command, none⟩ 0

/-- Every quarter has been changed and checked: STILL or SERVE has ended (R444, R451). -/
def State.vinEnds (s : State) (v : VinS) : State :=
  match v.next with
  | some mv => s.vinSend ⟨mv, 0, .command, none⟩ 0
  | none =>
    let s := { s with vin := none }
    if s.mode == .still || s.mode == .serve then s.cutTransition else s

/-- A check of a change of VIN in service fails (R451, R520). -/
def State.vinFails (s : State) : State := { s with vin := none, pmb := none }.packageFatal 0x08 .aon 0 0

/-- An exchange of a change of VIN is acknowledged: the slew is waited for, or STATUS_WORD is judged (R451). -/
def State.vinDone (s : State) (v : VinS) (p : PmbS) (data : Nat) : State :=
  match p.send with
  | .vout mv => { s with pmb := none, vin := some { v with stage := .slew }, vinAt := tset 0 s.vinAt p.q mv }
  | _ =>
    if statusFault data then s.vinFails
    else if v.quarter < 3 then s.vinSend v (v.quarter + 1)
    else { s with pmb := none }.vinEnds v

/-- VIN_CHANGE_CHECK: the slew of the quarter in turn has been waited for; VR_PG is looked at, and STATUS_WORD is read by an exchange. A
failure in service is package-fatal (R451, R460, R520). -/
def execVinChangeCheck (pg : Bool) (q : Fin 4) (s : State) : Res :=
  let s := s.clean
  match s.vin with
  | none => .next s
  | some v =>
    if v.stage != .slew || v.quarter != q.val then .next s
    else if !pg then .next s.vinFails
    else .next { s with vin := some { v with stage := .status }, pmb := some { q := q.val, send := .statusWord } }

/-- An exchange of the regulator step is acknowledged: the next of the sequence (R459). VR_EN of a quarter rises only after its
VOUT_COMMAND (R460). -/
def State.wakePmb (s : State) (p : PmbS) (data : Nat) : State :=
  match p.send with
  | .clearFaults => { s with pmb := some { q := p.q, send := .enablePin } }
  | .enablePin => { s with pmb := some { q := p.q, send := .vout (vinOf (s.get .pwr F.PWR_VIN_CMD)) } }
  | .vout mv =>
    { s with pmb := none, vinAt := tset 0 s.vinAt p.q mv, wake := { s.wake with pgWait := true } }.driveEn (s.vrEn ||| 2 ^ p.q)
  | .statusWord =>
    if statusFault data then { s with pmb := none }.wakeFails 0x03 (0x40 + p.q + placed p.send.code 8 8 + placed data 16 16)
    else if p.q = 3 then { s with pmb := none, wake := { s.wake with regsUp := true } }
    else { s with pmb := some { q := p.q + 1, send := .clearFaults }, wake := { s.wake with quarter := p.q + 1 } }

/-- A PMBus exchange is acknowledged: one of a change of VIN, or of the regulator step (R451, R459). -/
def State.pmbDone (s : State) (p : PmbS) (data : Nat) : State :=
  match s.vin with
  | some v => s.vinDone v p data
  | none => s.wakePmb p data

/-- Three attempts of an exchange failed: the address and the command are recorded, and the wake fails with 0x01, or the change of VIN in
service does (R451, R460, R462). -/
def State.pmbFailed (s : State) (p : PmbS) : State :=
  let w2 := 0x40 + p.q + placed p.send.code 8 8
  match s.vin with
  | some _ => (s.putWrec (s.get .aon F.AON_WREC0) (s.get .aon F.AON_WREC1) w2).vinFails
  | none => { s with pmb := none }.wakeFails 0x01 w2

/-- PMBUS_TRANSACTION_END: every byte is acknowledged and the PEC of a read matches, or the attempt failed (R460). -/
def execPmbusTransactionEnd (acked : Bool) (data : BitVec 16) (s : State) : Res :=
  let s := s.clean
  .next (match s.pmb with
    | some p => if p.wait then s else if acked then s.pmbDone p data.toNat else { s with pmb := some { p with wait := true } }
    | none => s)

/-- PMBUS_RETRY_WAIT_END: 1 ms after a failed attempt (R460). -/
def execPmbusRetryWaitEnd (s : State) : Res :=
  let s := s.clean
  .next (match s.pmb with
    | some p =>
      if !p.wait then s
      else
        let s := s.count .aon F.AON_CNT_PMB_RETRY
        if p.fails + 1 < 3 then { s with pmb := some { p with fails := p.fails + 1, wait := false } } else s.pmbFailed p
    | none => s)

/-- A wake step begins. -/
def State.wakeStep (s : State) (k : Nat) : State := { s with wake := { s.wake with step := k } }

/-- The classes that are listed for a unit of the self-test (R499). -/
def listed (u : Nat) : List TestClass :=
  if u < 40 then [.ana, .arr, .log, .init]
  else if u < 48 then [.arr, .init]
  else if u < 56 then [.ana, .arr]
  else if u < 58 then [.ana, .init]
  else if u = 58 then [.arr, .log, .init]
  else []

/-- The entry of a unit in the result set of a new part: a pass in every class of program 3 (R505). -/
def factoryEnt (u : Nat) : TestEnt :=
  let on := fun c => bit ((listed u).contains c)
  { ana := on .ana, arr := on .arr, log := on .log, init := bit (decide (u < 59)),
    misr := if (listed u).contains .log then Config.goldenSignature u else 0 }

/-- The entry of a unit in the valid result set. -/
def State.testEnt (s : State) (u : Nat) : TestEnt := tget (factoryEnt u) s.st.ents u
/-- The entry of a unit replaced. -/
def State.setTestEnt (s : State) (u : Nat) (e : TestEnt) : State := { s with st := { s.st with ents := tset (factoryEnt u) s.st.ents u e } }

/-- The entry of a stack controller in the self-test records: checker and training (R499). -/
def State.putStackTest (s : State) (k : Nat) (ana arr : Nat) : State :=
  s.setTestEnt (48 + k) { s.testEnt (48 + k) with ana := ana, arr := arr, init := 1, run := s.st.run, time := s.get .aon F.AON_SECONDS }

/-- The memory step of one controller ends: trained, identified and tested (R364, R379, R381). -/
def State.stackUp (s : State) (k : Fin 8) (i : StackId) : State :=
  let u := UnitId.mc k
  let s := (s.put u F.MC_STAT_TRAINED 1).put u F.MC_STAT_CHK_OK 1
  let s := ((s.put u F.MC_IDENT_VENDOR i.vendor.toNat).put u F.MC_IDENT_DENSITY i.density.toNat).put u F.MC_IDENT_REV i.rev.toNat
  (s.put u F.MC_IDENT_SERIAL i.serial.toNat).putStackTest k.val 1 1

/-- The wake reaches Loading (R442, R459, R462). -/
def State.wakeDone (s : State) : State :=
  let s := (s.wakeEnds 0x00 0).raise .aon F.AON_EVT_WAKE_DONE
  { s with wake := {}, load := {} }.setMode .loading

/-- WAKE_STEP_READY: in the regulator step VR_PG of the quarter in turn rises, or all is up; in the memory step every controller
is trained, with what its stack identifies itself as; in the logic step UNIT_READY of the hub and of keep is awaited (R459). -/
def execWakeStepReady (ids : List StackId) (s : State) : Res :=
  let s := s.clean
  if s.mode != .waking || s.fatalStop then .next s
  else
    .next (match s.wake.step with
      | 1 =>
        if s.wake.pgWait then { s with wake := { s.wake with pgWait := false }, pmb := some { q := s.wake.quarter, send := .statusWord } }
        else if s.wake.regsUp then s.wakeStep 2 else s
      | 2 => s.wakeStep 3
      | 3 =>
        let s := [0, 1, 2, 3, 4, 5, 6, 7].foldl (fun s k => s.stackUp k (ids.getD k.val ⟨0, 0, 0, 0⟩)) s
        startLinks.foldl (fun s n => s.vzFull n) (s.wakeStep 4)
      | 4 => if s.on .hub F.UNIT_READY_READY && s.on .keep F.UNIT_READY_READY then s.wakeDone else s
      | _ => s)

/-- WAKE_STEP_TIMEOUT: a step exceeds its limit (R459, R461); a failed checker is package-fatal (R379, R501). -/
def execWakeStepTimeout (why : WakeFail) (s : State) : Res :=
  let s := s.clean
  if s.mode != .waking || s.fatalStop then .next s
  else
    let w2 := s.get .aon F.AON_WREC2
    .next (match s.wake.step, why with
      | 1, .late => if s.wake.pgWait then s.wakeFails 0x02 w2 else s
      | 2, .pkgclk => s.wakeFails 0x04 w2
      | 2, .pll => s.wakeFails 0x05 w2
      | 3, .checker k =>
        let u := UnitId.mc k
        (((s.put u F.MC_STAT_CHK_FAIL 1).raise u F.MC_EVT_CHK_FAIL).putStackTest k.val 1 2).packageFatal 0x03 u 0 0
      | 3, .untrained k => (s.putStackTest k.val 2 (s.testEnt (48 + k.val)).arr).wakeFails 0x06 w2
      | 4, .late => s.wakeFails 0x07 w2
      | _, _ => s)

/-- WAKE_RETRY_TIMER: RETRY_S after a failure, the whole sequence runs again (R461). -/
def execWakeRetryTimer (s : State) : Res :=
  let s := s.clean
  .next (if s.mode == .keep && s.wake.retry then s.startWake (s.wake.attempt + 1) else s)

/-- TRIP_HOLD_END: the hold ends, and a recorded wake runs (R461). -/
def execTripHoldEnd (s : State) : Res :=
  let s := s.clean
  let held := s.wake.held
  let s := s.put .aon F.AON_MODE_TRIP_HOLD 0
  .next (if s.mode == .keep && held != 0 then s.acceptWake held 1 else s)

end Sys2Proof.Machine
end

