-- ==== Sys2Proof/Machine/SelfTest.lean ====
section
/-! DEFINITION. Self-test: programs and their order, results, soft repair and the records in the package area (R497–R511). -/

namespace Sys2Proof.Machine

open Sys2Proof

/-! ## Records (R503, R504) -/

/-- The words of a result entry (R504). -/
def entryWords (e : TestEnt) : List Nat :=
  [ placed e.ana 0 2 + placed e.arr 2 2 + placed e.log 4 2 + placed e.init 6 2 + placed (bit e.suspect) 8 1 + placed e.soft 16 8 +
      placed e.fused 24 8 + placed e.run 32 32, e.misr, placed e.lanes 0 24 + placed e.array 32 16, placed e.time 0 32 ]

/-- WGEN of a copy of `n` bytes whose CRC, over all but bytes 60 to 63, matches (R503). -/
def State.setWgen (s : State) (off n : Nat) : Option Nat :=
  let bs := s.mramBytes off n
  if leNat ((bs.drop 60).take 4) = crc32c (bs.take 60 ++ bs.drop 64) then some (leNat ((bs.drop 56).take 4)) else none

/-- A record of two copies written into the older of them, with its WGEN and CRC (R214, R503). -/
def State.putSet (s : State) (a b : Nat) (head body : List Byte) : State :=
  let n := 64 + body.length
  let write := fun (off wgen : Nat) =>
    let h := (head ++ List.replicate 56 0).take 56 ++ leBytes 4 wgen
    s.putMram off (h ++ leBytes 4 (crc32c (h ++ body)) ++ body)
  match s.setWgen a n, s.setWgen b n with
  | none, y => write a (y.getD 0 + 1)
  | some x, none => write b (x + 1)
  | some x, some y => if x ≤ y then write a (y + 1) else write b (x + 1)

/-- The soft-repair map of a unit (R506). -/
def State.softMap (s : State) (u : Nat) : List Nat := tget [] s.st.soft u
/-- The fuse bank of a unit (R506). -/
def State.fuseBank (s : State) (u : Nat) : List Nat := tget [] s.st.fuses u

/-- The repair map written into the package area (R503). -/
def State.putRepairs (s : State) : State :=
  let one := fun u => (List.range 64).flatMap fun k => leBytes 4 ((s.softMap u).getD k 0)
  s.putSet (stArea + 0x4000) (stArea + 0x9000) [] ((List.range 64).flatMap one)

/-- The run marker written (R503). -/
def State.putMarker (s : State) (run : Nat) : State :=
  { s with st := { s.st with marker := run } }.putProgress stArea [placed run 0 32]

/-- Some class of the valid set reads 2 (R511). -/
def State.anyFail (s : State) : Bool :=
  (List.range 64).any fun u => let e := s.testEnt u; e.ana == 2 || e.arr == 2 || e.log == 2 || e.init == 2

/-- The result set written with a RUN, for a program or a direct test (R503, R508, R511). DURATION is a free value. -/
def State.putResults (s : State) (run : Nat) (prog : Option Nat) : State :=
  let (k, s) := s.draw
  let p := prog.getD s.st.prog
  let all := (List.range 64).foldl (fun d u =>
    tset (factoryEnt u) d u { tget (factoryEnt u) s.st.draft u with suspect := s.st.suspect.contains u }) []
  let s := { s with st := { s.st with run := run, prog := p, ents := all, draft := [] } }
  let head := leBytes 4 run ++ leBytes 4 p ++ leBytes 4 (Config.testMillis k)
  let s := s.putSet (stArea + 0x1000) (stArea + 0x2000) head ((List.range 64).flatMap fun u => wordsBytes (entryWords (s.testEnt u)))
  let s := s.put .stest F.ST_STAT_LAST_PROG p
  if s.anyFail then s.raise .stest F.ST_EVT_FAIL else s

/-- A unit passes: no class of its entry reads 2 and INIT reads 1 (R505). -/
def State.testPass (s : State) (u : Nat) : Bool :=
  let e := s.testEnt u
  e.ana != 2 && e.arr != 2 && e.log != 2 && e.init == 1

/-! ## Programs (R500, R501) -/

/-- The classes that a program runs on a unit, before pending tests (R500); `r` is the run number mod 9. -/
def programRuns (prog u r : Nat) (c : TestClass) : Bool :=
  match c with
  | .init => decide (1 ≤ prog)
  | .ana => decide (1 ≤ prog)
  | .arr => decide (2 ≤ prog)
  | .log => prog == 3 || (prog == 4 && ((decide (u < 36) && u % 9 == r) || (decide (36 ≤ u ∧ u < 40) && r == 8)))

/-- The classes that run on a unit, INIT last (R498, R500, R501). -/
def State.classesFor (s : State) (prog u r : Nat) : List TestClass :=
  if 48 ≤ u ∧ u < 56 then []
  else
    let want := fun c => programRuns prog u r c || (s.st.arrPend.contains u && (c == .arr || c == .init)) || s.st.suspect.contains u
    (listed u).filter want

/-- The shutdown program begins (R445, R500, R503): values above 4 act as 0. -/
def State.startProgram (s : State) : State :=
  let sel := s.get .cfg F.CFG_STAT_SHUT_PROG
  let prog := if 4 < sel then 0 else sel
  let run := s.st.run + 1
  let todo := ((List.range 59).map fun u => (u, s.classesFor prog u (run % 9))).filter fun e => !e.2.isEmpty
  ({ s with st := { s.st with active := some ⟨some prog, run, todo⟩, draft := s.st.ents } }.putMarker run).put .stest F.ST_STAT_BUSY 1

/-- A unit of the program may run now (R500): of a quarter's tiles the first three that are left; hub units after the tiles and
the medium dies. -/
def mayRun (t : TestRun) (u : Nat) : Bool :=
  let left := t.todo.map Prod.fst
  if u < 36 then ((left.filter fun x => decide (x < 36) && x / 9 == u / 9).take 3).contains u
  else if u < 40 then true
  else !(left.any fun x => decide (x < 40))

/-! ## Outcomes (R504, R506, R509) -/

/-- A repair entry: KIND 1 row, 2 column, 3 disabled way (R506). -/
def repairEntry (array kind : Nat) (index : BitVec 18) : Nat := array + placed kind 12 2 + placed index.toNat 14 18

/-- The repair of a failing cell: its row or column moves onto a spare, or in a cache array without one its way is disabled (R506). -/
def cellRepair (c : CellFail) : Option Nat :=
  if c.spare then some (repairEntry c.array.val (if c.column then 2 else 1) c.index) else c.way.map (repairEntry c.array.val 3)

/-- ARR on a unit: each failing cell takes a soft entry; one that cannot fails the class, and ARRAY records the first such array
(R506). -/
def State.arrCell (s : State) (u : Nat) (acc : Bool × Nat) (c : CellFail) : State × Bool × Nat :=
  let m := s.softMap u
  match cellRepair c, decide (m.length < 64) with
  | some r, true => (({ s with st := { s.st with soft := tset [] s.st.soft u (m ++ [r]) } }.raise .stest F.ST_EVT_REPAIR), acc)
  | _, _ => (s.raise .stest F.ST_EVT_EXHAUST, true, if acc.1 then acc.2 else c.array.val)

/-- ISOLATE of a link, by number. -/
def State.linkIsolated (s : State) (n : Nat) : Bool := if h : n < 45 then s.on (.vz ⟨n, h⟩) F.VZ_CTRL_ISOLATE else false

/-- ISOLATE of a list of links. -/
def State.setIsolate (s : State) (ns : List Nat) (v : Nat) : State :=
  ns.foldl (fun s n => if h : n < 45 then s.put (.vz ⟨n, h⟩) F.VZ_CTRL_ISOLATE v else s) s

/-- A unit is isolated before its first class runs (R498): a tile or a medium die by ISOLATE on its links, and every lane of a
medium die is taken to EN 0; a hub unit by the crossbar. -/
def State.isolateUnit (s : State) (u : Nat) : State :=
  if s.st.iso.any fun e => e.1 == u then s
  else
    let ns := if h : u < 40 then ((domLinks ⟨u, by omega⟩).map Fin.val).filter fun n => !s.linkIsolated n else []
    let s := { s with st := { s.st with iso := s.st.iso ++ [(u, ns)] } }.setIsolate ns 1
    if 36 ≤ u ∧ u < 40 then (dieActs (u - 36)).foldl (fun s a => if s.on (.act a) F.YL_CTRL_EN then s.laneDisable a else s) s else s

/-- INIT has passed: the unit is isolated no longer (R498). -/
def State.endIsolation (s : State) (u : Nat) : State :=
  let ns := ((s.st.iso.find? fun e => e.1 == u).map Prod.snd).getD []
  { s with st := { s.st with iso := s.st.iso.filter fun e => e.1 != u } }.setIsolate ns 0

/-- A home slice loses its LLC and directory (R332, R498). -/
def State.sliceGone (s : State) (k : Fin 8) : State :=
  { s.dropUnit (.home k) with homes := tkeep (fun l => homeOf l != k) s.homes, amoHist := tkeep (fun e => e != k.val) s.amoHist }

/-- A unit is put through a cold reset (R497 INIT, R498); the links of a die train in full. -/
def State.initUnit (s : State) (u : Nat) : State :=
  let s := { s with st := { s.st with applied := tset none s.st.applied u none } }
  if h : u < 40 then (s.domainOff ⟨u, by omega⟩).domainOn ⟨u, by omega⟩
  else if h : 40 ≤ u ∧ u < 48 then s.sliceGone ⟨u - 40, by omega⟩
  else if h : 56 ≤ u ∧ u < 58 then s.portGone ⟨u - 56, by omega⟩
  else if u = 58 then s.stripesGone
  else s

/-- The units whose UNIT_READY shows that a unit of the self-test has initialised (R498). -/
def testUnits (u : Nat) : List UnitId :=
  if h : u < 36 then [.tile ⟨u, h⟩]
  else if h : u < 40 then [.med ⟨u - 36, by omega⟩]
  else if h : u < 48 then [.home ⟨u - 40, by omega⟩]
  else if h : 56 ≤ u ∧ u < 58 then [.pcie ⟨u - 56, by omega⟩]
  else if u = 58 then [.stripe 0, .stripe 1, .stripe 2, .stripe 3]
  else []

/-- A unit applies its fused entries and then its soft entries, once after each cold reset, before it reports ready; a soft entry that
duplicates a fused one is ignored (R506). -/
def State.applyRepairs (s : State) (u : Nat) : State :=
  if (tget none s.st.applied u).isSome then s
  else
    let f := s.fuseBank u
    { s with st := { s.st with applied := tset none s.st.applied u (some (f ++ (s.softMap u).filter fun r => !f.contains r)) } }

/-- INIT has passed: the repairs are applied and UNIT_READY is reported (R497, R498). -/
def State.initPassed (s : State) (u : Nat) : State :=
  (testUnits u).foldl (fun s v => s.put v F.UNIT_READY_READY 1) (s.applyRepairs u)

/-- The entry of a unit as the running test has it so far. -/
def State.draftEnt (s : State) (u : Nat) : TestEnt := tget (factoryEnt u) s.st.draft u
/-- The entry that the running test has so far replaced. -/
def State.setDraft (s : State) (u : Nat) (e : TestEnt) : State :=
  { s with st := { s.st with draft := tset (factoryEnt u) s.st.draft u e } }

/-- A class ends on a unit: its outcome in the entry. -/
def State.classDone (s : State) (t : TestRun) (u : Nat) (c : TestClass) (o : ClassObs) : State :=
  let code := if o.pass then 1 else 2
  let stamp := fun (s : State) (e : TestEnt) =>
    s.setDraft u { e with run := t.run, time := s.get .aon F.AON_SECONDS, soft := (s.softMap u).length, fused := (s.fuseBank u).length }
  let e := s.draftEnt u
  match c with
  | .ana => stamp s { e with ana := if o.lanes = 0 then code else 2, lanes := o.lanes.toNat }
  | .arr =>
    let r := o.cells.foldl (fun (x : State × Bool × Nat) cell => x.1.arrCell u x.2 cell) (s, false, 0)
    let bad := r.2.1 || !o.pass
    stamp (if o.cells.isEmpty then r.1 else r.1.putRepairs) { r.1.draftEnt u with arr := if bad then 2 else 1, array := r.2.2 }
  | .log =>
    let odd := t.prog.isNone && (s.get .stest F.ST_PATTERNS != 32 ||
      (s.get .stest F.ST_SEED != 0 && s.get .stest F.ST_SEED != Config.fusedSeed % 2 ^ 64))
    stamp s { e with log := if odd then 3 else if o.misr.toNat = Config.goldenSignature u % 2 ^ 64 then 1 else 2, misr := o.misr.toNat }
  | .init =>
    let s := s.initUnit u
    stamp (if o.pass then (s.endIsolation u).initPassed u else s) { e with init := code }

/-- ST_CLASS_DONE: the class under way on a unit finishes; with the last of them a pending mark clears (R501, R502, R504). -/
def execStClassDone (unit : Fin 64) (obs : ClassObs) (s : State) : Res :=
  let s := s.clean
  let u := unit.val
  match s.st.active with
  | none => .next s
  | some t =>
    match (t.todo.find? fun e => e.1 == u).map Prod.snd with
    | some (c :: cs) =>
      if !mayRun t u then .next s
      else
        let s := ((s.isolateUnit u).classDone t u c obs).put .stest F.ST_STAT_CUR_UNIT u
        let todo := (t.todo.map fun e => if e.1 == u then (u, cs) else e).filter fun e => !e.2.isEmpty
        let s := { s with st := { s.st with active := some { t with todo := todo } } }
        if !cs.isEmpty then .next s
        else
          .next { s with st := { s.st with arrPend := s.st.arrPend.filter (fun x => x != u), suspect := s.st.suspect.filter (fun x => x != u) } }.putPending
    | _ => .next s

end Sys2Proof.Machine
end

