-- ==== Sys2Proof/Machine/Power.lean ====
section
/-! DEFINITION. The modes of the package and PWR_CMD, changes of VIN, power domains and holds, clocks and weirs (R442–R456,
R463–R468). -/

namespace Sys2Proof.Machine

open Sys2Proof

/-! ## Clocks (R449, R450, R453) -/

/-- VCORE, in 10 mV, for a frequency in 100 MHz (R450). -/
def vcoreOf (f : Nat) : Nat :=
  if f ≤ 10 then 60 else if f ≤ 16 then 68 else if f ≤ 20 then 74 else if f ≤ 24 then 80 else if f ≤ 28 then 87 else 95

/-- The voltage, in 10 mV, of a tile at a frequency: 0.60 V at the second gating level (R450, R453). -/
def State.tileVcore (s : State) (t f : Nat) : Nat :=
  if (s.physTile t).any fun p => s.deep.contains (.tile p) then 60 else vcoreOf f

/-- One unit's clock runs again. -/
def State.clockUp (s : State) (u : ClockUnit) : State :=
  let was := s.deep.contains u
  let s := { s with clocks := s.clocks.filter (fun c => c != u), deep := s.deep.filter (fun c => c != u) }.clockState u 0
  match u with
  | .tile p => match s.logTile p.val with
    | some t => if was then s.put .pwr F.TILE_FREQ_VCORE (vcoreOf (s.get .pwr F.TILE_FREQ_CUR t)) t else s
    | none => s
  | _ => s

/-- Still is left: VIN returns to VIN_CMD, and every second-level clock restarts (R451, R452, R463). -/
def State.leaveStill (s : State) (old : Mode) : State :=
  if old = .still then (s.deep.foldl (fun s u => s.clockUp u) s).vzDrainAll.startVin (vinOf (s.get .pwr F.PWR_VIN_CMD)) else s

/-! ## PWR_CMD (R442, R444, R445, R448) -/

/-- RESULT of a PWR_CMD. -/
def State.pwrResult (s : State) (r : Nat) : State := s.put .aon F.AON_MODE_RESULT r

/-- Both ports' links go down as the package leaves the modes in which they train (R222, R247). -/
def State.closePorts (s : State) : State :=
  ([0, 1] : List (Fin 2)).foldl (fun s k => if s.linkUp k then s.portDown k else s) s

/-- SHUTDOWN is not refused by a condition of R445. -/
def State.mayShut (s : State) : Bool :=
  (allActs.all fun a => (s.sluice a.val).ents.isEmpty) && !s.on .sweep F.SWP_STAT_BUSY && !s.on .key F.KEY_STAT_BUSY &&
  !s.on .memmap F.MEMMAP_STAT_BUSY && !s.on .memmap F.FILL_BUSY

/-- Shutdown test is entered, and the shutdown program begins (R445). -/
def State.enterShutdown (s : State) : State := ((s.closePorts).setMode .shutdownTest).startProgram

/-- The warm reset of RESTART, into Loading (R442, R443, R476). -/
def State.enterRestart (s : State) : State :=
  let old := s.mode
  { (s.setMode .loading).warmReset with load := { warm := true } }.leaveStill old

/-- A direct test or a burn runs (R508, R510). -/
def State.testing (s : State) : Bool := s.st.active.isSome || s.st.fuse.isSome

/-- An accepted SHUTDOWN (3) or RESTART (4): it acts now, or when a tile operation or a direct test has ended (R492, R510). From its
acceptance SHUTDOWN admits no host command: the ports are down and do not train (R445). -/
def State.beginPwr (s : State) (op : Nat) : State :=
  let s := (s.pwrResult 0x00).put .aon F.AON_MODE_BUSY 1
  if s.tileOp.isSome || (op = 3 && s.testing) then { (if op = 3 then s.closePorts else s) with pwrNext := some op }
  else if op = 3 then s.enterShutdown else s.enterRestart

/-- A PWR_CMD that waited acts when nothing holds it any longer (R492, R510). -/
def State.runPwrNext (s : State) : State :=
  match s.pwrNext with
  | none => s
  | some op =>
    if s.tileOp.isSome || (op = 3 && s.testing) then s
    else if op = 3 then { s with pwrNext := none }.enterShutdown else { s with pwrNext := none }.enterRestart

/-- The modes from which each command is allowed (R442). -/
def pwrFrom (op : Nat) (m : Mode) : Bool :=
  match op, m with
  | 1, .twelve | 1, .still | 2, .serve => true
  | 3, .twelve | 3, .serve | 3, .recovery | 3, .diagnostic => true
  | 4, .twelve | 4, .serve | 4, .still | 4, .recovery | 4, .diagnostic => true
  | _, _ => false

/-- SHUTDOWN or RESTART with the hold out of its way: the mode and the condition of R445 decide; a package that stays in Recovery takes
neither (R522). -/
def State.tryPwr (s : State) (op : Nat) : State :=
  if !pwrFrom op s.mode || s.stayRecovery then s.pwrResult 0x02
  else if op = 3 && !s.mayShut then s.pwrResult 0x03
  else s.beginPwr op

/-- A normal-world command deferred by a hold (R448). -/
def State.deferPwr (s : State) (op : Nat) : State :=
  (({ s.pwrResult 0x04 with pwrHeld := some op }.put .aon F.AON_MODE_HELD 1).raise .aon F.AON_EVT_DEFERRED).count .pwr F.PWR_CNT_DEFER

/-- A PWR_CMD written: refused while a transition runs; a deferred command is discarded (R444, R448, R463). -/
def State.pwrCmd (s : State) (run : State → State) : State :=
  if s.on .aon F.AON_MODE_BUSY then s.pwrResult 0x01
  else run ({ s with pwrHeld := none }.put .aon F.AON_MODE_HELD 0)

/-- SERVE: from Twelve at once; from Still, when VIN is back at VIN_CMD (R442, R451, R452). -/
def execServe (w : World) (s : State) : Res :=
  let _ := w
  .next (s.clean.pwrCmd fun s =>
    if !pwrFrom 1 s.mode then s.pwrResult 0x02
    else
      let old := s.mode
      let s := (s.pwrResult 0x00).setMode .serve
      if old = .still then (s.put .aon F.AON_MODE_BUSY 1).leaveStill old else s.transitionEnds)

/-- STILL: from Serve; VIN goes to VIN_STILL (R442, R452). -/
def execStill (w : World) (s : State) : Res :=
  let _ := w
  .next (s.clean.pwrCmd fun s =>
    if !pwrFrom 2 s.mode then s.pwrResult 0x02
    else (((s.pwrResult 0x00).put .aon F.AON_MODE_BUSY 1).setMode .still).startVin (vinOf (s.get .pwr F.PWR_VIN_STILL)))

/-- A normal-world SHUTDOWN or RESTART is held by any bit of PWR_HOLD (R448). -/
def State.holdsPwr (s : State) (w : World) : Bool := w == .normal && s.get .pwr F.PWR_HOLD != 0

/-- SHUTDOWN (R442, R445, R448). -/
def execShutdown (w : World) (s : State) : Res :=
  .next (s.clean.pwrCmd fun s => if pwrFrom 3 s.mode && s.holdsPwr w then s.deferPwr 3 else s.tryPwr 3)

/-- RESTART (R442, R443, R448). -/
def execRestart (w : World) (s : State) : Res :=
  .next (s.clean.pwrCmd fun s => if pwrFrom 4 s.mode && s.holdsPwr w then s.deferPwr 4 else s.tryPwr 4)

/-- PWR_CMD_RESERVED: a code other than 1 to 4 (R464). -/
def execPwrCmdReserved (op : Fin 16) (w : World) (s : State) : Res :=
  let _ := w
  let s := s.clean
  if 1 ≤ op.val ∧ op.val ≤ 4 then .next s else .next (s.pwrCmd fun s => s.pwrResult 0x02)

/-- SHUTDOWN_PROGRAM_END: the result set is written, the enables fall and the package is in Keep, where a source that arrived
meanwhile starts Waking (R445, R463, R503). -/
def execShutdownProgramEnd (s : State) : Res :=
  let s := s.clean
  match s.st.active with
  | some ⟨some prog, run, []⟩ =>
    if s.mode != .shutdownTest then .next s
    else
      let held := s.wake.held
      let s := ({ s with st := { s.st with active := none } }.putResults run (some prog)).transitionEnds
      let s := { s with wake := {} }.lowerInTurn.enterKeep
      .next (if held = 0 then s else s.acceptWake held 1)
  | _ => .next s

/-! ## What gates and restarts a clock (R453) -/

/-- A medium die's lanes are all in sleep or off and its servo engines OFF or PARKED (R453). -/
def State.dieRests (s : State) (m : Fin 4) : Bool :=
  (dieActs m.val).all fun a =>
    let y := s.get (.act a) F.YL_STAT_STATE
    let v := s.get (.act a) F.SV_STAT_STATE
    (y == 9 || y == 0) && (v == 0 || v == 1)

/-- No request, snoop or answer is under way to or from an agent's port (R453). -/
def State.portRests (s : State) (port : Nat) : Bool :=
  !(s.reqs.any fun r => r.port == port) && !(s.net.any fun m => m.dst == port || m.src == port)

/-- An interrupt is routed to a hart of a logical tile, or its CORE_MTIMECMP is reached (R308, R311, R453). -/
def State.tileCalled (s : State) (t : Nat) : Bool :=
  (List.range 3136).any (fun i => s.on .irq F.ROUTE_ASSERTED i && s.get .irq F.ROUTE_HART i / 8 == t && s.get .irq F.ROUTE_LEVEL i != 0) ||
  (List.range 8).any fun c => (s.coreUnit (8 * t + c)).any fun u => decide (s.get u F.CORE_MTIMECMP ≤ s.get .irq F.PKG_TIME)

/-- Both ports are in L1 or deeper, or down (R453). -/
def State.portsSleep (s : State) : Bool :=
  ([0, 1] : List (Fin 2)).all fun k => !s.linkUp k || decide (2 ≤ s.get (.pcie k) F.PCIE_STAT_PM)

/-- A demand of R453 on one clock, its children's apart: a mailbox commit towards a unit of it (R285); for a tile an interrupt, a PKG_TIME compare, a
snoop or a request; for the hub a TLP at a port; for a medium die a change in a lane's or an engine's state, or a message to it. -/
def State.ownDemand (s : State) (u : ClockUnit) : Bool :=
  s.wakeDemanded u || match u with
  | .tile p => !s.portRests p.val || (s.logTile p.val).any s.tileCalled
  | .hub => !s.portsSleep || !s.net.isEmpty || !s.reqs.isEmpty
  | .med m => !s.dieRests m || s.net.any fun x => x.dst == 36 + m.val

/-- Every unit that R453 gates below the hub. -/
def dieClocks : List ClockUnit :=
  ((List.range 36).map fun p => ClockUnit.tile ⟨p % 36, Nat.mod_lt _ (by decide)⟩) ++ ([0, 1, 2, 3] : List (Fin 4)).map ClockUnit.med

/-- A restart of a clock is demanded; a gated unit raises its parent's clock first (R453). -/
def State.demands (s : State) (u : ClockUnit) : Bool :=
  s.ownDemand u || (u == .hub && dieClocks.any fun c => s.clocks.contains c && s.ownDemand c)

/-- The domain of a die's clock is on or gated. -/
def State.clockHasPower (s : State) (u : ClockUnit) : Bool :=
  (clockDom u).all fun d => decide (s.get .pwr F.PWR_DOM_STATE d.val < 2)

/-- The gating conditions of R453 that the state shows; `idle` is what only an observer of the unit sees: harts in WFI, no traffic. -/
def State.mayGate (s : State) (u : ClockUnit) (idle : Bool) : Bool :=
  idle && !s.demands u && s.clockHasPower u && (u != .hub || dieClocks.all fun c => !s.clockHasPower c || s.clocks.contains c)

/-- The clock that a domain's die runs on. -/
def domClock (d : Fin 43) : Option ClockUnit :=
  if h : d.val < 36 then some (.tile ⟨d.val, h⟩) else if h : d.val < 40 then some (.med ⟨d.val - 36, by omega⟩) else none

/-! ## Domains and holds (R446–R448, R467) -/

/-- A domain may be turned OFF (R446). -/
def State.mayOff (s : State) (d : Fin 43) : Bool :=
  if d.val < 40 then
    ((domLinks d).all fun n => s.on (.vz n) F.VZ_CTRL_ISOLATE) &&
    (decide (d.val < 36) || (dieActs (d.val - 36)).all fun a => !s.on (.act a) F.YL_CTRL_EN)
  else if h : d.val < 42 then !s.on (.pcie ⟨d.val - 40, by omega⟩) F.PCIE_CTRL_EN
  else ([0, 1, 2, 3] : List (Fin 4)).all fun k => s.on (.stripe k) F.STR_STAT_IDLE

/-- A request for a domain's state that no hold defers (R447). -/
def State.domRun (s : State) (d : Fin 43) (off : Bool) : State :=
  if off && !s.mayOff d then s.put .pwr F.PWR_DOM_RESULT 3 d.val
  else if (s.get .pwr F.PWR_DOM_STATE d.val == 2) == off && s.get .pwr F.PWR_DOM_STATE d.val != 3 then s.put .pwr F.PWR_DOM_RESULT 0 d.val
  else { s.put .pwr F.PWR_DOM_STATE 3 d.val with domTo := tset 0 s.domTo d.val (if off then 3 else 1) }

/-- DOM_REQ: a write of a PWR_DOM entry. A deferred request of the normal world gives way to a new one of that world only (R447, R448,
R467). -/
def execDomReq (d : Fin 43) (off : Bool) (w : World) (s : State) : Res :=
  let s := s.clean.putBit .pwr F.PWR_DOM_DOM_REQ off d.val
  if off && w == .normal && s.get .pwr F.PWR_HOLD / 2 ^ d.val % 2 == 1 then
    let s := (s.put .pwr F.PWR_DOM_PEND 1 d.val).put .pwr F.PWR_DOM_RESULT 4 d.val
    .next ((s.raise .pwr F.PWR_EVT_DEFER).count .pwr F.PWR_CNT_DEFER)
  else .next ((if w == .normal then s.put .pwr F.PWR_DOM_PEND 0 d.val else s).domRun d off)

/-- DOMAIN_CHANGE_DONE (R446, R447). A clock restart that was under way in the domain completes first (R463). -/
def execDomainChangeDone (d : Fin 43) (s : State) : Res :=
  let s := s.clean
  match tget 0 s.domTo d.val with
  | 0 => .next s
  | t =>
    let s := { s with domTo := tset 0 s.domTo d.val 0 }
    let s := match domClock d with
      | some u => if s.clocks.contains u && s.demands u then s.clockUp u else s
      | none => s
    let s := if t = 3 then s.domainOff d else s.domainOn d
    .next (((s.put .pwr F.PWR_DOM_STATE (t - 1) d.val).put .pwr F.PWR_DOM_RESULT 0 d.val).raise .pwr F.PWR_EVT_DOM)

/-- A deferred request of a domain whose hold is gone runs (R448). -/
def State.domPend (s : State) (d : Fin 43) : State :=
  if s.get .pwr F.PWR_DOM_PEND d.val = 1 ∧ s.get .pwr F.PWR_HOLD / 2 ^ d.val % 2 = 0 then
    ((s.put .pwr F.PWR_DOM_PEND 0 d.val).put .pwr F.PWR_DOM_DOM_REQ 1 d.val).domRun d true
  else s

/-- All domains. -/
def allDoms : List (Fin 43) := (List.range 43).map fun k => ⟨k % 43, Nat.mod_lt _ (by decide)⟩

/-- A deferred PWR_CMD runs once no hold is set (R448). -/
def State.pwrPend (s : State) : State :=
  match s.pwrHeld with
  | none => s
  | some op =>
    if s.get .pwr F.PWR_HOLD != 0 || s.on .aon F.AON_MODE_BUSY then s
    else ({ s with pwrHeld := none }.put .aon F.AON_MODE_HELD 0).tryPwr op

/-- PWR_HOLD_WRITE: from the secure world only (R448, R465). -/
def execPwrHoldWrite (mask : BitVec 43) (w : World) (s : State) : Res :=
  let s := s.clean
  match w with
  | .normal => .next (s.denied .pwr)
  | .secure =>
    let s := s.put .pwr F.PWR_HOLD mask.toNat
    let s := allDoms.foldl (fun s d => s.put .pwr F.PWR_DOM_HELD (mask.toNat / 2 ^ d.val % 2) d.val) s
    .next (allDoms.foldl (fun s d => s.domPend d) s).pwrPend

/-! ## Frequency (R450, R468) -/

/-- A frequency field as it acts: 10 to 32. -/
def clampFreq (f : Nat) : Nat := max 10 (min 32 f)

/-- The frequency at which a logical tile is to run (R450). -/
def State.freqWant (s : State) (t : Nat) : Nat := min (clampFreq (s.get .pwr F.TILE_FREQ_FREQ t)) (s.get .pwr F.TILE_FREQ_CAP t)

/-- A change begins when a running tile's frequency differs from what it is to be, and none runs. A rise raises VCORE first; a fall switches
the frequency first (R450, R463). -/
def State.freqStart (s : State) (t : Nat) : State :=
  let cur := s.get .pwr F.TILE_FREQ_CUR t
  let want := s.freqWant t
  if cur = 0 || cur = want || tget 0 s.freqTo t != 0 then s
  else
    let s := { s with freqTo := tset 0 s.freqTo t want }
    if cur < want then s.put .pwr F.TILE_FREQ_VCORE (s.tileVcore t want) t else s.put .pwr F.TILE_FREQ_CUR want t

/-- TILE_FREQ_WRITE (R450, R468). -/
def execTileFreqWrite (t : Fin 32) (freq : Fin 64) (s : State) : Res :=
  .next ((s.clean.put .pwr F.TILE_FREQ_FREQ freq.val t.val).freqStart t.val)

/-- A tile runs at a frequency and its voltage. -/
def State.freqSet (s : State) (t f : Nat) : State := (s.put .pwr F.TILE_FREQ_CUR f t).put .pwr F.TILE_FREQ_VCORE (s.tileVcore t f) t

/-- FREQ_CHANGE_DONE: a target written meanwhile follows (R450, R463). -/
def execFreqChangeDone (t : Fin 32) (s : State) : Res :=
  let s := s.clean
  match tget 0 s.freqTo t.val with
  | 0 => .next s
  | f => .next (({ s with freqTo := tset 0 s.freqTo t.val 0 }.freqSet t.val f).freqStart t.val)

/-! ## Weirs (R454–R456) -/

/-- VIN_CMD in mV. -/
def State.vinMv (s : State) : Nat := vinOf (s.get .pwr F.PWR_VIN_CMD)

/-- Package power in µW for the four quarters' currents in mA (R454). -/
def State.powerOf (s : State) (amps : List Nat) : Nat := (amps.map fun i => s.vinMv * i).foldl (· + ·) 2000000

/-- Sum of the powers of the samples held. -/
def State.powerSum (s : State) : Nat := (s.weir.samples.map Prod.snd).foldl (· + ·) 0

/-- An average power as reported, in W: exact where it is whole. -/
def watts (sum n : Nat) : Nat := if sum % (n * 1000000) = 0 then sum / (n * 1000000) else Config.roundWatts sum n

/-- TAU_S as it acts. -/
def State.tau (s : State) : Nat := max 1 (s.get .pwr F.PWR_TAU_S)

/-- How far an exponential average moves in 10 µs towards a sample that lies `d` away: by d × (1 − e^(−z)) with z = 10 µs / TAU_S, which lies
between d × (z − z² / 2) and d × z; its rounding is a free value (R455). -/
def expMove (d tau r : Nat) : Nat :=
  let n := 100000 * tau
  let lo := d * (2 * n - 1) / (2 * n * n)
  min d (lo + r % (d / n + 2 - lo))

/-- The sustained average, in pW, after a sample (R455). -/
def expAverage (avg x tau : Nat) : Nat :=
  let r := Config.expRound avg x tau
  if avg ≤ x then avg + expMove (x - avg) tau r else avg - expMove (avg - x) tau r

/-- POWER_SAMPLE: the four quarters' currents, in mA (R454, R455, R465). -/
def execPowerSample (amps : Vector Nat 4) (s : State) : Res :=
  let s := s.clean
  let p := s.powerOf amps.toList
  let l := ((amps.toList, p) :: s.weir.samples).take 100
  let s := { s with weir := { s.weir with samples := l, avg := expAverage s.weir.avg (1000000 * p) s.tau } }
  .next ((s.put .pwr F.PWR_STAT_PKG_W (watts s.powerSum l.length)).put .pwr F.PWR_STAT_AVG_W (watts s.weir.avg 1000000))

/-- LIMIT_W as it acts (R466). -/
def State.limitW (s : State) : Nat := max 250 (min 700 (s.get .pwr F.PWR_LIMIT_W))
/-- BURST_W as it acts (R455, R466). -/
def State.burstW (s : State) : Nat := max s.limitW (min 900 (s.get .pwr F.PWR_BURST_W))
/-- QCUR_A as it acts (R466). -/
def State.qcurA (s : State) : Nat := min 100 (s.get .pwr F.PWR_QCUR_A)
/-- FLOOR as it acts (R466). -/
def State.floorF (s : State) : Nat := max 10 (min 32 (s.get .pwr F.PWR_FLOOR))

/-- A weir's measure is above `pct` per cent of its threshold: 0 sustained, 1 burst, 2 quarter `q` (R455). -/
def State.weirOver (s : State) (k q pct : Nat) : Bool :=
  let l := s.weir.samples
  match k with
  | 0 => decide (s.limitW * 1000000000000 * pct < s.weir.avg * 100)
  | 1 => decide (s.burstW * 1000000 * l.length * pct < s.powerSum * 100)
  | _ => decide (s.qcurA * 1000 * l.length * pct < (l.map fun e => e.1.getD q 0).foldl (· + ·) 0 * 100)

/-- A tile's sensor is above `pct` per cent of its trip value less WARN_C (R455). -/
def State.tileHot (s : State) (temps : List Int) (pct : Int) (p : Nat) : Bool :=
  match temps[p]? with
  | some t => decide ((125 - s.warnMargin) * pct < t * 100)
  | none => false

/-- The logical tiles in use, with their physical tiles. -/
def State.tilesUsed (s : State) : List (Nat × Nat) := (List.range 32).filterMap fun t => (s.physTile t).map fun p => (t, p.val)

/-- Weirs passed that act on a tile, as bits. -/
def State.weirsOn (s : State) (temps : List Int) (pct : Nat) (t p : Nat) : Nat :=
  bit (s.weirOver 0 0 pct) + 2 * bit (s.weirOver 1 0 pct) + 4 * bit (s.weirOver 2 (t / 8) pct) + 8 * bit (s.tileHot temps pct p)

/-- WEIR_TEST: caps of the tiles that a passed weir acts on go down to FLOOR; below 97 % of every threshold they go up, at most
once per ms; at FLOOR the stripe engines' source rate is halved, at most three times, from 32 to 4 GB/s (R455, R456). -/
def execWeirTest (temps : List Int) (s : State) : Res :=
  let s := s.clean
  let used := s.tilesUsed
  let hit := used.filter fun e => s.weirsOn temps 100 e.1 e.2 != 0
  let flags := (used.map fun e => s.weirsOn temps 100 e.1 e.2).foldl (fun a b => a ||| b) 0
  let top := (temps.foldl max (-128))
  let s := if temps.isEmpty then s else (s.put .therm F.THM_STAT_TILE_MAX (unsignedOf top 8)).warnAt .tile top
  let s := s.put .pwr F.PWR_STAT_WEIR flags
  let atFloor := used.all fun e => decide (s.get .pwr F.TILE_FREQ_CAP e.1 ≤ s.floorF)
  let lower := fun (s : State) (e : Nat × Nat) =>
    let c := s.get .pwr F.TILE_FREQ_CAP e.1
    if c ≤ s.floorF then s
    else (((s.put .pwr F.TILE_FREQ_CAP (c - 1) e.1).count .pwr F.PWR_CNT_STEP).raise .pwr F.PWR_EVT_WEIR).freqStart e.1
  if !hit.isEmpty then
    let s := hit.foldl lower s
    let s := { s with weir := { s.weir with calm := s.weir.calm - 1 } }
    if atFloor && flags % 4 != 0 then
      .next ({ s with weir := { s.weir with halve := min 3 (s.weir.halve + 1) } }.raise .pwr F.PWR_EVT_OVER)
    else .next s
  else if used.any fun e => s.weirsOn temps 97 e.1 e.2 != 0 then .next { s with weir := { s.weir with calm := s.weir.calm - 1 } }
  else if s.weir.calm != 0 then .next { s with weir := { s.weir with calm := s.weir.calm - 1, halve := 0 } }
  else
    let up := fun (s : State) (e : Nat × Nat) =>
      (s.put .pwr F.TILE_FREQ_CAP (min 32 (s.get .pwr F.TILE_FREQ_CAP e.1 + 1)) e.1).freqStart e.1
    .next (used.foldl up { s with weir := { s.weir with calm := 9, halve := 0 } })

/-! ## Clock gating (R453) -/

/-- CLOCK_GATE_ENTER: the first level, in every mode from Twelve onward (R453). -/
def execClockGateEnter (u : ClockUnit) (idle : Bool) (s : State) : Res :=
  let s := s.clean
  if decide (modeCode s.mode < 4) || s.clocks.contains u || !s.mayGate u idle then .next s
  else .next ({ s with clocks := s.clocks ++ [u] }.clockState u 1)

/-- The STILL_DEEP field of a unit, 0 where it has no second level (R453, R466). -/
def State.deepMs (s : State) : ClockUnit → Nat
  | .tile _ => s.get .pwr F.STILL_DEEP_TILE_MS
  | .hub => s.get .pwr F.STILL_DEEP_HUB_MS
  | .med _ => 0

/-- DEEP_GATE_TIMER: the second level, in Still only; a tile's VCORE goes to 0.60 V (R453). -/
def execDeepGateTimer (u : ClockUnit) (s : State) : Res :=
  let s := s.clean
  if s.mode != .still || !s.clocks.contains u || s.deep.contains u || s.deepMs u = 0 || s.demands u then .next s
  else
    let s := { s with deep := s.deep ++ [u] }
    .next (match u with
      | .tile p => match s.logTile p.val with
        | some t => s.put .pwr F.TILE_FREQ_VCORE 60 t
        | none => s
      | _ => s)

/-- CLOCK_RESTART_DONE: a demanded restart completes. The hub's clock is raised first, then the unit's, and what waits in their culverts
passes (R410, R453). -/
def execClockRestartDone (u : ClockUnit) (s : State) : Res :=
  let s := s.clean
  .next (if s.clocks.contains u && s.demands u then ((s.clockUp .hub).clockUp u).vzDrainAll else s)

/-! ## The clocks (R449, R450) -/

/-- A clock of the package (R449). -/
inductive PkgClock where
  | aon | pkg | fab | med (m : Fin 4) | core (p : Fin 36) | port (k : Fin 2)
  deriving DecidableEq, Repr

/-- The clock step of the wake has been reached (R459). -/
def State.clockStep (s : State) : Bool := decide (3 ≤ modeCode s.mode) || (s.mode == .waking && decide (2 ≤ s.wake.step))

/-- A clock runs (R449, R453). -/
def State.clockRuns (s : State) : PkgClock → Bool
  | .aon => !s.isOff
  | .pkg => s.vrEn != 0
  | .fab => s.clockStep && !s.clocks.contains .hub
  | .med m => s.clockStep && s.clockHasPower (.med m) && !s.clocks.contains (.med m)
  | .core p => s.clockStep && s.clockHasPower (.tile p) && !s.clocks.contains (.tile p)
  | .port k => s.clockStep && decide (s.get .pwr F.PWR_DOM_STATE (40 + k.val) < 2) && s.on (.pcie k) F.PCIE_CTRL_EN

/-- VHUB in mV: 0.75 V while the hub PLL is stopped (R450, R453). -/
def State.vhub (s : State) : Nat := if s.deep.contains .hub then 750 else 900

end Sys2Proof.Machine
end

