-- ==== Sys2Proof/Machine/Clock.lean ====
section
/-! DEFINITION. What PKGCLK and the always-on clock do when no command waits: the package's counts of time (R291, R311, R464,
R320, R490, R528, R529). One idle step stands for one cycle of PKGCLK (DESIGN CHOICE, see the log). -/

namespace Sys2Proof.Machine

open Sys2Proof

/-- PKGCLK cycles of one second (R311: 100 MHz). -/
def ticksPerSecond : Nat := 100000000

/-- fab cycles of one PKGCLK cycle: 2.0 GHz by 100 MHz (R529). -/
def fabPerTick : Nat := 20

/-- A second passes on the always-on clock: AON_SECONDS, and the presence window with its seconds left (R464, R490). -/
def State.second (s : State) : State :=
  let s := s.put .aon F.AON_SECONDS (s.get .aon F.AON_SECONDS + 1)
  let left := s.get .cfg F.CFG_STAT_PRES_S
  if left = 0 then s
  else
    let s := s.put .cfg F.CFG_STAT_PRES_S (left - 1)
    if left = 1 then ({ s with presence := { s.presence with window := false } }).syncPres else s

/-- SEAL_OUT drives the next bit of x^8 + x^6 + x^5 + x^4 + 1 at an edge of aon / 32, 1,024 times a second (R436). -/
def State.sealStep (s : State) : State :=
  let b := fun i => s.sealGen / 2 ^ i % 2
  { s with sealGen := (2 * s.sealGen + (b 1 + b 2 + b 3 + b 7) % 2) % 256 }

/-- The always-on count of PKGCLK cycles. -/
def State.aonTick (s : State) : State :=
  let edge := 1024 * (s.pkgTicks + 1) / ticksPerSecond != 1024 * s.pkgTicks / ticksPerSecond
  let s := if edge then s.sealStep else s
  if s.pkgTicks + 1 < ticksPerSecond then { s with pkgTicks := s.pkgTicks + 1 } else ({ s with pkgTicks := 0 }).second

/-- The hub's logic has power: from Loading on (R442). -/
def State.logicOn (s : State) : Bool := decide (3 ≤ modeCode s.mode)

/-- The hub's counts of one PKGCLK cycle: PKG_TIME, and while fab runs HG_TIME and event 0x01 of the package counters (R291, R311, R449,
R529). -/
def State.hubTick (s : State) : State :=
  let s := s.put .irq F.PKG_TIME (s.get .irq F.PKG_TIME + 1)
  if !s.clockRuns .fab then s
  else (s.put .headgate F.HG_TIME (s.get .headgate F.HG_TIME + fabPerTick)).pmuEvent 0x01 {} fabPerTick

/-- `total` slots by what they held (R528): retired, wasted, front-starved and back-starved. The split is a free value; the four add
up to `total`. -/
def slotSplit (k total : Nat) : List Nat :=
  let ret := min total (Config.slots k 0)
  let waste := min (total - ret) (Config.slots k 1)
  let front := min (total - ret - waste) (Config.slots k 2)
  [ret, waste, front, total - ret - waste - front]

/-- The core cycles of hart `n` in one PKGCLK cycle: its tile's frequency in units of 100 MHz, while it runs and its tile's clock does
(R311, R450, R453). -/
def State.coreCycles (s : State) (n : Nat) : Nat :=
  let h := s.hart n
  if h.run && !h.halted && (s.physTile (n / 8)).any fun p => s.clockRuns (.core p) then s.get .pwr F.TILE_FREQ_CUR (n / 8) else 0

/-- The four top-down counters take a split of slots (R528). -/
def tdAdd (h : Hart) (split : List Nat) : Hart := split.zipIdx.foldl (fun h e => setCsr h (0xCC0 + e.2) (csr h (0xCC0 + e.2) + e.1)) h

/-- A hart's counts of one PKGCLK cycle, 6 slots in each core cycle: mcycle, event 0x01 for the slots that held a uop, and in the normal
world the four top-down counters (R525, R528). -/
def State.hartTick (s : State) (n : Nat) : State :=
  let f := s.coreCycles n
  if f = 0 then s
  else
    let (k, s) := s.draw
    let split := slotSplit k (6 * f)
    let h := s.hart n
    let h := if csr h 0x320 % 2 = 0 then setCsr h 0xB00 (csr h 0xB00 + f) else h
    (s.setHart n (if h.w then h else tdAdd h split)).hpm n 0x01 0 0 (split.getD 0 0 + split.getD 1 0)

/-- The harts' counts of one PKGCLK cycle. -/
def State.hartsTick (s : State) : State := s.harts.foldl (fun s e => s.hartTick e.1) s

/-- What one cycle of PKGCLK does; nothing while the package is off or PWRON_N is low. -/
def State.tick (s : State) : State :=
  let s := s.clean
  if s.isOff then s
  else if s.logicOn then s.iowDone.hubTick.hartsTick.aonTick else s.aonTick

end Sys2Proof.Machine
end

