-- ==== Sys2Proof/Machine/Tiles.lean ====
section
/-! DEFINITION. Tiles and ready flags: the choice of tiles, bring-up, UNIT_READY, CFG_START and the tile operations (R477–R487,
R492, R496, R544). -/

namespace Sys2Proof.Machine

open Sys2Proof

/-! ## The choice of tiles (R480, R482) -/

/-- The tiles of Twelve (R18). -/
def twelveTile (t : Nat) : Bool := decide (t < 32) && decide (t % 8 < 3)

/-- The passing physical tiles of a quarter, in the order in which they serve: those known to train at half width last. -/
def State.tileOrder (s : State) (q : Nat) : List Nat :=
  let pass := ((List.range 9).map fun i => 9 * q + i).filter s.testPass
  pass.filter (fun p => !s.halves.contains p) ++ pass.filter fun p => s.halves.contains p

/-- CFG_PTILE.STATE of a physical tile set. -/
def State.setPtile (s : State) (p v : Nat) : State := s.put .cfg F.CFG_PTILE_STATE v p

/-- A logical tile mapped onto a physical one, or absent. -/
def State.setTmap (s : State) (t : Nat) (p : Option Nat) : State :=
  match p with
  | some p => ((s.put .cfg F.CFG_TMAP_PHYS p t).put .cfg F.CFG_TMAP_VALID 1 t).putBit .cfg F.CFG_TMAP_HALF (s.halves.contains p) t
  | none => ((s.put .cfg F.CFG_TMAP_PHYS 0 t).put .cfg F.CFG_TMAP_VALID 0 t).put .cfg F.CFG_TMAP_HALF 0 t

/-- A tile out of use: its domain OFF, its link at EN 0 with ISOLATE 1 (R480). -/
def State.parkTile (s : State) (p : Fin 36) : State :=
  let n : Fin 45 := ⟨p.val, by omega⟩
  let s := (s.put (.vz n) F.VZ_CTRL_ISOLATE 1).put .pwr F.PWR_DOM_STATE 2 p.val
  (s.vzEnable n false).setVzState n 0

/-- A physical tile by number, wrapped into range. -/
def tileOf (p : Nat) : Fin 36 := ⟨p % 36, Nat.mod_lt _ (by decide)⟩

/-- A tile of the map waits for its power. -/
def State.awaitTile (s : State) (p : Nat) : State :=
  let n : Fin 45 := ⟨p % 36, by omega⟩
  ((s.put .pwr F.PWR_DOM_STATE 2 p).put (.vz n) F.VZ_CTRL_ISOLATE 0).put (.vz n) F.VZ_CTRL_EN 1 |>.setVzState n 0

/-- The map of a quarter (R480): its first eight passing tiles in order serve, the ninth is the spare, the others are failed. -/
def State.mapQuarter (s : State) (q : Nat) : State :=
  let order := s.tileOrder q
  let s := (List.range 9).foldl (fun s i =>
    let p := 9 * q + i
    s.setPtile p (if (order.take 8).contains p then 0 else if order.contains p then 1 else 2)) s
  (List.range 8).foldl (fun s i => (s.setTmap (8 * q + i) order[i]?).put .cfg F.CFG_TMAP_RUN 0 (8 * q + i)) s

/-- Mapped physical tiles of a quarter in the order of their power-up: logical tiles in ascending order, so that the Twelve tiles
come first (R480). -/
def State.powerOrder (s : State) (q : Nat) : List Nat :=
  (List.range 8).filterMap fun i => (s.physTile (8 * q + i)).map Fin.val

/-- Bring-up begins over the map as it stands: mapped tiles wait for power, the others are parked (R480). -/
def State.beginBringUp (s : State) : State :=
  let mapped := (List.range 4).map s.powerOrder
  let s := (List.range 36).foldl (fun s p => if mapped.flatten.contains p then s.awaitTile p else s.parkTile (tileOf p)) s
  { s with powerQ := mapped }

/-- The tiles chosen anew from the self-test results (R480, R487). -/
def State.chooseTiles (s : State) : State :=
  let s := { s with halves := [] }
  ((List.range 4).foldl (fun s q => s.mapQuarter q) s).beginBringUp

/-- TILE_POWER_UP: the next mapped tile of a quarter is powered and its link trains (R480). -/
def execTilePowerUp (q : Fin 4) (s : State) : Res :=
  let s := s.clean
  match s.powerQ.getD q.val [] with
  | [] => .next s
  | p :: ps =>
    let s := { s with powerQ := s.powerQ.set q.val ps }.put .pwr F.PWR_DOM_STATE 0 p
    .next (s.vzFull ⟨p % 36, by omega⟩)

/-! ## Starting harts (R477, R483) -/

/-- The harts of a logical tile start in M with W = 1 at an address, with a0 = mhartid and a1. -/
def State.startHarts (s : State) (t pc a1 : Nat) : State :=
  let s := (List.range 8).foldl (fun s c =>
    let n := 8 * t + c
    let h := s.hart n
    let g := setX (setX { h with run := true, w := true, priv := 3, v := false, pc := pc } 10 n) 11 a1
    s.setHart n g) s
  s.put .cfg F.CFG_TMAP_RUN 1 t

/-- A logical tile reports ready. -/
def State.tileReady (s : State) (t : Nat) : Bool := (s.physTile t).any fun p => s.on (.tile p) F.UNIT_READY_READY

/-- A tile of Twelve starts where the boot address says, when it is ready and its harts have not started. -/
def State.startAtBoot (s : State) (t : Nat) : State :=
  match s.boot with
  | none => s
  | some b => if twelveTile t && s.tileReady t && s.get .cfg F.CFG_TMAP_RUN t == 0 then s.startHarts t b.pc b.a1 else s

/-- The ready tiles of Twelve start (R477). -/
def State.startTwelve (s : State) : State := (List.range 32).foldl (fun s t => s.startAtBoot t) s

/-- CFG_START: refused with 0x02 for a tile that is absent, not ready, running or under TILE_CMD (R483, R492). -/
def execCfgStart (tile : Fin 32) (go : Bool) (w : World) (s : State) : Res :=
  let s := s.clean
  if w == .normal then .next (s.denied .cfg)
  else if !go then .next s
  else if !s.tileReady tile.val || s.get .cfg F.CFG_TMAP_RUN tile.val != 0 || s.underTileCmd tile.val then
    .next (s.put .cfg F.CFG_TILE_STAT_RESULT 0x02)
  else .next ((s.startHarts tile.val (s.get .cfg F.START_PC) 0).put .cfg F.CFG_TILE_STAT_RESULT 0x00)

/-! ## Ready flags (R478, R479, R544) -/

/-- A unit has power, so that it can initialise; a stack's controller reports ready only after it has tested its checker and read the
stack's identification (R364, R379, R446, R459). -/
def State.powered (s : State) (u : UnitId) : Bool :=
  let dom := fun d => decide (s.get .pwr F.PWR_DOM_STATE d < 2)
  let hubUp := match s.mode with
    | .off => false
    | .keep => false
    | .waking => decide (4 ≤ s.wake.step)
    | _ => true
  match u with
  | .aon | .therm => s.mode != .off
  | .mc k => (hubUp || (s.mode == .waking && s.on (.mc k) F.MC_STAT_CHK_OK)) && !s.on (.mc k) F.MC_STAT_CHK_FAIL
  | .tile p | .core p _ => hubUp && dom p.val && (s.vzState ⟨p.val, by omega⟩ == 8) && !(s.powerQ.any fun l => l.contains p.val)
  | .med m => hubUp && dom (36 + m.val)
  | .act a => hubUp && dom (36 + a.val / 24)
  | .pcie k => hubUp && dom (40 + k.val)
  | .stripe _ => hubUp && dom 42
  | .fn _ => false
  | _ => hubUp

/-- A mapped tile's frequency as its clocks start (R450). -/
def State.tileClock (s : State) (p : Fin 36) : State :=
  match s.logTile p.val with
  | some t => if s.get .pwr F.TILE_FREQ_CUR t = 0 then s.freqSet t (s.freqWant t) else s
  | none => s

/-- The link of a physical tile runs at half width in some direction (R401, R480). -/
def State.linkHalf (s : State) (p : Fin 36) : Bool :=
  let n : Fin 45 := ⟨p.val, by omega⟩
  s.get (.vz n) F.VZ_STAT_TXW == 1 || s.get (.vz n) F.VZ_STAT_RXW == 1

/-- Bring-up still chooses: no hart has started. -/
def State.choosing (s : State) : Bool := s.mode == .loading

/-- A tile that trained at half width moves to the end of its quarter's order; the tiles that then serve are powered, and the one
left over is parked (R480). -/
def State.demote (s : State) (p : Fin 36) : State :=
  let q := p.val / 9
  let old := s.powerOrder q
  let s := { s with halves := s.halves ++ [p.val] }.mapQuarter q
  let new := s.powerOrder q
  let s := (new.filter fun x => !old.contains x).foldl (fun s x => { s.awaitTile x with powerQ := s.powerQ.set q (s.powerQ.getD q [] ++ [x]) }) s
  (old.filter fun x => !new.contains x).foldl (fun s x => (s.tileGone (tileOf x)).parkTile (tileOf x)) s

/-- UNIT_READY_RISE: a powered unit has initialised; a tile of Twelve starts its harts once their address is set (R477–R480). A tile that
takes a number over in a tile operation starts with CFG_START (R485). -/
def execUnitReadyRise (u : UnitId) (s : State) : Res :=
  let s := s.clean
  if !s.powered u || s.on u F.UNIT_READY_READY then .next s
  else
    let s := (match testIndex u with
      | some k => s.applyRepairs k
      | none => s).put u F.UNIT_READY_READY 1
    match u with
    | .tile p =>
      let s := s.tileClock p
      let s := if s.choosing && s.linkHalf p && !s.halves.contains p.val then s.demote p else s
      .next (match s.logTile p.val with
        | some t => s.startAtBoot t
        | none => s)
    | _ => .next s

/-! ## Tile operations (R484–R486, R492) -/

/-- The spare of a quarter. -/
def State.spareOf (s : State) (q : Nat) : Option Nat :=
  ((List.range 9).map fun i => 9 * q + i).find? fun p => s.get .cfg F.CFG_PTILE_STATE p == 1

/-- Running tiles of a quarter. -/
def State.runningTiles (s : State) (q : Nat) : List Nat :=
  ((List.range 8).map fun i => 8 * q + i).filter fun t => s.get .cfg F.CFG_TMAP_RUN t == 1 && (s.physTile t).isSome

/-- TILE_CMD completes at once with a result. -/
def State.tileResult (s : State) (r : Nat) : State := s.put .cfg F.CFG_TILE_STAT_RESULT r

/-- Entry to a step of a tile operation, and what the step begins (R485). -/
def State.tileStep (s : State) (o : TileOpS) (k : Nat) : State :=
  let s := { s with tileOp := some o }.put .cfg F.CFG_TILE_STAT_STEP k
  match k with
  | 1 => (List.range 8).foldl (fun s c => s.setHart (8 * o.tile + c) { s.hart (8 * o.tile + c) with run := false }) s
  | 3 => s.rmeOp 1 .secure o.out false false fun s => s.recallAgent o.out
  | 6 => { s.put .pwr F.PWR_DOM_STATE 0 o.inn with powerQ := s.powerQ.map fun (l : List Nat) => l.filter fun p => p != o.inn }.put
      (.vz ⟨o.inn % 36, by omega⟩) F.VZ_CTRL_EN 1 |>.vzFull ⟨o.inn % 36, by omega⟩
  | _ => s

/-- TILE_CMD written from a world: denied, refused with 0x02 or accepted (R484, R485). -/
def State.tileCmd (s : State) (w : World) (op t : Nat) (bad : Bool) : State :=
  if w == .normal then s.denied .cfg
  else if s.tileOp.isSome || bad then s.tileResult 0x02
  else
    let o : TileOpS := ⟨op, t, ((s.physTile t).map Fin.val).getD 0, (s.spareOf (t / 8)).getD 0⟩
    ((s.put .cfg F.TILE_CMD_TILE t).put .cfg F.CFG_TILE_STAT_BUSY 1).tileStep o (if op = 2 then 6 else 1)

/-- A logical tile is absent (R484). -/
def State.absent (s : State) (t : Nat) : Bool := (s.physTile t).isNone

/-- TILE_RETIRE: refused for a tile of Twelve and for the last running tile of a quarter (R484). -/
def execTileRetire (tile : Fin 32) (w : World) (s : State) : Res :=
  let s := s.clean
  let t := tile.val
  .next (s.tileCmd w 1 t (s.absent t || twelveTile t || s.runningTiles (t / 8) == [t]))

/-- TILE_ADD (R484). -/
def execTileAdd (tile : Fin 32) (w : World) (s : State) : Res :=
  let s := s.clean
  .next (s.tileCmd w 2 tile.val (!s.absent tile.val || (s.spareOf (tile.val / 8)).isNone))

/-- TILE_SWAP (R484). -/
def execTileSwap (tile : Fin 32) (w : World) (s : State) : Res :=
  let s := s.clean
  .next (s.tileCmd w 3 tile.val (s.absent tile.val || (s.spareOf (tile.val / 8)).isNone))

/-- TILE_CMD_RESERVED: OP 0 (R496). -/
def execTileCmdReserved (tile : Fin 32) (w : World) (s : State) : Res :=
  let _ := tile
  .next (s.clean.tileCmd w 0 0 true)

/-- The operation ends (R485). -/
def State.tileEnd (s : State) : State :=
  let s := { s with tileOp := none }.put .cfg F.CFG_TILE_STAT_BUSY 0
  (((s.put .cfg F.CFG_TILE_STAT_STEP 0).tileResult 0x00).raise .cfg F.CFG_EVT_TILE).runPwrNext

/-- A step's condition is met (R485): in step 2 every request of the tile is answered, in step 3 the recall has ended, in step 6
the spare's link is Active, in step 7 the new tile reports ready. -/
def State.tileStepOver (s : State) (o : TileOpS) : Nat → Bool
  | 2 => !(s.reqs.any fun r => r.port == o.out)
  | 3 => !s.on .rme F.RME1_BUSY && !(s.homes.any fun e => e.2.p.contains o.out)
  | 6 => s.vzState ⟨o.inn % 36, by omega⟩ == 8
  | 7 => s.on (.tile (tileOf o.inn)) F.UNIT_READY_READY
  | _ => true

/-- What a step does as it ends, and the step after it (R485). -/
def State.tileNext (s : State) (o : TileOpS) : Nat → State
  | 3 => (s.tileStep o 4).put (.vz ⟨o.out % 36, by omega⟩) F.VZ_CTRL_ISOLATE 1
  | 4 => s.tileStep o 5
  | 5 =>
    let d : Fin 43 := ⟨o.out % 36, by omega⟩
    let s := ((s.domainOff d).put .pwr F.PWR_DOM_STATE 2 d.val).setPtile o.out 3
    let s := (s.put .cfg F.CFG_TMAP_VALID 0 o.tile).put .cfg F.CFG_TMAP_RUN 0 o.tile
    let s := (s.put .pwr F.TILE_FREQ_CUR 0 o.tile).put .pwr F.TILE_FREQ_VCORE 0 o.tile
    if o.op = 1 then s.tileEnd else s.tileStep o 6
  | 6 => (s.put (.vz ⟨o.inn % 36, by omega⟩) F.VZ_CTRL_ISOLATE 0).tileStep o 7
  | 7 =>
    let s := { s with halves := if s.linkHalf (tileOf o.inn) then s.halves ++ [o.inn] else s.halves }
    (((s.setPtile o.inn 0).setTmap o.tile (some o.inn)).tileClock (tileOf o.inn)).tileEnd
  | k => s.tileStep o (k + 1)

/-- TILE_OP_STEP_DONE (R485). -/
def execTileOpStepDone (s : State) : Res :=
  let s := s.clean
  match s.tileOp with
  | none => .next s
  | some o =>
    let k := s.get .cfg F.CFG_TILE_STAT_STEP
    .next (if s.tileStepOver o k then s.tileNext o k else s)

end Sys2Proof.Machine
end

