-- ==== Sys2Proof/Machine/Fatal.lean ====
section
/-! DEFINITION. Package-fatal errors and the Recovery that follows them; package counters and trace marks (R520–R523, R527, R529,
R532). -/

namespace Sys2Proof.Machine

open Sys2Proof

/-- PACKAGE_FATAL: a condition of R520 met by a unit that the hub serves; 0x0A is raised by FORCE. -/
def execPackageFatal (cause : Fin 256) (u : UnitId) (addr : BitVec 52) (info : BitVec 64) (s : State) : Res :=
  let s := s.clean
  if 1 ≤ cause.val ∧ cause.val ≤ 9 then .next (s.packageFatal cause.val u addr.toNat info.toNat) else .next s

/-- FORCE: ERR_CTRL.FORCE from the secure world (R522, R524). -/
def execForce (w : World) (s : State) : Res :=
  let s := s.clean
  match w with
  | .normal => .next (s.denied .err)
  | .secure => .next (s.packageFatal 0x0A .err 0 0)

/-- Every source of a package-fatal error is SUSPECT (R501, R521). -/
def State.suspectSources (s : State) : State :=
  let us := (s.fatal.filterMap testIndex).eraseDups
  if us.isEmpty then s
  else { s with st := { s.st with suspect := s.st.suspect ++ us.filter fun u => !s.st.suspect.contains u } }.putPending

/-- An entry to Recovery is remembered by its AON_SECONDS (R522). -/
def State.recovered (s : State) : State := { s with recoveries := s.recoveries ++ [s.get .aon F.AON_SECONDS] }

/-- This would be the third entry to Recovery within 600 s (R522). -/
def State.thirdRecovery (s : State) : Bool :=
  decide (2 ≤ (s.recoveries.filter fun t => decide (s.get .aon F.AON_SECONDS ≤ t + 600)).length)

/-- FATAL_WARM_RESET: steps 2 to 5 of R521. A PWR_CMD transition that it cuts ends (R444); a change of VIN under way goes on (R451). -/
def execFatalWarmReset (s : State) : Res :=
  let s := s.clean
  if s.fatal.isEmpty || s.isOff || s.mode == .keep then .next s
  else
    let s := s.cutTransition
    let first := s.get .err F.FATAL_N - s.fatal.length
    let third := s.thirdRecovery
    let old := s.mode
    let s := ((s.suspectSources).warmReset.setMode .recovery).recovered
    let s := (s.raise .err F.ERR_EVT_RECOVERED).swpAtLoad.1
    let s := { s with stayRecovery := third, boot := if third then none else some ⟨s.get .cfg F.CFG_REC_ENTRY, first⟩ }
    .next (({ s with wake := {} }.beginBringUp).leaveStill old)

/-- PMU_FREEZE: PMU_CTRL.FREEZE written (R529). -/
def execPmuFreeze (freeze : Bool) (s : State) : Res := .next (s.clean.putBit .pmu F.PMU_CTRL_FREEZE freeze)

/-- Every package counter set to 0 (R529). -/
def State.pmuClear (s : State) : State := (List.range 16).foldl (fun s n => s.put .pmu F.PMU_COUNT 0 n) s

/-- PMU_CLEAR: PMU_CTRL.CLEAR written 1 (R529). -/
def execPmuClear (s : State) : Res := .next s.clean.pmuClear

/-- COUNTER_WRITE: a package counter takes the written value and the events of that cycle (R527, R529). -/
def execCounterWrite (n : Fin 16) (v : BitVec 32) (events : Fin 16) (s : State) : Res :=
  let s := s.clean.put .pmu F.PMU_COUNT v.toNat n.val
  .next (if events.val = 0 || s.on .pmu F.PMU_CTRL_FREEZE || !s.on .pmu F.PMU_EN n.val then s else s.pmuAdd 16 n.val events.val)

/-- TRC_MARK: a record of KIND 0x80 with the value as its DETAIL (R532). -/
def execTrcMark (v : BitVec 32) (s : State) : Res := .next (s.clean.traceAs 0x80 5 .trace v.toNat)

end Sys2Proof.Machine
end

