-- ==== Sys2Proof/Machine/Translate.lean ====
section
/-! DEFINITION. A hart's way to memory: PMP, the physical address space, table walks, the TLBs and the core's cache (R292,
R295, R301, R312–R318, R347, R354, R514). -/

namespace Sys2Proof.Machine

open Sys2Proof

/-! ## The core's cache (R336, R337, R354, R355) -/

/-- A line made available to a hart's core: shared, or unique. -/
def State.coreFetch (s : State) (n line : Nat) (op : CoreOp) : State :=
  match s.physTile (n / 8) with
  | none => s
  | some p =>
    let s := (s.settle line (settleFuel + s.net.length)).tileRequest p.val (n % 8) line op
    s.settle line (settleFuel + s.net.length)

/-- The copy of a line in a hart's core. -/
def State.myCopy (s : State) (n line : Nat) : Option Copy := (s.physTile (n / 8)).bind fun p => s.coreCopy p.val (n % 8) line

/-- The copy of a line in a hart's core replaced. -/
def State.setMyCopy (s : State) (n line : Nat) (c : Copy) : State :=
  match s.physTile (n / 8) with
  | some p => s.setCoreCopy p.val (n % 8) line (some c)
  | none => s

/-- What a core's access goes through: its L1I, its L1D, or for a walk its L2 alone (R313, R332). -/
inductive L1Use where
  | inst | data | walk
  deriving DecidableEq, Repr

/-- A line lies in the L1 that an access goes through. -/
def State.inL1 (s : State) (n line : Nat) (use : L1Use) : Bool :=
  match s.physTile (n / 8), use with
  | some p, .inst => (s.l1Of p.val (n % 8) line).i
  | some p, .data => (s.l1Of p.val (n % 8) line).d
  | _, _ => false

/-- Where a hart's access would meet a line now (R519 LEVEL): 1 its L1, 2 its L2, 3 its or another tile's L3, 4 the LLC, 5 DRAM. -/
def State.levelOf (s : State) (n line : Nat) (use : L1Use) : Nat :=
  let tile := ((s.physTile (n / 8)).map Fin.val).getD 0
  if (s.myCopy n line).isSome then (if use == .data && s.inL1 n line use then 1 else 2)
  else if (s.copyOf tile line).isSome || (s.hline line).d == .u then 3
  else if (s.hline line).llc.isSome then 4 else 5

/-- A core's copy struck by an error that its next access meets (R354). -/
def State.coreParity (s : State) (n line : Nat) (par : Parity) : State :=
  match s.physTile (n / 8) with
  | some p => (s.coreStrike p.val (n % 8) line par).coreMeet p.val (n % 8) line
  | none => s

/-- The counter events of an access that meets its line at a level, for an access kind (R525). -/
def State.fetchEvents (s : State) (n line cls level : Nat) (use : L1Use) : State :=
  if s.inL1 n line use then s
  else
    let tile := ((s.physTile (n / 8)).map Fin.val).getD 0
    let pa := 64 * line
    let s := if use == .data then s.hpm n 0x02 cls pa else s
    if level ≤ 2 then s
    else
      let s := s.hpm n 0x03 cls pa
      if (s.copyOf tile line).isSome then s
      else
        let s := s.hpm n 0x04 cls pa
        s.hpm n (if level = 3 then 0x05 else if level = 4 then 0x06 else 0x07) cls pa

/-- A line brought to a hart's core for an access, shared or unique, and into the L1 that the access goes through, with its events. -/
def State.bring (s : State) (n line cls : Nat) (use : L1Use) (unique : Bool) : State :=
  let s := s.fetchEvents n line cls (s.levelOf n line use) use
  let s := match s.myCopy n line with
    | none => s.coreFetch n line (if unique then .getU else .getS)
    | some c => if unique && c.st == CopySt.s then s.coreFetch n line .upg else s
  match s.physTile (n / 8), use with
  | some p, .inst => s.l1Fill p.val (n % 8) line true
  | some p, .data => s.l1Fill p.val (n % 8) line false
  | _, _ => s

/-- The bytes of a range of DRAM as a hart's core reads them, and the first poisoned byte's line. -/
def State.coreBytes (s : State) (n cls : Nat) (use : L1Use) (a len : Nat) (par : Parity) : State × List Byte × Option Nat :=
  let one := fun (acc : State × List Byte × Option Nat) (l : Nat) =>
    let s := (acc.1.coreParity n l par).bring n l cls use false
    let d := ((s.myCopy n l).map Copy.d).getD { bytes := List.replicate 64 0, pmask := allBytes }
    (s, acc.2.1 ++ d.bytes, if acc.2.2.isSome || d.pmask == 0 then acc.2.2 else some l)
  let (s, bs, p) := (linesOf a len).foldl one (s, [], none)
  (s, (bs.drop (a % 64)).take len, p)

/-- Bytes of a line stored in a hart's core: the copy becomes UD; the line stays poisoned until each of its bytes has been
stored (R336, R353, R514). A copy in its L1I goes. -/
def State.coreStore (s : State) (n line lo : Nat) (bs : List Byte) : State :=
  match s.myCopy n line with
  | none => s
  | some c =>
    let h := s.hart n
    let mask := 2 ^ (lo + bs.length) - 2 ^ lo
    let d : LineData := { bytes := c.d.bytes.take lo ++ bs ++ c.d.bytes.drop (lo + bs.length),
                          pmask := c.d.pmask &&& (allBytes - mask), own := ownOver (storeOwn h n) c }
    let s := s.setMyCopy n line ⟨.ud, d⟩
    match s.physTile (n / 8) with
    | some p => s.setL1 p.val (n % 8) line { s.l1Of p.val (n % 8) line with i := false }
    | none => s

/-- Bytes of a range of DRAM stored by a hart, line by line. -/
def State.coreWrite (s : State) (n cls a : Nat) (bs : List Byte) : State :=
  let len := bs.length
  let one := fun (s : State) (l : Nat) =>
    let s := (s.coreParity n l .none).bring n l cls .data true
    let lo := max a (64 * l)
    let hi := min (a + len) (64 * l + 64)
    s.coreStore n l (lo - 64 * l) ((bs.drop (lo - a)).take (hi - lo))
  (linesOf a len).foldl one s

/-! ## Faults of an access (R315) -/

/-- A fault that a walk or an access meets: STAGE, LEVEL, KIND and TPN; page (0), guest-page (1) or access fault (2); the
guest-physical address; whether the access that faulted was a PTE read (1) or an A or D write (2); and whether the walk stopped
only because a PTE had changed since it was read, and starts again from its root (R313). -/
structure Flt where
  stage : Nat
  level : Nat
  kind : Nat
  tpn : Nat := 0
  exc : Nat := 0
  gpa : Nat := 0
  impl : Nat := 0
  again : Bool := false
  deriving DecidableEq, Repr

/-- jfault of a fault (R315). -/
def jfaultOf (f : Flt) : Nat := placed f.stage 0 3 + placed f.level 3 3 + placed f.kind 6 4 + placed f.tpn 12 44 + 2 ^ 63

/-- The exception code of a fault for an access kind: page, guest-page or access fault. -/
def faultCode (k : AccKind) (exc : Nat) : Nat :=
  match k, exc with
  | .fetch, 0 => 12
  | .fetch, 1 => 20
  | .fetch, _ => 1
  | .store, 0 => 15
  | .store, 1 => 23
  | .store, _ => 7
  | _, 0 => 13
  | _, 1 => 21
  | _, _ => 5

/-! ## PMP (R292; the entries' own layout is the privileged specification's) -/

/-- Entry `i` of PMP covers byte `a`, at the granularity of 4 KiB. -/
def pmpCovers (h : Hart) (i a : Nat) : Bool :=
  let cfg := csr h (0x3A0 + i / 8 * 2) / 2 ^ (8 * (i % 8)) % 256
  let addr := csr h (0x3B0 + i) % 2 ^ 54
  let mode := cfg / 8 % 4
  if mode = 1 then
    let lo := if i = 0 then 0 else csr h (0x3B0 + i - 1) % 2 ^ 54 / 1024 * 4096
    decide (lo ≤ a ∧ a < addr / 1024 * 4096)
  else if mode = 3 then
    let v := addr ||| 511
    let ones := ((List.range 54).find? fun j => v / 2 ^ j % 2 == 0).getD 54
    let size := 2 ^ (ones + 3)
    decide (a / size = 4 * addr / size)
  else false

/-- A byte may be accessed at a level under PMP: the lowest entry that covers it decides; M passes an unlocked entry and no
entry. -/
def pmpByte (h : Hart) (priv : Nat) (k : AccKind) (a : Nat) : Bool :=
  match (List.range 16).find? fun i => pmpCovers h i a with
  | none => priv == 3
  | some i =>
    let cfg := csr h (0x3A0 + i / 8 * 2) / 2 ^ (8 * (i % 8)) % 256
    let bitNo := match k with
      | .fetch => 2
      | .store => 1
      | _ => 0
    (priv == 3 && cfg / 128 % 2 == 0) || cfg / 2 ^ bitNo % 2 == 1

/-- A range that lies in one page may be accessed under PMP, whose granularity is a page. -/
def pmpOk (h : Hart) (priv : Nat) (k : AccKind) (a : Nat) : Bool := pmpByte h priv k a

/-! ## The physical address space (R295, R301, R368) -/

/-- The regions of R295. -/
inductive Region where
  | dram | mram | unit | vacant
  deriving DecidableEq, Repr

/-- The region of a physical address. -/
def regionOf (a : Nat) : Region :=
  if a < dramSize then .dram
  else if mramBase ≤ a ∧ a < mramBase + mramSize then .mram
  else if 0x00F000000000 ≤ a ∧ a ≤ 0x0120FFFFFFFF then .unit
  else .vacant

/-- What an access asks of its region: bytes, whether it is an AMO, LR or SC, whether it is a vector access, and whether it
crosses a page. -/
structure PhysUse where
  kind : AccKind
  size : Nat
  amo : Bool := false
  vec : Bool := false
  crosses : Bool := false
  deriving DecidableEq, Repr

/-- The attribute or world refusal of a physical access by a hart, if any (R292, R293, R295, R301, R368); 8 attribute, 7
world, 12 PMP. A part of an access that crosses a page is of a misaligned access. -/
def State.physRefusal (s : State) (n priv : Nat) (w : Bool) (u : PhysUse) (a : Nat) : Option Nat :=
  let h := s.hart n
  let aligned := !u.crosses && a % u.size == 0 && (u.size == 1 || u.size == 2 || u.size == 4 || u.size == 8)
  match regionOf a with
  | .vacant => some 8
  | .dram =>
    if s.memTop * 2 ^ 29 ≤ a then some 8
    else if !w && s.securePage (a / 4096) then some 7
    else if pmpOk h priv u.kind a then none else some 12
  | .mram =>
    if u.kind == .fetch || u.amo || u.vec || !aligned then some 8
    else if !w && s.securePage (a / 4096) then some 7
    else if pmpOk h priv u.kind a then none else some 12
  | .unit =>
    if u.kind == .fetch || u.amo || u.vec || !aligned then some 8
    else if pmpOk h priv u.kind a then none else some 12

/-! ## Walks (R312–R314) -/

/-- Levels of a translation mode (R312). -/
def modeLevels (m : Nat) : Nat := if m = 8 then 3 else if m = 9 then 4 else if m = 10 then 5 else 0

/-- A PTE read through the hart's L2, or the kind of fault and the table page with which the walk stops before or at it
(R313, R314). -/
def State.pteRead (s : State) (n : Nat) (w : Bool) (pa : Nat) : State × (Nat ⊕ (Nat × Nat)) :=
  let page := pa / 4096
  if dramSize ≤ pa then (s, .inr (6, page))
  else if s.memTop * 2 ^ 29 ≤ pa then (s.denied .hub, .inr (8, 0))
  else if !w && s.securePage page then (s, .inr (7, page))
  else if !pmpOk (s.hart n) 1 .load pa then (s, .inr (12, 0))
  else
    let (s, bs, p) := s.coreBytes n 11 .walk pa 8 .none
    if p.isSome then (s, .inr (9, page)) else (s, .inl (leNat bs))

/-- The A or D update of a PTE: a far compare-and-swap at its home, and whether the PTE had not changed since it was read (R313,
R319, R347). -/
def State.pteMark (s : State) (n : Nat) (w : Bool) (pa pte : Nat) (d : Bool) : State × Bool :=
  let tile := ((s.physTile (n / 8)).map Fin.val).getD 0
  let cas : HReq := { op := .amo, port := tile, txn := 0, w := w, own := storeOwn (s.hart n) n, aop := if d then .pteAD else .pteA,
                      off := pa % 64, wide := true, operand := pte, hart := n }
  let (s, old, _) := s.atHome (pa / 64) cas
  (s, old.all fun x => leNat ((x.bytes.drop (pa % 64)).take 8) == pte)

/-- What a PTE is, before permissions: a fault kind, a pointer to the next table, or a leaf. -/
inductive PteForm where
  | bad (kind : Nat) | next (table : Nat) | leaf
  deriving DecidableEq, Repr

/-- A PTE's form at a level (R313, R315). -/
def pteForm (pte level : Nat) : PteForm :=
  let b := fun (i : Nat) => pte / 2 ^ i % 2 == 1
  if !b 0 then .bad 1
  else if pte / 2 ^ 54 != 0 || (b 2 && !b 1) then .bad 2
  else if !b 1 && !b 3 then
    if b 4 || b 6 || b 7 then .bad 2
    else if level = 0 then .bad 10
    else if bitsOf pte 50 4 != 0 then .bad 8
    else .next (bitsOf pte 10 44 * 4096)
  else .leaf

/-- A leaf found: the physical address, the leaf's level and its permission bits. -/
structure Leaf where
  pa : Nat
  level : Nat
  perm : Nat
  deriving DecidableEq, Repr

/-- The address that a leaf of a level gives, or none when its superpage is misaligned. -/
def leafAddr (pte level va : Nat) : Option Nat :=
  let ppn := bitsOf pte 10 44
  if ppn % 2 ^ (9 * level) != 0 then none else some (ppn * 4096 + va % 2 ^ (12 + 9 * level))

/-- The G-stage walk of a guest-physical address from level `i - 1` down (R312–R315). `stage` is 3 for the final address and
4 for a VS-stage table. -/
def State.gLoop (s : State) (n : Nat) (k : AccKind) (mxr : Bool) (gpa stage impl top : Nat) : Nat → Nat → State × (Leaf ⊕ Flt)
  | 0, _ => (s, .inr { stage := stage, level := 0, kind := 10, exc := 1, gpa := gpa, impl := impl })
  | i + 1, table =>
    let flt := fun (kind tpn exc : Nat) => Flt.mk stage i kind tpn exc gpa impl false
    let idx := if i = top then gpa / 2 ^ (12 + 9 * i) % 2048 else gpa / 2 ^ (12 + 9 * i) % 512
    let pa := table + 8 * idx
    match s.pteRead n false pa with
    | (s, .inr (kind, tpn)) => (s, .inr (flt kind tpn 2))
    | (s, .inl pte) =>
      match pteForm pte i with
      | .bad kind => (s, .inr (flt kind 0 (if kind = 8 then 2 else 1)))
      | .next t => s.gLoop n k mxr gpa stage impl top i t
      | .leaf =>
        let b := fun (j : Nat) => pte / 2 ^ j % 2 == 1
        let ok := match k with
          | .fetch => b 3
          | .hlvx => b 3
          | .load => b 1 || (mxr && b 3)
          | .store => b 2
        if !b 4 || !ok then (s, .inr (flt 4 0 1))
        else
          match leafAddr pte i gpa with
          | none => (s, .inr (flt 3 0 1))
          | some a =>
            if bitsOf pte 50 4 != 0 then (s, .inr (flt 8 0 2))
            else
              let d := k == .store
              if !b 6 || (d && !b 7) then
                if !pmpOk (s.hart n) 1 .store pa then (s, .inr (flt 12 0 2))
                else
                  match s.pteMark n false pa pte d with
                  | (s, true) => (s, .inl ⟨a, i, pte % 256⟩)
                  | (s, false) => (s, .inr { flt 0 0 0 with again := true })
              else (s, .inl ⟨a, i, pte % 256⟩)

/-- The permission bits of a stage that is Bare: every access, and bit 8, which no PTE's low byte has. -/
def noStage : Nat := 0x1DF

/-- A guest-physical address translated (R312): Bare, or a walk of hgatp's mode. -/
def State.gTrans (s : State) (n : Nat) (k : AccKind) (gpa stage impl : Nat) : State × (Leaf ⊕ Flt) :=
  let h := s.hart n
  let g := csr h 0x680
  let l := modeLevels (g / 2 ^ 60)
  if l = 0 then (s, .inl ⟨gpa, 0, noStage⟩)
  else if 2 ^ (12 + 9 * l + 2) ≤ gpa then
    (s, .inr { stage := stage, level := l - 1, kind := 5, exc := 1, gpa := gpa, impl := impl })
  else
    let mxr := bitsOf (csr h 0x100) 19 1 == 1
    s.gLoop n k mxr gpa stage impl (l - 1) l (g % 2 ^ 44 * 4096)

/-- The context in which an address is translated: the hart, the world of its requests, level, V, SUM, MXR, and the root
register. -/
structure WalkCx where
  n : Nat
  w : Bool
  priv : Nat
  v : Bool
  sum : Bool
  mxr : Bool
  root : Nat
  deriving DecidableEq, Repr

/-- Permission of a stage-1 leaf (KIND 4 where it is refused). -/
def leafAllows (c : WalkCx) (k : AccKind) (perm : Nat) : Bool :=
  let b := fun (j : Nat) => perm / 2 ^ j % 2 == 1
  let user := if c.priv = 0 then b 4 else !b 4 || (c.sum && k != .fetch)
  user && match k with
    | .fetch => b 3
    | .hlvx => b 3
    | .load => b 1 || (c.mxr && b 3)
    | .store => b 2

/-- The walk of a virtual address from level `i - 1` down: single stage, or the VS stage with each table address through the
G stage (R312–R315). -/
def State.sLoop (s : State) (c : WalkCx) (k : AccKind) (va : Nat) : Nat → Nat → State × (Leaf ⊕ Flt)
  | 0, _ => (s, .inr { stage := 1, level := 0, kind := 10 })
  | i + 1, table =>
    let stage := if c.v then 2 else 1
    let flt := fun (kind tpn exc : Nat) => Flt.mk stage i kind tpn exc 0 0 false
    let ga := table + 8 * (va / 2 ^ (12 + 9 * i) % 512)
    let (s, pa) := if c.v then s.gTrans c.n .load ga 4 1 else (s, .inl ⟨ga, 0, 0⟩)
    match pa with
    | .inr f => (s, .inr f)
    | .inl x =>
      match s.pteRead c.n c.w x.pa with
      | (s, .inr (kind, tpn)) => (s, .inr (flt kind tpn 2))
      | (s, .inl pte) =>
        match pteForm pte i with
        | .bad kind => (s, .inr (flt kind 0 (if kind = 8 then 2 else 0)))
        | .next t => s.sLoop c k va i t
        | .leaf =>
          let b := fun (j : Nat) => pte / 2 ^ j % 2 == 1
          if !leafAllows c k pte then (s, .inr (flt 4 0 0))
          else
            match leafAddr pte i va with
            | none => (s, .inr (flt 3 0 0))
            | some a =>
              if bitsOf pte 50 4 != 0 then (s, .inr (flt 8 0 2))
              else
                let d := k == .store
                if !b 6 || (d && !b 7) then
                  let (s, wr) := if c.v then s.gTrans c.n .store ga 4 2 else (s, .inl x)
                  match wr with
                  | .inr f => (s, .inr f)
                  | .inl y =>
                    if !pmpOk (s.hart c.n) 1 .store y.pa then (s, .inr (flt 12 0 2))
                    else
                      match s.pteMark c.n c.w y.pa pte d with
                      | (s, true) => (s, .inl ⟨a, i, pte % 256⟩)
                      | (s, false) => (s, .inr { flt 0 0 0 with again := true })
                else (s, .inl ⟨a, i, pte % 256⟩)

/-- What a translation gives: the physical address, and the last stage and leaf level (R315). -/
structure Trans where
  pa : Nat
  stage : Nat
  level : Nat
  deriving DecidableEq, Repr

/-- An address is canonical for a mode of `l` levels. -/
def canonical (l va : Nat) : Bool :=
  let top := va / 2 ^ (12 + 9 * l - 1)
  top == 0 || top == 2 ^ (64 - (12 + 9 * l - 1)) - 1

/-- One walk from the root: the stage-1 leaf and the final one, where no stage is Bare (R312–R315). -/
def State.walkOnce (s : State) (c : WalkCx) (k : AccKind) (va : Nat) : State × ((Leaf × Leaf) ⊕ Flt) :=
  let l := modeLevels (c.root / 2 ^ 60)
  let (s, first) :=
    if l = 0 then (s, .inl ⟨va, 0, noStage⟩)
    else if !canonical l va then (s, .inr { stage := if c.v then 2 else 1, level := l - 1, kind := 5 })
    else s.sLoop c k va l (c.root % 2 ^ 44 * 4096)
  match first with
  | .inr f => (s, .inr f)
  | .inl a =>
    if !c.v then (s, .inl (a, a))
    else
      match s.gTrans c.n k a.pa 3 0 with
      | (s, .inr f) => (s, .inr f)
      | (s, .inl b) => (s, .inl (a, b))

/-- A walk, begun again from its root while a PTE has changed since it was read (R313, R319). Each new beginning finds one more
line with no open work. -/
def State.walkAgain (s : State) (c : WalkCx) (k : AccKind) (va : Nat) : Nat → State × ((Leaf × Leaf) ⊕ Flt)
  | 0 => s.walkOnce c k va
  | n + 1 =>
    match s.walkOnce c k va with
    | (s, .inr f) => if f.again then s.walkAgain c k va n else (s, .inr f)
    | r => r

/-- A translation that no TLB entry serves: the stages of the context, and the TLB entry that it fills (R312–R317). -/
def State.walk (s : State) (c : WalkCx) (k : AccKind) (va : Nat) : State × (Trans ⊕ Flt) :=
  let h := s.hart c.n
  let l := modeLevels (c.root / 2 ^ 60)
  let gl := if c.v then modeLevels (csr h 0x680 / 2 ^ 60) else 0
  if l = 0 && gl = 0 then (s, .inl ⟨va, 0, 0⟩)
  else
    let cls := 11
    let s := s.hpm c.n 0x09 cls (c.root % 2 ^ 44 * 4096)
    let s := if k == .fetch then s else s.hpm c.n 0x08 (if k == .store then 9 else 8) (c.root % 2 ^ 44 * 4096)
    match s.walkAgain c k va (s.homes.length + 1) with
    | (s, .inr f) => (s, .inr f)
    | (s, .inl (a, b)) =>
        let stage := if gl != 0 then 3 else if c.v then 2 else 1
        let level := if gl != 0 then b.level else a.level
        let used := fun (bare : Bool) (perm : Nat) => if bare then noStage else perm ||| 0x40 ||| (if k == .store then 0x80 else 0)
        let e : TlbEnt := { w := c.w, v := c.v, asid := bitsOf c.root 44 16, vmid := if c.v then bitsOf (csr h 0x680) 44 14 else 0,
                            global := a.perm / 32 % 2 == 1, guest := c.v, vpn := va / 4096, gpn := a.pa / 4096, ppn := b.pa / 4096,
                            perm := used (l == 0) a.perm, gperm := used (gl == 0) b.perm, stage := stage, level := level,
                            modes := 8 * l + gl }
        let h := s.hart c.n
        (s.setHart c.n { h with tlb := e :: h.tlb.filter fun x => x != e }, .inl ⟨b.pa, stage, level⟩)

/-- The levels of a context's stage 1 and of its G-stage, 0 for Bare: 8 times the first and the second. -/
def cxModes (h : Hart) (c : WalkCx) : Nat :=
  8 * modeLevels (c.root / 2 ^ 60) + if c.v then modeLevels (csr h 0x680 / 2 ^ 60) else 0

/-- A TLB entry that serves an access: a stage translates, the entry was filled under the modes that stand (R312, R319), its tags
match, and its permission bits, A and D allow the access as they stand. -/
def tlbServes (h : Hart) (c : WalkCx) (k : AccKind) (va : Nat) (e : TlbEnt) : Bool :=
  e.modes != 0 && e.modes == cxModes h c && e.w == c.w && e.v == c.v && e.vpn == va / 4096 && (e.global || e.asid == bitsOf c.root 44 16) &&
  (!c.v || e.vmid == bitsOf (csr h 0x680) 44 14) && e.perm / 64 % 2 == 1 && (k != .store || (e.perm / 128 % 2 == 1 && e.gperm / 128 % 2 == 1)) &&
  (e.perm == noStage || leafAllows c k e.perm) &&
  (match k with
    | .fetch | .hlvx => e.gperm / 8 % 2 == 1
    | .load => e.gperm / 2 % 2 == 1
    | .store => e.gperm / 4 % 2 == 1)

/-- The context of a hart's access: its own, MPRV's, or a guest's (HLV, HLVX, HSV). -/
def cxOf (h : Hart) (n : Nat) (fetch guest : Bool) : WalkCx :=
  let mst := csr h 0x300
  if guest then
    let st := csr h 0x200
    ⟨n, h.w, bitsOf (csr h 0x600) 8 1, true, bitsOf st 18 1 == 1, bitsOf st 19 1 == 1 || bitsOf (csr h 0x100) 19 1 == 1, csr h 0x280⟩
  else
    let mprv := !fetch && h.priv = 3 && bitsOf mst 17 1 = 1
    let priv := if mprv then bitsOf mst 11 2 else h.priv
    let v := if mprv then priv != 3 && bitsOf mst 39 1 == 1 else h.v
    if priv = 3 then ⟨n, h.w, 3, false, false, false, 0⟩
    else if v then
      let st := csr h 0x200
      ⟨n, h.w, priv, true, bitsOf st 18 1 == 1, bitsOf st 19 1 == 1 || bitsOf (csr h 0x100) 19 1 == 1, csr h 0x280⟩
    else
      let b := bankNow h
      let st := csr h (b + 0x100)
      ⟨n, h.w, priv, false, bitsOf st 18 1 == 1, bitsOf st 19 1 == 1, csr h (b + 0x180)⟩

/-- A virtual address translated and its physical access checked (R295, R301, R313–R315): from a TLB, or by a walk. -/
def State.translate (s : State) (c : WalkCx) (u : PhysUse) (va : Nat) (mustWalk : Bool) : State × (Trans ⊕ Flt) :=
  let h := s.hart c.n
  let hit := if mustWalk then none else h.tlb.find? (tlbServes h c u.kind va)
  let (s, t) : State × (Trans ⊕ Flt) := match hit with
    | some e => (s, .inl ⟨e.ppn * 4096 + va % 4096, e.stage, e.level⟩)
    | none => s.walk c u.kind va
  match t with
  | .inr f => (s, .inr f)
  | .inl t =>
    match s.physRefusal c.n c.priv c.w u t.pa with
    | some kind =>
      let s := if kind = 8 && regionOf t.pa == Region.dram then s.denied .hub else s
      (s, .inr { stage := t.stage, level := t.level, kind := kind, exc := 2 })
    | none => (s, .inl t)

/-- The load or store that a 16-bit instruction stands for, without its address: opcode, funct3, rd, rs2; none for another
instruction (R292; the encodings are the standard's own). -/
def shortAccess (i : Nat) : Option (Nat × Nat × Nat × Nat) :=
  let lo := 8 + bitsOf i 2 3
  match i % 4, bitsOf i 13 3 with
  | 0, 1 => some (0x07, 3, lo, 0) | 0, 2 => some (0x03, 2, lo, 0) | 0, 3 => some (0x03, 3, lo, 0)
  | 0, 5 => some (0x27, 3, 0, lo) | 0, 6 => some (0x23, 2, 0, lo) | 0, 7 => some (0x23, 3, 0, lo)
  | 2, 1 => some (0x07, 3, bitsOf i 7 5, 0) | 2, 2 => some (0x03, 2, bitsOf i 7 5, 0) | 2, 3 => some (0x03, 3, bitsOf i 7 5, 0)
  | 2, 5 => some (0x27, 3, 0, bitsOf i 2 5) | 2, 6 => some (0x23, 2, 0, bitsOf i 2 5) | 2, 7 => some (0x23, 3, 0, bitsOf i 2 5)
  | _, _ => none

/-- The transformed instruction of an explicit load or store (R316; the form is the privileged specification's): its address is
replaced by the distance of the fault from the access's first byte, its immediate is zero, and bit 1 is 0 for a 16-bit one. A vector
access has none. -/
def transformed (a : At) (off : Nat) : Nat :=
  let i := a.inst
  let at_ := placed off 15 5
  if a.short then
    match shortAccess i with
    | some (op, f3, rd, rs2) => op - 2 + placed rd 7 5 + placed f3 12 3 + at_ + placed rs2 20 5
    | none => 0
  else
    let op := i % 128
    let fp := bitsOf i 12 3 == 2 || bitsOf i 12 3 == 3
    if op = 0x03 ∨ (op = 0x07 ∧ fp) then i % 2 ^ 15 + at_
    else if op = 0x23 ∨ (op = 0x27 ∧ fp) then op + placed (bitsOf i 12 3) 12 3 + at_ + placed (bitsOf i 20 5) 20 5
    else if op = 0x2F ∨ (op = 0x73 ∧ bitsOf i 12 3 = 4) then i % 2 ^ 15 + at_ + placed (bitsOf i 20 12) 20 12
    else 0

/-- What htinst and mtinst report (R316): an implicit access of a guest-page fault, or the transformed instruction. -/
def tinstOf (guest : Bool) (impl plain : Nat) : Nat :=
  if guest && impl == 1 then 0x3000 else if guest && impl == 2 then 0x3020 else plain

/-- The trap of a fault met at `va` by an instruction whose access begins at `base` (R315, R316). -/
def faultTrap (k : AccKind) (f : Flt) (a : At) (va base : Nat) (gva : Bool) : TrapInfo :=
  let guest := f.exc == 1
  { code := faultCode k f.exc, epc := a.pc, tval := va, tval2 := if guest then f.gpa / 4 else 0,
    tinst := tinstOf guest f.impl (if k == .fetch then 0 else transformed a ((va + 2 ^ 64 - base) % 2 ^ 64)), gva := gva, jf := jfaultOf f }

/-- The segments of an access that lies in one page or in two: address, offset into the value, bytes. -/
def segments (va size : Nat) : List (Nat × Nat × Nat) :=
  let first := 4096 - va % 4096
  if size ≤ first then [(va, 0, size)] else [(va, 0, first), ((va + first) % 2 ^ 64, first, size - first)]

end Sys2Proof.Machine
end

