-- ==== Sys2Proof/Machine/HartCmd.lean ====
section
/-! DEFINITION. The instructions of a hart that reach no unit: gates, returns, traps, fences and the writes of Xjuh registers
with rows of their own (R296–R307, R316, R317, R325, R327, R516–R518). -/

namespace Sys2Proof.Machine

open Sys2Proof

/-! ## Gates (R303–R307) -/

/-- The word of GATEMARK with a tag (R303). -/
def gatemarkWord (tag : Nat) : Nat := tag * 2 ^ 20 + 0x100B

/-- A gate fault: exception 24, with jfault KIND 11, counted in REFUSED (R304). -/
def State.gateFault (s : State) (a : At) : State :=
  let h := s.hart a.hart.val
  let g := csr h 0x7C1
  let s := s.setHart a.hart.val (setBits h 0x7C1 32 32 (min (g / 2 ^ 32 + 1) (2 ^ 32 - 1)))
  s.raiseExc a { code := 24, epc := a.pc, jf := 11 * 64 + 2 ^ 63 }

/-- jgatecfg allows the caller's level to call (R325). -/
def gateAllowed (h : Hart) : Bool :=
  let g := csr h 0x7C1
  let b := if h.v then (if h.priv = 1 then 2 else 3) else if h.priv = 1 then 1 else 0
  g / 16 % 2 == 1 && g / 2 ^ b % 2 == 1

/-- The word at an address as secure S would fetch it, none where the fetch faults or meets poison (R304). -/
def State.secureFetch (s : State) (n va : Nat) : State × Option Nat :=
  let h := s.hart n
  let st := csr h (4096 + 0x100)
  let c : WalkCx := ⟨n, true, 1, false, bitsOf st 18 1 == 1, bitsOf st 19 1 == 1, csr h (4096 + 0x180)⟩
  let back := fun (t : State) => t.setHart n { t.hart n with w := h.w }
  match (s.setHart n { h with w := true }).translate c ⟨.fetch, 4, false, false, false⟩ va false with
  | (s, .inr _) => (back s, none)
  | (s, .inl t) =>
    let (s, bs, p) := s.coreBytes n 11 .inst t.pa 4 .none
    (back s, if p.isSome then none else some (leNat bs))

/-- A call accepted: jsprev and the secure bank as R300 states, and secure S at the mark (R304). -/
def gateEnter (h : Hart) (a : At) (rd target : Nat) : Hart :=
  let g := setCsr (enterSecure h) (4096 + 0x141) (a.pc + 4)
  let g := setBits (setBits g (4096 + 0x100) 5 1 (bitsOf (csr h (4096 + 0x100)) 1 1)) (4096 + 0x100) 1 1 0
  let g := setX (setBits g (4096 + 0x100) 8 1 1) rd (a.pc + 4)
  { g with w := true, priv := 1, v := false, pc := target }

/-- GATE rd, rs1, tag: a call from the normal world, a return from secure S, an illegal instruction elsewhere (R304, R305). -/
def State.gate (s : State) (a : At) (rd : Fin 32) (rs1 : BitVec 64) (tag : Fin 4096) : State :=
  match s.running a with
  | none => s
  | some h =>
    let n := a.hart.val
    let s := s.setHart n h
    if h.w then
      if h.priv = 1 && csr h 0x5C0 / 4 % 2 == 0 then
        (s.setHart n (leaveSecure (setX h rd.val (a.pc + 4)) rs1.toNat)).hpm n 0x0D 0 0
      else s.illegal a
    else if !gateAllowed h || rs1.toNat % 4 != 0 then s.gateFault a
    else
      match s.secureFetch n rs1.toNat with
      | (s, some w) =>
        if w = gatemarkWord tag.val then (s.setHart n (gateEnter (s.hart n) a rd.val rs1.toNat)).hpm n 0x0D 0 0 else s.gateFault a
      | (s, none) => s.gateFault a

/-- GATE_CALL (R304). -/
def execGateCall (a : At) (rd : Fin 32) (rs1 : BitVec 64) (tag : Fin 4096) (s : State) : Res := .next (s.clean.gate a rd rs1 tag)

/-- GATE_RETURN (R305). -/
def execGateReturn (a : At) (rd : Fin 32) (rs1 : BitVec 64) (tag : Fin 4096) (s : State) : Res := .next (s.clean.gate a rd rs1 tag)

/-- GATEMARK: a no-op, or an illegal instruction where bits [19:15] or [11:7] are not zero or funct3 is reserved (R303). -/
def execGatemark (a : At) (rs1 : Fin 32) (rd : Fin 32) (funct3 : Fin 8) (s : State) : Res :=
  let s := s.clean
  match s.running a with
  | none => .next s
  | some h =>
    let s := s.setHart a.hart.val h
    .next (if funct3.val = 1 && rs1.val = 0 && rd.val = 0 then s.step_ a else s.illegal a)

/-! ## Returns (R299, R300) -/

/-- MRET (R299): illegal below M, and where it would enter V = 1 in the secure world (R297). -/
def execMret (a : At) (s : State) : Res :=
  let s := s.clean
  match s.running a with
  | none => .next s
  | some h =>
    let s := s.setHart a.hart.val h
    let st := csr h 0x300
    let badV := csr h 0x7C0 % 2 == 1 && bitsOf st 39 1 == 1 && bitsOf st 11 2 != 3
    .next (if h.priv != 3 || badV then s.illegal a else s.setHart a.hart.val (mretOf h))

/-- SRET (R300): in M by the bank that jworld names, in secure S to the saved normal context or within the secure world, in HS
and VS as the privileged specification states. -/
def execSret (a : At) (s : State) : Res :=
  let s := s.clean
  match s.running a with
  | none => .next s
  | some h =>
    let n := a.hart.val
    let s := s.setHart n h
    let tsr := bitsOf (csr h 0x300) 22 1 == 1
    let spv := bitsOf (csr h 0x600) 7 1 == 1
    .next (
      if h.priv = 3 then
        let b := bankNow h
        if b = 0 && spv then s.illegal a else s.setHart n (sretIn h b)
      else if h.v then
        if h.priv = 0 || bitsOf (csr h 0x600) 22 1 == 1 then s.virtual_ a else s.setHart n (sretVS h)
      else if h.priv = 0 || tsr then s.illegal a
      else if h.w then
        if csr h 0x5C0 / 4 % 2 == 0 then s.setHart n (leaveSecure h (csr h (4096 + 0x141))) else s.setHart n (sretIn h 4096)
      else s.setHart n (sretHS h 0))

/-! ## Traps (R298, R315, R316) -/

/-- Exceptions that write jfault (R315): page, guest-page, access and gate faults. -/
def faultCauses : List Nat := [1, 5, 7, 12, 13, 15, 20, 21, 23, 24]

/-- What a trap of an exception reports in htinst and mtinst (R316): for a guest-page fault on an implicit access its pseudo
instruction, for an explicit load or store the transformed one, else 0. -/
def excTinst (a : At) (e : ExcArg) : Nat :=
  let c := e.cause.val
  tinstOf (c == 20 || c == 21 || c == 23) e.impl.val (if [4, 5, 6, 7, 13, 15, 21, 23].contains c then transformed a e.off.val else 0)

/-- TRAP: an exception other than a machine check is taken where delegation selects (R298); jfault is written for a fault
and is zero otherwise (R315). -/
def execTrap (a : At) (e : ExcArg) (s : State) : Res :=
  let s := s.clean
  match s.running a with
  | none => .next s
  | some h =>
    let jf := if faultCauses.contains e.cause.val then e.jfault % 2 ^ 63 + 2 ^ 63 else 0
    .next (if e.cause.val = 25 then s
      else (s.setHart a.hart.val h).raiseExc a
        { code := e.cause.val, epc := a.pc, tval := e.tval, tval2 := e.tval2, tinst := excTinst a e, gva := e.gva, jf := jf })

/-! ## Fences (R296, R317, R333) -/

/-- An instruction that a hart executes and that changes nothing but its pc. -/
def State.passBy (s : State) (a : At) : State :=
  match s.running a with
  | none => s
  | some h => (s.setHart a.hart.val h).step_ a

/-- FENCE: every access that the model performs is performed within its own step, so nothing is awaited (R296). -/
def execFence (a : At) (pred succ : Fin 16) (s : State) : Res :=
  let _ := (pred, succ)
  .next (s.clean.passBy a)

/-- FENCE_I: the model holds no instruction fetched ahead (R333). -/
def execFenceI (a : At) (s : State) : Res := .next (s.clean.passBy a)

/-- TLB entries that a predicate accepts are invalidated, and the instruction is passed. -/
def State.dropTlb (s : State) (a : At) (p : TlbEnt → Bool) : State :=
  let h := s.hart a.hart.val
  (s.setHart a.hart.val { h with tlb := h.tlb.filter fun e => !p e }).step_ a

/-- An entry maps a virtual address: within its page for a single-stage entry; an entry of both stages is always matched. -/
def maps (e : TlbEnt) (va : Option (BitVec 64)) : Bool :=
  match va with
  | none => true
  | some x => e.v || e.vpn / 2 ^ (9 * e.level) == x.toNat / 4096 / 2 ^ (9 * e.level)

/-- An entry is of an address space. -/
def ofAsid (e : TlbEnt) (asid : Option (Fin 65536)) : Bool :=
  match asid with
  | none => true
  | some x => !e.global && e.asid == x.val

/-- SFENCE_VMA: entries of the hart's current world, in M of the world that jworld.BANK names; in VS the guest's own (R317). -/
def execSfenceVma (a : At) (va : Option (BitVec 64)) (asid : Option (Fin 65536)) (s : State) : Res :=
  let s := s.clean
  match s.running a with
  | none => .next s
  | some h =>
    let s := s.setHart a.hart.val h
    let w := if h.priv = 3 then csr h 0x7C0 / 2 % 2 == 1 else h.w
    let vmid := bitsOf (csr h 0x680) 44 14
    .next (
      if h.v && (h.priv = 0 || bitsOf (csr h 0x600) 20 1 == 1) then s.virtual_ a
      else if h.priv = 0 || (h.priv = 1 && !h.v && bitsOf (csr h 0x300) 20 1 == 1) then s.illegal a
      else s.dropTlb a fun e => e.w == w && e.v == h.v && (!h.v || e.vmid == vmid) && maps e va && ofAsid e asid)

/-- A hypervisor fence may execute: in HS; illegal in the secure world and in U, virtual in VS and VU (R297). -/
def State.hfence (s : State) (a : At) (tvm : Bool) (p : Hart → TlbEnt → Bool) : State :=
  match s.running a with
  | none => s
  | some h =>
    let s := s.setHart a.hart.val h
    if h.v then s.virtual_ a
    else if h.w || h.priv = 0 || (tvm && bitsOf (csr h 0x300) 20 1 == 1) then s.illegal a
    else s.dropTlb a (p h)

/-- HFENCE_VVMA (R317). -/
def execHfenceVvma (a : At) (va : Option (BitVec 64)) (asid : Option (Fin 65536)) (s : State) : Res :=
  .next (s.clean.hfence a false fun h e => !e.w && e.v && e.vmid == bitsOf (csr h 0x680) 44 14 && maps e va && ofAsid e asid)

/-- HFENCE_GVMA (R317): entries of both stages are matched whatever the guest-physical address. -/
def execHfenceGvma (a : At) (gpa : Option (BitVec 64)) (vmid : Option (Fin 16384)) (s : State) : Res :=
  let _ := gpa
  .next (s.clean.hfence a true fun _ e => !e.w && e.v && vmid.all fun x => e.vmid == x.val)

/-! ## Xjuh registers with rows of their own -/

/-- JATOMCTL_CLEAR: a write of jatomctl with CLEAR 1, from S, HS or M (R323, R327). -/
def execJatomctlClear (a : At) (mode : Fin 4) (s : State) : Res :=
  let s := s.clean
  match s.running a with
  | none => .next s
  | some h =>
    let s := s.setHart a.hart.val h
    .next (if h.v then s.virtual_ a
      else if h.priv = 0 then s.illegal a
      else (s.setHart a.hart.val { setCsr h 0x5C2 mode.val with tumbler := [] }).step_ a)

/-- JGATECFG_WRITE: from M, sets the permissions and clears REFUSED (R323, R325). -/
def execJgatecfgWrite (a : At) (v : BitVec 64) (s : State) : Res :=
  let s := s.clean
  match s.running a with
  | none => .next s
  | some h =>
    let s := s.setHart a.hart.val h
    .next (if h.v then s.virtual_ a
      else if h.priv != 3 then s.illegal a
      else (s.setHart a.hart.val (setCsr h 0x7C1 (v.toNat % 32))).step_ a)

/-! ## Machine checks (R516–R518) -/

/-- ASYNC_MACHINE_CHECK: a dirty line of the hart's core is lost to parity (`lost`), or a store of the hart to an NC target was
answered with ERR (R355, R516). -/
def execAsyncMachineCheck (hart : Fin 256) (lost : Bool) (own : Own) (level : Fin 8) (addr : BitVec 52) (s : State) : Res :=
  let s := s.clean
  match s.coreUnit hart.val with
  | none => .next s
  | some u =>
    if lost then .next (s.parityDirty u { own with hart := hart.val } level.val (addr.toNat / 64))
    else .next (s.raiseAsync u hart.val ⟨4, (s.hart hart.val).w, false, 6, addr.toNat⟩)

/-- CORE_MCE_RELEASE: VALID is cleared, and a pending asynchronous machine check is taken (R518, R519); a normal-world write is
ignored and denied (R3). -/
def execCoreMceRelease (hart : Fin 256) (w : World) (s : State) : Res :=
  let s := s.clean
  match s.coreUnit hart.val with
  | none => .next s
  | some u =>
    if w == .normal then .next (s.denied u)
    else
      let s := s.put u F.CORE_MCE_VALID 0
      let h := s.hart hart.val
      match h.mce with
      | r :: rest => .next (if h.run && !h.halted && !s.fatalStop then s.asyncMce hart.val u r rest else s)
      | [] => .next s

end Sys2Proof.Machine
end

