-- ==== Sys2Proof/Machine/Lifecycle.lean ====
section
/-! DEFINITION. Lifecycle commands (R488, R489, R492, R495). -/

namespace Sys2Proof.Machine

open Sys2Proof

/-- CFG_STAT.LCS of the fuses and the Diagnostic flag (R488, R493). -/
def lcsOf (l : Life) : Nat := if l.retire then 4 else if l.diag then 3 else if l.deploy then 2 else if l.prov then 1 else 0

/-- The lifecycle fuses or the flag change, and what reports them follows (R488, R490). -/
def State.setLife (s : State) (l : Life) : State := ({ s with life := l }.put .cfg F.CFG_STAT_LCS (lcsOf l)).syncPres

/-- LC_STAT.RESULT of a command that completes, with CFG_EVT.LC (R494, R495). -/
def State.lcEnds (s : State) (r : Nat) : State := (s.put .cfg F.LC_STAT_RESULT r).raise .cfg F.CFG_EVT_LC

/-- The states from which each lifecycle command runs (R489). -/
def lcFrom (op lcs : Nat) : Bool :=
  match op with
  | 1 => lcs == 0
  | 2 => lcs == 1
  | 3 => lcs == 2
  | 4 => lcs == 3
  | 5 => lcs == 1 || lcs == 2 || lcs == 3
  | 6 | 7 => lcs == 1 || lcs == 3
  | _ => false

/-- The presence that each command needs is there: a press window, or any presence (R489). -/
def State.lcPresence (s : State) (op : Nat) : Bool :=
  let p := s.get .cfg F.CFG_STAT_PRES
  match op with
  | 1 | 3 => p == 1
  | 4 => true
  | _ => p != 0

/-- RESULT of the other condition of a command, 0 when it holds (R489). -/
def State.lcOther (s : State) (op : Nat) : Nat :=
  match op with
  | 3 => if (List.range 4096).any fun k => s.get .key F.KEY_SLOT_STATE k == 1 || s.get .key F.KEY_SLOT_STATE k == 2 then 0x10 else 0
  | 4 => if s.mode == .diagnostic then 0x02 else 0
  | 5 => if s.on .sweep F.SWP_STAT_BUSY then 0x02 else 0
  | 6 => if s.mode == .twelve then 0 else 0x02
  | 7 => if 1 ≤ s.get .cfg F.LC_LEN ∧ s.get .cfg F.LC_LEN ≤ 0x200000 then 0 else 0x03
  | _ => 0

/-- LC_CMD written: denied to the normal world, 0x01 while one runs, else run or refused with a result (R489, R492). -/
def State.lcCmd (s : State) (op : Nat) (w : World) : State :=
  if w == .normal then s.denied .cfg
  else if s.lc.isSome then s.put .cfg F.LC_STAT_RESULT 0x01
  else if !lcFrom op (s.get .cfg F.CFG_STAT_LCS) then s.lcEnds 0x02
  else if !s.lcPresence op then s.lcEnds 0x0B
  else if s.lcOther op != 0 then s.lcEnds (s.lcOther op)
  else { s with lc := some ⟨op⟩ }.put .cfg F.LC_STAT_BUSY 1

/-- PROVISION (R489). -/
def execProvision (w : World) (s : State) : Res := .next (s.clean.lcCmd 1 w)
/-- DEPLOY (R489). -/
def execDeploy (w : World) (s : State) : Res := .next (s.clean.lcCmd 2 w)
/-- DIAG (R489). -/
def execDiag (w : World) (s : State) : Res := .next (s.clean.lcCmd 3 w)
/-- UNDIAG (R489). -/
def execUndiag (w : World) (s : State) : Res := .next (s.clean.lcCmd 4 w)
/-- RETIRE (R489). -/
def execRetire (w : World) (s : State) : Res := .next (s.clean.lcCmd 5 w)
/-- DIAG_MODE (R489). -/
def execDiagMode (w : World) (s : State) : Res := .next (s.clean.lcCmd 6 w)
/-- STORE_REC (R489). -/
def execStoreRec (w : World) (s : State) : Res := .next (s.clean.lcCmd 7 w)

/-- LC_CMD_RESERVED: a value other than 1 to 7 (R495). -/
def execLcCmdReserved (op : Fin 16) (w : World) (s : State) : Res :=
  let s := s.clean
  if 1 ≤ op.val ∧ op.val ≤ 7 then .next s else .next (s.lcCmd op.val w)

/-- The recovery segment stored from LC_SRC, LC_LEN bytes (R482, R489); a source that cannot be read leaves it as it was. -/
def State.storeRec (s : State) : State × Nat :=
  let n := s.get .cfg F.LC_LEN
  let (s, a) := s.masterRead 12 .cfg (s.get .cfg F.LC_SRC) n
  match a.data? with
  | some bs => (({ s with recSeg := some ⟨n, crc32c bs⟩ }.putMram (pkgArea + 0x10000) bs).put .cfg F.CFG_STAT_RECSEG 1, 0x00)
  | none => (s, 0x03)

/-- The effect of a lifecycle command, with its result (R489). -/
def State.lcEffect (s : State) (op : Nat) : State × Nat :=
  match op with
  | 1 => (s.setLife { s.life with prov := true }, 0)
  | 2 => (s.setLife { s.life with deploy := true }, 0)
  | 3 => (s.setLife { s.life with diag := true }, 0)
  | 4 => (s.setLife { s.life with diag := false }, 0)
  | 5 => ({ s with keys := { s.keys with secret := false } }.setLife { s.life with retire := true }, 0)
  | 6 => if s.mode == .twelve then (s.closePorts.setMode .diagnostic, 0) else (s, 0x02)
  | _ => s.storeRec

/-- LC_CMD_DONE: the command under way completes (R489, R494, R495). -/
def execLcCmdDone (s : State) : Res :=
  let s := s.clean
  match s.lc with
  | none => .next s
  | some j =>
    let (s, r) := { s with lc := none }.lcEffect j.op
    .next ((s.put .cfg F.LC_STAT_BUSY 0).lcEnds r)

end Sys2Proof.Machine
end

