-- ==== Sys2Proof/Machine/RegRead.lean ====
section
/-! DEFINITION. Reading a unit's registers: the header, fields whose values follow the unit's state, arrays, and the clearing
of RC fields (R3–R7, R22–R24, R539–R549). -/

namespace Sys2Proof.Machine

open Sys2Proof

/-! ## Steppings and versions (R21–R24, R403, R542, R543, R549) -/

/-- The version that a unit's fields follow (R543). -/
def unitVer (b : Build) (u : UnitId) : Nat :=
  match u with
  | .tile _ | .core _ _ => if isB (stepOf b u) then 2 else 1
  | .med _ | .act _ => if isB (stepOf b u) then 4 else 3
  | .keep => 1
  | .vz n => min (vzCeilingOf b) (vzOfStep (stepOf b (linkDie n)))
  | .fn _ => protoOf b
  | _ => if isB (stepOf b u) then 2 else 1

/-! ## The header (R540–R546) -/

/-- UNIT_ID.KIND (R541). -/
def kindCode : UnitId → Nat
  | .core _ _ => 0x01 | .tile _ => 0x02 | .hub => 0x03 | .med _ => 0x04 | .act _ => 0x05 | .keep => 0x06
  | .home _ => 0x10 | .pcie _ => 0x11 | .fnmgr => 0x12 | .headgate => 0x13 | .mbox => 0x14 | .stripe _ => 0x15
  | .key => 0x16 | .sweep => 0x17 | .wmap => 0x18 | .iow => 0x19 | .irq => 0x1A | .rme => 0x1B | .mc _ => 0x1C
  | .memmap => 0x1D | .xbar => 0x1E | .vz _ => 0x1F | .therm => 0x20 | .aon => 0x21 | .pwr => 0x22 | .cfg => 0x23
  | .stest => 0x24 | .err => 0x25 | .pmu => 0x26 | .trace => 0x27
  | .fn f => if f.val < 1024 then 0x41 else 0x40

/-- UNIT_ID.INDEX (R541). -/
def State.unitIndex (s : State) : UnitId → Nat
  | .core p c => match s.logTile p.val with
    | some t => 8 * t + c.val
    | none => 0xFFF
  | .tile p => (s.logTile p.val).getD 0xFFF
  | .med m => m.val
  | .act a => a.val
  | .home k => k.val
  | .pcie k => k.val
  | .stripe k => k.val
  | .mc k => k.val
  | .vz n => n.val
  | .fn f => if f.val < 1024 then f.val else f.val - 1024
  | _ => 0

/-- The switchable domain that covers a unit, 63 for none (R446, R545). -/
def State.unitDomain (s : State) : UnitId → Nat
  | .tile p | .core p _ => p.val
  | .med m => 36 + m.val
  | .act a => 36 + a.val / 24
  | .pcie k => 40 + k.val
  | .stripe _ => 42
  | .fn f => 40 + (s.fnPort f.val).val
  | _ => 63

/-- UNIT_PWR.STATE (R545). -/
def State.unitPower (s : State) (u : UnitId) : Nat :=
  match u with
  | .fn f => bit (s.fnS f.val).d3
  | .aon | .therm => 0
  | _ =>
    let d := s.unitDomain u
    if d = 63 then bit (unitSlot u == 40 && s.clocks.contains .hub) else s.get .pwr F.PWR_DOM_STATE d

/-- The units that are children of a group unit (R16, R538). No unit presents the package over its dies: the hub's children are its
own sub-units (DESIGN CHOICE, log 179). -/
def childrenOf : UnitId → List UnitId
  | .tile p => (List.finRange 8).map fun c => .core p c
  | .med m => (dieActs m.val).map fun a => .act a
  | .hub => (List.range 41).filterMap fun k => unitAt 40 (k + 1)
  | .xbar => (List.finRange 45).map fun n => .vz n
  | _ => []

/-- Bits [3:0] or CHILD of a unit without grandchildren of its own. -/
def State.childErr (s : State) (u : UnitId) : Bool :=
  s.errBits u != 0 || (childrenOf u).any fun v => s.errBits v != 0

/-- UNIT_ERR.CHILD (R513). -/
def State.errChild (s : State) (u : UnitId) : Bool := (childrenOf u).any fun v => s.childErr v

/-- UNIT_READY.READY (R478, R544). -/
def State.unitReady (s : State) (u : UnitId) : Bool :=
  match u with
  | .fn f => s.on (.pcie (s.fnPort f.val)) F.PCIE_CTRL_CFG_READY
  | _ => s.on u F.UNIT_READY_READY

/-- UNIT_READY.ALL (R544). -/
def State.unitAll (s : State) (u : UnitId) : Bool :=
  match childrenOf u with
  | [] => s.unitReady u
  | cs => cs.all fun v => s.unitReady v

/-- The self-test entry that UNIT_TEST mirrors: as the valid set stood at the last Loading (R546). -/
def State.seenEnt (s : State) (k : Nat) : TestEnt := tget (factoryEnt k) s.st.seen k

/-- A field of UNIT_TEST (R546). -/
def testField (u : UnitId) (g : Nat → Nat) (none_ : Nat) : Nat :=
  match u with
  | .fn _ => 0
  | _ => match testIndex u with
    | some k => g k
    | none => none_

/-- A header field as it reads; `slot` is the die slot through which the page is reached (R540). -/
def State.hdrField (s : State) (u : UnitId) (slot : Nat) (f : Fld) : Nat :=
  if f = F.UNIT_ID_KIND then kindCode u
  else if f = F.UNIT_ID_INDEX then s.unitIndex u
  else if f = F.UNIT_ID_SLOT then slot
  else if f = F.UNIT_VER_VER then unitVer s.build u
  else if f = F.UNIT_VER_MAXVER then (match u with
    | .vz _ => vzCeilingOf s.build
    | _ => unitVer s.build u)
  else if f = F.UNIT_VER_STEP then stepOf s.build u
  else if f = F.UNIT_READY_READY then bit (s.unitReady u)
  else if f = F.UNIT_READY_ALL then bit (s.unitAll u)
  else if f = F.UNIT_ERR_CHILD then bit (s.errChild u)
  else if f = F.UNIT_PWR_STATE then s.unitPower u
  else if f = F.UNIT_PWR_DOMAIN then s.unitDomain u
  else if f = F.UNIT_TEST_TIDX then testField u (fun k => k) 63
  else if f = F.UNIT_TEST_OUTCOME then testField u (fun k => (entryWords (s.seenEnt k)).headD 0 % 256) 0
  else if f = F.UNIT_TEST_SUSPECT then testField u (fun k => bit (s.seenEnt k).suspect) 0
  else if f = F.UNIT_TEST_RUN then testField u (fun k => (s.seenEnt k).run) 0
  else s.get u f

/-! ## Fields whose values follow the unit's state -/

/-- Fields of the hub's group unit (R22, R23, R549). -/
def hubField (b : Build) (f : Fld) : Nat :=
  if f = F.PKG_IDENT_PART then 0x9648
  else if f = F.PKG_IDENT_BUILD then (match b with | .b01 => 1 | .b02 => 2 | .b03 => 3)
  else if f = F.PKG_STEP_HUB then stepOf b .hub
  else if f = F.PKG_STEP_KEEP then stepOf b .keep
  else if f = F.PKG_STEP_TILE_LO then (match b with | .b03 => 0x10 | _ => 0x01)
  else if f = F.PKG_STEP_TILE_HI then (match b with | .b01 => 0x01 | _ => 0x10)
  else if f = F.PKG_STEP_MED_LO ∨ f = F.PKG_STEP_MED_HI then stepOf b (.med 0)
  else if f = F.PKG_STEP_MIX then bit (b == .b02)
  else if f = F.PKG_FEAT_VZ then 1
  else if f = F.PKG_FEAT_YL then ylCeilingOf b
  else if f = F.PKG_FEAT_QP then protoOf b
  else 0

/-- The zone set and the readers of a pass allow joint detection (R60). -/
def zoneJoint (z : ZoneSet) : Bool := z.joint && z.readers == 3

/-- The detector works for a verify of this sector (R76, R91, R146): the trailing reader from the release on, or the
read-back of a revolution verify. -/
def slDetects (e : SlEntry) : Bool :=
  (e.ph == .verifying && (!e.vmode || e.reading)) || (e.ph == .writing && !e.vmode && decide (0 < e.sent))

/-- What the channel engine is detecting (R60, R91): 3 a verify; 2 a pass that runs joint detection, 1 any other pass. -/
def State.chMode (s : State) (a : Fin 96) : Nat :=
  if (s.sluice a.val).ents.any slDetects || (s.sweep.verify && (s.swpAct a.val).fills.any slDetects) then 3
  else match (s.chan a.val).ents.find? fun x => x.phase == .pass with
    | some x => 1 + bit (zoneJoint x.zone)
    | none => 0

/-- Fields of an actuator channel that follow its state (R55, R91, R124, R162). FREE reads its reset value 0 while the sluice is
off and holds nothing (DEDUCED, log 214). -/
def State.actField (s : State) (a : Fin 96) (f : Fld) (i j : Nat) : Nat :=
  let started := (s.chan a.val).ents.filter fun e => e.phase != .fetched
  let v := s.servo a.val
  let es := (s.sluice a.val).ents
  if f = F.YL_STAT_HB_RUN then bit (s.hbRuns a)
  else if f = F.CH_STAT_IDLE then bit started.isEmpty
  else if f = F.CH_STAT_MODE then s.chMode a
  else if f = F.CH_STAT_ACTIVE then started.length
  else if f = F.CH_STAT_MEDIUM then bit (s.chan a.val).medium.isSome
  else if f = F.CH_STAT_CANCEL_FULL then bit (decide (4 ≤ (s.chan a.val).cancels.length))
  else if f = F.SV_STAT_BUSY then bit v.motion.isSome
  else if f = F.SV_STAT_SPIN_BUSY then bit v.spin.isSome
  else if f = F.SL_STAT_IDLE then bit es.isEmpty
  else if f = F.SL_STAT_WRITING then bit (s.slHolds a)
  else if f = F.SL_STAT_FILLING then bit (es.any fun e => e.ph == .filling)
  else if f = F.SL_STAT_JWAIT then bit ((s.die (a.val / 24)).jwait.any fun r => r.act == a.val)
  else if f = F.SL_STAT_ENTRIES then es.length
  else if f = F.SL_STAT_FREE then
    if s.on (.act a) F.SL_CTRL_EN || !es.isEmpty then s.get (.act a) F.SL_FURROW_COUNT - (es.filter fun e => e.holds).length else 0
  else s.get (.act a) f i j

/-- What the spindle scheduler shows of an assembly (R129). -/
def State.asmCode (s : State) (m k : Nat) : Nat :=
  if (s.die m).spinRun.contains k then 2
  else if (s.die m).spinQ.contains k then 1
  else if (s.die m).locked.contains k then 3 else 0

/-- Fields of a medium die's group unit that follow its state (R97, R129). -/
def State.dieField (s : State) (m : Fin 4) (f : Fld) (i j : Nat) : Nat :=
  let d := s.die m.val
  if f = F.CHD_DEEP_QUEUED then d.deepQ.length
  else if f = F.CHD_DEEP_BUSY then joinBits 1 (d.deepRun.map fun x => bit x.isSome)
  else if f = F.CHD_HTAB then htab (i / 145) (i % 145)
  else if f = F.SVD_SPIN_ACTIVE then d.spinRun.length
  else if f = F.SVD_SPIN_QUEUED then d.spinQ.length
  else if f = F.SVD_SPIN_Q_ASM then joinBits 2 ((List.range 12).map fun k => s.asmCode m.val k)
  else s.get (.med m) f i j

/-- Fields of the host view that mirror the function table and the log (R234, R279). -/
def State.fnField (s : State) (n : Fin 1026) (f : Fld) (i j : Nat) : Nat :=
  let pf := decide (1024 ≤ n.val)
  let entry := fun (g : Fld) => s.get .fnmgr g n.val
  if f = F.FN_INFO_QUEUES then (if pf then s.get (.pcie (s.fnPort n.val)) F.PCIE_PM_PF_QUEUES else if s.fnCreated n.val then entry F.FNT_QUEUES else 0)
  else if f = F.FN_INFO_VECTORS then (if pf then 64 else entry F.FNT_VECTORS)
  else if f = F.FN_INFO_CLASSES then (if pf then 15 else entry F.FNT_CLASSES)
  else if f = F.FN_INFO_WEIGHT then (if pf then s.get .headgate F.HG_TUNE_PF_WT else entry F.FNT_WEIGHT)
  else if f = F.FN_INFO_PROTO then protoOf s.build
  else if f = F.FN_INFO_SHARE then
    (if pf then s.get (.pcie (s.fnPort n.val)) F.PCIE_PM_PF_SHARE else entry F.FNT_SHARE)
  else if f = F.FN_INFO_QUOTA then (if pf then 0 else entry F.FNT_QUOTA)
  else if f = F.ELOG_CNT then (s.fnS n.val).logCnt % 2 ^ 32
  else s.get (.fn n) f i j

/-- An endpoint has an event bit (R290). -/
def State.mbEvents (s : State) (e : MbEnd) : Bool :=
  let m := mbFlds e
  s.mbOn e m.inMsg || s.mbOn e m.inColl || s.mbOn e m.outEmpty || s.mbOn e m.outColl || s.mbOn e m.outTmo

/-- Fields of hub/mbox that follow the endpoints (R290). -/
def State.mboxField (s : State) (f : Fld) (i j : Nat) : Nat :=
  if f = F.MBX_PEND then joinBits 1 ((List.range 32).map fun k =>
    if h : 32 * i + k < 1024 then bit (s.mbEvents (.fw ⟨32 * i + k, h⟩)) else 0)
  else if f = F.MBX_PEND_W then
    joinBits 1 (((List.finRange 16).map fun w => bit (s.mbEvents (.normal w))) ++
      ((List.finRange 16).map fun w => bit (s.mbEvents (.secure w))) ++ [bit (s.mbEvents .smbFw)])
  else s.get .mbox f i j

/-- Fields of a core that follow the router (R328). -/
def State.coreField (s : State) (p : Fin 36) (c : Fin 8) (f : Fld) (i j : Nat) : Nat :=
  let next := fun (level : Nat) => match s.logTile p.val with
    | some t => (s.irqNext (8 * t + c.val) level).getD 0xFFFF
    | none => 0xFFFF
  if f = F.CORE_IRQ_NEXT_M then next 1
  else if f = F.CORE_IRQ_NEXT_SS then next 2
  else if f = F.CORE_IRQ_NEXT_NS then next 3
  else s.get (.core p c) f i j

/-- Home slice status (R359). -/
def State.homeField (s : State) (k : Fin 8) (f : Fld) (i j : Nat) : Nat :=
  let mine := s.homes.filter fun e => homeOf e.1 == k
  if f = F.HOME_STAT_QUEUED then (mine.map fun e => e.2.waitq.length).foldl (fun x y => x + y) 0
  else if f = F.HOME_STAT_BUSY_LINES then (mine.filter fun e => e.2.txn.isSome).length
  else s.get (.home k) f i j

/-- Bit `n` of ERR_SLOT (R524). -/
def State.slotErr (s : State) (n : Nat) : Bool :=
  match unitAt n 0 with
  | some u => s.errBits u != 0 || s.errChild u
  | none => false

/-- A switchable domain has power (R440, R446): a tile from its power-up in Loading (R480), a medium die once its quarter's VR_EN is up. -/
def State.domPowered (s : State) (d : Nat) : Bool :=
  s.mode != .off && s.mode != .keep && s.get .pwr F.PWR_DOM_STATE d != 2 &&
  if d < 36 then s.mode != .waking && !(s.mode == .loading && !s.load.begun && !s.load.warm)
  else s.mode != .waking || s.vrEn / 2 ^ (d - 36) % 2 == 1

/-- A temperature (R440): 0x80 where no die that it stands for is powered. -/
def State.thermField (s : State) (f : Fld) (i j : Nat) : Nat :=
  let unpowered :=
    if f = F.THM_STAT_TILE_MAX then !((List.range 36).any s.domPowered)
    else if f = F.THM_STAT_MED_MAX then !((List.range 4).any fun m => s.domPowered (36 + m))
    else if f = F.THM_STAT_HUB then s.mode == .keep || (s.mode == .waking && s.vrEn != 15)
    else if f = F.THM_STAT_STACK_MAX then s.mode == .keep || (s.mode == .waking && s.vrEn == 0)
    else false
  if unpowered then 0x80 else s.get .therm f i j

/-- A field beyond the header as it reads, before the world of the reader is judged. -/
def State.fieldVal (s : State) (u : UnitId) (f : Fld) (i j : Nat) : Nat :=
  match u with
  | .hub => hubField s.build f
  | .act a => s.actField a f i j
  | .med m => s.dieField m f i j
  | .fn n => s.fnField n f i j
  | .mbox => s.mboxField f i j
  | .core p c => s.coreField p c f i j
  | .home k => s.homeField k f i j
  | .stripe _ =>
    if f = F.STR_COEF then stripeCoef (i / 40) (i % 40)
    else if f = F.STR_DOWN_LO ∨ f = F.STR_DOWN_HI then s.get (.stripe 0) f i j
    else s.get u f i j
  | .fnmgr =>
    if f = F.FNT_LIVE then bit (s.fnLive i) else if f = F.FNT_PORT then (s.fnPort i).val else s.get u f i j
  | .therm => s.thermField f i j
  | .aon => if f = F.AON_MODE_MODE then modeCode s.mode else s.get u f i j
  | .err => if f = F.ERR_SLOT then joinBits 1 ((List.range 49).map fun n => bit (s.slotErr n)) else s.get u f i j
  | .cfg => if f = F.CFG_PTILE_STEP then stepOfTile s.build i else s.get u f i j
  | .iow => if 11 ≤ i ∧ f ≠ F.IOW_WORLD ∧ f ≠ F.IOW_STAT_BUSY then 0 else s.get u f i j
  | _ => s.get u f i j

/-- Core fields that read 0 from the normal world (R328, R519). -/
def hiddenField (f : Fld) : Bool :=
  f = F.CORE_MTIMECMP || f = F.CORE_MSIP || f = F.CORE_IRQ_NEXT_M || f = F.CORE_IRQ_NEXT_SS ||
  (decide (0x80 ≤ f.off ∧ f.off < 0x98) && f.count == 1)

/-- A field as a reader of a world sees it: WO fields and TAKE read zero, and a field above the unit's version does not exist
(R3, R7, R289). -/
def State.readField (s : State) (sec : Bool) (u : UnitId) (slot : Nat) (f : Fld) (i j : Nat) : Nat :=
  if f.acc = .wo ∨ unitVer s.build u < f.ver then 0
  else if f.off < 0x40 then s.hdrField u slot f
  else
    match u with
    | .core _ _ => if !sec && hiddenField f then 0 else s.fieldVal u f i j
    | _ => s.fieldVal u f i j

/-! ## Arrays of records -/

/-- The 64-bit word of a table of pairs: word `k`. -/
def pairWord (t : Tab (Nat × Nat)) (entry k : Nat) : Nat :=
  let e := tget (0, 0) t entry
  if k % 2 = 0 then e.1 else e.2

/-- The 64-bit word at offset `o` of the pages that hold logs and records (R279, R383, R511, R524, R532). -/
def State.arrayWord (s : State) (u : UnitId) (o : Nat) : Nat :=
  let k := (o - 0x1000) / 8
  match u with
  | .err => if 0x1000 ≤ o ∧ o < 0x1800 then pairWord s.errLog (k / 2) k else 0
  | .trace =>
    if 0x1000 ≤ o ∧ o < 0x9000 then pairWord s.trace (2048 * s.get .trace F.TRC_CTRL_BANK + k / 2) k else 0
  | .mc n => if 0x1000 ≤ o ∧ o < 0x1200 then pairWord s.mcLog (32 * n.val + k / 2) k else 0
  | .headgate => if 0x1000 ≤ o ∧ o < 0x2000 then pairWord s.fwLog (k / 2) k else 0
  | .stest => if 0x1000 ≤ o ∧ o < 0x1800 then (entryWords (s.testEnt (k / 4))).getD (k % 4) 0 else 0
  | .fn n =>
    if 0x1C00 ≤ o ∧ o < 0x1C80 then pairWord s.hostLog (8 * n.val + (o - 0x1C00) / 16) ((o - 0x1C00) / 8) else 0
  | _ => 0

/-! ## A read of a page -/

/-- A copy of a field: its indices and the bit of the page at which it starts. -/
structure CopyAt where
  f : Fld
  i : Nat
  j : Nat
  at_ : Nat
  deriving DecidableEq, Repr

/-- The copies of a field that touch bits `lo` to `hi - 1` of their page. -/
def copiesIn (f : Fld) (lo hi : Nat) : List CopyAt :=
  (List.range f.count2).flatMap fun j =>
    let b := copyBit f 0 j
    if f.count ≤ 1 then (if b < hi ∧ lo < b + f.width then [⟨f, 0, j, b⟩] else [])
    else
      let i0 := (lo - b) / (8 * f.stride)
      (List.range 9).filterMap fun d =>
        let i := i0 + d
        let at_ := b + 8 * f.stride * i
        if i < f.count ∧ at_ < hi ∧ lo < at_ + f.width then some ⟨f, i, j, at_⟩ else none

/-- The fields of a unit's page, header included. -/
def allFlds (u : UnitId) : List Fld := page_hdr ++ pageFlds (unitKind u)

/-- The copies of fields that an access of `n` bytes at offset `o` touches. -/
def touched (u : UnitId) (o n : Nat) : List CopyAt := (allFlds u).flatMap fun f => copiesIn f (8 * o) (8 * (o + n))

/-- The part of a field that starts at bit `at_` that lies in a window of `n` bytes at offset `o`. -/
def windowed (v at_ o n : Nat) : Nat := (if 8 * o ≤ at_ then v * 2 ^ (at_ - 8 * o) else v / 2 ^ (8 * o - at_)) % 2 ^ (8 * n)

/-- The value that `n` bytes at offset `o` of a page show. -/
def State.pageVal (s : State) (sec : Bool) (u : UnitId) (slot o n : Nat) : Nat :=
  let v := (touched u o n).foldl (fun x c => x + windowed (s.readField sec u slot c.f c.i c.j) c.at_ o n) 0
  v + s.arrayWord u (o / 8 * 8) / 2 ^ (8 * (o % 8)) % 2 ^ (8 * n)

/-- RC fields that a read touches are cleared (R3). -/
def State.clearRc (s : State) (u : UnitId) (o n : Nat) : State :=
  (touched u o n).foldl (fun s c => if c.f.acc = .rc ∧ c.f.ver ≤ unitVer s.build u then s.put u c.f 0 c.i c.j else s) s

/-- A read of `n` bytes of a unit's page: only the header until the unit is ready (R478). -/
def State.unitRead (s : State) (sec : Bool) (u : UnitId) (slot o n : Nat) : State × Nat :=
  if s.unitReady u || decide (o < 0x40) then ((s.clearRc u o n), s.pageVal sec u slot o n) else (s, 0)

end Sys2Proof.Machine
end

