-- ==== Sys2Proof/Machine/TestCmd.lean ====
section
/-! DEFINITION. Direct tests and fuse repair: ST_CMD (R499, R501, R504–R511). -/

namespace Sys2Proof.Machine

open Sys2Proof

/-- ST_STAT.RESULT set. -/
def State.stResult (s : State) (r : Nat) : State := s.put .stest F.ST_STAT_RESULT r

/-- A command that completes at once sets its result and ST_EVT.DONE (R511). -/
def State.stEnds (s : State) (r : Nat) : State := (s.stResult r).raise .stest F.ST_EVT_DONE

/-- ST_CMD written: denied to the normal world, 0x01 while a test or burn runs, 0x02 outside Provisioning and Diagnostic (R507,
R508, R510). -/
def State.stCmd (s : State) (w : World) (run : State → State) : State :=
  let lcs := s.get .cfg F.CFG_STAT_LCS
  if w == .normal then s.denied .stest
  else if s.testing then s.stResult 0x01
  else if lcs == 1 || lcs == 3 then run s
  else s.stEnds 0x02

/-- A direct test accepts a unit: in Twelve a physical tile that is spare, failed or retired; in Diagnostic mode every unit of
R499 but the stacks (R508). -/
def State.mayTest (s : State) (u : Nat) : Bool :=
  match s.mode with
  | .twelve => decide (u < 36) && s.get .cfg F.CFG_PTILE_STATE u != 0
  | .diagnostic => decide (u ≤ 58) && !decide (48 ≤ u ∧ u ≤ 55)
  | _ => false

/-- The classes of a mask that a unit has, INIT last and always (R498, R508); bit n is the class of code n. -/
def maskClasses (u mask : Nat) : List TestClass :=
  (listed u).filter fun c =>
    match c with
    | .ana => mask % 2 == 1
    | .arr => mask / 2 % 2 == 1
    | .log => mask / 4 % 2 == 1
    | .init => true

/-- TEST: a direct test of one unit, with a run number of its own (R508). -/
def execTest (unit : Fin 64) (classes : Fin 16) (w : World) (s : State) : Res :=
  .next (s.clean.stCmd w fun s =>
    if !s.mayTest unit.val then s.stEnds 0x02
    else
      let s := { s with st := { s.st with active := some ⟨none, s.st.run + 1, [(unit.val, maskClasses unit.val classes.val)]⟩, draft := s.st.ents } }
      ((s.isolateUnit unit.val).put .stest F.ST_STAT_BUSY 1).put .stest F.ST_STAT_CUR_UNIT unit.val)

/-- The conditions that FUSE and CLEAR_SOFT share beyond R507's state: a unit of R499, and presence. -/
def State.repairCmd (s : State) (u : Nat) (run : State → State) : State :=
  if 59 ≤ u then s.stEnds 0x03 else if !s.present then s.stEnds 0x0B else run s

/-- Soft entries that a fuse bank holds (R506). -/
def fuseRoom : Nat := 32

/-- FUSE: the burn begins when the bank can take every soft entry (R507). -/
def execFuse (unit : Fin 64) (w : World) (s : State) : Res :=
  .next (s.clean.stCmd w fun s => s.repairCmd unit.val fun s =>
    let n := (s.softMap unit.val).length
    if n = 0 then s.stEnds 0x12
    else if fuseRoom < (s.fuseBank unit.val).length + n then s.stEnds 0x11
    else { s with st := { s.st with fuse := some unit.val } }.put .stest F.ST_STAT_BUSY 1)

/-- The unit's soft map is empty (R511). -/
def State.clearSoft (s : State) (u : Nat) : State :=
  { s with st := { s.st with soft := tset [] s.st.soft u [] } }.putRepairs

/-- CLEAR_SOFT (R511). -/
def execClearSoft (unit : Fin 64) (w : World) (s : State) : Res :=
  .next (s.clean.stCmd w fun s => s.repairCmd unit.val fun s => (s.clearSoft unit.val).stEnds 0x00)

/-- ST_CMD_RESERVED: other codes complete with 0x02 (R511). -/
def execStCmdReserved (op : Fin 16) (w : World) (s : State) : Res :=
  let s := s.clean
  if 1 ≤ op.val ∧ op.val ≤ 3 then .next s
  else if w == .normal then .next (s.denied .stest)
  else if s.testing then .next (s.stResult 0x01)
  else .next (s.stEnds 0x02)

/-- ST_CMD_DONE: a direct test whose classes have ended writes the result set; a burn moves the soft entries into the fuse bank
(R507, R508, R510). -/
def execStCmdDone (s : State) : Res :=
  let s := s.clean
  match s.st.fuse, s.st.active with
  | some u, _ =>
    let s := { s with st := { s.st with fuse := none, fuses := tset [] s.st.fuses u (s.fuseBank u ++ s.softMap u) } }
    .next (((s.clearSoft u).put .stest F.ST_STAT_BUSY 0).stEnds 0x00).runPwrNext
  | none, some ⟨none, run, []⟩ =>
    let s := { s with st := { s.st with active := none } }.putResults run none
    .next ((s.put .stest F.ST_STAT_BUSY 0).stEnds 0x00).runPwrNext
  | none, _ => .next s

end Sys2Proof.Machine
end

