-- ==== Sys2Proof/Machine/RegWrite.lean ====
section
/-! DEFINITION. Writing a unit's registers: access codes, locks, writes that are refused, and the commands that a write starts
(R3–R7, R478, R513). -/

namespace Sys2Proof.Machine

open Sys2Proof

/-- A write of `n` bytes at offset `o` of a unit's page, from the secure world or not. -/
structure Wr where
  sec : Bool
  u : UnitId
  ver : Nat
  o : Nat
  n : Nat
  v : Nat
  deriving DecidableEq, Repr

/-- The bits of a field at bit `at_` of its page that a write covers. -/
def Wr.cover (w : Wr) (f : Fld) (at_ : Nat) : Nat :=
  2 ^ (min (at_ + f.width) (8 * (w.o + w.n)) - at_) - 2 ^ (max at_ (8 * w.o) - at_)

/-- The bits that a write brings to a field at bit `at_`, zero where it does not cover the field. -/
def Wr.bits (w : Wr) (f : Fld) (at_ : Nat) : Nat :=
  (if 8 * w.o ≤ at_ then w.v % 2 ^ (8 * w.n) / 2 ^ (at_ - 8 * w.o) else w.v % 2 ^ (8 * w.n) * 2 ^ (8 * w.o - at_)) &&& w.cover f at_

/-- A field's value with the bits that a write covers replaced. -/
def Wr.merge (w : Wr) (f : Fld) (at_ old : Nat) : Nat := (old &&& (2 ^ f.width - 1 - w.cover f at_)) ||| w.bits f at_

/-- A write reaches a copy of a field: it covers some of its bits, the field exists in the unit's version (R7), and the world may
write it (R3). -/
def Wr.hit (w : Wr) (f : Fld) (i : Nat := 0) (j : Nat := 0) : Bool :=
  let at_ := copyBit f i j
  decide (at_ < 8 * (w.o + w.n) ∧ 8 * w.o < at_ + f.width) && decide (f.ver ≤ w.ver) && (w.sec || !f.sec)

/-- The bits brought to a copy of a field. -/
def Wr.val (w : Wr) (f : Fld) (i : Nat := 0) (j : Nat := 0) : Nat := w.bits f (copyBit f i j)

/-- A one-bit field reached with a 1. -/
def Wr.one (w : Wr) (f : Fld) (i : Nat := 0) (j : Nat := 0) : Bool := w.hit f i j && w.val f i j != 0

/-- The new value of a one-bit field that the write changes. -/
def Wr.edge (w : Wr) (s : State) (f : Fld) (i : Nat := 0) : Option Bool :=
  if w.hit f i && (w.val f i != 0) != s.on w.u f i then some (w.val f i != 0) else none

/-- The world of a write. -/
def Wr.world (w : Wr) : World := if w.sec then .secure else .normal

/-- The copies of an array field that a write reaches. -/
def Wr.copies (w : Wr) (f : Fld) : List (Nat × Nat) :=
  ((copiesIn f (8 * w.o) (8 * (w.o + w.n))).filter fun c => w.hit f c.i c.j).map fun c => (c.i, c.j)

/-- A command's effect within a write: what it drives out is added. -/
def State.after (s : State) (r : State → Res) : State :=
  match r s with
  | .next t => { t with out := s.out ++ t.out }
  | _ => s

/-! ## Fields that a write reaches through a command -/

/-- Fields whose writes are commands, and the fields that those commands write themselves. -/
def owned : PageKind → List Fld
  | .act => [F.YL_CTRL_EN, F.YL_CTRL_SLEEP, F.YL_SB_TXC_GO, F.YL_SB_RXC_FULL, F.CH_CTRL_EN, F.SV_CTRL_EN, F.SV_LIM_SWAP, F.SL_CTRL_EN]
  | .die => [F.SLD_JTAIL, F.SLD_JHEAD]
  | .stripe => [F.STR_CTRL_EN, F.STR_DOWN_LO, F.STR_DOWN_HI]
  | .pcie => [F.PCIE_CTRL_EN, F.PCIE_CTRL_CFG_READY, F.XR_CTRL_EN]
  | .fnmgr => [F.FNT_STATE, F.FNT_CLASSES, F.FNT_WEIGHT, F.FNT_QUOTA]
  | .fn => [F.QCTRL_EN, F.QP_CTRL_VER_REQ, F.MBH_STAT_TAKE]
  | .mbox => [F.MBF_STAT_TAKE, F.MBN_STAT_TAKE, F.MBS_STAT_TAKE, F.MBB_STAT_TAKE]
  | .headgate => [F.HG_CTRL_EN]
  | .core => [F.CORE_MCE_VALID]
  | .irq => [F.ROUTE_HART, F.ROUTE_LEVEL, F.ROUTE_LOCK]
  | .iow => [F.IOW_WORLD]
  | .vz => [F.VZ_CTRL_EN, F.VZ_CTRL_ISOLATE]
  | .therm => [F.THM_EVT_TRIP]
  | .pwr => [F.PWR_HOLD, F.PWR_DOM_DOM_REQ, F.TILE_FREQ_FREQ]
  | .pmu => [F.PMU_CTRL_FREEZE, F.PMU_COUNT, F.PMU_WSEL]
  | _ => []

/-! ## Writes that are ignored, and those recorded as denied -/

/-- A write to a field is ignored and recorded as a denied access in the unit's state (R58, R89, R105, R157, R193, R229, R254,
R291, R330, R384). -/
def State.frozen (s : State) (u : UnitId) (c : CopyAt) : Bool :=
  let o := c.at_ / 8
  match u with
  | .act a =>
    (decide (0x68 ≤ o ∧ o < 0x80) && s.on u F.CH_CTRL_EN) ||
    (decide (0xE0 ≤ o ∧ o < 0xF0 ∨ 0x408 ≤ o ∧ o < 0x414) && (s.on u F.SL_CTRL_EN || !(s.sluice a.val).ents.isEmpty)) ||
    (decide (0x5000 ≤ o ∧ o < 0x5200) && (o - 0x5000) / 0x100 == s.get u F.SV_LIM_BANK) ||
    ((c.f == F.YL_SB_TXC_TX_OP || c.f == F.YL_SB_TXD_TXD) && s.on u F.YL_SB_TXC_GO)
  | .stripe _ => decide (0x40 ≤ o ∧ o < 0x50) && (s.on u F.STR_CTRL_EN || !s.on u F.STR_STAT_IDLE)
  | .pcie _ => decide (0x1000 ≤ o ∧ o < 0x1400 ∧ o % 0x40 < 0x10) && (s.on u F.XR_CTRL_EN c.i || !s.on u F.XR_STAT_IDLE c.i)
  | .fnmgr => (c.f == F.FNT_QUEUES || c.f == F.FNT_VECTORS || c.f == F.FNT_SHARE) && s.fnCreated c.i
  | .headgate => decide (0x80 ≤ o ∧ o < 0x100 ∧ o % 16 < 8) &&
      (s.on u F.HG_CTRL_EN || (List.range 4).any fun k => s.get u F.IN_TAIL k != s.get u F.IN_HEAD k)
  | .wmap => decide (0x1000 ≤ o) && s.on u F.WMAP_CTRL_LOCK
  | .memmap => (decide (0x1000 ≤ o) || c.f == F.MEM_TOP) && s.on u F.MEMMAP_CTRL_LOCK
  | _ => false

/-- A write to a field is ignored without a record (R3, R259, R331). -/
def State.ignored (s : State) (u : UnitId) (c : CopyAt) : Bool :=
  match u with
  | .fn _ => (decide (0x1000 ≤ c.at_ / 8 ∧ c.at_ / 8 < 0x1400 ∧ c.at_ / 8 % 0x80 < 0x10) || c.f == F.QCTRL_CLASS || c.f == F.QCTRL_VECTOR) &&
      s.on u F.QSTAT_ENABLED c.i
  | .iow => decide (11 ≤ c.i)
  | _ => false

/-- The lock of an RWL field is set (R3). -/
def State.locked (s : State) (u : UnitId) (f : Fld) : Bool :=
  (allFlds u).any fun l => l.acc == .w1s && l.off == f.off && l.lo == f.lock && s.on u l

/-! ## Plain writes (R3) -/

/-- A field as a write leaves it; `s0` is the state before the write, which governs locks. -/
def State.plainField (s0 : State) (w : Wr) (s : State) (c : CopyAt) : State :=
  let old := s.get w.u c.f c.i c.j
  match c.f.acc with
  | .rw => s.put w.u c.f (w.merge c.f c.at_ old) c.i c.j
  | .rwl => if s0.locked w.u c.f then s else s.put w.u c.f (w.merge c.f c.at_ old) c.i c.j
  | .w1s => s.put w.u c.f (old ||| w.bits c.f c.at_) c.i c.j
  | .w1c => s.put w.u c.f (old &&& (2 ^ c.f.width - 1 - w.bits c.f c.at_)) c.i c.j
  | .ro | .wo | .rc => s

/-- CNT returns to 0 once no class bit is set (R513). -/
def State.errSettled (s : State) (u : UnitId) : State := if s.errBits u = 0 then s.put u F.UNIT_ERR_CNT 0 else s

/-- Class bits of an error summary cleared (R513). -/
def State.errClear (s : State) (u : UnitId) (mask : Nat) : State :=
  let drop := fun (s : State) (f : Fld) => if mask / 2 ^ f.lo % 2 = 1 then s.put u f 0 else s
  ([F.UNIT_ERR_CE, F.UNIT_ERR_UE, F.UNIT_ERR_DENIED, F.UNIT_ERR_HWFAULT].foldl drop s).errSettled u

/-- The fields of a write that takes effect as their access codes say. -/
def State.plainWrite (s : State) (w : Wr) : State :=
  let own := owned (unitKind w.u)
  (touched w.u w.o w.n).foldl (fun t c =>
    if c.f.ver ≤ w.ver ∧ (w.sec ∨ !c.f.sec) ∧ c.f ∉ own ∧ !s.frozen w.u c ∧ !s.ignored w.u c then s.plainField w t c else t) s

/-- A write that is recorded as a denied access: it touches a /S field, of whatever base code, from the normal world (R3), or a
field whose change the unit refuses at present. A route entry has its own rule (R329). -/
def State.writeDenied (s : State) (w : Wr) : Bool :=
  (touched w.u w.o w.n).any fun c =>
    decide (c.f.ver ≤ w.ver) && (((!w.sec && c.f.sec) && c.f != F.ROUTE_LOCK) ||
      (c.f.acc != .ro && c.f.acc != .rc && s.frozen w.u c))

/-! ## The commands of each page -/

/-- An actuator channel (R54, R58, R61, R83, R90, R105, R122, R123, R156, R161). -/
def State.actCommands (s : State) (w : Wr) (a : Fin 96) : State :=
  let s := match w.edge s F.YL_CTRL_EN with
    | some true => s.after (execLaneEnable a)
    | some false => s.after (execLaneDisable a)
    | none => s
  let s := if w.one F.YL_CTRL_RETRAIN then s.after (execRetrain a) else s
  let s := if w.one F.YL_CTRL_RETRACT then s.after (execRetract a) else s
  let s := match w.edge s F.YL_CTRL_SLEEP with
    | some true => s.after (execSleepRequest a)
    | some false => s.after (execSleepWake a)
    | none => s
  let s := if w.one F.YL_SB_TXC_GO then s.after (execGo a) else s
  let s := if w.one F.YL_SB_RXC_FULL then s.after (execSbRxRelease a) else s
  let s := match w.edge s F.CH_CTRL_EN with
    | some true => s.after (execChEnable a)
    | some false => s.after (execChDisable a)
    | none => s
  let s := if w.hit F.CH_CANCEL then s.after (execChCancel a (Fin.ofNat 65536 (w.val F.CH_CANCEL))) else s
  let s := match w.edge s F.SV_CTRL_EN with
    | some true => s.after (execSvEnable a)
    | some false => s.after (execSvDisable a)
    | none => if w.one F.SV_CTRL_EN && s.svState a == 8 then s.after (execSvEnable a) else s
  let s := if w.hit F.SV_CMD_OP then
      s.svCommand a (w.val F.SV_CMD_OP)
        ⟨w.val F.SV_CMD_PROF, w.val F.SV_CMD_HEAD, w.val F.SV_CMD_TRACK, signedOf (w.val F.SV_CMD_OFFSET) 16⟩
    else s
  let s := if w.one F.SV_LIM_SWAP then s.after (execCoefSwap a) else s
  let s := match w.edge s F.SL_CTRL_EN with
    | some true => s.after (execSlEnable a)
    | some false => s.after (execSlDisable a)
    | none => s
  let s := if w.hit F.SL_CANCEL then s.after (execSlCancel a (Fin.ofNat 65536 (w.val F.SL_CANCEL))) else s
  match (s.chan a.val).zcopy with
  | some z =>
    if decide (w.o < 0x1000 + 0x100 * (z + 1) ∧ 0x1000 + 0x100 * z < w.o + w.n) then s.setChan a.val { s.chan a.val with zdirty := true } else s
  | none => s

/-- A medium die's group unit (R151, R159). -/
def State.dieCommands (s : State) (w : Wr) (m : Fin 4) : State :=
  let new := fun (s : State) (f : Fld) => Fin.ofNat 4294967296 (w.merge f (copyBit f 0 0) (s.get w.u f))
  let s := if w.hit F.SLD_JTAIL then s.after (execSldJtailWrite m (new s F.SLD_JTAIL)) else s
  if w.hit F.SLD_JHEAD then s.after (execSldJheadWrite m (new s F.SLD_JHEAD)) else s

/-- A stripe engine (R180, R194, R196). -/
def State.stripeCommands (s : State) (w : Wr) (k : Fin 4) : State :=
  let s := match w.edge s F.STR_CTRL_EN with
    | some true => s.after (execStrEnable k)
    | some false => s.after (execStrDisable k)
    | none => s
  let mask := w.val F.STR_DOWN_LO + 2 ^ 64 * w.val F.STR_DOWN_HI
  if mask = 0 then s else s.after (execStrDownClear mask)

/-- The key engine (R188, R199). -/
def State.keyCommands (s : State) (w : Wr) : State :=
  if !w.hit F.KEY_CMD_OP then s
  else
    let op := w.val F.KEY_CMD_OP
    let sc := w.val F.KEY_CMD_SCOPE
    let slot : Fin 4096 := Fin.ofNat 4096 (w.val F.KEY_CMD_SLOT)
    let fn : Fin 1024 := Fin.ofNat 1024 (w.val F.KEY_CMD_FN)
    let ns : Fin 4 := Fin.ofNat 4 (w.val F.KEY_CMD_NS)
    if h : sc < 3 then
      match op with
      | 1 => if sc = 0 then s.after (execKeyLoad w.world slot fn ns) else s.after (execKeyCmdReserved w.world op sc)
      | 2 => s.after (execKeyRestore w.world ⟨sc, h⟩ slot)
      | 3 => s.after (execKeySuspend w.world ⟨sc, h⟩ slot fn)
      | 4 => s.after (execKeyResume w.world ⟨sc, h⟩ slot fn)
      | 5 => s.after (execKeyErase w.world ⟨sc, h⟩ slot fn)
      | _ => s.after (execKeyCmdReserved w.world op sc)
    else s.after (execKeyCmdReserved w.world op sc)

/-- The sweep (R204, R220). -/
def State.sweepCommands (s : State) (w : Wr) : State :=
  if !w.hit F.SWP_CMD_OP then s
  else
    let verify := w.val F.SWP_CMD_VERIFY != 0
    let shelf := w.val F.SWP_CMD_SHELF != 0
    let asm := w.val F.SWP_CMD_ASM
    match w.val F.SWP_CMD_OP with
    | 1 => s.after (execFormat w.world verify shelf asm)
    | 2 => s.after (execSanitise w.world (Fin.ofNat 4 (w.val F.SWP_CMD_METHOD)) (Fin.ofNat 4 (w.val F.SWP_CMD_PASSES)) verify shelf asm)
    | 3 => s.after (execResume w.world)
    | 4 => s.after (execAbort w.world)
    | op => s.after (execSwpCmdReserved w.world op)

/-- A port (R226, R247, R250, R254). -/
def State.pcieCommands (s : State) (w : Wr) (k : Fin 2) : State :=
  let s := match w.edge s F.PCIE_CTRL_EN with
    | some true => s.after (execPcieEnable k)
    | some false =>
      let s := s.put (.pcie k) F.PCIE_CTRL_EN 0
      if s.linkUp k then s.portDown k else s
    | none => s
  let s := match w.edge s F.PCIE_CTRL_CFG_READY with
    | some true => s.after (execCfgReady k)
    | some false => s.put (.pcie k) F.PCIE_CTRL_CFG_READY 0
    | none => s
  (List.finRange 16).foldl (fun s r => match w.edge s F.XR_CTRL_EN r.val with
    | some b => s.after (execXferRingEnable k r b)
    | none => s) s

/-- The function table (R229, R230, R232, R255). -/
def State.fnmgrCommands (s0 : State) (s : State) (w : Wr) : State :=
  let live := fun (f : Fld) (s : State) => (w.copies f).foldl (fun s c =>
    s.put .fnmgr f (w.merge f (copyBit f c.1 0) (s.get .fnmgr f c.1)) c.1) s
  let fs := [F.FNT_CLASSES, F.FNT_WEIGHT, F.FNT_QUOTA]
  let s := fs.foldl (fun s f => live f s) s
  let s := ((fs.flatMap fun f => (w.copies f).map fun c => c.1).eraseDups).foldl (fun s f => s.liveWritten f) s
  let s := (w.copies F.FNT_STATE).foldl (fun s c => match w.edge s F.FNT_STATE c.1 with
    | some true => s.after (execFnCreate (Fin.ofNat 1024 c.1))
    | some false => s.after (execFnFree (Fin.ofNat 1024 c.1))
    | none => s) s
  if [F.FNT_QUEUES, F.FNT_VECTORS, F.FNT_SHARE].any fun f => (w.copies f).any fun c => s0.fnCreated c.1 then s.raise .fnmgr F.FNM_EVT_DENIED
  else s

/-- A function's host view (R258–R262, R282, R288). -/
def State.fnCommands (s : State) (w : Wr) (f : Fin 1026) : State :=
  let s := if w.hit F.QP_CTRL_VER_REQ then s.after (execVerReqWrite f (Fin.ofNat 256 (w.val F.QP_CTRL_VER_REQ))) else s
  let s := (List.finRange 8).foldl (fun s q =>
    let s := match w.edge s F.QCTRL_EN q.val with
      | some true => s.after (execQueueEnable f q)
      | some false => s.after (execQueueDisable f q)
      | none => s
    let s := if w.hit F.QDB_SQ_TAIL q.val then s.after (execSqTail f q (Fin.ofNat 65536 (w.val F.QDB_SQ_TAIL q.val))) else s
    if w.hit F.QDB_CQ_HEAD q.val then s.after (execCqHead f q (Fin.ofNat 65536 (w.val F.QDB_CQ_HEAD q.val))) else s) s
  if h : f.val < 1024 then
    let s := if w.one F.MBH_STAT_TAKE then s.after (execTake (.host ⟨f.val, h⟩)) else s
    if w.hit F.MBH_OUT 0 3 then s.after (execMbCommit (.host ⟨f.val, h⟩) (s.get (.fn f) F.MBH_OUT 0 3)) else s
  else s

/-- The mailboxes: TAKE, and the commit that a write of OUT word 3 makes (R282, R283, R289). -/
def State.mboxCommands (s : State) (w : Wr) : State :=
  let run := fun (e : MbEnd) (take out : Fld) (i : Nat) (s : State) =>
    let s := if w.one take i then s.after (execTake e) else s
    if w.hit out i 3 then s.after (execMbCommit e (s.get .mbox out i 3)) else s
  let s := if w.o < 0x9000 then (w.copies F.MBF_OUT).foldl (fun s c =>
      if c.2 = 3 then run (.fw (Fin.ofNat 1024 c.1)) F.MBF_STAT_TAKE F.MBF_OUT c.1 s else s) s
    else (w.copies F.MBF_STAT_TAKE).foldl (fun s c => run (.fw (Fin.ofNat 1024 c.1)) F.MBF_STAT_TAKE F.MBF_OUT c.1 s) s
  let s := (List.finRange 16).foldl (fun s i => run (.normal i) F.MBN_STAT_TAKE F.MBN_OUT i.val s) s
  let s := (List.finRange 16).foldl (fun s i => run (.secure i) F.MBS_STAT_TAKE F.MBS_OUT i.val s) s
  run .smbFw F.MBB_STAT_TAKE F.MBB_OUT 0 s

/-- The headgate (R276, R280, R291). -/
def State.headgateCommands (s : State) (w : Wr) : State :=
  let s := match w.edge s F.HG_CTRL_EN with
    | some true => s.after execHgEnable
    | some false => { s.put .headgate F.HG_CTRL_EN 0 with hg := { s.hg with run := false } }
    | none => s
  let who := fun (v mask : Nat) (g : Fin 1024 → Bool → Fin 2 → Fin 256 → State → Res) =>
    g (Fin.ofNat 1024 v) (v / 1024 % 2 == 1) (Fin.ofNat 2 (v / 2048)) (Fin.ofNat 256 mask)
  let s := if w.hit F.HG_RESTART_FN then s.after (who (w.val F.HG_RESTART_FN) (w.val F.HG_RESTART_QMASK) fun fn pf port mask => execHgRestart fn pf port mask none) else s
  if w.hit F.HG_FREEZE then s.after (who (w.val F.HG_FREEZE) (w.val F.HG_FREEZE / 4096) execHgFreeze) else s

/-- A core (R518, R519). -/
def State.coreCommands (s : State) (w : Wr) (p : Fin 36) (c : Fin 8) : State :=
  if !w.one F.CORE_MCE_VALID then s
  else
    match s.logTile p.val with
    | some t => s.after (execCoreMceRelease (Fin.ofNat 256 (8 * t + c.val)) w.world)
    | none => s.put w.u F.CORE_MCE_VALID 0

/-- A route entry (R329): the normal world neither sets LEVEL 1 or 2 nor touches a locked entry; LOCK is the secure world's. -/
def State.routeWrite (s : State) (w : Wr) (i : Nat) : State :=
  let new := fun (f : Fld) => w.merge f (copyBit f i 0) (s.get .irq f i)
  let level := new F.ROUTE_LEVEL
  let lockToo := w.bits F.ROUTE_LOCK (copyBit F.ROUTE_LOCK i 0) != 0
  if !w.sec && (s.on .irq F.ROUTE_LOCK i || ((level == 1 || level == 2) && w.hit F.ROUTE_LEVEL i)) then s.denied .irq
  else
    let s' := (s.put .irq F.ROUTE_HART (new F.ROUTE_HART) i).put .irq F.ROUTE_LEVEL level i
    if w.sec then s'.put .irq F.ROUTE_LOCK (new F.ROUTE_LOCK) i else if lockToo then s'.denied .irq else s'

/-- The route entries that a write of the router's page touches, with whatever bytes of them (R329). -/
def routesTouched (w : Wr) : List Nat :=
  ((List.range (w.n / 8 + 2)).map fun k => (w.o - 0x1000) / 8 + k).filter fun i =>
    decide (0x1000 + 8 * i < w.o + w.n ∧ w.o < 0x1008 + 8 * i ∧ i < 3136)

/-- The router. -/
def State.irqCommands (s : State) (w : Wr) : State := (routesTouched w).foldl (fun s i => s.routeWrite w i) s

/-- The masters' worlds (R320, R331). -/
def State.iowCommands (s : State) (w : Wr) : State :=
  (List.finRange 14).foldl (fun s i =>
    if w.hit F.IOW_WORLD i.val then s.after (execIowWorldChange i (w.val F.IOW_WORLD i.val != 0) w.world) else s) s

/-- The range maintenance engine (R356, R361). -/
def State.rmeCommands (s : State) (w : Wr) : State :=
  let one := fun (ch : Fin 2) (op agent : Fld) (s : State) =>
    if !w.hit op then s
    else
      let ag : Fin 64 := Fin.ofNat 64 (w.val agent)
      match w.val op with
      | 1 => s.after (execClean ch ag w.world)
      | 2 => s.after (execCleanInv ch ag w.world)
      | 3 => s.after (execInv ch ag w.world)
      | 4 => s.after (execRecall ch ag w.world)
      | x => s.after (execRmeCmdReserved ch (Fin.ofNat 8 x) ag w.world)
  one 1 F.RME1_OP F.RME1_AGENT (one 0 F.RME0_OP F.RME0_AGENT s)

/-- A Valiez link (R399, R408, R413). -/
def State.vzCommands (s : State) (w : Wr) (n : Fin 45) : State :=
  let s := match w.edge s F.VZ_CTRL_ISOLATE with
    | some true => s.after (execIsolateSet n false)
    | some false => s.after (execIsolateClear n)
    | none => s
  let s := match w.edge s F.VZ_CTRL_EN with
    | some b => s.after (execVzEnable n b)
    | none => s
  if w.one F.VZ_CTRL_RETRAIN then s.after (execVzRetrain n (w.one F.VZ_CTRL_FULL)) else s

/-- PWR_CMD (R444, R464). -/
def State.aonCommands (s : State) (w : Wr) : State :=
  if !w.hit F.PWR_CMD then s
  else
    match w.val F.PWR_CMD with
    | 1 => s.after (execServe w.world)
    | 2 => s.after (execStill w.world)
    | 3 => s.after (execShutdown w.world)
    | 4 => s.after (execRestart w.world)
    | op => s.after (execPwrCmdReserved (Fin.ofNat 16 op) w.world)

/-- hub/pwr (R447, R448, R450, R465–R468). -/
def State.pwrCommands (s : State) (w : Wr) : State :=
  let s := if w.hit F.PWR_HOLD then
      s.after (execPwrHoldWrite (BitVec.ofNat 43 (w.merge F.PWR_HOLD (copyBit F.PWR_HOLD 0 0) (s.get .pwr F.PWR_HOLD))) w.world)
    else s
  let s := (w.copies F.PWR_DOM_DOM_REQ).foldl (fun s c =>
    s.after (execDomReq (Fin.ofNat 43 c.1) (w.val F.PWR_DOM_DOM_REQ c.1 != 0) w.world)) s
  (w.copies F.TILE_FREQ_FREQ).foldl (fun s c => s.after (execTileFreqWrite (Fin.ofNat 32 c.1) (Fin.ofNat 64 (w.val F.TILE_FREQ_FREQ c.1)))) s

/-- hub/cfg (R483, R485, R489, R495, R496). -/
def State.cfgCommands (s : State) (w : Wr) : State :=
  let s := if w.hit F.LC_CMD then
      match w.val F.LC_CMD with
      | 1 => s.after (execProvision w.world)
      | 2 => s.after (execDeploy w.world)
      | 3 => s.after (execDiag w.world)
      | 4 => s.after (execUndiag w.world)
      | 5 => s.after (execRetire w.world)
      | 6 => s.after (execDiagMode w.world)
      | 7 => s.after (execStoreRec w.world)
      | op => s.after (execLcCmdReserved (Fin.ofNat 16 op) w.world)
    else s
  let s := if w.hit F.CFG_START_GO then
      s.after (execCfgStart (Fin.ofNat 32 (w.val F.CFG_START_TILE)) (w.val F.CFG_START_GO != 0) w.world)
    else s
  if w.hit F.TILE_CMD_OP then
    let t : Fin 32 := Fin.ofNat 32 (w.val F.TILE_CMD_TILE)
    match w.val F.TILE_CMD_OP with
    | 1 => s.after (execTileRetire t w.world)
    | 2 => s.after (execTileAdd t w.world)
    | 3 => s.after (execTileSwap t w.world)
    | _ => s.after (execTileCmdReserved t w.world)
  else s

/-- hub/stest (R508, R511). -/
def State.stestCommands (s : State) (w : Wr) : State :=
  if !w.hit F.ST_CMD_OP then s
  else
    let u : Fin 64 := Fin.ofNat 64 (w.val F.ST_CMD_UNIT)
    match w.val F.ST_CMD_OP with
    | 1 => s.after (execTest u (Fin.ofNat 16 (w.val F.ST_CMD_CLASS)) w.world)
    | 2 => s.after (execFuse u w.world)
    | 3 => s.after (execClearSoft u w.world)
    | op => s.after (execStCmdReserved (Fin.ofNat 16 op) w.world)

/-- hub/pmu (R529). -/
def State.pmuCommands (s : State) (w : Wr) : State :=
  let s := (w.copies F.PMU_WSEL).foldl (fun s c =>
    s.put .pmu F.PMU_WSEL (if w.sec then w.merge F.PMU_WSEL (copyBit F.PMU_WSEL c.1 0) (s.get .pmu F.PMU_WSEL c.1) else 0) c.1) s
  let s := (w.copies F.PMU_COUNT).foldl (fun s c =>
    s.after (execCounterWrite (Fin.ofNat 16 c.1) (BitVec.ofNat 32 (w.merge F.PMU_COUNT (copyBit F.PMU_COUNT c.1 0) (s.get .pmu F.PMU_COUNT c.1))) 0)) s
  let s := match w.edge s F.PMU_CTRL_FREEZE with
    | some b => s.after (execPmuFreeze b)
    | none => s
  if w.one F.PMU_CTRL_CLEAR then s.after execPmuClear else s

/-- The commands that a write starts; `s0` is the state before the write. -/
def State.commands (s0 s : State) (w : Wr) : State :=
  match w.u with
  | .act a => s.actCommands w a
  | .med m => s.dieCommands w m
  | .stripe k => s.stripeCommands w k
  | .key => s.keyCommands w
  | .sweep => s.sweepCommands w
  | .pcie k => s.pcieCommands w k
  | .fnmgr => s0.fnmgrCommands s w
  | .fn f => s.fnCommands w f
  | .mbox => s.mboxCommands w
  | .headgate => s.headgateCommands w
  | .core p c => s.coreCommands w p c
  | .irq => s.irqCommands w
  | .wmap => if w.one F.WMAP_CTRL_COMMIT then s.after (execWmapCommit w.world) else s
  | .iow => s.iowCommands w
  | .rme => s.rmeCommands w
  | .memmap =>
    let s := if w.one F.MEMMAP_CTRL_COMMIT then s.after (execMemmapCommit w.world) else s
    if w.one F.FILL_GO then s.after (execFillGo w.world) else s
  | .vz n => s.vzCommands w n
  | .therm => if w.one F.THM_EVT_TRIP then s.after execTripClear else s
  | .aon => s.aonCommands w
  | .pwr => s.pwrCommands w
  | .cfg => s.cfgCommands w
  | .stest => s.stestCommands w
  | .err => if w.one F.ERR_CTRL_FORCE then s.after (execForce w.world) else s
  | .pmu => s.pmuCommands w
  | .trace => if w.hit F.TRC_MARK then s.after (execTrcMark (BitVec.ofNat 32 (w.val F.TRC_MARK))) else s
  | .tile _ | .hub | .home _ | .mc _ | .xbar | .keep => s

/-- The group unit that records a write to a unit that is not ready (R478). -/
def groupOf : UnitId → UnitId
  | .tile p | .core p _ => .tile p
  | .med m => .med m
  | .act a => .med (dieOf a)
  | .keep => .keep
  | _ => .hub

/-- A write of `n` bytes at offset `o` of a unit's page (R3, R478): an access is recorded as denied once, by the command that it
starts or here. -/
def State.unitWrite (s : State) (sec : Bool) (u : UnitId) (o n v : Nat) : State :=
  let w : Wr := ⟨sec, u, unitVer s.build u, o, n, v⟩
  if o < 0x40 then (s.plainWrite w).errSettled u
  else if !s.unitReady u then s.denied (groupOf u)
  else
    let t := s.commands (s.plainWrite w) w
    if s.writeDenied w && t.get u F.UNIT_ERR_CNT == s.get u F.UNIT_ERR_CNT then t.denied u else t

end Sys2Proof.Machine
end

