-- ==== Sys2Proof/Machine/Bus.lean ====
section
/-! DEFINITION. The register space as an address reaches it, and NC accesses of MRAM and unit registers (R11, R189, R214, R293,
R295, R301, R385, R392, R408, R462, R478, R481, R482, R486, R498, R534–R538). -/

namespace Sys2Proof.Machine

open Sys2Proof

/-! ## Addresses of unit pages -/

/-- What an address of the unit register space reaches: a unit's page through a die slot, the window of an absent logical tile
(its sub-unit 0 for the group unit, 1 + N for core N), or an error response with its cause. -/
inductive BusAt where
  | unit (u : UnitId) (slot : Nat)
  | absent (t k : Nat)
  | refused (cause : Nat)
  deriving DecidableEq, Repr

/-- First byte of the unit register space (R295). -/
def unitSpace : Nat := 0x00F000000000

/-- The unit is isolated by a test of its own (R498): it has begun, may begin now, or its INIT did not pass. -/
def State.underTest (s : State) (u : UnitId) : Bool :=
  match testIndex u with
  | none => false
  | some k => (s.st.iso.any fun e => e.1 == k) || s.st.active.any fun t => (t.todo.any fun e => e.1 == k) && mayRun t k

/-- The link through which NC accesses reach a unit is isolated (R392, R408, R535). -/
def State.unitIsolated (s : State) (u : UnitId) : Bool :=
  let iso := fun (n : Nat) => if h : n < 45 then s.on (.vz ⟨n, h⟩) F.VZ_CTRL_ISOLATE else false
  match u with
  | .tile p | .core p _ => iso p.val
  | .med m => iso (s.dieLink m.val 0)
  | .act a => iso (s.dieLink (dieOf a).val 0)
  | .keep => iso 44
  | _ => false

/-- A page that an access reaches, unless its unit is isolated. -/
def State.reach (s : State) (u : UnitId) (slot : Nat) : BusAt :=
  if s.unitIsolated u || s.underTest u then .refused 6 else .unit u slot

/-- A tile operation on a logical tile is in steps 4 to 7 (R486). -/
def State.tileOpCloses (s : State) (t : Nat) : Bool :=
  s.on .cfg F.CFG_TILE_STAT_BUSY && s.get .cfg F.TILE_CMD_TILE == t && decide (4 ≤ s.get .cfg F.CFG_TILE_STAT_STEP)

/-- The window of logical tile `t`, sub-unit `k` (R481, R482, R486). -/
def State.windowAt (s : State) (t k : Nat) : BusAt :=
  if 32 ≤ t ∨ 9 ≤ k then .refused 4
  else if s.tileOpCloses t then .refused 6
  else
    match s.physTile t with
    | none => .absent t k
    | some p => s.reach (if k = 0 then .tile p else .core p (Fin.ofNat 8 (k - 1))) 40

/-- The page of an address of the unit register space (R11, R535–R537). -/
def State.busAt (s : State) (a : Nat) : BusAt :=
  let slot := (a - unitSpace) / 2 ^ 32
  let sub := (a - unitSpace) / 2 ^ 16 % 2 ^ 16
  if slot = 40 ∧ 0x1000 ≤ sub then s.windowAt ((sub - 0x1000) / 16) ((sub - 0x1000) % 16)
  else
    match unitAt slot sub with
    | some u => s.reach u slot
    | none => .refused 4

/-- Word `k` (64 bits) of the header of an absent tile's window: a unit that is not ready, whose domain is off (R482, R540, R541,
R545, R546). -/
def absentWord (t sub k : Nat) : Nat :=
  if k = 0 then
    placed (if sub = 0 then 0x02 else 0x01) 0 8 + placed (if sub = 0 then t else 8 * t + (sub - 1)) 8 12 + placed 40 20 6 +
      placed (Config.absentVer t sub) 32 24
  else if k = 3 then placed 2 0 2 + placed 63 8 6
  else if k = 4 then 63
  else 0

/-- `n` bytes at an offset of an absent tile's window. -/
def absentVal (t sub o n : Nat) : Nat := if o < 0x40 then absentWord t sub (o / 8) / 2 ^ (8 * (o % 8)) % 2 ^ (8 * n) else 0

/-! ## NC accesses (R385) -/

/-- What an NC access is answered with: bytes and whether they are poisoned, an acknowledgement, or an error's cause. -/
inductive NcAns where
  | value (bs : List Byte) (poison : Bool)
  | ack
  | err (cause : Nat)
  deriving DecidableEq, Repr

/-- The bytes of a range of MRAM are poisoned. -/
def State.mramPoisoned (s : State) (a n : Nat) : Bool :=
  (List.range n).any fun i => inMask (tget 0 s.poison ((a + i) / 64)) ((a + i) % 64)

/-- An NC read of `n` bytes by a port in a world (R189, R295, R301, R392, R462, R478, R535). -/
def State.ncRead (s : State) (sec : Bool) (port a n : Nat) : State × NcAns :=
  if n = 0 || a % n != 0 then (s, .err 3)
  else if inMram a n then
    if !s.worldOk sec a n then (s.denied .hub, .err 1)
    else if s.inKeystore a n && port != 47 then (s.denied .hub, .value (List.replicate n 0) false)
    else (s, .value (s.mramBytes (a - mramBase) n) (s.mramPoisoned a n))
  else if regionOf a == .unit then
    if 8 < n then (s, .err 3)
    else
      match s.busAt a with
      | .unit u slot =>
        let (s, v) := s.unitRead sec u slot (a % 2 ^ 16) n
        (s, .value (leBytes n v) false)
      | .absent t k => (s, .value (leBytes n (absentVal t k (a % 2 ^ 16) n)) false)
      | .refused c => (s, .err c)
  else (s, .err (if a < dramSize then 3 else 4))

/-- An NC write by a port in a world (R189, R214, R301, R392, R462, R478, R535). A write to the window of an absent tile meets a
unit that is not ready. -/
def State.ncWrite (s : State) (sec : Bool) (port a : Nat) (bs : List Byte) : State × NcAns :=
  let n := bs.length
  if n = 0 || a % n != 0 then (s, .err 3)
  else if inMram a n then
    if !s.worldOk sec a n then (s.denied .hub, .err 1)
    else if (s.inKeystore a n && port != 47) || (s.inProgress a n && port != 48) || inPkgArea a n then (s.denied .hub, .ack)
    else ((s.mramClear a n).putMram (a - mramBase) bs, .ack)
  else if regionOf a == .unit then
    if 8 < n then (s, .err 3)
    else
      match s.busAt a with
      | .unit u _ => (s.unitWrite sec u (a % 2 ^ 16) n (leNat bs), .ack)
      | .absent _ _ => (if a % 2 ^ 16 < 0x40 then s else s.denied .hub, .ack)
      | .refused c => (s, .err c)
  else (s, .err (if a < dramSize then 3 else 4))

/-! ## The messages of an NC access (R385, R387, R395) -/

/-- The port that answers an NC access of an address (R387, R392). -/
def ncTarget (a : Nat) : Nat :=
  if regionOf a == .unit then
    let slot := (a - unitSpace) / 2 ^ 32
    if slot < 36 then slot else if 44 ≤ slot ∧ slot < 48 then 36 + (slot - 44) else if slot = 48 then 58 else 59
  else if regionOf a == .mram then 58 else 59

/-- The hart that makes an NC access through a tile's port: one of that tile's. -/
def State.ncHart (s : State) (port : Nat) (by_ : NcBy) : Option Nat :=
  by_.hart.bind fun h => if (s.physTile (h.val / 8)).any fun p => p.val == port then some h.val else none

/-- The world of an NC access: an internal master's own, a hart's as it sent it (R301, R320). -/
def State.ncWorld (s : State) (port : Nat) (by_ : NcBy) : Bool :=
  match masterOf port with
  | some i => if i < 13 then s.masterSecure i else by_.w == .secure
  | none =>
    match s.ncHart port by_ with
    | some h => (s.hart h).w
    | none => by_.w == .secure

/-- The links on the way of an NC access are Active; where the far one is isolated, the hub answers in its place (R392, R399, R408). -/
def State.ncPasses (s : State) (port a : Nat) : Bool :=
  let up := fun (p : Nat) => s.passes ⟨.ncAck, a, p, 59, 0, 0⟩
  let far := (s.linkAt ⟨.ncAck, a, port, ncTarget a, 0, 0⟩ (ncTarget a)).any fun n => if h : n < 45 then s.on (.vz ⟨n, h⟩) F.VZ_CTRL_ISOLATE else false
  up port && (far || up (ncTarget a))

/-- A port may send an NC access: it holds no request under the transaction, its link passes it, and its windows allow it (R321). -/
def State.ncStart (s : State) (port txn a n : Nat) (write : Bool) (go : State → State) : State :=
  if (s.reqs.any fun r => r.port == port && r.txn == txn) || (s.heldTxn.any fun e => e.port == port && e.txn == txn) || !s.ncPasses port a then s
  else
    match masterOf port with
    | some i => if s.windowOk i write a n then go s else (s.emit (.err 2)).refusedAt port write 2
    | none => if n ≤ 8 then go s else s

/-- The target's answer under way to the port. -/
def State.ncAnswer (s : State) (port txn a : Nat) (ans : NcAns) : State :=
  let kind := match ans with
    | .value bs p => MsgKind.ncData bs p
    | .ack => .ncAck
    | .err c => .ncErr c
  s.send ⟨kind, a, ncTarget a, port, txn, 0⟩

/-- NC_RD: the target serves a read of 2 to the power `lg` bytes and answers (R385). -/
def execNcRd (port : Fin 50) (txn : Fin 1024) (addr : BitVec 52) (lg : Fin 7) (w : NcBy) (s : State) : Res :=
  let a := addr.toNat
  let n := 2 ^ lg.val
  .next (s.clean.ncStart port.val txn.val a n false fun s =>
    let q : OReq := { port := port.val, txn := txn.val, line := a, op := none, hart := s.ncHart port.val w }
    let (s, ans) := ({ s with reqs := s.reqs ++ [q] }).ncRead (s.ncWorld port.val w) port.val a n
    s.ncAnswer port.val txn.val a ans)

/-- NC_WR: the target serves a write and answers (R385); the bytes written are 1, 2, 4, 8, 16, 32 or 64. -/
def execNcWr (port : Fin 50) (txn : Fin 1024) (addr : BitVec 52) (data : List Byte) (w : NcBy) (s : State) : Res :=
  let a := addr.toNat
  let n := data.length
  .next (if [1, 2, 4, 8, 16, 32, 64].contains n then
    s.clean.ncStart port.val txn.val a n true fun s =>
      let q : OReq := { port := port.val, txn := txn.val, line := a, op := none, nc := true, hart := s.ncHart port.val w }
      let (s, ans) := ({ s with reqs := s.reqs ++ [q] }).ncWrite (s.ncWorld port.val w) port.val a data
      s.ncAnswer port.val txn.val a ans
    else s.clean)

/-- NC_DATA (R385, R395). -/
def execNcData (port : Fin 50) (txn : Fin 1024) (s : State) : Res :=
  .next (s.clean.toPort port.val txn.val fun k => match k with | .ncData _ _ => true | _ => false)

/-- NC_ACK (R385, R395). -/
def execNcAck (port : Fin 50) (txn : Fin 1024) (s : State) : Res :=
  .next (s.clean.toPort port.val txn.val fun k => match k with | .ncAck => true | _ => false)

/-! ## Error summaries -/

/-- UNIT_ERR_CLEAR: a write of ones to the class bits of a unit's error summary (R513). -/
def execUnitErrClear (u : UnitId) (mask : Fin 16) (s : State) : Res := .next (s.clean.errClear u mask.val)

end Sys2Proof.Machine
end

