-- ==== Sys2Proof/Machine/CsrFile.lean ====
section
/-! DEFINITION. A hart's CSRs as an instruction or the debug module sees them: which exist, who may reach them, what they read, and
what a write leaves; and REGISTER_WRITE (R3, R292, R294, R297, R298, R311, R312, R315, R323–R327, R516, R526, R528). The standard
CSRs' own layouts are those of the RISC-V privileged specification 1.12 (R292). -/

namespace Sys2Proof.Machine

open Sys2Proof

/-! ## Fields -/

/-- Bits of `old` in a mask replaced by those of `v`. -/
def maskIn (mask old v : Nat) : Nat := (old &&& (2 ^ 64 - 1 - mask % 2 ^ 64)) ||| (v &&& mask)

/-- A word with the bits of a list of codes. -/
def codeBits (l : List Nat) : Nat := l.foldl (fun x c => x ||| 2 ^ c) 0

/-- The S fields of mstatus: SIE, SPIE, SPP, VS, FS, SUM, MXR (R298). -/
def sFields : Nat := codeBits [1, 5, 8, 9, 10, 13, 14, 18, 19]
/-- The M fields of mstatus: MIE, MPIE, MPP, MPRV, TVM, TW, TSR, GVA, MPV. -/
def mFields : Nat := codeBits [3, 7, 11, 12, 17, 20, 21, 22, 38, 39]
/-- The fields of hstatus: GVA, SPV, SPVP, HU, VTVM, VTW, VTSR. -/
def hFields : Nat := codeBits [6, 7, 8, 9, 20, 21, 22]
/-- The fields of jfault (R315). -/
def faultFields : Nat := 0x80FFFFFFFFFFF3FF
/-- The exceptions that medeleg can delegate: machine checks (25) and calls from M (11) are not among them (R516). -/
def medelegFields : Nat := codeBits [0, 1, 2, 3, 4, 5, 6, 7, 8, 9, 10, 12, 13, 15, 20, 21, 22, 23, 24]
/-- The exceptions that hedeleg can delegate. -/
def hedelegFields : Nat := codeBits [0, 1, 2, 3, 4, 5, 6, 7, 8, 12, 13, 15, 24]

/-- FS or VS of a status word that is not off. -/
def unitOn (lo st : Nat) : Bool := bitsOf st lo 2 != 0

/-- The floating-point (13) or vector (9) state may be used: its field is not off where the hart's world and V look. -/
def extOn (h : Hart) (lo : Nat) : Bool :=
  unitOn lo (csr h (bankNow h + 0x100)) && (!h.v || unitOn lo (csr h 0x200))

/-- The floating-point or vector state is dirty. -/
def extDirty (h : Hart) (lo : Nat) : Hart :=
  let h := setBits h (bankNow h + 0x100) lo 2 3
  if h.v then setBits h 0x200 lo 2 3 else h

/-- A status word as sstatus shows it: its fields, UXL 2 and SD. -/
def statusWord (st : Nat) : Nat :=
  (st &&& sFields) + 2 * 2 ^ 32 + (if bitsOf st 13 2 = 3 ∨ bitsOf st 9 2 = 3 then 2 ^ 63 else 0)

/-! ## Which CSRs exist, and who may write them (R292, R297, R298, R323) -/

/-- A number of the Xjuh set (R323). -/
def isXjuh (k : Nat) : Bool :=
  k == 0x5C0 || k == 0x5C1 || k == 0x5C2 || k == 0x6C1 || decide (0x7C0 ≤ k ∧ k ≤ 0x7C2) || decide (0x7E3 ≤ k ∧ k ≤ 0x7FF) ||
  decide (0xCC0 ≤ k ∧ k ≤ 0xCC3)

/-- A CSR that the profile of R292 has. -/
def csrKnown (k : Nat) : Bool :=
  isXjuh k || [1, 2, 3, 8, 9, 0xA, 0xF, 0x100, 0x104, 0x105, 0x106, 0x10A, 0x140, 0x141, 0x142, 0x143, 0x144, 0x180, 0x200, 0x204, 0x205,
    0x240, 0x241, 0x242, 0x243, 0x244, 0x280, 0x300, 0x301, 0x302, 0x303, 0x304, 0x305, 0x306, 0x30A, 0x320, 0x340, 0x341, 0x342,
    0x343, 0x344, 0x34A, 0x34B, 0x3A0, 0x3A2, 0x600, 0x602, 0x603, 0x604, 0x605, 0x606, 0x607, 0x60A, 0x643, 0x644, 0x645, 0x64A, 0x680,
    0x7A0, 0x7A1, 0x7A2, 0x7A3, 0x7A4, 0xB00, 0xB02, 0xC20, 0xC21, 0xC22, 0xE12, 0xF11, 0xF12, 0xF13, 0xF14, 0xF15].contains k ||
  decide (0x323 ≤ k ∧ k ≤ 0x33F) || decide (0x3B0 ≤ k ∧ k ≤ 0x3BF) || decide (0xB03 ≤ k ∧ k ≤ 0xB1F) || decide (0xC00 ≤ k ∧ k ≤ 0xC1F)

/-- What an instruction that writes a CSR raises. -/
inductive CsrExc where
  | illegal | virtual
  deriving DecidableEq, Repr

/-- Who may write a register of the Xjuh set (R323, R528); V = 0. -/
def xjuhWrites (h : Hart) (k : Nat) : Bool :=
  if h.priv = 3 then true
  else if h.priv = 0 then false
  else if k = 0x5C0 then h.w
  else if k = 0x6C1 then !h.w
  else k == 0x5C1 || k == 0x5C2

/-- The exception that a read of a counter meets where mcounteren, hcounteren or scounteren does not enable its bit (R292). -/
def counterRefusal (h : Hart) (bitNo : Nat) : Option CsrExc :=
  let off := fun (k : Nat) => csr h k / 2 ^ bitNo % 2 == 0
  if h.priv = 3 then none
  else if off 0x306 then some .illegal
  else if h.v && off 0x606 then some .virtual
  else if h.priv = 0 && off 0x106 then some (if h.v then .virtual else .illegal) else none

/-- The exception that an instruction meets at a CSR, if any, as it writes it or only reads it. The top-down counters are read
where cycle is (R323). -/
def csrRefusal (h : Hart) (k : Nat) (write : Bool) : Option CsrExc :=
  let m := csr h 0x300
  let hs := csr h 0x600
  if 0xCC0 ≤ k ∧ k ≤ 0xCC3 then
    if h.v then (if write || (counterRefusal h 0).isSome then some .virtual else none)
    else if write then some .illegal else counterRefusal h 0
  else if !write && decide (0xC00 ≤ k ∧ k ≤ 0xC1F) then counterRefusal h (k - 0xC00)
  else if isXjuh k then
    if h.v then some .virtual else if xjuhWrites h k then none else some .illegal
  else if !csrKnown k || (write && k / 1024 == 3) then some .illegal
  else
    match k / 256 % 4 with
    | 3 => if h.priv = 3 then none else some .illegal
    | 2 =>
      if h.v then some .virtual
      else if h.priv = 3 then none
      else if h.priv = 0 || h.w || (k == 0x680 && bitsOf m 20 1 == 1) then some .illegal else none
    | 1 =>
      if h.priv = 3 then none
      else if h.v then (if h.priv = 0 || (k == 0x180 && bitsOf hs 20 1 == 1) then some .virtual else none)
      else if h.priv = 0 || (k == 0x180 && bitsOf m 20 1 == 1) then some .illegal else none
    | _ => if extOn h (if k ≤ 3 then 13 else 9) then none else some .illegal

/-- The S-level number that V = 1 exchanges for its VS register. -/
def vsNumber (k : Nat) : Nat :=
  if [0x100, 0x104, 0x105, 0x140, 0x141, 0x142, 0x143, 0x144, 0x180].contains k then k + 0x100 else k

/-- The key at which a CSR's own bits are stored, for an access that reaches bank `b` (R298). -/
def csrKey (b k : Nat) : Nat :=
  if [0x100, 0x104, 0x105, 0x140, 0x141, 0x142, 0x143, 0x144, 0x180, 0x5C1].contains k then b + k else k

/-! ## Reading -/

/-- Counter `n` as its user number reads: cycle, time, instret, or a hardware performance counter. -/
def State.counterRead (s : State) (h : Hart) (n : Nat) : Nat :=
  if n = 1 then (s.get .irq F.PKG_TIME + (if h.v then csr h 0x605 else 0)) % 2 ^ 64 else csr h (0xB00 + n)

/-- PMP address `i` as it reads at a granularity of 4 KiB: with NAPOT its lowest nine bits are 1, else its lowest ten are 0 (R292;
the form is the privileged specification's). -/
def pmpAddrRead (h : Hart) (i : Nat) : Nat :=
  let own := csr h (0x3B0 + i)
  if csr h (0x3A0 + i / 8 * 2) / 256 ^ (i % 8) % 256 / 8 % 4 = 3 then own ||| 511 else own / 1024 * 1024

/-- A CSR's value for hart `n`, through bank `b`; V's exchange of numbers is done. -/
def State.csrRead (s : State) (n b k : Nat) : Nat :=
  let h := s.hart n
  let own := csr h (csrKey b k)
  let deleg := csr h 0x303
  let vsPend := codeBits (vsPending h)
  let sPend := codeBits (s.sPending n (b != 0))
  let hid := csr h 0x603
  match k with
  | 0x001 => csr h 3 % 32
  | 0x002 => csr h 3 / 32 % 8
  | 0x00F => csr h 9 % 2 + 2 * (csr h 0xA % 4)
  | 0x100 | 0x200 => statusWord own
  | 0x104 => own &&& deleg &&& 0x222
  | 0x144 => sPend &&& deleg
  | 0x204 => (csr h 0x604 &&& hid) / 2
  | 0x244 => (vsPend &&& hid) / 2
  | 0x300 => (csr h 0x300 &&& mFields) + statusWord (csr h (b + 0x100)) + 2 * 2 ^ 34
  | 0x301 => 2 * 2 ^ 62 + codeBits [0, 2, 3, 5, 7, 8, 12, 18, 20, 21, 23]
  | 0x303 => deleg + 0x444
  | 0x304 => csr h 0x304 + (csr h (b + 0x104) &&& 0x222) + csr h 0x604
  | 0x344 => codeBits (s.mPending n) + sPend + vsPend
  | 0x600 => csr h 0x600 + 2 * 2 ^ 32
  | 0x607 | 0xE12 | 0xF11 => 0
  | 0x644 | 0x645 => vsPend
  | 0x7A1 | 0x7A2 | 0x7A3 => csr h (8192 + 4 * csr h 0x7A0 + (k - 0x7A0))
  | 0x7A4 => codeBits [3, 6]
  | 0x7C0 => csr h 0x7C0 % 4 + 4 * bit h.w
  | 0xC22 => 32
  | 0xF12 => 0x8000000000009648
  | 0xF13 => ((s.physTile (n / 8)).map fun p => stepOfTile s.build p.val).getD 0
  | 0xF14 => n
  | 0xF15 => 0
  | _ =>
    if 0xC00 ≤ k ∧ k ≤ 0xC1F then s.counterRead h (k - 0xC00)
    else if 0x3B0 ≤ k ∧ k ≤ 0x3BF then pmpAddrRead h (k - 0x3B0) else own

/-! ## Writing -/

/-- A PMP configuration byte as a write leaves it: locked bytes stay; NA4 does not exist at a granularity of 4 KiB, and W without
R is reserved. -/
def pmpCfgByte (old new : Nat) : Nat :=
  let v := new &&& 0x9F
  if old / 128 % 2 = 1 ∨ v / 8 % 4 = 2 ∨ v % 4 = 2 then old else v

/-- Eight PMP configuration bytes written. -/
def pmpCfgWord (old new : Nat) : Nat :=
  (List.range 8).foldl (fun x i => x + pmpCfgByte (old / 256 ^ i % 256) (new / 256 ^ i % 256) * 256 ^ i) 0

/-- The configuration byte of PMP entry `i`. -/
def pmpCfgOf (h : Hart) (i : Nat) : Nat := csr h (0x3A0 + i / 8 * 2) / 256 ^ (i % 8) % 256

/-- PMP address `i` is locked, by its own entry or by a locked TOR entry above it. -/
def pmpAddrLocked (h : Hart) (i : Nat) : Bool :=
  pmpCfgOf h i / 128 % 2 == 1 || (decide (i < 15) && pmpCfgOf h (i + 1) / 128 % 2 == 1 && pmpCfgOf h (i + 1) / 8 % 4 == 1)

/-- A translation root register written: a mode that is not Bare, Sv39, Sv48 or Sv57 leaves it unchanged (R312). -/
def rootWrite (old v mask : Nat) : Nat := if [0, 8, 9, 10].contains (v / 2 ^ 60) then v &&& mask else old

/-- An address with its lowest bit, or of xtvec the bit that no mode uses, cleared. -/
def tvecWord (v : Nat) : Nat := v &&& (2 ^ 64 - 1 - 2)

/-- mstatus's M fields written: MPP 2 is no level and leaves MPP. -/
def mstatusWord (old v : Nat) : Nat :=
  if bitsOf v 11 2 = 2 then maskIn (mFields - 3 * 2 ^ 11) old v else maskIn mFields old v

/-- A trigger's first word: types 6 and 3, and 15 or 0 for none (R530). -/
def tdata1Word (old v : Nat) : Nat := if [0, 3, 6, 15].contains (v / 2 ^ 60) then v &&& (2 ^ 64 - 1 - 2 ^ 59) else old

/-- A hart after a write of CSR `k` through bank `b`; V's exchange of numbers is done. -/
def csrWrite (h : Hart) (b k v : Nat) : Hart :=
  let key := csrKey b k
  let own := csr h key
  let set := fun (x : Nat) => setCsr h key x
  let deleg := csr h 0x303
  let hid := csr h 0x603
  match k with
  | 0x001 => extDirty (setCsr h 3 (csr h 3 / 32 * 32 + v % 32)) 13
  | 0x002 => extDirty (setCsr h 3 (csr h 3 % 32 + v % 8 * 32)) 13
  | 0x003 => extDirty (set (v % 256)) 13
  | 0x008 => extDirty (set (v % 256)) 9
  | 0x009 => extDirty (set (v % 2)) 9
  | 0x00A => extDirty (set (v % 4)) 9
  | 0x00F => extDirty (setCsr (setCsr h 9 (v % 2)) 0xA (v / 2 % 4)) 9
  | 0x100 | 0x200 => set (maskIn sFields own v)
  | 0x104 => set (maskIn (deleg &&& 0x222) own v)
  | 0x105 | 0x205 | 0x305 => set (tvecWord v)
  | 0x106 | 0x306 | 0x606 => set (v % 2 ^ 32)
  | 0x10A | 0x30A | 0x60A => set (v % 2)
  | 0x141 | 0x241 | 0x341 => set (v / 2 * 2)
  | 0x144 => set (maskIn (deleg &&& 2) own v)
  | 0x180 | 0x280 => set (rootWrite own v (2 ^ 64 - 1))
  | 0x680 => set (rootWrite own v (0xF3FFFFFFFFFFFFFF - (if v / 2 ^ 60 = 0 then 0 else 3)))
  | 0x204 => setCsr h 0x604 (maskIn (hid &&& 0x444) (csr h 0x604) (2 * v))
  | 0x244 => setCsr h 0x645 (maskIn (hid &&& 4) (csr h 0x645) (2 * v))
  | 0x300 =>
    let g := setCsr h 0x300 (mstatusWord (csr h 0x300) v)
    setCsr g (b + 0x100) (maskIn sFields (csr h (b + 0x100)) v)
  | 0x301 | 0x607 | 0x7A4 => h
  | 0x302 => set (v &&& medelegFields)
  | 0x303 => set (v &&& 0x222)
  | 0x304 => setCsr (setCsr (setCsr h 0x304 (v &&& 0x888)) (b + 0x104) (v &&& 0x222)) 0x604 (v &&& 0x444)
  | 0x320 => set (v &&& 0xFFFFFFFD)
  | 0x344 => setCsr (setCsr h (b + 0x144) (maskIn 0x222 (csr h (b + 0x144)) v)) 0x645 (maskIn 4 (csr h 0x645) v)
  | 0x3A0 | 0x3A2 => set (pmpCfgWord own v)
  | 0x600 => set (maskIn hFields own v)
  | 0x602 => set (v &&& hedelegFields)
  | 0x603 | 0x604 | 0x645 => set (v &&& 0x444)
  | 0x644 => setCsr h 0x645 (maskIn 4 (csr h 0x645) v)
  | 0x5C0 => set (v % 8)
  | 0x5C1 | 0x6C1 | 0x7C2 => set (v &&& faultFields)
  | 0x5C2 => let g := set (v % 4); if v / 4 % 2 = 1 then { g with tumbler := [] } else g
  | 0x7C0 => set (v % 4)
  | 0x7C1 => set (v % 32)
  | 0x7A0 => if v < 4 then set v else h
  | 0x7A1 => let t := 8192 + 4 * csr h 0x7A0 + 1; setCsr h t (tdata1Word (csr h t) v)
  | 0x7A2 | 0x7A3 => setCsr h (8192 + 4 * csr h 0x7A0 + (k - 0x7A0)) v
  | _ =>
    if 0x3B0 ≤ k ∧ k ≤ 0x3BF then (if pmpAddrLocked h (k - 0x3B0) then h else set (v % 2 ^ 54))
    else if 0x7E3 ≤ k ∧ k ≤ 0x7FF then set (v % 2 ^ 15)
    else set v

/-- A CSR instruction: its exception, or the old value in `rd` and the CSR written, unless the instruction only reads it. -/
def State.csrInstr (s : State) (a : At) (k : Nat) (rd : Fin 32) (write : Bool) (v : Nat) : State :=
  match s.running a with
  | none => s
  | some h =>
    let n := a.hart.val
    let s := s.setHart n h
    match csrRefusal h k write with
    | some .illegal => s.illegal a
    | some .virtual => s.virtual_ a
    | none =>
      let k := if h.v then vsNumber k else k
      let old := s.csrRead n (bankNow h) k
      (s.setHart n (setX (if write then csrWrite h (bankNow h) k v else h) rd.val old)).step_ a

/-! ## REGISTER_WRITE (R3–R9) -/

/-- REGISTER_WRITE: a write of a unit's page at a physical address, or a CSR instruction of a hart (R3, R323). -/
def execRegisterWrite (t : RegTarget) (v : BitVec 64) (s : State) : Res :=
  let s := s.clean
  match t with
  | .csr a num rd only => .next (s.csrInstr a num.val rd (!only) v.toNat)
  | .mem addr lg w =>
    if regionOf addr.toNat == .unit then
      let (s, ans) := s.ncWrite (w == .secure) 59 addr.toNat (leBytes (2 ^ lg.val) v.toNat)
      .next (match ans with
        | .err c => s.emit (.err c)
        | _ => s)
    else .next s

end Sys2Proof.Machine
end

