-- ==== Sys2Proof/Machine/Debug.lean ====
section
/-! DEFINITION. The debug module behind the test port (R488, R530, R531). The registers, their numbers and fields are those of the
RISC-V Debug Specification 1.0. -/

namespace Sys2Proof.Machine

open Sys2Proof

/-! ## Harts as the debug module sees them -/

/-- Debug is open in Blank, Provisioning and Diagnostic (R488). -/
def State.debugOpen (s : State) : Bool :=
  let l := lcsOf s.life
  l == 0 || l == 1 || l == 3

/-- The harts that an operation acts on: hartsel, and with hasel those of the mask. -/
def selected (d : DebugS) : List Nat :=
  if d.hasel then d.hartsel :: d.hamask.filter fun n => n != d.hartsel else [d.hartsel]

/-- A hart whose tile is absent does not exist (R530). -/
def State.hartExists (s : State) (n : Nat) : Bool := decide (n < 256) && (s.physTile (n / 8)).isSome

/-- dcsr.cause of a halt request. -/
def haltWord (h : Hart) : Nat := placed 4 28 4 + placed 3 6 3 + placed (bit h.v) 5 1 + placed h.priv 0 2

/-- A started hart halts on request: dcsr and dpc say where it stood (R530). -/
def State.haltHart (s : State) (n : Nat) : State :=
  let h := s.hart n
  if s.hartExists n && h.run && !h.halted then
    s.setHart n { setCsr (setCsr h 0x7B0 (haltWord h)) 0x7B1 h.pc with halted := true }
  else s

/-- A halted hart resumes where dpc and dcsr say; M always runs with W = 1 (R297). -/
def State.resumeHart (s : State) (n : Nat) : State :=
  let h := s.hart n
  if !h.halted then s
  else
    let c := csr h 0x7B0
    let priv := if c % 4 = 2 then h.priv else c % 4
    let s := s.setHart n { h with halted := false, priv := priv, v := priv != 3 && bitsOf c 5 1 == 1 && !h.w, w := h.w || priv == 3, pc := csr h 0x7B1 }
    { s with dbg := { s.dbg with resumeack := n :: s.dbg.resumeack.filter fun x => x != n } }

/-! ## Abstract commands: Access Register -/

/-- The debug module's registers changed. -/
def State.setDebug (s : State) (g : DebugS → DebugS) : State := { s with dbg := g s.dbg }

/-- cmderr set, while it is 0. -/
def State.cmdErr (s : State) (e : Nat) : State := s.setDebug fun d => if d.cmderr = 0 then { d with cmderr := e } else d

/-- The bank that debug mode reaches, as M does (R298). -/
def dbgBank (h : Hart) : Nat := bankOf (csr h 0x7C0 / 2 % 2 == 1)

/-- A register of a halted hart by its abstract number; none where the access is an exception. -/
def State.absRead (s : State) (n r : Nat) : Option Nat :=
  let h := s.hart n
  if 0x1000 ≤ r ∧ r < 0x1020 then some (xreg h (r - 0x1000))
  else if 0x1020 ≤ r ∧ r < 0x1040 then
    (if unitOn 13 (csr h (dbgBank h + 0x100)) then some (tget 0 h.f (r - 0x1020)) else none)
  else if r = 0x7B0 ∨ r = 0x7B1 then some (csr h r)
  else if r < 0x1000 ∧ csrKnown r then some (s.csrRead n (dbgBank h) r)
  else none

/-- A register of a halted hart written. -/
def State.absWrite (s : State) (n r v : Nat) : Option State :=
  let h := s.hart n
  let set := fun (h : Hart) => some (s.setHart n h)
  if 0x1000 ≤ r ∧ r < 0x1020 then set (setX h (r - 0x1000) v)
  else if 0x1020 ≤ r ∧ r < 0x1040 then
    (if unitOn 13 (csr h (dbgBank h + 0x100)) then set { h with f := tset 0 h.f (r - 0x1020) v } else none)
  else if r = 0x7B0 then set (setCsr h r (maskIn 0x33 (csr h r) v))
  else if r = 0x7B1 then set (setCsr h r (v / 2 * 2))
  else if r < 0x1000 ∧ csrKnown r ∧ (r / 1024 ≠ 3 ∨ isXjuh r) then set (csrWrite h (dbgBank h) r v)
  else none

/-- The data registers' bits that a transfer of 32 or 64 bits moves. -/
def dataBits (aarsize : Nat) : Nat := if aarsize = 3 then 64 else 32

/-- Access Register by a command word (R530). -/
def State.accessRegister (s : State) (c : Nat) : State :=
  let n := s.dbg.hartsel
  let size := bitsOf c 20 3
  let r := c % 2 ^ 16
  let w := dataBits size
  if bitsOf c 17 1 = 0 then s
  else if size ≠ 2 ∧ size ≠ 3 then s.cmdErr 2
  else if bitsOf c 16 1 = 1 then
    (match s.absRead n r with
      | none => s.cmdErr 3
      | some old => match s.absWrite n r (old / 2 ^ w * 2 ^ w + s.dbg.data % 2 ^ w) with
        | some t => t
        | none => s.cmdErr 3)
  else
    match s.absRead n r with
    | none => s.cmdErr 3
    | some v => s.setDebug fun d => { d with data := d.data / 2 ^ w * 2 ^ w + v % 2 ^ w }

/-- The abstract command in `command` runs: only Access Register is supported, on a halted hart (R530). -/
def State.runCommand (s : State) : State :=
  let c := s.dbg.command
  if s.dbg.cmderr ≠ 0 then s
  else if c / 2 ^ 24 ≠ 0 then s.cmdErr 2
  else if !(s.hart s.dbg.hartsel).halted then s.cmdErr 4
  else
    let s := s.accessRegister c
    if bitsOf c 19 1 = 1 ∧ s.dbg.cmderr = 0 then
      s.setDebug fun d => { d with command := d.command / 2 ^ 16 * 2 ^ 16 + (d.command + 1) % 2 ^ 16 }
    else s

/-- The command runs again when abstractauto has the bit. -/
def State.autoRun (s : State) (b : Nat) : State := if s.dbg.autoexec / 2 ^ b % 2 = 1 then s.runCommand else s

/-! ## System bus access (R530) -/

/-- sberror set, while it is 0. -/
def State.sbErr (s : State) (e : Nat) : State := s.setDebug fun d => if d.sberror = 0 then { d with sberror := e } else d

/-- The address moves past an access with sbautoincrement. -/
def State.sbAdvance (s : State) : State :=
  s.setDebug fun d => if d.sbautoinc then { d with sbaddr := (d.sbaddr + 2 ^ d.sbaccess) % 2 ^ 52 } else d

/-- An access that the bus cannot make: its sberror, 0 for none. -/
def State.sbRefusal (s : State) : Nat :=
  let d := s.dbg
  let n := 2 ^ d.sbaccess
  if 3 < d.sbaccess then 4
  else if d.sbaddr % n ≠ 0 then 3
  else
    match regionOf d.sbaddr with
    | .vacant => 2
    | .dram => if s.memTop * 2 ^ 29 ≤ d.sbaddr then 2 else 0
    | _ => 0

/-- A system bus access that ends without effect; the home of an address at or above TOP records a denied access (R368). -/
def State.sbRefuse (s : State) : State :=
  let e := s.sbRefusal
  (if e = 2 && regionOf s.dbg.sbaddr == .dram then s.denied .hub else s).sbErr e

/-- A system bus read, with W = 1, into sbdata; poison and error responses set sberror. -/
def State.sbRead (s : State) : State :=
  let a := s.dbg.sbaddr
  let n := 2 ^ s.dbg.sbaccess
  if s.dbg.sberror ≠ 0 then s
  else if s.sbRefusal ≠ 0 then s.sbRefuse
  else if regionOf a == .dram then
    let (s, d, _) := s.atHome (a / 64) { op := .rdOnce, port := 59, txn := 0, w := true }
    let d := d.getD { bytes := [], pmask := allBytes }
    if d.pmask ≠ 0 then s.sbErr 7
    else (s.setDebug fun x => { x with sbdata := leNat ((d.bytes.drop (a % 64)).take n) }).sbAdvance
  else
    match s.ncRead true 59 a n with
    | (s, .value bs false) => (s.setDebug fun x => { x with sbdata := leNat bs }).sbAdvance
    | (s, .value _ true) => s.sbErr 7
    | (s, _) => s.sbErr 2

/-- A system bus write of sbdata, with W = 1. -/
def State.sbWrite (s : State) : State :=
  let a := s.dbg.sbaddr
  let n := 2 ^ s.dbg.sbaccess
  let bs := leBytes n s.dbg.sbdata
  if s.dbg.sberror ≠ 0 then s
  else if s.sbRefusal ≠ 0 then s.sbRefuse
  else if regionOf a == .dram then
    let data := List.replicate (a % 64) 0 ++ bs ++ List.replicate (64 - a % 64 - n) 0
    let r : HReq := { op := .wrPtl, port := 59, txn := 0, w := true, data := data, mask := 2 ^ (a % 64 + n) - 2 ^ (a % 64),
                      own := { w := true, h := false, m := true, hart := 59 } }
    (s.atHome (a / 64) r).1.sbAdvance
  else
    match s.ncWrite true 59 a bs with
    | (s, .err _) => s.sbErr 2
    | (s, _) => s.sbAdvance

/-! ## Registers of the debug module -/

/-- A bit for "any" and a bit for "all" of the selected harts, at `lo`. -/
def anyAll (ns : List Nat) (p : Nat → Bool) (lo : Nat) : Nat := placed (bit (ns.any p)) lo 1 + placed (bit (ns.all p)) (lo + 1) 1

/-- dmstatus: version 1.0, authenticated, impebreak (R530). -/
def State.dmstatus (s : State) : Nat :=
  let ns := selected s.dbg
  let up := fun n => s.hartExists n && (s.hart n).run
  3 + 2 ^ 7 + 2 ^ 22 + anyAll ns (fun n => (s.hart n).halted) 8 + anyAll ns (fun n => up n && !(s.hart n).halted) 10 +
    anyAll ns (fun n => s.hartExists n && !(s.hart n).run) 12 + anyAll ns (fun n => !s.hartExists n) 14 +
    anyAll ns (fun n => s.dbg.resumeack.contains n) 16 + anyAll ns (fun n => s.hartExists n && !s.dbg.resetSeen.contains n) 18

/-- A bit for each hart of a group of 32 that is halted. -/
def State.haltBits (s : State) (group : Nat) : Nat := joinBits 1 ((List.range 32).map fun i => bit (s.hart (32 * group + i)).halted)

/-- sbcs: version 1, 52 address bits, accesses of 8 to 64 bits. -/
def sbcsWord (d : DebugS) : Nat :=
  placed 1 29 3 + placed (bit d.sbreadonaddr) 20 1 + placed d.sbaccess 17 3 + placed (bit d.sbautoinc) 16 1 + placed (bit d.sbreadondata) 15 1 +
    placed d.sberror 12 3 + placed 52 5 7 + 15

/-- A register of the debug module as it reads. -/
def State.dmRead (s : State) (a : Nat) : Nat :=
  let d := s.dbg
  if a = 0x10 then placed (bit d.hasel) 26 1 + placed d.hartsel 16 10 + bit d.active
  else if !d.active then 0
  else
    match a with
    | 0x04 => d.data % 2 ^ 32
    | 0x05 => d.data / 2 ^ 32 % 2 ^ 32
    | 0x11 => s.dmstatus
    | 0x13 => joinBits 1 ((List.range 8).map fun g => bit (s.haltBits g != 0))
    | 0x14 => d.hawindowsel
    | 0x15 => joinBits 1 ((List.range 32).map fun i => bit (d.hamask.contains (32 * d.hawindowsel + i)))
    | 0x16 => placed 8 24 5 + placed d.cmderr 8 3 + 2
    | 0x18 => d.autoexec
    | 0x38 => sbcsWord d
    | 0x39 => d.sbaddr % 2 ^ 32
    | 0x3A => d.sbaddr / 2 ^ 32
    | 0x3C => d.sbdata % 2 ^ 32
    | 0x3D => d.sbdata / 2 ^ 32 % 2 ^ 32
    | 0x40 => s.haltBits (d.hartsel / 32)
    | _ => if 0x20 ≤ a ∧ a < 0x28 then d.progbuf.getD (a - 0x20) 0 else 0

/-- What a read of a register sets off. -/
def State.dmAfterRead (s : State) (a : Nat) : State :=
  if !s.dbg.active then s
  else if a = 0x04 ∨ a = 0x05 then s.autoRun (a - 0x04)
  else if 0x20 ≤ a ∧ a < 0x28 then s.autoRun (16 + (a - 0x20))
  else if a = 0x3C && s.dbg.sbreadondata then s.sbRead
  else s

/-- dmcontrol written: hart selection, then requests to the selected harts; dmactive 0 resets the module. -/
def State.dmcontrol (s : State) (v : Nat) : State :=
  if v % 2 = 0 then s.setDebug fun d => { resetSeen := d.resetSeen }
  else
    let s := s.setDebug fun d => { d with active := true, hasel := bitsOf v 26 1 == 1, hartsel := bitsOf v 16 8 }
    let ns := selected s.dbg
    let s := if bitsOf v 28 1 = 1 then s.setDebug fun d => { d with resetSeen := d.resetSeen ++ ns.filter fun n => !d.resetSeen.contains n } else s
    if bitsOf v 31 1 = 1 then ns.foldl (fun s n => s.haltHart n) s
    else if bitsOf v 30 1 = 1 then
      ns.foldl (fun s n => s.resumeHart n) (s.setDebug fun d => { d with resumeack := d.resumeack.filter fun n => !ns.contains n })
    else s

/-- The hart array mask's window written. -/
def maskWindow (d : DebugS) (v : Nat) : List Nat :=
  (d.hamask.filter fun n => n / 32 != d.hawindowsel) ++
    ((List.range 32).filter fun i => v / 2 ^ i % 2 == 1).map fun i => 32 * d.hawindowsel + i

/-- The low or the high 32 bits of a number replaced. -/
def withHalf (old : Nat) (high : Bool) (v : Nat) : Nat :=
  if high then old % 2 ^ 32 + 2 ^ 32 * v else old / 2 ^ 32 * 2 ^ 32 + v

/-- A register of the debug module written. -/
def State.dmWrite (s : State) (a v : Nat) : State :=
  let d := s.dbg
  if a = 0x10 then s.dmcontrol v
  else if !d.active then s
  else
    match a with
    | 0x04 => (s.setDebug fun d => { d with data := withHalf d.data false v }).autoRun 0
    | 0x05 => (s.setDebug fun d => { d with data := withHalf d.data true v }).autoRun 1
    | 0x14 => s.setDebug fun d => { d with hawindowsel := v % 8 }
    | 0x15 => s.setDebug fun d => { d with hamask := maskWindow d v }
    | 0x16 => s.setDebug fun d => { d with cmderr := d.cmderr &&& (7 - bitsOf v 8 3) }
    | 0x17 => if d.cmderr = 0 then (s.setDebug fun d => { d with command := v }).runCommand else s
    | 0x18 => s.setDebug fun d => { d with autoexec := v &&& 0xFF0003 }
    | 0x38 => s.setDebug fun d => { d with
        sbreadonaddr := bitsOf v 20 1 == 1, sbaccess := bitsOf v 17 3, sbautoinc := bitsOf v 16 1 == 1, sbreadondata := bitsOf v 15 1 == 1,
        sberror := d.sberror &&& (7 - bitsOf v 12 3) }
    | 0x39 =>
      let s := s.setDebug fun d => { d with sbaddr := withHalf d.sbaddr false v }
      if d.sbreadonaddr then s.sbRead else s
    | 0x3A => s.setDebug fun d => { d with sbaddr := withHalf d.sbaddr true (v % 2 ^ 20) }
    | 0x3C => (s.setDebug fun d => { d with sbdata := withHalf d.sbdata false v }).sbWrite
    | 0x3D => s.setDebug fun d => { d with sbdata := withHalf d.sbdata true v }
    | _ => if 0x20 ≤ a ∧ a < 0x28 then (s.setDebug fun d => { d with progbuf := d.progbuf.set (a - 0x20) v }).autoRun (16 + (a - 0x20)) else s

/-- IDCODE: the low 4 bits of BUILD, 0x9648, a fused maker code and 1 (R530). -/
def State.idcode (s : State) : Nat :=
  placed (hubField s.build F.PKG_IDENT_BUILD) 28 4 + placed 0x9648 12 16 + placed Config.makerCode 1 11 + 1

/-- dtmcs: version 1, abits 7, idle 2 (R530; the layout is the debug specification's). -/
def dtmcs : Nat := 1 + placed 7 4 6 + placed 2 12 3

/-- DMI_ACCESS: answered with op 2 while debug is closed, and served otherwise; IDCODE and dtmcs always read (R488, R531). Without logic
power there is no debug module. -/
def execDmiAccess (addr : Fin 128) (op : DmiOp) (s : State) : Res :=
  let s := s.clean
  if s.isOff || s.mode == .keep then .next s
  else
    match op with
    | .idcode => .next (s.emit (.value s.idcode))
    | .dtmcs => .next (s.emit (.value dtmcs))
    | .read =>
      if !s.debugOpen then .next (s.emit (.dmi 2 0)) else .next ((s.dmAfterRead addr.val).emit (.dmi 0 (s.dmRead addr.val)))
    | .write v =>
      if !s.debugOpen then .next (s.emit (.dmi 2 0)) else .next ((s.dmWrite addr.val v.toNat).emit (.dmi 0 0))

end Sys2Proof.Machine
end

