-- ==== Sys2Proof/Machine/HartMem.lean ====
section
/-! DEFINITION. Loads, stores, fetches and atomics of a hart (R292, R293, R295, R301, R313–R316, R347–R349, R352–R355, R514–R518,
R525, R535). -/

namespace Sys2Proof.Machine

open Sys2Proof

/-! ## An access on its way -/

/-- The fabric port of a hart's tile. -/
def State.hartPort (s : State) (n : Nat) : Nat := ((s.physTile (n / 8)).map Fin.val).getD 0

/-- How an access ends: with its bytes, a fault at a virtual address, or poison met (CORE_MCE's KIND and LEVEL, its physical and
virtual address). -/
inductive Access where
  | ok (bs : List Byte)
  | flt (f : Flt) (va : Nat)
  | mce (kind level pa va : Nat)
  deriving DecidableEq, Repr

/-- A part of an access that lies in one page: virtual address, translation, offset into the value, bytes. -/
structure Seg where
  va : Nat
  t : Trans
  off : Nat
  n : Nat
  deriving DecidableEq, Repr

/-- Every part of an access translated before any is performed. -/
def State.segTrans (s : State) (c : WalkCx) (u : PhysUse) (walk : Bool) : List (Nat × Nat × Nat) → State × (List Seg ⊕ (Flt × Nat))
  | [] => (s, .inl [])
  | (va, off, n) :: rest =>
    match s.translate c u va walk with
    | (s, .inr f) => (s, .inr (f, va))
    | (s, .inl t) =>
      match s.segTrans c u walk rest with
      | (s, .inr x) => (s, .inr x)
      | (s, .inl l) => (s, .inl (⟨va, t, off, n⟩ :: l))

/-- The fault of an access that its unit answered with ERR (R486, R535): an access fault with KIND 8. -/
def errFault (t : Trans) : Flt := { stage := t.stage, level := t.level, kind := 8, exc := 2 }

/-- The L1 of an access's class: a fetch goes through the L1I. -/
def useOf (cls : Nat) : L1Use := if cls = 11 then .inst else .data

/-- One part read: DRAM through the core's cache, MRAM and units as NC accesses. -/
def State.segRead (s : State) (c : WalkCx) (cls : Nat) (par : Parity) (g : Seg) : State × Access :=
  let pa := g.t.pa
  if regionOf pa == .dram then
    let s0 := s
    match s.coreBytes c.n cls (useOf cls) pa g.n par with
    | (s, bs, none) => (s, .ok bs)
    | (s, _, some l) => (s, .mce 1 (s0.levelOf c.n l (useOf cls)) (64 * l) g.va)
  else
    match s.ncRead c.w (s.hartPort c.n) pa g.n with
    | (s, .value bs false) => (s, .ok bs)
    | (s, .value _ true) => (s, .mce 2 6 pa g.va)
    | (s, _) => (s, .flt (errFault g.t) g.va)

/-- The parts of an access read in order, up to the first that ends otherwise. -/
def State.segsRead (s : State) (c : WalkCx) (cls : Nat) (par : Parity) : List Seg → State × Access
  | [] => (s, .ok [])
  | g :: rest =>
    match s.segRead c cls par g with
    | (s, .ok bs) =>
      match s.segsRead c cls par rest with
      | (s, .ok bs') => (s, .ok (bs ++ bs'))
      | r => r
    | r => r

/-- One part written: DRAM in the core's cache, MRAM and units as NC accesses. A store that a vacant or isolated page answers
with ERR takes the access fault; another ERR is an asynchronous machine check (R516, R535). -/
def State.segWrite (s : State) (c : WalkCx) (bs : List Byte) (g : Seg) : State × Option (Flt × Nat) :=
  let pa := g.t.pa
  let part := (bs.drop g.off).take g.n
  if regionOf pa == .dram then (s.coreWrite c.n 9 pa part, none)
  else
    match s.ncWrite c.w (s.hartPort c.n) pa part with
    | (s, .err cause) =>
      if cause = 4 ∨ cause = 6 then (s, some (errFault g.t, g.va))
      else
        (match s.coreUnit c.n with
          | some u => s.raiseAsync u c.n ⟨4, c.w, false, 6, pa⟩
          | none => s, none)
    | (s, _) => (s, none)

/-- The parts of an access written in order, up to the first that faults. -/
def State.segsWrite (s : State) (c : WalkCx) (bs : List Byte) : List Seg → State × Option (Flt × Nat)
  | [] => (s, none)
  | g :: rest =>
    match s.segWrite c bs g with
    | (s, none) => s.segsWrite c bs rest
    | r => r

/-- What an access of `n` bytes at an address asks of each of its parts. -/
def PhysUse.over (u : PhysUse) (va n : Nat) : PhysUse := { u with crosses := decide (4096 < va % 4096 + n) }

/-- A read of `n` bytes at a virtual address. -/
def State.memRead (s : State) (c : WalkCx) (u : PhysUse) (cls va n : Nat) (walk : Bool) (par : Parity) : State × Access :=
  match s.segTrans c (u.over va n) walk (segments va n) with
  | (s, .inr (f, x)) => (s, .flt f x)
  | (s, .inl l) => s.segsRead c cls par l

/-- A write at a virtual address. -/
def State.memWrite (s : State) (c : WalkCx) (u : PhysUse) (va : Nat) (bs : List Byte) (walk : Bool) : State × Option (Flt × Nat) :=
  match s.segTrans c (u.over va bs.length) walk (segments va bs.length) with
  | (s, .inr x) => (s, some x)
  | (s, .inl l) => s.segsWrite c bs l

/-! ## Instructions -/

/-- The trap of a fault that an instruction's access from `base` met at `va` (R315, R316). -/
def State.memFault (s : State) (a : At) (k : AccKind) (f : Flt) (va base : Nat) (gva : Bool) : State :=
  s.raiseExc a (faultTrap k f a va base gva)

/-- The exception of a hypervisor load or store that may not execute (R292, R297). -/
def viaRefusal (h : Hart) (via : Via) : Option CsrExc :=
  if via = .own then none
  else if h.w then some .illegal
  else if h.v then some .virtual
  else if h.priv = 0 && bitsOf (csr h 0x600) 9 1 == 0 then some .illegal else none

/-- What a load or store needs switched on: nothing, floating point (13) or vector (9). -/
def destExt : Dest → Option Nat
  | .x _ _ | .fetch => none
  | .f _ => some 13
  | .vec _ _ _ => some 9

/-- What a store needs switched on. -/
def srcExt : Src → Option Nat
  | .x _ => none
  | .f _ => some 13
  | .vec _ _ => some 9

/-- The exception that keeps an instruction from its access, if any. -/
def accessRefusal (h : Hart) (via : Via) (ext : Option Nat) : Option CsrExc :=
  if ext.all fun lo => extOn h lo then viaRefusal h via else some .illegal

/-- A refused instruction's exception. -/
def State.refuse (s : State) (a : At) : CsrExc → State
  | .illegal => s.illegal a
  | .virtual => s.virtual_ a

/-- An integer of `n` bytes as a register holds it. -/
def extended (signed : Bool) (n v : Nat) : Nat :=
  if signed && decide (2 ^ (8 * n) ≤ 2 * v) then 2 ^ 64 - 2 ^ (8 * n) + v else v

/-- A value of `n` bytes as a floating-point register holds it: NaN-boxed. -/
def boxed (n v : Nat) : Nat := 2 ^ 64 - 2 ^ (8 * n) + v

/-- Byte `i` of element `elem` of the group at vector register `vd`, as a key of the vector registers. -/
def vecKey (vd elem n i : Nat) : Nat := (32 * vd + elem * n + i) % 1024

/-- A vector element set from its bytes. -/
def setElem (h : Hart) (vd elem n : Nat) (bs : List Byte) : Hart :=
  { h with vr := (List.range n).foldl (fun t i => tset 0 t (vecKey vd elem n i) (bs.getD i 0).toNat) h.vr }

/-- The bytes of a vector element. -/
def elemOf (h : Hart) (vs elem n : Nat) : List Byte := (List.range n).map fun i => BitVec.ofNat 8 (tget 0 h.vr (vecKey vs elem n i))

/-- A loaded value put where it goes; vstart returns to 0 after a vector access. -/
def destLoad (h : Hart) (bs : List Byte) : Dest → Hart
  | .x rd signed => setX h rd.val (extended signed bs.length (leNat bs))
  | .f rd => extDirty { h with f := tset 0 h.f rd.val (boxed bs.length (leNat bs)) } 13
  | .vec vd elem _ => extDirty (setCsr (setElem h vd.val elem.val bs.length bs) 0x008 0) 9
  | .fetch => h

/-- The bytes that a store of `n` bytes sends. -/
def srcBytes (h : Hart) (n : Nat) : Src → List Byte
  | .x rs2 => leBytes n (xreg h rs2.val)
  | .f rs2 => leBytes n (tget 0 h.f rs2.val)
  | .vec vs elem => elemOf h vs.val elem.val n

/-- vstart as a vector element that traps leaves it. -/
def State.vecStop (s : State) (n : Nat) (elem : Option Nat) : State :=
  match elem with
  | some e => s.setHart n (setCsr (s.hart n) 0x008 e)
  | none => s

/-- The element of a vector access. -/
def destElem : Dest → Option Nat
  | .vec _ e _ => some e.val
  | _ => none

/-- A fault-only-first element past the first, whose fault trims vl in place of a trap. -/
def destTrims : Dest → Bool
  | .vec _ e ff => ff && decide (0 < e.val)
  | _ => false

/-- A load whose access ended (R292, R514). -/
def State.loadEnds (s : State) (a : At) (k : AccKind) (d : Dest) (base : Nat) (gva : Bool) (r : Access) : State :=
  let n := a.hart.val
  match r with
  | .ok bs => if d = .fetch then s.emit (.value (leNat bs)) else (s.setHart n (destLoad (s.hart n) bs d)).step_ a
  | .flt f va =>
    if destTrims d then (s.setHart n (setCsr (s.hart n) 0xC20 ((destElem d).getD 0))).step_ a
    else (s.vecStop n (destElem d)).memFault a k f va base gva
  | .mce kind level pa va => (s.vecStop n (destElem d)).preciseMce a va kind level pa

/-- The access kind of a load. -/
def loadKind (d : Dest) (via : Via) : AccKind := if d = .fetch then .fetch else if via = .hlvx then .hlvx else .load

/-- HART_LOAD: a load, a vector element's load, or the fetch of the instruction at `a` (R295). -/
def execHartLoad (a : At) (m : MemArg) (d : Dest) (par : Parity) (s : State) : Res :=
  let s := s.clean
  match s.running a with
  | none => .next s
  | some h =>
    let n := a.hart.val
    let s := s.setHart n h
    let fetch := decide (d = .fetch)
    let via := if fetch then Via.own else m.via
    match accessRefusal h via (destExt d) with
    | some e => .next (s.refuse a e)
    | none =>
      let c := cxOf h n fetch (via != .own)
      let c := if via = .own then c else { c with w := false }
      let k := loadKind d via
      let size := if fetch then instLen a else 2 ^ m.lg.val
      let va := if fetch then a.pc % 2 ^ 64 else m.va.toNat
      let (s, r) := s.memRead c ⟨k, size, false, (destExt d) == some 9, false⟩ (if fetch then 11 else 8) va size m.walk par
      .next (s.loadEnds a k d va c.v r)

/-- HART_STORE: a store, or a vector element's store (R295). -/
def execHartStore (a : At) (m : MemArg) (d : Src) (s : State) : Res :=
  let s := s.clean
  match s.running a with
  | none => .next s
  | some h =>
    let n := a.hart.val
    let s := s.setHart n h
    match accessRefusal h m.via (srcExt d) with
    | some e => .next (s.refuse a e)
    | none =>
      let c := cxOf h n false (m.via != .own)
      let size := 2 ^ m.lg.val
      let elem := match d with
        | .vec _ e => some e.val
        | _ => none
      match s.memWrite c ⟨.store, size, false, (srcExt d) == some 9, false⟩ m.va.toNat (srcBytes h size d) m.walk with
      | (s, some (f, va)) => .next ((s.vecStop n elem).memFault a .store f va m.va.toNat c.v)
      | (s, none) => .next (((s.vecStop n (elem.map fun _ => 0))).step_ a)

/-! ## Atomics (R293, R347–R349) -/

/-- An AMO on a line executes far (R327, R349). -/
def goesFar (h : Hart) (line : Nat) : Bool :=
  let mode := csr h 0x5C2 % 4
  if mode = 1 then false else if mode = 2 then true else decide (2 ≤ tumblerAt h (tumblerIndex line))

/-- The operation of an AMO as the atomic unit names it (R388). -/
def amoOpOf : HartAmo → AmoOp
  | .swap => .swap | .add => .add | .xor => .xor | .and => .and | .or => .or | .min => .min | .max => .max | .minu => .minu
  | .maxu => .maxu

/-- A copy is unique. -/
def isUnique (c : Option Copy) : Bool := c.any fun x => x.st != .s

/-- A line made unique in a hart's core (R337, R347). -/
def State.makeUnique (s : State) (n line : Nat) : State := s.bring n line 10 .data true

/-- Bringing the line needs a snoop of another agent (R349): its tile does not hold it unique, and the directory names another. -/
def State.needsSnoop (s : State) (n line : Nat) : Bool :=
  let tile := s.hartPort n
  !isUnique (s.copyOf tile line) && (s.hline line).p.any fun x => x != tile

/-- The operands of an atomic on a line: hart, instruction, virtual address, line, offset and bytes, old-value register. -/
structure AmoAt where
  a : At
  va : Nat
  line : Nat
  off : Nat
  n : Nat
  rd : Nat

/-- The bytes of an atomic in a line. -/
def AmoAt.old (x : AmoAt) (d : LineData) : Nat := leNat ((d.bytes.drop x.off).take x.n)

/-- A near AMO in the core's L1D (R347, R349). -/
def State.nearAmo (s : State) (x : AmoAt) (op : AmoOp) (v : Nat) : State :=
  let n := x.a.hart.val
  let held := isUnique (s.myCopy n x.line)
  let up := if held then some false else if s.needsSnoop n x.line then some true else none
  let level := s.levelOf n x.line .data
  let s := s.makeUnique n x.line
  match s.myCopy n x.line with
  | none => s
  | some c =>
    if c.d.pmask != 0 then s.preciseMce x.a x.va 1 level (64 * x.line)
    else
      let old := x.old c.d
      let s := s.coreStore n x.line x.off (leBytes x.n (amoNew op (8 * x.n) old v))
      let s := s.amoDone n false x.line up
      let s := s.setHart n (setX (s.hart n) x.rd (extended true x.n old))
      (s.hpm n 0x0A 10 (64 * x.line)).step_ x.a

/-- A far AMO at the home slice (R347, R348, R349). -/
def State.farAmoBy (s : State) (x : AmoAt) (op : AmoOp) (v : Nat) : State :=
  let n := x.a.hart.val
  let h := s.hart n
  let level := max 3 (s.levelOf n x.line .data)
  let (s, d, cont) := s.atHome x.line { op := .amo, port := s.hartPort n, txn := 0, w := h.w, own := storeOwn h n, aop := op, off := x.off,
                                        wide := x.n == 8, operand := v, hart := n }
  match d with
  | none => s
  | some d =>
    if d.pmask != 0 then s.preciseMce x.a x.va 1 level (64 * x.line)
    else
      let s := s.amoDone n true x.line (some cont)
      let s := s.setHart n (setX (s.hart n) x.rd (extended true x.n (x.old d)))
      (s.hpm n 0x0B 10 (64 * x.line)).step_ x.a

/-- An address-misaligned exception (R293). -/
def State.misaligned (s : State) (a : At) (code va : Nat) (gva : Bool) : State :=
  s.raiseExc a { code := code, epc := a.pc, tval := va, tinst := transformed a 0, gva := gva }

/-- An AMO, LR or SC translated and its line judged for parity, then `go` (R293, R295). -/
def State.atomic (s : State) (a : At) (m : MemArg) (k : AccKind) (rd : Fin 32) (par : Parity) (go : State → AmoAt → State) : State :=
  match s.running a with
  | none => s
  | some h =>
    let n := a.hart.val
    let s := s.setHart n h
    let c := cxOf h n false false
    let size := if m.lg.val = 3 then 8 else 4
    let va := m.va.toNat
    if va % size != 0 then s.misaligned a (if k = .load then 4 else 6) va c.v
    else
      match s.translate c ⟨k, size, true, false, false⟩ va m.walk with
      | (s, .inr f) => s.memFault a k f va va c.v
      | (s, .inl t) => go (s.coreParity n (t.pa / 64) par) ⟨a, va, t.pa / 64, t.pa % 64, size, rd.val⟩

/-- HART_AMO: near or far as the tumbler or jatomctl decides (R347, R349). -/
def execHartAmo (a : At) (m : MemArg) (op : HartAmo) (rd : Fin 32) (rs2 : Fin 32) (par : Parity) (s : State) : Res :=
  .next (s.clean.atomic a m .store rd par fun s x =>
    let h := s.hart a.hart.val
    let v := xreg h rs2.val
    if goesFar h x.line then s.farAmoBy x (amoOpOf op) v else s.nearAmo x (amoOpOf op) v)

/-- LR: the line is brought unique, reserved, and its value loaded (R293, R347). -/
def execLr (a : At) (m : MemArg) (rd : Fin 32) (par : Parity) (s : State) : Res :=
  .next (s.clean.atomic a m .load rd par fun s x =>
    let n := a.hart.val
    let level := s.levelOf n x.line .data
    let s := s.makeUnique n x.line
    match s.myCopy n x.line with
    | none => s
    | some c =>
      if c.d.pmask != 0 then s.preciseMce a x.va 1 level (64 * x.line)
      else (s.setHart n { setX (s.hart n) rd.val (extended true x.n (x.old c.d)) with resv := some x.line }).step_ a)

/-- An SC ends: the reservation is given up, and `rd` says whether it stored. -/
def State.scEnds (s : State) (a : At) (rd : Fin 32) (fail : Nat) : State :=
  let n := a.hart.val
  (s.setHart n { setX (s.hart n) rd.val fail with resv := none }).step_ a

/-- SC: stores when the reservation of the line holds (R293, R347). -/
def execSc (a : At) (m : MemArg) (rd : Fin 32) (rs2 : Fin 32) (par : Parity) (s : State) : Res :=
  .next (s.clean.atomic a m .store rd par fun s x =>
    let n := a.hart.val
    if (s.hart n).resv != some x.line then s.scEnds a rd 1
    else
      let level := s.levelOf n x.line .data
      let v := xreg (s.hart n) rs2.val
      let s := s.makeUnique n x.line
      match s.myCopy n x.line with
      | none => s.scEnds a rd 1
      | some c =>
        if c.d.pmask != 0 then s.preciseMce a x.va 1 level (64 * x.line)
        else (s.coreStore n x.line x.off (leBytes x.n v)).scEnds a rd 0)

end Sys2Proof.Machine
end

