-- ==== Sys2Proof/Machine/HostBus.lean ====
section
/-! DEFINITION. Requests of the hosts that reach a port: configuration space and BAR0 (R221–R233, R243–R245, R257, R289). -/

namespace Sys2Proof.Machine

open Sys2Proof

/-! ## Configuration space (R221, R224–R227) -/

/-- The bit of an error in AER's uncorrectable error status (PCI Express's own). -/
def aerBit : AerErr → Nat
  | .poisonedTlp => 12 | .completionTimeout => 14 | .unexpectedCompletion => 16 | .unsupportedRequest => 20 | .ecrcError => 19

/-- A function is a physical function. -/
def isPf (f : Nat) : Bool := decide (1024 ≤ f)

/-- A capability bit of R221: 1 for an option that its table lists as supported; those of SR-IOV and the link are the physical
function's. -/
def capBit (pf : Bool) : PcieCap → Nat
  | .flitMode | .tag10 | .msix | .aer | .ecrcGeneration | .ecrcChecking | .flr | .ari => 1
  | .sriov | .l0p | .l1 | .l11 | .l12 | .ltr | .serialNumber | .dataLinkFeature | .phy16 | .phy32 | .phy64 | .laneMargining
  | .l1Substates => bit pf
  | .tag14 | .idOrdering | .noSnoop | .msi | .intx | .pme | .auxPower | .l0s | .timeoutDisable | .ats | .pasid | .pri | .atomicOps
  | .resizableBar | .tph | .doe | .ide | .multicast => 0

/-- The low or high 32 bits of a 64-bit memory BAR of `size` bytes that holds an address (R233): bits 3:0 of the low word are 4,
a 64-bit non-prefetchable region. -/
def barWord (high : Bool) (addr size : Nat) : Nat :=
  if high then addr / 2 ^ 32 % 2 ^ 32 else addr % 2 ^ 32 / size * size + 4

/-- The address of a BAR after a write of one of its words: the bits below its size stay 0. -/
def barAddr (high : Bool) (addr size v : Nat) : Nat :=
  if high then v % 2 ^ 32 * 2 ^ 32 + addr % 2 ^ 32 else addr / 2 ^ 32 * 2 ^ 32 + v % 2 ^ 32 / size * size

/-- A register of configuration space as it reads (R221, R225, R227, R231, R233, R242, R243). -/
def State.cfgRead (s : State) (f : Nat) (r : CfgReg) : Nat :=
  let x := s.fnS f
  let k := s.fnPort f
  let pf := fun (v : Nat) => if isPf f then v else 0
  match r with
  | .vendorId => if isPf f then 0x1F6E else 0xFFFF
  | .deviceId => if isPf f then 0x9648 else 0xFFFF
  | .revisionId => hubField s.build F.PKG_IDENT_BUILD
  | .classCode => 0x018000
  | .subsystemVendorId => s.svid
  | .subsystemId => s.ssid
  | .serialNumber => pf (Config.serial % 2 ^ 64)
  | .busMaster => bit x.bme
  | .powerState => if x.d3 then 3 else 0
  | .maxPayload => pf x.maxPayload
  | .maxRead => pf x.maxRead
  | .relaxedOrdering => pf (bit x.relaxed)
  | .completionTimeout => pf x.cplRange
  | .vfEnable => pf (bit x.vfEnable)
  | .numVfs => pf x.numVfs
  | .totalVfs | .initialVfs => pf (s.totalVfs k)
  | .firstVfOffset | .vfStride => pf 1
  | .vfDeviceId => pf 0x9649
  | .msixEnable => bit x.msixEnable
  | .msixMask => bit x.msixMask
  | .msixTableSize => if isPf f then 63 else 15
  | .functionLevelReset => 0
  | .aerStatus => x.aer.foldl (fun n e => n ||| 2 ^ aerBit e) 0
  | .aerHeaderLog d => (x.hdr.map fun n => Config.tlpHeader n d.val % 2 ^ 32).getD 0
  | .aerPrefixLog d => (x.hdr.map fun n => Config.tlpHeader n (4 + d.val) % 2 ^ 32).getD 0
  | .ecrcGeneration => bit x.ecrcGen
  | .ecrcChecking => bit x.ecrcChk
  | .memorySpace => pf (bit x.mse)
  | .vfMemorySpace => pf (bit x.vfMse)
  | .bar0 high => pf (barWord high x.bar0 0x100000)
  | .vfBar0 high => pf (barWord high x.vfBar0 0x10000)
  | .otherBar _ => 0
  | .supportedPageSizes => pf 0x11
  | .systemPageSize => pf x.pageSize
  | .ariHierarchy => pf (bit x.ariHier)
  | .aspm => pf x.aspm
  | .l1Substates => pf x.l1ss
  | .ltrThreshold => pf x.ltrThr
  | .ltrEnable => pf (bit x.ltrEn)
  | .l0pEnable => pf (bit x.l0pEn)
  | .capability c => capBit (isPf f) c
  | .maxPayloadCap => 512
  | .maxRateCap => 5
  | .maxWidthCap => 16
  | .l1ExitLatency => 2
  | .tPowerOn => pf 40
  | .commonModeRestore => pf 10
  | .completionTimeoutRanges => 0xF

/-- A field of a function set, and vectors that may go now sent. -/
def State.fnSet (s : State) (f : Nat) (g : FnS → FnS) : State := (s.setFn f (g (s.fnS f))).flushVectors f

/-- NumVFs written while VF Enable is 0, up to TotalVFs (R225, R252). -/
def State.numVfsWrite (s : State) (f n : Nat) : State :=
  let x := s.fnS f
  let k := s.fnPort f
  if x.vfEnable || decide (s.totalVfs k < n) || n == x.numVfs then s
  else (s.setFn f { x with numVfs := n }).raise (.pcie k) F.PCIE_EVT_VFE

/-- A field of a physical function set; a virtual function takes its own from there. -/
def State.pfSet (s : State) (f : Nat) (g : FnS → FnS) : State := if isPf f then s.fnSet f g else s

/-- A write of configuration space (R221, R225, R230, R242–R245, R253); other registers and values that R221 does not support are
not written. -/
def State.cfgWrite (s : State) (f : Fin 1026) (r : CfgReg) (v : Nat) : State :=
  let k := s.fnPort f.val
  let x := s.fnS f.val
  let pf := isPf f.val
  match r with
  | .busMaster => if v % 2 = 1 then (if x.bme then s else s.busMasterSet f.val) else s.busMasterClear f.val
  | .powerState => if v % 4 = 3 then (if x.d3 then s else s.d3Enter f.val) else if v % 4 = 0 then s.fnSet f.val fun x => { x with d3 := false } else s
  | .maxPayload => if pf && [128, 256, 512].contains v then s.fnSet f.val fun x => { x with maxPayload := v } else s
  | .maxRead => if pf && [128, 256, 512, 1024, 2048, 4096].contains v then s.fnSet f.val fun x => { x with maxRead := v } else s
  | .relaxedOrdering => if pf then s.fnSet f.val fun x => { x with relaxed := v % 2 == 1 } else s
  | .completionTimeout =>
    if pf && [0, 1, 2, 5, 6, 9, 10, 13, 14].contains v then s.fnSet f.val fun x => { x with cplRange := v } else s
  | .vfEnable =>
    if !pf then s
    else if v % 2 = 0 then s.vfClear k
    else if x.vfEnable || decide (s.totalVfs k < x.numVfs) then s else s.vfSet k x.numVfs
  | .numVfs => if pf then s.numVfsWrite f.val v else s
  | .msixEnable => s.fnSet f.val fun x => { x with msixEnable := v % 2 == 1 }
  | .msixMask => s.fnSet f.val fun x => { x with msixMask := v % 2 == 1 }
  | .functionLevelReset => if v % 2 = 1 then s.after (execFunctionLevelReset f) else s
  | .aerStatus =>
    let left := x.aer.filter fun e => v / 2 ^ aerBit e % 2 == 0
    s.setFn f.val { x with aer := left, hdr := if left.isEmpty then none else x.hdr }
  | .ecrcGeneration => s.fnSet f.val fun x => { x with ecrcGen := v % 2 == 1 }
  | .ecrcChecking => s.fnSet f.val fun x => { x with ecrcChk := v % 2 == 1 }
  | .memorySpace => s.pfSet f.val fun x => { x with mse := v % 2 == 1 }
  | .vfMemorySpace => s.pfSet f.val fun x => { x with vfMse := v % 2 == 1 }
  | .bar0 high => s.pfSet f.val fun x => { x with bar0 := barAddr high x.bar0 0x100000 v }
  | .vfBar0 high => s.pfSet f.val fun x => { x with vfBar0 := barAddr high x.vfBar0 0x10000 v }
  | .systemPageSize => if v = 1 ∨ v = 0x10 then s.pfSet f.val fun x => { x with pageSize := v } else s
  | .ariHierarchy => s.pfSet f.val fun x => { x with ariHier := v % 2 == 1 }
  | .aspm => s.pfSet f.val fun x => { x with aspm := v / 2 % 2 * 2 }
  | .l1Substates => s.pfSet f.val fun x => { x with l1ss := v % 16 }
  | .ltrThreshold => s.pfSet f.val fun x => { x with ltrThr := v % 8192 }
  | .ltrEnable => (s.pfSet f.val fun x => { x with ltrEn := v % 2 == 1 }).sendLtr k
  | .l0pEnable => s.pfSet f.val fun x => { x with l0pEn := v % 2 == 1 }
  | .vendorId | .deviceId | .revisionId | .classCode | .subsystemVendorId | .subsystemId | .serialNumber | .totalVfs | .initialVfs
  | .firstVfOffset | .vfStride | .vfDeviceId | .msixTableSize | .aerHeaderLog _ | .aerPrefixLog _ | .otherBar _ | .supportedPageSizes
  | .capability _ | .maxPayloadCap | .maxRateCap | .maxWidthCap | .l1ExitLatency | .tPowerOn | .commonModeRestore
  | .completionTimeoutRanges => s

/-- CONFIG_REQUEST: Request Retry Status until CFG_READY and while the function is being reset; Unsupported Request for a virtual
function that is not enabled (R224, R231, R245). -/
def execConfigRequest (f : Fin 1026) (r : CfgReq) (s : State) : Res :=
  let s := s.clean
  let k := s.fnPort f.val
  if !s.linkUp k then .next s
  else if !s.on (.pcie k) F.PCIE_CTRL_CFG_READY then .next (s.emit .hostRrs)
  else if !isPf f.val && !s.vfEnabled f.val then .next (s.emit .hostUr)
  else if (s.fnS f.val).resetting then .next (s.emit .hostRrs)
  else
    match r with
    | .read x => .next (s.emit (.hostData (s.cfgRead f.val x)))
    | .write x v => .next (s.cfgWrite f x v)

/-! ## BAR0 (R233) -/

/-- What an offset of BAR0 holds. -/
inductive BarPart where
  | page | table (off : Nat) | pba (off : Nat) | reserved
  deriving DecidableEq, Repr

/-- The region of an offset: its number in ascending order. -/
def barRegion (pf : Bool) (o : Nat) : Nat :=
  let starts := if pf then [0x40, 0x1000, 0x2000, 0x80000, 0x90000] else [0x40, 0x1000, 0x2000, 0x3000, 0x3800]
  (starts.filter fun b => decide (b ≤ o)).length

/-- What BAR0 holds at an offset (R233); the tenant mailbox exists on virtual functions only. -/
def barPart (pf : Bool) (o : Nat) : BarPart :=
  match barRegion pf o with
  | 0 | 1 | 2 => .page
  | 3 => if pf then .reserved else .page
  | 4 => if pf then .table (o - 0x80000) else .table (o - 0x3000)
  | _ => if pf then .pba (o - 0x90000) else .pba (o - 0x3800)

/-- Bytes of BAR0. -/
def barSize (pf : Bool) : Nat := if pf then 0x100000 else 0x10000

/-- MSI-X entries of a function (R233). -/
def msixEntries (pf : Bool) : Nat := if pf then 64 else 16

/-- An MSI-X entry as its 16 bytes: address, data, vector control. -/
def entryNum (m : MsixVec) : Nat := m.addr % 2 ^ 64 + 2 ^ 64 * (m.data % 2 ^ 32) + 2 ^ 96 * bit m.masked

/-- `n` bytes of the MSI-X table. -/
def State.tableRead (s : State) (f o n : Nat) : Nat :=
  if 16 * msixEntries (isPf f) ≤ o then 0
  else entryNum (vecOf (s.fnS f) (o / 16)) / 2 ^ (8 * (o % 16)) % 2 ^ (8 * min n (16 - o % 16))

/-- `n` bytes of the MSI-X table written; the Mask bit of an entry at or above VECTORS stays set, and a pending vector that is
unmasked is sent (R231, R232). -/
def State.tableWrite (s : State) (f o n v : Nat) : State :=
  if 16 * msixEntries (isPf f) ≤ o then s
  else
    let k := o / 16
    let x := s.fnS f
    let m := vecOf x k
    let w := min n (16 - o % 16)
    let old := entryNum m
    let lo := 2 ^ (8 * (o % 16))
    let new := old - old / lo % 2 ^ (8 * w) * lo + v % 2 ^ (8 * w) * lo
    let masked := decide (s.fnVectors f ≤ k) || bitsOf new 96 1 == 1
    let m' : MsixVec := { m with addr := new % 2 ^ 64 / 4 * 4, data := bitsOf new 64 32, masked := masked }
    (s.setFn f { x with vecs := tset {} x.vecs k m' }).flushVectors f

/-- The Pending Bit Array of a function. -/
def State.pbaWord (s : State) (f : Nat) : Nat :=
  (List.range (msixEntries (isPf f))).foldl (fun n k => n + (if (vecOf (s.fnS f) k).pending then 2 ^ k else 0)) 0

/-- A read of BAR0 that is served. -/
def State.barRead (s : State) (f : Fin 1026) (o n : Nat) : State :=
  match barPart (isPf f.val) o with
  | .page =>
    let (s, v) := s.unitRead false (.fn f) 63 o n
    s.emit (.hostData v)
  | .table t => s.emit (.hostData (s.tableRead f.val t n))
  | .pba t => s.emit (.hostData (if t < 8 then s.pbaWord f.val / 2 ^ (8 * t) % 2 ^ (8 * n) else 0))
  | .reserved => s.emit (.hostData 0)

/-- A write of BAR0 that is served. -/
def State.barWrite (s : State) (f : Fin 1026) (o n v : Nat) : State :=
  match barPart (isPf f.val) o with
  | .page => s.unitWrite false (.fn f) o n v
  | .table t => s.tableWrite f.val t n v
  | .pba _ | .reserved => s

/-- A request that R233 refuses: wider than 8 bytes, across two regions, or past the BAR. -/
def badBar (pf : Bool) (r : BarReq) : Bool :=
  decide (8 < r.size) || decide (barSize pf < r.off + r.size) || barRegion pf r.off != barRegion pf (r.off + (r.size - 1))

/-- A memory request of a host reaches a function: its BAR0 is enabled, by Memory Space Enable or for a virtual function by VF
Memory Space Enable, and it is not in D3hot (R221, R224, R231). -/
def State.memReach (s : State) (f : Nat) : Bool :=
  let p := s.fnS (1024 + (s.fnPort f).val)
  s.cfgReach f && (if isPf f then p.mse else p.vfMse) && !(s.fnS f).d3

/-- BAR_ACCESS: a host's memory request to BAR0 (R221, R224, R233). One with a bad ECRC is dropped and logged (PRESUMED, log 229). -/
def execBarAccess (f : Fin 1026) (r : BarReq) (s : State) : Res :=
  let s := s.clean
  let pf := isPf f.val
  if !s.linkUp (s.fnPort f.val) then .next s
  else if s.ecrcBad f.val r.badEcrc then .next (s.logAer f.val .ecrcError)
  else if !s.memReach f.val then .next (if r.write.isNone then s.emit .hostUr else s)
  else if badBar pf r then .next ((s.logAer f.val .unsupportedRequest).emit .hostUr)
  else
    match r.write with
    | none => .next (s.barRead f r.off r.size)
    | some v => .next (if r.poisoned then s.logAer f.val .poisonedTlp else s.barWrite f r.off r.size v)

end Sys2Proof.Machine
end

