-- ==== Sys2Proof/Machine/Loading.lean ====
section
/-! DEFINITION. Loading: the configuration image, the fill, the REG writes and the start of Twelve (R469–R477, R482, R492, R503, R505,
R546). -/

namespace Sys2Proof.Machine

open Sys2Proof

/-! ## The image (R470–R472) -/

/-- The number in `n` bytes of a byte string from `o`. -/
def numAt (bs : List Byte) (o n : Nat) : Nat := leNat ((bs.drop o).take n)

/-- The parameter table is accepted (R469). -/
def tableOk (h : FlashHead) : Bool := h.answered && h.signature == 0x50444653

/-- The fastest read mode that the table advertises; every flash reads single-bit (R469). -/
def fastestRead (h : FlashHead) : FlashRead :=
  (([.r144, .r114, .r122, .r112] : List FlashRead).find? h.reads.contains).getD .r111

/-- The first of causes 1 to 5 that the flash's answers and the header meet, 0 for none (R469, R470, R472). -/
def headCause (h : FlashHead) : Nat :=
  let len := numAt h.bytes 8 4
  if !tableOk h || h.bytes.length != 256 then 1
  else if numAt h.bytes 0 4 != 0x4A484346 then 2
  else if numAt h.bytes 4 2 != 1 then 3
  else if len < 268 ∨ 67108868 < len ∨ len % 8 ≠ 4 then 4
  else if numAt h.bytes 252 4 != crc32c (h.bytes.take 252) then 5
  else 0

/-- Word `r` of the header's REGION. -/
def regionWord (bs : List Byte) (r : Nat) : Nat := numAt bs (48 + 8 * r) 8

/-- The enabled regions of the header (R370, R384, R470). -/
def headRegions (bs : List Byte) : List MRegion :=
  ((List.range 16).map (regionWord bs)).filterMap fun w =>
    if w % 2 = 1 then some ⟨bitsOf w 1 1 == 1, bitsOf w 8 8, bitsOf w 16 8, bitsOf w 32 9⟩ else none

/-- MEM_TOP of the header. -/
def headTop (bs : List Byte) : Nat := numAt bs 40 2 % 512

/-- The header's regions and MEM_TOP would be accepted by a commit (R370). -/
def headMapOk (bs : List Byte) : Bool :=
  (headRegions bs).all (regionOk (headTop bs)) && pairsAll regionsApart (headRegions bs)

/-- The header's regions and MEM_TOP in the registers of hub/memmap and in force. -/
def State.commitHead (s : State) (bs : List Byte) : State :=
  let one := fun (s : State) (r : Nat) =>
    let w := regionWord bs r
    ((((s.put .memmap F.MREG_EN (w % 2) r).put .memmap F.MREG_STRONG (w / 2) r).put .memmap F.MREG_BASE (w / 2 ^ 8) r).put .memmap
      F.MREG_LIMIT (w / 2 ^ 16) r).put .memmap F.MREG_ANNEX (w / 2 ^ 32) r
  let s := ((List.range 16).foldl one s).put .memmap F.MEM_TOP (headTop bs)
  { s with mregNow := headRegions bs, memTop := min (headTop bs) 384 }

/-- The factory map: no region, MEM_TOP 384 (R473). -/
def State.factoryMap (s : State) : State :=
  let one := fun (s : State) (r : Nat) =>
    [F.MREG_EN, F.MREG_STRONG, F.MREG_BASE, F.MREG_LIMIT, F.MREG_ANNEX].foldl (fun s f => s.put .memmap f 0 r) s
  { ((List.range 16).foldl one s).put .memmap F.MEM_TOP 384 with mregNow := [], memTop := 384 }

/-- The fill of all of DRAM, data and annex, starts (R474 step 4, R473). -/
def State.startFill (s : State) : State :=
  { (s.put .memmap F.FILL_BUSY 1) with fill := some (0, dramSize - 1), load := { s.load with filled := false } }

/-- What an image that is not valid leaves (R473): after a cold reset DRAM is filled again under the factory map, after RESTART the
map and DRAM stay. -/
def State.imageInvalid (s : State) (cause : Nat) : State :=
  let s := (((s.put .cfg F.CFG_STAT_DEFAULTED 1).put .cfg F.CFG_STAT_CAUSE cause).raise .cfg F.CFG_EVT_DEFAULTED)
  let s := { s with svid := 0, ssid := 0, load := { s.load with judged := true, cause := cause, regs := [] } }
  if s.load.warm then s else s.factoryMap.startFill

/-! ## Step 1 to 4 -/

/-- The recovery segment with a CRC that its bytes meet; one that fails counts as not stored (R482). -/
def State.recSegOk (s : State) : Option (List Byte) :=
  match s.recSeg with
  | some r =>
    let bs := s.mramBytes (pkgArea + 0x10000) r.len
    if crc32c bs = r.crc then some bs else none
  | none => none

/-- Step 1 (R474, R503, R546): the lifecycle fuses and the package area are read, and the tiles are chosen. -/
def State.loadStart (s : State) : State :=
  let s := (s.put .cfg F.CFG_STAT_LCS (lcsOf s.life)).putBit .cfg F.CFG_STAT_RECSEG s.recSegOk.isSome
  let s := { s with st := { s.st with seen := s.st.ents } }
  let s := (s.put .stest F.ST_STAT_LAST_PROG s.st.prog).putBit .stest F.ST_STAT_INTERRUPTED (decide (s.st.run < s.st.marker))
  s.chooseTiles

/-- LOADING_BEGIN: steps 1 to 4 of R474 up to the start of the fill; after RESTART the map is only compared (R476). -/
def execLoadingBegin (head : FlashHead) (s : State) : Res :=
  let s := s.clean
  if s.mode != .loading || s.load.begun || s.fatalStop then .next s
  else
    let s := s.loadStart
    let s := { s with load := { s.load with begun := true, read := fastestRead head, len := numAt head.bytes 8 4, head := head.bytes } }
    let c := headCause head
    .next (
      if c ≠ 0 then s.imageInvalid c
      else if s.load.warm then
        (if headRegions head.bytes = s.mregNow ∧ min (headTop head.bytes) 384 = s.memTop then s else s.imageInvalid 6)
      else if headMapOk head.bytes then (s.commitHead head.bytes).startFill
      else s.imageInvalid 6)

/-- LOADING_FILL_DONE: the fill of all of DRAM ends (R474, R475). -/
def execLoadingFillDone (s : State) : Res :=
  let s := s.clean
  match s.fill with
  | none => .next s
  | some (lo, hi) =>
    if s.mode != .loading then .next s
    else
      let s := (s.zeroFill lo hi).put .memmap F.FILL_BUSY 0
      .next { s with fill := none, load := { s.load with filled := true } }

/-! ## Records (R471, R472) -/

/-- A record of the image. -/
inductive ImgRec where
  | fin | reg (r : RegRec) | load (dest : Nat) (data : List Byte)
  deriving DecidableEq, Repr

/-- An address that a REG record may name: 8-byte aligned, in die slot 40 or 44 to 48 (R471). -/
def regAddrOk (a : Nat) : Bool :=
  let slot := (a - unitSpace) / 2 ^ 32
  a % 8 == 0 && decide (unitSpace ≤ a) && (slot == 40 || decide (44 ≤ slot ∧ slot ≤ 48))

/-- The record at the start of a byte string, with what follows it; none where its TYPE, SIZE or fields do not meet R471. -/
def recordAt (top : Nat) (bs : List Byte) : Option (ImgRec × List Byte) :=
  let h := numAt bs 0 8
  let size := h / 2 ^ 32
  let p := (bs.drop 8).take size
  let rest := bs.drop (8 + (size + 7) / 8 * 8)
  if bs.length < 8 ∨ bitsOf h 8 24 ≠ 0 ∨ p.length < size then none
  else
    match h % 256 with
    | 0 => if size = 0 then some (.fin, rest) else none
    | 1 =>
      let r : RegRec := ⟨numAt p 0 8, numAt p 8 8, numAt p 16 8⟩
      if size = 24 && regAddrOk r.addr then some (.reg r, rest) else none
    | 2 => if 9 ≤ size ∧ numAt p 0 8 + (size - 8) ≤ top then some (.load (numAt p 0 8) (p.drop 8), rest) else none
    | _ => none

/-- The records of a body up to END or to the first bad one, and whether END was found with exactly the check word after it. -/
def recordsOf (top : Nat) : Nat → List Byte → List ImgRec × Bool
  | 0, _ => ([], false)
  | n + 1, bs =>
    match recordAt top bs with
    | none => ([], false)
    | some (.fin, rest) => ([], rest.length == 4)
    | some (r, rest) =>
      let (rs, ok) := recordsOf top n rest
      (r :: rs, ok)

/-- Bytes written to DRAM by the controller as an image's data arrives; no cache holds a line then. -/
def State.loadBytes (s : State) (a : Nat) (bs : List Byte) : State :=
  let n := bs.length
  let one := fun (s : State) (l : Nat) =>
    let lo := max a (64 * l) - 64 * l
    let hi := min (a + n) (64 * l + 64) - 64 * l
    s.mcWrite l ((List.range 64).map fun k => bs.getD (64 * l + k - a) 0) (2 ^ hi - 2 ^ lo) 0
  (linesOf a n).foldl one s

/-- The data of LOAD records written as it arrives. -/
def State.loadRecords (s : State) (rs : List ImgRec) : State :=
  rs.foldl (fun s r => match r with
    | .load a bs => s.loadBytes a bs
    | _ => s) s

/-- The REG records held. -/
def heldRegs (rs : List ImgRec) : List RegRec :=
  rs.filterMap fun r => match r with
    | .reg x => some x
    | _ => none

/-- What a valid image gives: its REG records to write, and the header's values (R227, R470, R493, R495). -/
def State.imageValid (s : State) (rs : List ImgRec) : State :=
  let h := s.load.head
  let s := { s with svid := numAt h 16 2, ssid := numAt h 18 2, load := { s.load with judged := true, cause := 0, regs := heldRegs rs } }
  let s := ((s.put .cfg F.CFG_STAT_SHUT_PROG (numAt h 20 1)).put .cfg F.CFG_ENTRY (numAt h 24 8)).put .cfg F.CFG_REC_ENTRY (numAt h 32 8)
  (s.put .cfg F.CFG_STAT_DEFAULTED 0).put .cfg F.CFG_STAT_CAUSE 0

/-- LOADING_IMAGE_END: the image from byte 256 on has been read (`answered`: every read was), LOAD data is in DRAM, and causes 7 and 8
are judged (R472–R474). -/
def execLoadingImageEnd (answered : Bool) (body : List Byte) (s : State) : Res :=
  let s := s.clean
  if s.mode != .loading || !s.load.begun || s.load.judged || (!s.load.warm && !s.load.filled) || s.fatalStop then .next s
  else
    let whole := answered && body.length == s.load.len - 256
    let (rs, ok) := recordsOf (s.memTop * 2 ^ 29) (body.length / 8 + 1) body
    let s := s.loadRecords rs
    let word := leNat (body.drop (body.length - 4))
    .next (
      if !whole then s.imageInvalid 1
      else if !ok || decide (4096 < (heldRegs rs).length) then s.imageInvalid 7
      else if word != crc32c (s.load.head ++ body.take (body.length - 4)) then s.imageInvalid 8
      else s.imageValid rs)

/-- LOADING_REG_WRITE: the next REG record is written, by a secure-world initiator (R471, R474 step 7). -/
def execLoadingRegWrite (s : State) : Res :=
  let s := s.clean
  match s.load.regs with
  | [] => .next s
  | r :: rest =>
    if s.mode != .loading || (!s.load.warm && !s.load.filled) || s.fatalStop then .next s
    else
      let s := { s with load := { s.load with regs := rest } }
      let all := 2 ^ 64 - 1
      let (s, old) := if r.mask = all then (s, 0) else match s.ncRead true 59 r.addr 8 with
        | (s, .value bs _) => (s, leNat bs)
        | (s, _) => (s, 0)
      let v := (old &&& (all - r.mask)) ||| (r.value &&& r.mask)
      .next (s.ncWrite true 59 r.addr (leBytes 8 v)).1

/-! ## Step 8 and 9 (R216, R473, R477, R482, R505) -/

/-- Some quarter has fewer than three passing tiles (R482). -/
def State.fewTiles (s : State) : Bool := (List.range 4).any fun q => decide ((s.tileOrder q).length < 3)

/-- A medium die, home slice, stack controller, port or stripe domain does not pass (R505). -/
def State.unitFailed (s : State) : Bool := (List.range 23).any fun i => !s.testPass (36 + i)

/-- Recovery entered at the end of Loading; the harts start where `b` says, if anywhere. -/
def State.loadRecovery (s : State) (b : Option BootAt) : State :=
  let s := (s.setMode .recovery).recovered
  { s with boot := b }.startTwelve

/-- Step 9 under an image that is not valid: the recovery segment, when one is stored, is copied to DRAM and started (R473). -/
def State.loadDefaulted (s : State) : State :=
  match s.recSegOk with
  | some bs => (s.loadBytes 0 bs).loadRecovery (some ⟨0, 0⟩)
  | none => s.loadRecovery none

/-- Step 9 under a valid image; `sanitise` says that the progress header held a sanitise in phases 1 to 3 (R216, R477, R482,
R505). -/
def State.loadApplied (s : State) (sanitise : Bool) : State :=
  let b : BootAt := ⟨s.get .cfg F.CFG_ENTRY, 0⟩
  if s.fewTiles then (s.put .cfg F.CFG_STAT_CAUSE 9).loadRecovery (some b)
  else if s.unitFailed then (s.put .cfg F.CFG_STAT_CAUSE 10).loadRecovery (some b)
  else if sanitise then
    ((({ s with sweep := { s.sweep with boot := true }, boot := some b }.setMode .sanitise).freezeTenants 4).startTwelve)
  else ({ s with boot := some b }.setMode .twelve).startTwelve

/-- LOADING_END: R216 after a cold reset, and the harts of Twelve start or Recovery begins (R474 steps 8 and 9, R476). -/
def execLoadingEnd (s : State) : Res :=
  let s := s.clean
  if s.mode != .loading || !s.load.judged || !s.load.regs.isEmpty || (!s.load.warm && !s.load.filled) || s.fatalStop then .next s
  else
    let warm := s.load.warm
    let cause := s.load.cause
    let (s, was) := if warm then (s, false) else s.swpAtLoad
    let s := if cause ≠ 0 then s.loadDefaulted else s.loadApplied was
    let s := { s with load := {} }
    .next (if warm then s.transitionEnds else s)

end Sys2Proof.Machine
end

