-- ==== Sys2Proof/Machine/Dispatch.lean ====
section
/-! DEFINITION. The dispatcher: one arm per command, each one direct call of its meaning. -/

namespace Sys2Proof.Machine

open Sys2Proof

/-- The effect of a command on everything but the queue. -/
def exec (i : Instr) (s : State) : Host.Outcome State Fault Refusal :=
  match i with
  | .registerWrite t v => Sys2Proof.Machine.execRegisterWrite t v s
  | .unitErrClear u mask => Sys2Proof.Machine.execUnitErrClear u mask s
  | .laneEnable a => Sys2Proof.Machine.execLaneEnable a s
  | .laneDisable a => Sys2Proof.Machine.execLaneDisable a s
  | .retrain a => Sys2Proof.Machine.execRetrain a s
  | .retract a => Sys2Proof.Machine.execRetract a s
  | .sleepRequest a => Sys2Proof.Machine.execSleepRequest a s
  | .sleepWake a => Sys2Proof.Machine.execSleepWake a s
  | .ylT0Detect a => Sys2Proof.Machine.execYlT0Detect a s
  | .ylStepExit a rtt => Sys2Proof.Machine.execYlStepExit a rtt s
  | .ylStepTimeout a => Sys2Proof.Machine.execYlStepTimeout a s
  | .ylDetectBurst a => Sys2Proof.Machine.execYlDetectBurst a s
  | .uplinkFrame a f => Sys2Proof.Machine.execUplinkFrame a f s
  | .laneDown a => Sys2Proof.Machine.execLaneDown a s
  | .downlinkFrame a => Sys2Proof.Machine.execDownlinkFrame a s
  | .heartbeatIdleFrame a => Sys2Proof.Machine.execHeartbeatIdleFrame a s
  | .sidebandAcknowledgement a tag stat => Sys2Proof.Machine.execSidebandAcknowledgement a tag stat s
  | .sbResendTimer a tag => Sys2Proof.Machine.execSbResendTimer a tag s
  | .cap a m => Sys2Proof.Machine.execCap a m s
  | .id a m => Sys2Proof.Machine.execId a m s
  | .echo a m => Sys2Proof.Machine.execEcho a m s
  | .spinStat a m => Sys2Proof.Machine.execSpinStat a m s
  | .parkStat a m => Sys2Proof.Machine.execParkStat a m s
  | .preampVal a m => Sys2Proof.Machine.execPreampVal a m s
  | .env a m => Sys2Proof.Machine.execEnv a m s
  | .fault a m => Sys2Proof.Machine.execFault a m s
  | .writeAbort a m => Sys2Proof.Machine.execWriteAbort a m s
  | .shock a m => Sys2Proof.Machine.execShock a m s
  | .health a m => Sys2Proof.Machine.execHealth a m s
  | .bridgeMakerMessage a op m => Sys2Proof.Machine.execBridgeMakerMessage a op m s
  | .go a => Sys2Proof.Machine.execGo a s
  | .sbRxRelease a => Sys2Proof.Machine.execSbRxRelease a s
  | .chEnable a => Sys2Proof.Machine.execChEnable a s
  | .chDisable a => Sys2Proof.Machine.execChDisable a s
  | .readEntryFetch a => Sys2Proof.Machine.execReadEntryFetch a s
  | .read a => Sys2Proof.Machine.execRead a s
  | .readSoft a => Sys2Proof.Machine.execReadSoft a s
  | .decodeMem a => Sys2Proof.Machine.execDecodeMem a s
  | .scan a => Sys2Proof.Machine.execScan a s
  | .readPassStart a idx => Sys2Proof.Machine.execReadPassStart a idx s
  | .syncWindowExpiry a => Sys2Proof.Machine.execSyncWindowExpiry a s
  | .readPassEnd a obs => Sys2Proof.Machine.execReadPassEnd a obs s
  | .deepDecodeDone m d obs => Sys2Proof.Machine.execDeepDecodeDone m d obs s
  | .chCancel a tag => Sys2Proof.Machine.execChCancel a tag s
  | .servoWedge a obs => Sys2Proof.Machine.execServoWedge a obs s
  | .acquireTimeout a => Sys2Proof.Machine.execAcquireTimeout a s
  | .servoLost a => Sys2Proof.Machine.execServoLost a s
  | .settleTimeout a => Sys2Proof.Machine.execSettleTimeout a s
  | .shockHoldEnd a => Sys2Proof.Machine.execShockHoldEnd a s
  | .coefSwap a => Sys2Proof.Machine.execCoefSwap a s
  | .svEnable a => Sys2Proof.Machine.execSvEnable a s
  | .svDisable a => Sys2Proof.Machine.execSvDisable a s
  | .seek a args => Sys2Proof.Machine.execSeek a args s
  | .offset a args => Sys2Proof.Machine.execOffset a args s
  | .svLoad a args => Sys2Proof.Machine.execSvLoad a args s
  | .unload a => Sys2Proof.Machine.execUnload a s
  | .spinUp a => Sys2Proof.Machine.execSpinUp a s
  | .spinDown a => Sys2Proof.Machine.execSpinDown a s
  | .halt a => Sys2Proof.Machine.execHalt a s
  | .svCmdReserved a op => Sys2Proof.Machine.execSvCmdReserved a op s
  | .spinGrant m => Sys2Proof.Machine.execSpinGrant m s
  | .spinTimeout m asm => Sys2Proof.Machine.execSpinTimeout m asm s
  | .slEnable a => Sys2Proof.Machine.execSlEnable a s
  | .slDisable a => Sys2Proof.Machine.execSlDisable a s
  | .write a => Sys2Proof.Machine.execWrite a s
  | .fillStart a => Sys2Proof.Machine.execFillStart a s
  | .fillDone a => Sys2Proof.Machine.execFillDone a s
  | .journalRecordAck m => Sys2Proof.Machine.execJournalRecordAck m s
  | .burstStart a => Sys2Proof.Machine.execBurstStart a s
  | .sectorWriteEnd a => Sys2Proof.Machine.execSectorWriteEnd a s
  | .revolutionVerifyStart a => Sys2Proof.Machine.execRevolutionVerifyStart a s
  | .verifyResult a obs => Sys2Proof.Machine.execVerifyResult a obs s
  | .wrateSet a => Sys2Proof.Machine.execWrateSet a s
  | .slCancel a tag => Sys2Proof.Machine.execSlCancel a tag s
  | .sldJheadWrite m v => Sys2Proof.Machine.execSldJheadWrite m v s
  | .sldJtailWrite m v => Sys2Proof.Machine.execSldJtailWrite m v s
  | .encode k => Sys2Proof.Machine.execEncode k s
  | .rebuild k => Sys2Proof.Machine.execRebuild k s
  | .check k => Sys2Proof.Machine.execCheck k s
  | .stripeDescDone k idx => Sys2Proof.Machine.execStripeDescDone k idx s
  | .strEnable k => Sys2Proof.Machine.execStrEnable k s
  | .strDisable k => Sys2Proof.Machine.execStrDisable k s
  | .strDownClear mask => Sys2Proof.Machine.execStrDownClear mask s
  | .keyLoad w slot fn ns => Sys2Proof.Machine.execKeyLoad w slot fn ns s
  | .keyRestore w scope slot => Sys2Proof.Machine.execKeyRestore w scope slot s
  | .keySuspend w scope slot fn => Sys2Proof.Machine.execKeySuspend w scope slot fn s
  | .keyResume w scope slot fn => Sys2Proof.Machine.execKeyResume w scope slot fn s
  | .keyErase w scope slot fn => Sys2Proof.Machine.execKeyErase w scope slot fn s
  | .keyCmdReserved w op scope => Sys2Proof.Machine.execKeyCmdReserved w op scope s
  | .keyEraseDrained => Sys2Proof.Machine.execKeyEraseDrained s
  | .keyCmdDone => Sys2Proof.Machine.execKeyCmdDone s
  | .keyCacheFill m slot => Sys2Proof.Machine.execKeyCacheFill m slot s
  | .format w verify shelf asm => Sys2Proof.Machine.execFormat w verify shelf asm s
  | .sanitise w method passes verify shelf asm => Sys2Proof.Machine.execSanitise w method passes verify shelf asm s
  | .resume w => Sys2Proof.Machine.execResume w s
  | .abort w => Sys2Proof.Machine.execAbort w s
  | .swpCmdReserved w op => Sys2Proof.Machine.execSwpCmdReserved w op s
  | .swpPhaseBegin => Sys2Proof.Machine.execSwpPhaseBegin s
  | .swpQuiesceDone => Sys2Proof.Machine.execSwpQuiesceDone s
  | .swpCryptoDone => Sys2Proof.Machine.execSwpCryptoDone s
  | .swpMetadataDone => Sys2Proof.Machine.execSwpMetadataDone s
  | .swpFillSectorResult a obs => Sys2Proof.Machine.execSwpFillSectorResult a obs s
  | .swpTrackDone a => Sys2Proof.Machine.execSwpTrackDone a s
  | .swpReport => Sys2Proof.Machine.execSwpReport s
  | .perstAssert k => Sys2Proof.Machine.execPerstAssert k s
  | .perstDeassert k => Sys2Proof.Machine.execPerstDeassert k s
  | .pcieLinkUp k rate width flit => Sys2Proof.Machine.execPcieLinkUp k rate width flit s
  | .pcieLinkDown k => Sys2Proof.Machine.execPcieLinkDown k s
  | .pcieEnable k => Sys2Proof.Machine.execPcieEnable k s
  | .cfgReady k => Sys2Proof.Machine.execCfgReady k s
  | .configRequest f r => Sys2Proof.Machine.execConfigRequest f r s
  | .busMasterDisable f => Sys2Proof.Machine.execBusMasterDisable f s
  | .busMasterEnable f => Sys2Proof.Machine.execBusMasterEnable f s
  | .functionLevelReset f => Sys2Proof.Machine.execFunctionLevelReset f s
  | .vfEnableSet k n => Sys2Proof.Machine.execVfEnableSet k n s
  | .vfEnableClear k => Sys2Proof.Machine.execVfEnableClear k s
  | .d3hotEntry f => Sys2Proof.Machine.execD3hotEntry f s
  | .barAccess f r => Sys2Proof.Machine.execBarAccess f r s
  | .fnCreate f => Sys2Proof.Machine.execFnCreate f s
  | .fnFree f => Sys2Proof.Machine.execFnFree f s
  | .fnLiveFieldWrite f field v => Sys2Proof.Machine.execFnLiveFieldWrite f field v s
  | .xferRingEnable k r en => Sys2Proof.Machine.execXferRingEnable k r en s
  | .hostRead k r => Sys2Proof.Machine.execHostRead k r s
  | .hostWrite k r => Sys2Proof.Machine.execHostWrite k r s
  | .hostCompletion k tag st ep data => Sys2Proof.Machine.execHostCompletion k tag st ep data s
  | .xferDone k r idx => Sys2Proof.Machine.execXferDone k r idx s
  | .hostReadTimeout k tag => Sys2Proof.Machine.execHostReadTimeout k tag s
  | .tagHoldExpiry k tag => Sys2Proof.Machine.execTagHoldExpiry k tag s
  | .l0pEntry k => Sys2Proof.Machine.execL0pEntry k s
  | .l1Entry k => Sys2Proof.Machine.execL1Entry k s
  | .clkreqRelease k => Sys2Proof.Machine.execClkreqRelease k s
  | .verReqWrite f v => Sys2Proof.Machine.execVerReqWrite f v s
  | .queueEnable f q => Sys2Proof.Machine.execQueueEnable f q s
  | .queueDisable f q => Sys2Proof.Machine.execQueueDisable f q s
  | .queueDisableDrained f q => Sys2Proof.Machine.execQueueDisableDrained f q s
  | .sqTail f q v => Sys2Proof.Machine.execSqTail f q v s
  | .cqHead f q v => Sys2Proof.Machine.execCqHead f q v s
  | .sqFetch f q res => Sys2Proof.Machine.execSqFetch f q res s
  | .hgAdmission => Sys2Proof.Machine.execHgAdmission s
  | .postConsume p => Sys2Proof.Machine.execPostConsume p s
  | .coalesceTimeout f q => Sys2Proof.Machine.execCoalesceTimeout f q s
  | .hgFreeze fn pf port mask => Sys2Proof.Machine.execHgFreeze fn pf port mask s
  | .hgRestart fn pf port mask arise => Sys2Proof.Machine.execHgRestart fn pf port mask arise s
  | .hgEnable => Sys2Proof.Machine.execHgEnable s
  | .mbCommit e w3 => Sys2Proof.Machine.execMbCommit e w3 s
  | .take e => Sys2Proof.Machine.execTake e s
  | .mbTimeout e => Sys2Proof.Machine.execMbTimeout e s
  | .mbDeliverHeld e => Sys2Proof.Machine.execMbDeliverHeld e s
  | .smbMbWrite bytes => Sys2Proof.Machine.execSmbMbWrite bytes s
  | .smbMbRead => Sys2Proof.Machine.execSmbMbRead s
  | .smbMbStat => Sys2Proof.Machine.execSmbMbStat s
  | .smbMbFlags data => Sys2Proof.Machine.execSmbMbFlags data s
  | .smbModeRead => Sys2Proof.Machine.execSmbModeRead s
  | .smbWakeCommand data => Sys2Proof.Machine.execSmbWakeCommand data s
  | .smbAddressMatch addr => Sys2Proof.Machine.execSmbAddressMatch addr s
  | .gateCall a rd rs1 tag => Sys2Proof.Machine.execGateCall a rd rs1 tag s
  | .gateReturn a rd rs1 tag => Sys2Proof.Machine.execGateReturn a rd rs1 tag s
  | .gatemark a rs1 rd funct3 => Sys2Proof.Machine.execGatemark a rs1 rd funct3 s
  | .mret a => Sys2Proof.Machine.execMret a s
  | .sret a => Sys2Proof.Machine.execSret a s
  | .trap a e => Sys2Proof.Machine.execTrap a e s
  | .interruptTaken hart pc => Sys2Proof.Machine.execInterruptTaken hart pc s
  | .hartLoad a m d par => Sys2Proof.Machine.execHartLoad a m d par s
  | .hartStore a m d => Sys2Proof.Machine.execHartStore a m d s
  | .hartAmo a m op rd rs2 par => Sys2Proof.Machine.execHartAmo a m op rd rs2 par s
  | .lr a m rd par => Sys2Proof.Machine.execLr a m rd par s
  | .sc a m rd rs2 par => Sys2Proof.Machine.execSc a m rd rs2 par s
  | .fence a pred succ => Sys2Proof.Machine.execFence a pred succ s
  | .fenceI a => Sys2Proof.Machine.execFenceI a s
  | .sfenceVma a va asid => Sys2Proof.Machine.execSfenceVma a va asid s
  | .hfenceVvma a va asid => Sys2Proof.Machine.execHfenceVvma a va asid s
  | .hfenceGvma a gpa vmid => Sys2Proof.Machine.execHfenceGvma a gpa vmid s
  | .jatomctlClear a mode => Sys2Proof.Machine.execJatomctlClear a mode s
  | .jgatecfgWrite a v => Sys2Proof.Machine.execJgatecfgWrite a v s
  | .irqSourceChange src => Sys2Proof.Machine.execIrqSourceChange src s
  | .mtimecmpMatch hart => Sys2Proof.Machine.execMtimecmpMatch hart s
  | .wmapCommit w => Sys2Proof.Machine.execWmapCommit w s
  | .wmapCommitDone => Sys2Proof.Machine.execWmapCommitDone s
  | .iowWorldChange master secure w => Sys2Proof.Machine.execIowWorldChange master secure w s
  | .rdS agent line victim par => Sys2Proof.Machine.execRdS agent line victim par s
  | .rdU agent line victim par => Sys2Proof.Machine.execRdU agent line victim par s
  | .upg agent line victim par => Sys2Proof.Machine.execUpg agent line victim par s
  | .rdOnce master line par => Sys2Proof.Machine.execRdOnce master line par s
  | .wrFull master line data => Sys2Proof.Machine.execWrFull master line data s
  | .wrPtl master line data mask => Sys2Proof.Machine.execWrPtl master line data mask s
  | .amo hart line word wide op operand => Sys2Proof.Machine.execAmo hart line word wide op operand s
  | .evict agent line => Sys2Proof.Machine.execEvict agent line s
  | .wb agent line => Sys2Proof.Machine.execWb agent line s
  | .odata agent line => Sys2Proof.Machine.execOdata agent line s
  | .ack agent line => Sys2Proof.Machine.execAck agent line s
  | .compAck agent line => Sys2Proof.Machine.execCompAck agent line s
  | .snpS agent line par => Sys2Proof.Machine.execSnpS agent line par s
  | .snpU agent line par => Sys2Proof.Machine.execSnpU agent line par s
  | .snpInv agent line par => Sys2Proof.Machine.execSnpInv agent line par s
  | .snpOnce agent line par => Sys2Proof.Machine.execSnpOnce agent line par s
  | .snpClean agent line par => Sys2Proof.Machine.execSnpClean agent line par s
  | .data port txn => Sys2Proof.Machine.execData port txn s
  | .comp port txn => Sys2Proof.Machine.execComp port txn s
  | .wbAck agent line => Sys2Proof.Machine.execWbAck agent line s
  | .evictAck agent line => Sys2Proof.Machine.execEvictAck agent line s
  | .err port txn => Sys2Proof.Machine.execErr port txn s
  | .getS tile core line => Sys2Proof.Machine.execGetS tile core line s
  | .getU tile core line => Sys2Proof.Machine.execGetU tile core line s
  | .tileUpg tile core line => Sys2Proof.Machine.execTileUpg tile core line s
  | .put tile core line => Sys2Proof.Machine.execPut tile core line s
  | .tInv tile core line => Sys2Proof.Machine.execTInv tile core line s
  | .tDown tile core line => Sys2Proof.Machine.execTDown tile core line s
  | .tFetch tile core line => Sys2Proof.Machine.execTFetch tile core line s
  | .tData tile core line => Sys2Proof.Machine.execTData tile core line s
  | .clean ch agent w => Sys2Proof.Machine.execClean ch agent w s
  | .cleanInv ch agent w => Sys2Proof.Machine.execCleanInv ch agent w s
  | .inv ch agent w => Sys2Proof.Machine.execInv ch agent w s
  | .recall ch agent w => Sys2Proof.Machine.execRecall ch agent w s
  | .rmeCmdReserved ch op agent w => Sys2Proof.Machine.execRmeCmdReserved ch op agent w s
  | .rmeDone ch => Sys2Proof.Machine.execRmeDone ch s
  | .mcCorrectionWriteback k hard => Sys2Proof.Machine.execMcCorrectionWriteback k hard s
  | .scrubRead k nth bits => Sys2Proof.Machine.execScrubRead k nth bits s
  | .memmapCommit w => Sys2Proof.Machine.execMemmapCommit w s
  | .memmapCommitDone => Sys2Proof.Machine.execMemmapCommitDone s
  | .fillGo w => Sys2Proof.Machine.execFillGo w s
  | .fillDoneMem => Sys2Proof.Machine.execFillDoneMem s
  | .ncRd port txn addr lg w => Sys2Proof.Machine.execNcRd port txn addr lg w s
  | .ncWr port txn addr data w => Sys2Proof.Machine.execNcWr port txn addr data w s
  | .ncData port txn => Sys2Proof.Machine.execNcData port txn s
  | .ncAck port txn => Sys2Proof.Machine.execNcAck port txn s
  | .irq src level => Sys2Proof.Machine.execIrq src level s
  | .badopUnit port => Sys2Proof.Machine.execBadopUnit port s
  | .flitReceived n toHub want bad => Sys2Proof.Machine.execFlitReceived n toHub want bad s
  | .nak n hubEnd => Sys2Proof.Machine.execNak n hubEnd s
  | .fastRetrainStart n => Sys2Proof.Machine.execFastRetrainStart n s
  | .vzDetect n => Sys2Proof.Machine.execVzDetect n s
  | .vzStepDone n o => Sys2Proof.Machine.execVzStepDone n o s
  | .vzMismatchHoldEnd n => Sys2Proof.Machine.execVzMismatchHoldEnd n s
  | .vzStepTimeout n => Sys2Proof.Machine.execVzStepTimeout n s
  | .vzEnable n en => Sys2Proof.Machine.execVzEnable n en s
  | .vzRetrain n full => Sys2Proof.Machine.execVzRetrain n full s
  | .isolateSet n loss => Sys2Proof.Machine.execIsolateSet n loss s
  | .isolateClear n => Sys2Proof.Machine.execIsolateClear n s
  | .halfIdleEnter n => Sys2Proof.Machine.execHalfIdleEnter n s
  | .requestTimeout t => Sys2Proof.Machine.execRequestTimeout t s
  | .txnHoldExpiry port txn => Sys2Proof.Machine.execTxnHoldExpiry port txn s
  | .pwronAssert => Sys2Proof.Machine.execPwronAssert s
  | .pwronRise straps => Sys2Proof.Machine.execPwronRise straps s
  | .vauxLoss => Sys2Proof.Machine.execVauxLoss s
  | .thermalTrip die => Sys2Proof.Machine.execThermalTrip die s
  | .thermalWarn die temp => Sys2Proof.Machine.execThermalWarn die temp s
  | .tripClear => Sys2Proof.Machine.execTripClear s
  | .sealOpen => Sys2Proof.Machine.execSealOpen s
  | .presencePress => Sys2Proof.Machine.execPresencePress s
  | .presenceWindowEnd => Sys2Proof.Machine.execPresenceWindowEnd s
  | .presenceJumper => Sys2Proof.Machine.execPresenceJumper s
  | .serve w => Sys2Proof.Machine.execServe w s
  | .still w => Sys2Proof.Machine.execStill w s
  | .shutdown w => Sys2Proof.Machine.execShutdown w s
  | .restart w => Sys2Proof.Machine.execRestart w s
  | .pwrCmdReserved op w => Sys2Proof.Machine.execPwrCmdReserved op w s
  | .shutdownProgramEnd => Sys2Proof.Machine.execShutdownProgramEnd s
  | .domReq d off w => Sys2Proof.Machine.execDomReq d off w s
  | .domainChangeDone d => Sys2Proof.Machine.execDomainChangeDone d s
  | .pwrHoldWrite mask w => Sys2Proof.Machine.execPwrHoldWrite mask w s
  | .tileFreqWrite t freq => Sys2Proof.Machine.execTileFreqWrite t freq s
  | .freqChangeDone t => Sys2Proof.Machine.execFreqChangeDone t s
  | .vinChangeCheck pg status => Sys2Proof.Machine.execVinChangeCheck pg status s
  | .powerSample amps => Sys2Proof.Machine.execPowerSample amps s
  | .weirTest temps => Sys2Proof.Machine.execWeirTest temps s
  | .clockGateEnter u idle => Sys2Proof.Machine.execClockGateEnter u idle s
  | .deepGateTimer u => Sys2Proof.Machine.execDeepGateTimer u s
  | .clockRestartDone u => Sys2Proof.Machine.execClockRestartDone u s
  | .aonAlarmMatch => Sys2Proof.Machine.execAonAlarmMatch s
  | .pmbusTransactionEnd acked data => Sys2Proof.Machine.execPmbusTransactionEnd acked data s
  | .pmbusRetryWaitEnd => Sys2Proof.Machine.execPmbusRetryWaitEnd s
  | .wakeStepReady ids => Sys2Proof.Machine.execWakeStepReady ids s
  | .wakeStepTimeout why => Sys2Proof.Machine.execWakeStepTimeout why s
  | .wakeRetryTimer => Sys2Proof.Machine.execWakeRetryTimer s
  | .tripHoldEnd => Sys2Proof.Machine.execTripHoldEnd s
  | .loadingBegin head => Sys2Proof.Machine.execLoadingBegin head s
  | .loadingFillDone => Sys2Proof.Machine.execLoadingFillDone s
  | .loadingImageEnd answered body => Sys2Proof.Machine.execLoadingImageEnd answered body s
  | .loadingRegWrite => Sys2Proof.Machine.execLoadingRegWrite s
  | .loadingEnd => Sys2Proof.Machine.execLoadingEnd s
  | .tilePowerUp q => Sys2Proof.Machine.execTilePowerUp q s
  | .unitReadyRise u => Sys2Proof.Machine.execUnitReadyRise u s
  | .cfgStart tile go w => Sys2Proof.Machine.execCfgStart tile go w s
  | .tileRetire tile w => Sys2Proof.Machine.execTileRetire tile w s
  | .tileAdd tile w => Sys2Proof.Machine.execTileAdd tile w s
  | .tileSwap tile w => Sys2Proof.Machine.execTileSwap tile w s
  | .tileCmdReserved tile w => Sys2Proof.Machine.execTileCmdReserved tile w s
  | .tileOpStepDone => Sys2Proof.Machine.execTileOpStepDone s
  | .provision w => Sys2Proof.Machine.execProvision w s
  | .deploy w => Sys2Proof.Machine.execDeploy w s
  | .diag w => Sys2Proof.Machine.execDiag w s
  | .undiag w => Sys2Proof.Machine.execUndiag w s
  | .retire w => Sys2Proof.Machine.execRetire w s
  | .diagMode w => Sys2Proof.Machine.execDiagMode w s
  | .storeRec w => Sys2Proof.Machine.execStoreRec w s
  | .lcCmdReserved op w => Sys2Proof.Machine.execLcCmdReserved op w s
  | .lcCmdDone => Sys2Proof.Machine.execLcCmdDone s
  | .stClassDone unit obs => Sys2Proof.Machine.execStClassDone unit obs s
  | .test unit classes w => Sys2Proof.Machine.execTest unit classes w s
  | .fuse unit w => Sys2Proof.Machine.execFuse unit w s
  | .clearSoft unit w => Sys2Proof.Machine.execClearSoft unit w s
  | .stCmdReserved op w => Sys2Proof.Machine.execStCmdReserved op w s
  | .stCmdDone => Sys2Proof.Machine.execStCmdDone s
  | .packageFatal cause u addr info => Sys2Proof.Machine.execPackageFatal cause u addr info s
  | .force w => Sys2Proof.Machine.execForce w s
  | .fatalWarmReset => Sys2Proof.Machine.execFatalWarmReset s
  | .asyncMachineCheck hart lost own level addr => Sys2Proof.Machine.execAsyncMachineCheck hart lost own level addr s
  | .coreMceRelease hart w => Sys2Proof.Machine.execCoreMceRelease hart w s
  | .pmuFreeze freeze => Sys2Proof.Machine.execPmuFreeze freeze s
  | .pmuClear => Sys2Proof.Machine.execPmuClear s
  | .counterWrite n v events => Sys2Proof.Machine.execCounterWrite n v events s
  | .trcMark v => Sys2Proof.Machine.execTrcMark v s
  | .dmiAccess addr op => Sys2Proof.Machine.execDmiAccess addr op s
  | .stackHot k temp => Sys2Proof.Machine.execStackHot k temp s
  | .presenceRelease => Sys2Proof.Machine.execPresenceRelease s
  | .sealClose => Sys2Proof.Machine.execSealClose s
  | .halfIdleExit n => Sys2Proof.Machine.execHalfIdleExit n s
  | .l1Exit k => Sys2Proof.Machine.execL1Exit k s
  | .functionResetDone f => Sys2Proof.Machine.execFunctionResetDone f s

end Sys2Proof.Machine
end

