-- ==== Sys2Proof/Safety.lean ====
section
/-! DEFINITION. What the statements call a well-formed state and a completed command. -/

namespace Sys2Proof.Machine

open Sys2Proof

/-- The memories and what the package keeps about them are in their canonical form: addresses strictly rising, and no entry equal
to what an unlisted address reads as. -/
def Memory.wf (s : State) : Bool := twf 0 s.dram && twf 0 s.mram && twf 0 s.poison && twf 0 s.flips

/-- Internal master `i` reads and writes the `n` bytes at `a` as plain, unpoisoned MRAM: no window, world, keystore, progress
area or package area stands in its way (R189, R214, R301, R321, R462). -/
def State.plainMram (s : State) (i a n : Nat) : Bool :=
  inMram a n && decide (s.memTop ≤ 384) && s.windowOk i false a n && s.windowOk i true a n && s.worldOk (s.masterSecure i) a n &&
  !s.inKeystore a n && !s.inProgress a n && !inPkgArea a n && (linesOf a n).all fun l => tget 0 s.poison l == 0

/-- The register table lists every field at most once, in the order of the fields' addresses. -/
def State.regsSorted (s : State) : Bool := tsorted s.regs

/-- The invariant of the package's storage: canonical memories and a register table without repeats. -/
def State.Inv (s : State) : Prop := Memory.wf s = true ∧ s.regsSorted = true

/-- What goes between an agent and a line's home passes: the link that carries it is Active, and no clock is gated (R399, R453). -/
abbrev State.WayOpen (s : State) (agent line : Nat) : Prop :=
  s.clocks = [] ∧ ∀ n : Fin 45, s.agentLink agent line = some n → s.get (.vz n) F.VZ_STAT_STATE = 8

/-- The command answers a next state, and `p` holds of it. -/
def Answers (c : Instr) (s : State) (p : State → Prop) : Prop := ∃ t, exec c s = .next t ∧ p t

/-- Two states agree on everything that holds data: DRAM and MRAM, poison and check bits. -/
abbrev SameMemory (s t : State) : Prop :=
  t.dram = s.dram ∧ t.mram = s.mram ∧ t.poison = s.poison ∧ t.flips = s.flips

/-- `t` is `s` but for its register table and what was driven out. -/
abbrev SameButRegs (s t : State) : Prop := { t with regs := s.regs, out := s.out } = s

/-- The lanes, channels, servos, write engines, medium dies and stripes. -/
abbrev State.diskPart (s : State) := (s.lanes, s.chans, s.servos, s.sluices, s.furrow, s.dies, s.stripes)

/-- The key engine and the sweep. -/
abbrev State.keyPart (s : State) := (s.keys, s.sweep)

/-- What belongs to the host: functions, ports, rings, queues, the headgate and the logs it reads. -/
abbrev State.hostPart (s : State) := (s.fns, s.ports, s.xrings, s.queues, s.hg, s.hostLog, s.fwLog, s.mbHeld, s.mbTmo)

/-- The world map and the memory map, in force and committed. -/
abbrev State.mapPart (s : State) := (s.wmapNow, s.wmapNext, s.mregNow, s.mregNext, s.memTop, s.iowOld)

/-- Data in memory: DRAM, MRAM, poison, what is undefined, and wrong bits. -/
abbrev State.dataPart (s : State) := (s.dram, s.mram, s.poison, s.lost, s.fresh, s.flips)

/-- The stack controllers' queues and logs and the fill. -/
abbrev State.stackPart (s : State) := (s.wbqs, s.mcLog, s.fill)

/-- Homes, copies and what is on its way out of a cache. -/
abbrev State.cachePart (s : State) := (s.homes, s.copies, s.cores, s.l1s, s.lockedWays, s.tiles, s.evbufs, s.amoHist)

/-- Messages, requests and links. -/
abbrev State.fabricPart (s : State) := (s.net, s.reqs, s.heldTxn, s.rme, s.links)

/-- Mode, supplies, wake, clocks and power management. -/
abbrev State.powerPart (s : State) := (s.mode, s.vrEn, s.straps, s.thermTrip, s.wake, s.pmb, s.vin, s.vinAt, s.wakeBad, s.sealGen, s.presence, s.clocks, s.deep, s.weir, s.freqTo, s.domTo, s.pwrHeld, s.pwrNext, s.pkgTicks)

/-- Loading and the tiles. -/
abbrev State.bootPart (s : State) := (s.load, s.svid, s.ssid, s.boot, s.powerQ, s.halves, s.tileOp)

/-- Lifecycle, self-test and debug. -/
abbrev State.lifePart (s : State) := (s.life, s.recSeg, s.lc, s.st, s.stayRecovery, s.recoveries, s.dbg)

/-- The error log, the trace and the sources of a package-fatal error. -/
abbrev State.logPart (s : State) := (s.errLog, s.trace, s.fatal)

/-- The registers of every page are as they were, but for the pages of the kinds `ks`: every key of such a page reads the same. -/
def SameRegs (ks : List PageKind) (s t : State) : Prop :=
  ∀ (u : UnitId) (d k : Nat), unitKind u ∉ ks → k / 2 ^ 19 = unitBase u / 2 ^ 16 → tget d t.regs k = tget d s.regs k

end Sys2Proof.Machine
end

