-- ==== Sys2Proof/Certificates/Slice0/Obligations.lean ====
section
/-! DEFINITION. The statements for the provers, by family of commands. -/

open Sys2Proof Sys2Proof.Machine

/-- What the writes of YL_CTRL do (spec/02_head_links.md: Training, spec/02_head_links.md: Lane sleep, spec/02_head_links.md:
Registers). LANE_ENABLE on a lane whose EN is 0 sets EN and puts the lane to T0, with no version, no TRIES, no bridge seen
and the port cleared. With EN 1 it changes nothing. LANE_DISABLE clears EN, stops the lane in STATE 0 with no version and
no message outstanding, drives idle from STATE 1 to 8, and sets DOWN from STATE 8. RETRAIN puts an enabled lane to T0 with
no version, no TRIES and no write rate acknowledged, and sets DOWN from STATE 8. A lane that is not enabled it leaves alone
(log 33). RETRACT, on a lane with frames, sends RETRACT with a free TAG while fewer than four messages are outstanding;
else the message waits. Without frames it does nothing. SLEEP_REQUEST sets SLEEP and, in T7 under version 4 with no SLEEP
under way and a place and a TAG free, sends SLEEP; in another state, below version 4 or with a SLEEP under way it does no
more than set SLEEP. SLEEP_WAKE clears SLEEP and takes a sleeping lane to T1 on its short training, sending the clock
pattern; of a lane that does not sleep it does no more than clear SLEEP. -/
def Obligations.LaneControl : Prop :=
  (∀ (s : State) (a : Fin 96), s.on (.act a) F.YL_CTRL_EN = false → Answers (.laneEnable a) s fun t => t.on (.act a)
    F.YL_CTRL_EN = true ∧ t.yl a = 1 ∧ t.get (.act a) F.YL_STAT_VER = 0 ∧ t.get (.act a) F.YL_STAT_READERS = 0 ∧ t.get (.act a)
    F.YL_STAT_TRIES = 0 ∧ t.on (.act a) F.YL_STAT_BRIDGE = false ∧ t.lane a.val = laneToT0 (s.lane a.val)) ∧
  (∀ (s : State) (a : Fin 96), s.on (.act a) F.YL_CTRL_EN = true → Answers (.laneEnable a) s fun t => t = s.clean) ∧
  (∀ (s : State) (a : Fin 96), Answers (.laneDisable a) s fun t => t.on (.act a) F.YL_CTRL_EN = false ∧ t.yl a = 0 ∧ t.get
    (.act a) F.YL_STAT_VER = 0 ∧ t.get (.act a) F.YL_STAT_READERS = 0 ∧ (t.lane a).out = [] ∧ (1 ≤ s.yl a → s.yl a ≤ 8 →
    Out.laneIdle a.val ∈ t.out) ∧ (s.yl a = 8 → t.on (.act a) F.YL_EVT_DOWN = true)) ∧
  (∀ (s : State) (a : Fin 96), s.on (.act a) F.YL_CTRL_EN = true → Answers (.retrain a) s fun t => t.yl a = 1 ∧ t.get (.act a)
    F.YL_STAT_VER = 0 ∧ t.get (.act a) F.YL_STAT_READERS = 0 ∧ t.get (.act a) F.YL_STAT_TRIES = 0 ∧ (t.lane a).wrate = 0 ∧
    (s.yl a = 8 → t.on (.act a) F.YL_EVT_DOWN = true)) ∧
  (∀ (s : State) (a : Fin 96), s.on (.act a) F.YL_CTRL_EN = false → Answers (.retrain a) s fun t => t = s.clean) ∧
  (∀ (s : State) (a : Fin 96), s.framing a = true → (s.lane a).out.length < 4 → ∀ g, (freeTag (s.lane a)) = some g → Answers
    (.retract a) s fun t => t.out = [.sideband a 0x12 g 0] ∧ (t.lane a).out = (s.lane a).out ++ [⟨g, 0x12, 0, .port, 1⟩] ∧
    (t.lane a).lastTag = g) ∧
  (∀ (s : State) (a : Fin 96), s.framing a = true → 4 ≤ (s.lane a).out.length ∨ freeTag (s.lane a) = none → Answers (.retract
    a) s fun t => t.out = [] ∧ (t.lane a).waiting = (s.lane a).waiting ++ [⟨0x12, 0, .port⟩] ∧ (t.lane a).out = (s.lane a).out) ∧
  (∀ (s : State) (a : Fin 96), s.framing a = false → Answers (.retract a) s fun t => t = s.clean) ∧
  (∀ (s : State) (a : Fin 96), s.upT7 a = true → 4 ≤ s.get (.act a) F.YL_STAT_VER → s.sbHas a 0x40 = false → (s.lane
    a).out.length < 4 → ∀ g, (freeTag (s.lane a)) = some g → Answers (.sleepRequest a) s fun t => t.on (.act a) F.YL_CTRL_SLEEP
    = true ∧ t.out = [.sideband a 0x40 g 0] ∧ (t.lane a).out = (s.lane a).out ++ [⟨g, 0x40, 0, .port, 1⟩]) ∧
  (∀ (s : State) (a : Fin 96), s.upT7 a = false ∨ s.get (.act a) F.YL_STAT_VER < 4 ∨ s.sbHas a 0x40 = true → Answers
    (.sleepRequest a) s fun t => t = (s.clean.put (.act a) F.YL_CTRL_SLEEP 1)) ∧
  (∀ (s : State) (a : Fin 96), s.yl a = 9 → Answers (.sleepWake a) s fun t => t.on (.act a) F.YL_CTRL_SLEEP = false ∧ t.yl a =
    2 ∧ (t.lane a).fastWake = true ∧ (t.lane a).wrate = 0 ∧ t.out = [.clockPattern a]) ∧
  (∀ (s : State) (a : Fin 96), s.yl a ≠ 9 → Answers (.sleepWake a) s fun t => t = (s.clean.put (.act a) F.YL_CTRL_SLEEP 0))

/-- The steps of lane training (spec/02_head_links.md: Training, spec/02_head_links.md: Versions, spec/02_head_links.md: Lane
sleep, spec/02_head_links.md: Registers). YL_DETECT_BURST in T0 drives a burst of the clock pattern and changes nothing
else. YL_T0_DETECT in T0 sets BRIDGE, enters T1 and sends the clock pattern. YL_STEP_EXIT takes T1 to T2, which sends
PRBS13, or of a waking lane to T3; T2 to T3; in T3 both scramblers hold the seed. Sixteen good frames in a row end T3: in
T4 CAP and ID are awaited, the ceiling is latched and CAP_REQ goes out if nothing was outstanding and a TAG is free, or a
waking lane goes to T5 with an ECHO. Before its exit condition a step T3 to T6 stays as it is. T4 with CAP and ID received
and VER_SET acknowledged goes to T5 with the version that both ends run, READERS and an ECHO; with no such version to
Reject, setting REJECT. T5 with its echo goes to T6, whose test begins, and YL_RTT shows the round trip. T6, its frames
sent and received without a bad one and within TEST_CORR, goes to T7 and sets UP. YL_STEP_TIMEOUT in T1 to T6 puts the lane
to T0 with one more try, at most 3, or after three, if the lane is not waking, in Failed, setting FAILED. LANE_DOWN in T1
or T2, or with frames after LOSS_FRAMES bad ones in a row, sets DOWN and puts the lane to T0; TRIES stays (the choice of
log 181). -/
def Obligations.LaneTraining : Prop :=
  (∀ (s : State) (a : Fin 96), s.yl a = 1 → Answers (.ylDetectBurst a) s fun t => t = { s with out := [.clockBurst a] }) ∧
  (∀ (s : State) (a : Fin 96), s.yl a = 1 → Answers (.ylT0Detect a) s fun t => t.yl a = 2 ∧ t.on (.act a) F.YL_STAT_BRIDGE =
    true ∧ t.out = [.clockPattern a]) ∧
  (∀ (s : State) (a : Fin 96) (rtt : Nat), s.yl a = 2 → (s.lane a).fastWake = false → Answers (.ylStepExit a rtt) s fun t =>
    t.yl a = 3 ∧ t.out = [.prbs13 a]) ∧
  (∀ (s : State) (a : Fin 96) (rtt : Nat), s.yl a = 2 → (s.lane a).fastWake = true → Answers (.ylStepExit a rtt) s fun t =>
    t.yl a = 4 ∧ (t.lane a).scrambler = 2 ^ 31 - 1 ∧ (t.lane a).descrambler = 2 ^ 31 - 1 ∧ (t.lane a).fastWake = true) ∧
  (∀ (s : State) (a : Fin 96) (rtt : Nat), s.yl a = 3 → Answers (.ylStepExit a rtt) s fun t => t.yl a = 4 ∧ (t.lane
    a).scrambler = 2 ^ 31 - 1 ∧ (t.lane a).descrambler = 2 ^ 31 - 1) ∧
  (∀ (s : State) (a : Fin 96) (rtt : Nat), s.yl a = 4 → 16 ≤ (s.lane a).goodRun → (s.lane a).fastWake = false → Answers
    (.ylStepExit a rtt) s fun t => t.yl a = 5 ∧ (t.lane a).ceil = s.ylCeiling a ∧ (t.lane a).capSeen = false ∧ (t.lane
    a).idSeen = false ∧ (t.lane a).verAcked = false ∧ ((s.lane a).out = [] → freeTag (s.lane a) ≠ none → (t.lane
    a).out.head?.map SbTx.op = some 1)) ∧
  (∀ (s : State) (a : Fin 96) (rtt : Nat), s.yl a = 4 → 16 ≤ (s.lane a).goodRun → (s.lane a).fastWake = true → Answers
    (.ylStepExit a rtt) s fun t => t.yl a = 6 ∧ (t.lane a).echoSeen = false ∧ t.out = [.sideband a 6 0 0]) ∧
  (∀ (s : State) (a : Fin 96) (rtt : Nat), (s.yl a = 4 ∧ (s.lane a).goodRun < 16) ∨ (s.yl a = 5 ∧ ((s.lane a).capSeen = false ∨
    (s.lane a).idSeen = false)) ∨ (s.yl a = 6 ∧ (s.lane a).echoSeen = false) ∨ (s.yl a = 7 ∧ testOver (s.lane a) = false) →
    Answers (.ylStepExit a rtt) s fun t => t = s.clean) ∧
  (∀ (s : State) (a : Fin 96) (rtt v : Nat), s.yl a = 5 → (s.lane a).capSeen = true → (s.lane a).idSeen = true → (s.lane
    a).verAcked = true → s.t4Version a = some v → Answers (.ylStepExit a rtt) s fun t => t.yl a = 6 ∧ t.get (.act a)
    F.YL_STAT_VER = v % 2 ^ F.YL_STAT_VER.width ∧ t.get (.act a) F.YL_STAT_READERS = (if 2 ≤ v ∧ s.get (.act a)
    F.YL_BRIDGE_NREAD = 3 then 3 else 1) ∧ t.out = [.sideband a 6 0 0]) ∧
  (∀ (s : State) (a : Fin 96) (rtt : Nat), s.yl a = 5 → (s.lane a).capSeen = true → (s.lane a).idSeen = true → s.t4Version a =
    none → Answers (.ylStepExit a rtt) s fun t => t.yl a = 11 ∧ t.get (.act a) F.YL_STAT_VER = 0 ∧ t.on (.act a)
    F.YL_EVT_REJECT = true) ∧
  (∀ (s : State) (a : Fin 96) (rtt : Nat), s.yl a = 6 → (s.lane a).echoSeen = true → Answers (.ylStepExit a rtt) s fun t =>
    t.yl a = 7 ∧ t.get (.act a) F.YL_RTT_RTT = rtt % 2 ^ F.YL_RTT_RTT.width ∧ (t.lane a).testTx = 0 ∧ (t.lane a).testRx = 0 ∧
    (t.lane a).testBad = false) ∧
  (∀ (s : State) (a : Fin 96) (rtt : Nat), s.yl a = 7 → testOver (s.lane a) = true → (s.lane a).testBad = false → (s.lane
    a).testCorr ≤ s.get (.act a) F.YL_LOSS_TEST_CORR → Answers (.ylStepExit a rtt) s fun t => t.yl a = 8 ∧ t.on (.act a)
    F.YL_EVT_UP = true ∧ (t.lane a).fastWake = false) ∧
  (∀ (s : State) (a : Fin 96), 2 ≤ s.yl a → s.yl a ≤ 7 → s.get (.act a) F.YL_STAT_TRIES < 3 ∨ (s.lane a.val).fastWake = true →
    Answers (.ylStepTimeout a) s fun t => t.yl a = 1 ∧ t.get (.act a) F.YL_STAT_VER = 0 ∧ t.get (.act a) F.YL_STAT_READERS = 0
    ∧ t.get (.act a) F.YL_STAT_TRIES = min 3 (s.get (.act a) F.YL_STAT_TRIES + 1) ∧ (t.lane a).fastWake = false) ∧
  (∀ (s : State) (a : Fin 96), 2 ≤ s.yl a → s.yl a ≤ 7 → s.get (.act a) F.YL_STAT_TRIES = 3 → (s.lane a).fastWake = false →
    Answers (.ylStepTimeout a) s fun t => t.yl a = 10 ∧ t.on (.act a) F.YL_EVT_FAILED = true ∧ t.get (.act a) F.YL_STAT_VER =
    0) ∧
  (∀ (s : State) (a : Fin 96), s.yl a = 2 ∨ s.yl a = 3 ∨ (s.framing a = true ∧ s.lossFrames a ≤ (s.lane a).badRun) → Answers
    (.laneDown a) s fun t => t.yl a = 1 ∧ t.get (.act a) F.YL_STAT_VER = 0 ∧ t.get (.act a) F.YL_STAT_READERS = 0 ∧ t.on (.act
    a) F.YL_EVT_DOWN = true ∧ t.get (.act a) F.YL_STAT_TRIES = s.get (.act a) F.YL_STAT_TRIES)

/-- Frames of a lane, its resends and its firmware message (spec/02_head_links.md: Symbols and frames, spec/02_head_links.md:
Sideband, spec/02_head_links.md: Heartbeat and retract, spec/02_head_links.md: Registers). The shift of the frame scrambler
is the choice of log 183. UPLINK_FRAME on a lane with frames: one that Reed–Solomon cannot correct counts in UNCORR,
lengthens the run of bad frames, spoils a test and delivers nothing. Before T7, one that it corrects, whose CRC-24 matches
and that carries no message and answers none, counts its corrected symbols in CORR, ends the run of bad frames and is kept;
HEAD and PARKED follow its bits. DOWNLINK_FRAME with frames takes the next SEQ, the oldest acknowledgement, the servo
command and, with no message waiting for a place, the oldest of those to be carried. HEARTBEAT_IDLE_FRAME, while the
heartbeat runs and no servo command is ready, sends a frame that advances the heartbeat. SIDEBAND_ACKNOWLEDGEMENT of a lone
firmware message frees its place and ends GO with its status, FAIL 1 unless that is 0; one whose TAG fits no message does
nothing. SB_RESEND_TIMER sends a lone message again with its TAG while its sends are below 8, or 24 for WRATE_SET; a lone
firmware message at that limit is abandoned, with SB_LOST and TX_STAT 0xFD. GO with GO 0, an OP that firmware may send and
the lane in T7 sets GO and, with a place and a TAG free, sends TX_OP with the payload TXD; with another OP it fails with
0xFE, else out of T7 with 0xFF. SB_RX_RELEASE clears FULL and nothing else. -/
def Obligations.LaneFrames : Prop :=
  (∀ (s : State) (a : Fin 96) (f : UplinkFrame), s.framing a = true → (receiveFrame (s.lane a).descrambler f).2.2 = none →
    Answers (.uplinkFrame a f) s fun t => t.get (.act a) F.YL_FEC_UNCORR = min (s.get (.act a) F.YL_FEC_UNCORR + 1) (2 ^
    F.YL_FEC_UNCORR.width - 1) ∧ (t.lane a).badRun = (s.lane a).badRun + 1 ∧ (t.lane a).goodRun = 0 ∧ (t.lane a).testBad = true
    ∧ (t.lane a).upData = (s.lane a).upData) ∧
  (∀ (s : State) (a : Fin 96) (f : UplinkFrame) (corr d : Nat), s.framing a = true → (receiveFrame (s.lane a).descrambler
    f).2.2 = some (corr, d) → frameCrc (d % 2 ^ 1976) = bitsOf d 1976 24 → bitsOf d 1880 8 = 0 → bitsOf d 1888 8 = 0 → (s.lane
    a).out = [] → s.upT7 a = false → Answers (.uplinkFrame a f) s fun t => (t.lane a).badRun = 0 ∧ (t.lane a).goodRun = (s.lane
    a).goodRun + 1 ∧ (t.lane a).rxFrames = (s.lane a).rxFrames + 1 ∧ (t.lane a).upData = d ∧ t.get (.act a) F.YL_FEC_CORR = min
    (s.get (.act a) F.YL_FEC_CORR + corr) (2 ^ F.YL_FEC_CORR.width - 1) ∧ t.get (.act a) F.YL_STAT_HEAD = bitsOf d 16 4 ∧ t.get
    (.act a) F.YL_STAT_PARKED = bitsOf d 15 1) ∧
  (∀ (s : State) (a : Fin 96), s.framing a = true → Answers (.downlinkFrame a) s fun t => (t.lane a).txSeq = ((s.lane a).txSeq
    + 1) % 256 ∧ ((s.lane a).waiting = [] → (t.lane a).slots = (s.lane a).slots.tail) ∧ (t.lane a).acks = (s.lane a).acks.tail
    ∧ (t.lane a).actCmd = none ∧ (t.lane a).txFrames = (s.lane a).txFrames + 1) ∧
  (∀ (s : State) (a : Fin 96), s.hbRuns a = true → (s.lane a).actCmd = none → Answers (.heartbeatIdleFrame a) s fun t =>
    (t.lane a).hbSeq = ((s.lane a).hbSeq + 1) % 16 ∧ (t.lane a).idleFrames = 0 ∧ (t.lane a).txSeq = ((s.lane a).txSeq + 1) %
    256) ∧
  (∀ (s : State) (a : Fin 96) (m : SbTx) (stat : Fin 256), s.framing a = true → m.src = .firmware → (s.lane a).out = [m] →
    (s.lane a).waiting = [] → Answers (.sidebandAcknowledgement a m.tag stat.val) s fun t => t.on (.act a) F.YL_SB_TXC_GO =
    false ∧ t.on (.act a) F.YL_SB_TXC_FAIL = (stat.val != 0) ∧ t.get (.act a) F.YL_SB_TXC_TX_STAT = stat.val ∧ (t.lane a).out =
    []) ∧
  (∀ (s : State) (a : Fin 96) (tag stat : Nat), ((s.lane a).out.find? fun m => m.tag == tag) = none → Answers
    (.sidebandAcknowledgement a tag stat) s fun t => t = s.clean) ∧
  (∀ (s : State) (a : Fin 96) (m : SbTx), s.framing a = true → (s.lane a).out = [m] → m.sends < sbLimit m.op → Answers
    (.sbResendTimer a m.tag) s fun t => t.out = [.sideband a m.op m.tag m.payload] ∧ (t.lane a).out =
    [{ m with sends := m.sends + 1 }]) ∧
  (∀ (s : State) (a : Fin 96) (m : SbTx), s.framing a = true → m.src = .firmware → (s.lane a).out = [m] → (s.lane a).waiting =
    [] → sbLimit m.op ≤ m.sends → Answers (.sbResendTimer a m.tag) s fun t => t.out = [] ∧ (t.lane a).out = [] ∧ t.on (.act a)
    F.YL_EVT_SB_LOST = true ∧ t.on (.act a) F.YL_SB_TXC_GO = false ∧ t.get (.act a) F.YL_SB_TXC_TX_STAT = 0xFD) ∧
  (∀ (s : State) (a : Fin 96), s.on (.act a) F.YL_SB_TXC_GO = false → goAllowed (s.get (.act a) F.YL_SB_TXC_TX_OP) = true →
    s.upT7 a = true → (s.lane a).out.length < 4 → ∀ g, (freeTag (s.lane a)) = some g → Answers (.go a) s fun t => t.on (.act a)
    F.YL_SB_TXC_GO = true ∧ t.out = [.sideband a (s.get (.act a) F.YL_SB_TXC_TX_OP) g (s.get (.act a) F.YL_SB_TXD_TXD)]) ∧
  (∀ (s : State) (a : Fin 96), s.on (.act a) F.YL_SB_TXC_GO = false → goAllowed (s.get (.act a) F.YL_SB_TXC_TX_OP) = false ∨
    s.upT7 a = false → Answers (.go a) s fun t => t.out = [] ∧ t.on (.act a) F.YL_SB_TXC_GO = false ∧ t.on (.act a)
    F.YL_SB_TXC_FAIL = true ∧ t.get (.act a) F.YL_SB_TXC_TX_STAT = (if goAllowed (s.get (.act a) F.YL_SB_TXC_TX_OP) = true then
    0xFF else 0xFE)) ∧
  (∀ (s : State) (a : Fin 96), Answers (.sbRxRelease a) s fun t => t = s.clean.put (.act a) F.YL_SB_RXC_FULL 0)

/-- Messages of the bridge (spec/02_head_links.md: Training, spec/02_head_links.md: Sideband, spec/02_head_links.md: Writing,
spec/02_head_links.md: Registers, spec/04_servo_engines.md: Lost wedges, shocks and lost links, spec/04_servo_engines.md:
The spindle). Each clause is about a lane with frames and a message that is no repeat. CAP with a TAG outside T4 fills the
fields of YL_BRIDGE from its payload and is acknowledged 0x00. ID likewise fills YL_SERIAL. ECHO outside T5 is returned
with its payload, and in T5 is the answer awaited (log 182). SPIN_STAT, without a sweep of its assembly, fills SPIN and
LOCK of SV_STAT, a report of lock frees the assembly's slot, and is acknowledged 0x00. PARK_STAT without a sweep is
acknowledged 0x00: of a parked actuator it ends UNLOADING in PARKED, a cause setting RETRACTED; of one not parked it ends
LOADING in ACQUIRE with GATE_LOCK 0 (log 228). While FULL is 0, PREAMP_VAL (OP 0x22), ENV (0x30) and FAULT (0x31), which
also sets its event, under version 4 HEALTH (0x42) and the maker's OPs 0x80 to 0xFF set FULL, RX_OP, RXD and SB_RX and are
acknowledged 0x00. ENV while FULL is 1 does nothing and is not acknowledged. WRITE_ABORT whose frame and the next were sent
with WG 0 counts in WABORT_DISC and touches no sector; another sets WABORT. SHOCK from version 3 on sets its event, clears
WRITE_OK and is acknowledged 0x00. -/
def Obligations.BridgeMessages : Prop :=
  (∀ (s : State) (a : Fin 96) (m : SbIn), s.framing a = true → sbRepeat (s.lane a) m.tag = none → m.tag ≠ 0 → s.yl a ≠ 5 →
    Answers (.cap a m) s fun t => t.get (.act a) F.YL_BRIDGE_VENDOR = bitsOf m.payload F.YL_BRIDGE_VENDOR.lo
    F.YL_BRIDGE_VENDOR.width ∧ t.get (.act a) F.YL_BRIDGE_MODEL = bitsOf m.payload F.YL_BRIDGE_MODEL.lo F.YL_BRIDGE_MODEL.width
    ∧ t.get (.act a) F.YL_BRIDGE_VMIN = bitsOf m.payload F.YL_BRIDGE_VMIN.lo F.YL_BRIDGE_VMIN.width ∧ t.get (.act a)
    F.YL_BRIDGE_VMAX = bitsOf m.payload F.YL_BRIDGE_VMAX.lo F.YL_BRIDGE_VMAX.width ∧ t.get (.act a) F.YL_BRIDGE_NREAD = bitsOf
    m.payload F.YL_BRIDGE_NREAD.lo F.YL_BRIDGE_NREAD.width ∧ t.get (.act a) F.YL_BRIDGE_HEADS = bitsOf m.payload
    F.YL_BRIDGE_HEADS.lo F.YL_BRIDGE_HEADS.width ∧ t.get (.act a) F.YL_BRIDGE_WLAT = bitsOf m.payload F.YL_BRIDGE_WLAT.lo
    F.YL_BRIDGE_WLAT.width ∧ t.get (.act a) F.YL_BRIDGE_BREV = bitsOf m.payload F.YL_BRIDGE_BREV.lo F.YL_BRIDGE_BREV.width ∧
    (t.lane a).capSeen = true ∧ (t.lane a).acks = (s.lane a).acks ++ [(m.tag, 0)]) ∧
  (∀ (s : State) (a : Fin 96) (m : SbIn), s.framing a = true → sbRepeat (s.lane a) m.tag = none → s.yl a ≠ 5 → m.tag ≠ 0 →
    Answers (.id a m) s fun t => t.get (.act a) F.YL_SERIAL = m.payload % 2 ^ F.YL_SERIAL.width ∧ (t.lane a).idSeen = true ∧
    (t.lane a).acks.getLast? = some (m.tag, 0)) ∧
  (∀ (s : State) (a : Fin 96) (m : SbIn), s.framing a = true → sbRepeat (s.lane a) m.tag = none → s.yl a ≠ 6 → Answers (.echo a
    m) s fun t => t.out = [.sideband a 6 0 m.payload]) ∧
  (∀ (s : State) (a : Fin 96) (m : SbIn), s.framing a = true → sbRepeat (s.lane a) m.tag = none → s.yl a = 6 → Answers (.echo a
    m) s fun t => (t.lane a).echoSeen = true ∧ t.out = []) ∧
  (∀ (s : State) (a : Fin 96) (m : SbIn), s.framing a = true → sbRepeat (s.lane a) m.tag = none → m.tag ≠ 0 → (s.swpAct (evenOf
    (dieOf a).val (asmOf a)).val).state = 0 → (s.swpAct (oddOf (dieOf a).val (asmOf a)).val).state = 0 → Answers (.spinStat a
    m) s fun t => (t.lane a).acks.getLast? = some (m.tag, 0) ∧ t.get (.act a) F.SV_STAT_SPIN = bitsOf m.payload 0 2 ∧ t.get
    (.act a) F.SV_STAT_LOCK = bitsOf m.payload 2 1 ∧ (bitsOf m.payload 2 1 = 1 → (t.die (dieOf a).val).locked.contains (asmOf
    a) = true ∧ (t.die (dieOf a).val).spinRun.contains (asmOf a) = false)) ∧
  (∀ (s : State) (a : Fin 96) (m : SbIn), s.framing a = true → sbRepeat (s.lane a) m.tag = none → m.tag ≠ 0 → bitsOf m.payload
    0 1 = 1 → s.svState a = 7 → (s.swpAct a.val).state = 0 → Answers (.parkStat a m) s fun t => (t.lane a).acks.getLast? = some
    (m.tag, 0) ∧ t.svState a = 1 ∧ (t.servo a.val).motion = none ∧ (bitsOf m.payload 1 3 ≠ 0 → t.on (.act a) F.YL_EVT_RETRACTED
    = true)) ∧
  (∀ (s : State) (a : Fin 96) (m : SbIn), s.framing a = true → sbRepeat (s.lane a) m.tag = none → m.tag ≠ 0 → bitsOf m.payload
    0 1 = 0 → s.svState a = 2 → (s.swpAct a.val).state = 0 → Answers (.parkStat a m) s fun t => (t.lane a).acks.getLast? = some
    (m.tag, 0) ∧ t.svState a = 3 ∧ t.on (.act a) F.SV_STAT_GATE_LOCK = false) ∧
  (∀ (s : State) (a : Fin 96) (m : SbIn), s.framing a = true → sbRepeat (s.lane a) m.tag = none → s.on (.act a)
    F.YL_SB_RXC_FULL = false → m.tag ≠ 0 → Answers (.preampVal a m) s fun t => t.on (.act a) F.YL_SB_RXC_FULL = true ∧ t.get
    (.act a) F.YL_SB_RXC_RX_OP = 0x22 ∧ t.get (.act a) F.YL_SB_RXD_RXD = m.payload % 2 ^ F.YL_SB_RXD_RXD.width ∧ t.on (.act a)
    F.YL_EVT_SB_RX = true ∧ (t.lane a).acks.getLast? = some (m.tag, 0)) ∧
  (∀ (s : State) (a : Fin 96) (m : SbIn), s.framing a = true → sbRepeat (s.lane a) m.tag = none → s.on (.act a)
    F.YL_SB_RXC_FULL = false → m.tag ≠ 0 → Answers (.env a m) s fun t => t.on (.act a) F.YL_SB_RXC_FULL = true ∧ t.get (.act a)
    F.YL_SB_RXC_RX_OP = 0x30 ∧ t.get (.act a) F.YL_SB_RXD_RXD = m.payload % 2 ^ F.YL_SB_RXD_RXD.width ∧ t.on (.act a)
    F.YL_EVT_SB_RX = true ∧ (t.lane a).acks.getLast? = some (m.tag, 0)) ∧
  (∀ (s : State) (a : Fin 96) (m : SbIn), s.framing a = true → sbRepeat (s.lane a) m.tag = none → s.on (.act a)
    F.YL_SB_RXC_FULL = false → m.tag ≠ 0 → Answers (.fault a m) s fun t => t.on (.act a) F.YL_SB_RXC_FULL = true ∧ t.get (.act
    a) F.YL_SB_RXC_RX_OP = 0x31 ∧ t.get (.act a) F.YL_SB_RXD_RXD = m.payload % 2 ^ F.YL_SB_RXD_RXD.width ∧ t.on (.act a)
    F.YL_EVT_SB_RX = true ∧ (t.lane a).acks.getLast? = some (m.tag, 0) ∧ t.on (.act a) F.YL_EVT_FAULT = true) ∧
  (∀ (s : State) (a : Fin 96) (m : SbIn), s.framing a = true → sbRepeat (s.lane a) m.tag = none → s.on (.act a)
    F.YL_SB_RXC_FULL = false → m.tag ≠ 0 → 4 ≤ s.get (.act a) F.YL_STAT_VER → Answers (.health a m) s fun t => t.on (.act a)
    F.YL_SB_RXC_FULL = true ∧ t.get (.act a) F.YL_SB_RXC_RX_OP = 0x42 ∧ t.get (.act a) F.YL_SB_RXD_RXD = m.payload % 2 ^
    F.YL_SB_RXD_RXD.width ∧ t.on (.act a) F.YL_EVT_SB_RX = true ∧ (t.lane a).acks.getLast? = some (m.tag, 0)) ∧
  (∀ (s : State) (a : Fin 96) (op : Fin 128) (m : SbIn), s.framing a = true → sbRepeat (s.lane a) m.tag = none → s.on (.act a)
    F.YL_SB_RXC_FULL = false → m.tag ≠ 0 → Answers (.bridgeMakerMessage a (0x80 + op.val) m) s fun t => t.on (.act a)
    F.YL_SB_RXC_FULL = true ∧ t.get (.act a) F.YL_SB_RXC_RX_OP = 0x80 + op.val ∧ t.get (.act a) F.YL_SB_RXD_RXD = m.payload % 2
    ^ F.YL_SB_RXD_RXD.width ∧ t.on (.act a) F.YL_EVT_SB_RX = true ∧ (t.lane a).acks.getLast? = some (m.tag, 0)) ∧
  (∀ (s : State) (a : Fin 96) (m : SbIn), s.on (.act a) F.YL_SB_RXC_FULL = true → sbRepeat (s.lane a) m.tag = none → Answers
    (.env a m) s fun t => t = s.clean) ∧
  (∀ (s : State) (a : Fin 96) (m : SbIn), s.framing a = true → sbRepeat (s.lane a) m.tag = none → wgZero (s.lane a) (m.payload
    % 256) = true → wgZero (s.lane a) (m.payload % 256 + 1) = true → Answers (.writeAbort a m) s fun t => t.get (.act a)
    F.YL_FEC_WABORT_DISC = min (s.get (.act a) F.YL_FEC_WABORT_DISC + 1) (2 ^ F.YL_FEC_WABORT_DISC.width - 1) ∧ t.sluices =
    s.sluices ∧ t.on (.act a) F.YL_EVT_WABORT = s.on (.act a) F.YL_EVT_WABORT) ∧
  (∀ (s : State) (a : Fin 96) (m : SbIn), s.framing a = true → sbRepeat (s.lane a) m.tag = none → wgZero (s.lane a) (m.payload
    % 256) = false ∨ wgZero (s.lane a) (m.payload % 256 + 1) = false → Answers (.writeAbort a m) s fun t => t.on (.act a)
    F.YL_EVT_WABORT = true) ∧
  (∀ (s : State) (a : Fin 96) (m : SbIn), s.framing a = true → sbRepeat (s.lane a) m.tag = none → 3 ≤ s.get (.act a)
    F.YL_STAT_VER → m.tag ≠ 0 → Answers (.shock a m) s fun t => t.on (.act a) F.YL_EVT_SHOCK = true ∧ t.on (.act a)
    F.SV_STAT_WRITE_OK = false ∧ (t.lane a).acks.getLast? = some (m.tag, 0))

/-- Commands of the channel engine (spec/03_channel_engines.md: Read entries and completions, spec/03_channel_engines.md: The
retry ladder, spec/03_channel_engines.md: Soft values to the cores, spec/03_channel_engines.md: Registers). CH_ENABLE
outside a sweep, with the rings' exponents in range, sets EN and starts fetching; the entries stay. With one out of range
it sets EN and CFG_ERR, and no channel changes. CH_DISABLE outside a sweep, with nothing fetched, clears EN and stops
fetching. READ_ENTRY_FETCH, with EN 1, fetching started, the ring not empty, fewer than four entries held (log 177), room
for the completion, the entry readable, its OP below 4 and no cancel pending, adds it to those fetched and advances HEAD.
READ, READ_SOFT and SCAN take the entry that is next to start, if it is theirs, not cancelled, not bad, the lane in T7 and,
but for SCAN and RAWDATA, its key slot ACTIVE, to wait for its window. DECODE_MEM, not cancelled nor bad, in T7, whose
record can be read and holds blocks that the deep queue takes, gives them all to the deep decoders and counts them in DEEP;
with a poisoned record or cancelled, its entry leaves and CQ is set, in the first case CQ_TAIL advancing. CANCEL with fewer
than four pending and entries before the tail stays pending, and marks the entries with its TAG that have not started. -/
def Obligations.ReadCommands : Prop :=
  (∀ (s : State) (a : Fin 96), s.swept a = false → s.chRingsOk a = true → Answers (.chEnable a) s fun t => t.on (.act a)
    F.CH_CTRL_EN = true ∧ (t.chan a.val).fetchRun = true ∧ (t.chan a.val).ents = (s.chan a.val).ents) ∧
  (∀ (s : State) (a : Fin 96), s.swept a = false → s.chRingsOk a = false → Answers (.chEnable a) s fun t => t.on (.act a)
    F.CH_CTRL_EN = true ∧ t.on (.act a) F.CH_EVT_CFG_ERR = true ∧ t.chans = s.chans) ∧
  (∀ (s : State) (a : Fin 96), s.swept a = false → (s.chan a.val).ents = [] → Answers (.chDisable a) s fun t => t.on (.act a)
    F.CH_CTRL_EN = false ∧ (t.chan a.val).fetchRun = false) ∧
  (∀ (s : State) (a : Fin 96), s.on (.act a) F.CH_CTRL_EN = true → (s.chan a.val).fetchRun = true → s.get (.act a) F.CH_RQ_HEAD
    ≠ s.get (.act a) F.CH_RQ_TAIL → (s.chan a.val).ents.length < 4 → s.chRoom a (s.chan a.val).ents.length = true → ∀ (r :
    State × MemAns), s.clean.masterRead (dieOf a).val (.act a) (ringAt (s.get (.act a) F.CH_RQ_CFG_BASE) (s.get (.act a)
    F.CH_RQ_CFG_LOG2N) 32 (s.get (.act a) F.CH_RQ_HEAD)) 32 = r → ∀ bs, r.2.data? = some bs → (readEntryOf bs).op < 4 → (s.chan
    a.val).cancels = [] → Answers (.readEntryFetch a) s fun t => t.get (.act a) F.CH_RQ_HEAD = (s.get (.act a) F.CH_RQ_HEAD +
    1) % 2 ^ s.get (.act a) F.CH_RQ_CFG_LOG2N % 2 ^ F.CH_RQ_HEAD.width ∧ (t.chan a.val).ents = (s.chan a.val).ents ++
    [{ idx := s.get (.act a) F.CH_RQ_HEAD, e := readEntryOf bs }]) ∧
  (∀ (s : State) (a : Fin 96) (x : ChEntry), s.nextRead? a 0 = some x → x.cancelled = false → s.readBad a x.e = false → s.upT7
    a = true → x.e.raw = true ∨ s.keyOk x.e.kslot = true → Answers (.read a) s fun t => (t.chan a.val).ents = (s.chan
    a.val).ents.map fun y => if y.idx == x.idx then { x with phase := .window } else y) ∧
  (∀ (s : State) (a : Fin 96) (x : ChEntry), s.nextRead? a 1 = some x → x.cancelled = false → s.readBad a x.e = false → s.upT7
    a = true → x.e.raw = true ∨ s.keyOk x.e.kslot = true → Answers (.readSoft a) s fun t => (t.chan a.val).ents = (s.chan
    a.val).ents.map fun y => if y.idx == x.idx then { x with phase := .window } else y) ∧
  (∀ (s : State) (a : Fin 96) (x : ChEntry), s.nextRead? a 3 = some x → x.cancelled = false → s.readBad a x.e = false → s.upT7
    a = true → Answers (.scan a) s fun t => (t.chan a.val).ents = (s.chan a.val).ents.map fun y => if y.idx == x.idx then
    { x with phase := .window } else y) ∧
  (∀ (s : State) (a : Fin 96) (x : ChEntry), s.nextRead? a 2 = some x → x.cancelled = false → s.readBad a x.e = false → s.upT7
    a = true → ∀ (r : State × MemAns), s.clean.masterRead (dieOf a).val (.act a) x.e.addr 197184 = r → r.2.data?.isSome = true
    → ∀ (m : MemRec), memRecOf (r.2.data?.getD []) = m → memBlocks m.mask ≠ [] → deepRoom (s.die (dieOf a).val) (memBlocks
    m.mask).length = true → Answers (.decodeMem a) s fun t => (t.chan a.val).ents = (s.chan a.val).ents.map (fun y => if y.idx
    == x.idx then
    { x with dec := s.decSet a, mem := some m, tried := m.mask, soft := (memBlocks m.mask).map (fun j => (j, softValues (((r.2.data?.getD []).drop (64 + 24640 * j)).take 24640))), phase := .deep, deepLeft := memBlocks m.mask }
    else y) ∧ (∀ j ∈ memBlocks m.mask, DeepJob.mk a.val x.idx j ∈ (t.die (dieOf a).val).deepQ ∨ some (DeepJob.mk a.val x.idx j)
    ∈ (t.die (dieOf a).val).deepRun) ∧ t.get (.act a) F.CH_CNT_DEEP = min (s.get (.act a) F.CH_CNT_DEEP + (memBlocks
    m.mask).length) (2 ^ F.CH_CNT_DEEP.width - 1)) ∧
  (∀ (s : State) (a : Fin 96) (x : ChEntry), s.nextRead? a 2 = some x → x.cancelled = false → s.readBad a x.e = false → s.upT7
    a = true → ∀ (r : State × MemAns), s.clean.masterRead (dieOf a).val (.act a) x.e.addr 197184 = r → r.2 = .poison → Answers
    (.decodeMem a) s fun t => (t.chan a.val).ents = (s.chan a.val).ents.filter (fun y => y.idx != x.idx) ∧ t.on (.act a)
    F.CH_EVT_CQ = true ∧ t.get (.act a) F.CH_CQ_TAIL = (s.get (.act a) F.CH_CQ_TAIL + 1) % 2 ^ s.get (.act a) F.CH_CQ_CFG_LOG2N
    % 2 ^ F.CH_CQ_TAIL.width) ∧
  (∀ (s : State) (a : Fin 96) (x : ChEntry), s.nextRead? a 2 = some x → x.cancelled = true → Answers (.decodeMem a) s fun t =>
    (t.chan a.val).ents = (s.chan a.val).ents.filter (fun y => y.idx != x.idx) ∧ t.on (.act a) F.CH_EVT_CQ = true) ∧
  (∀ (s : State) (a : Fin 96) (tag : Fin 65536), (s.chan a.val).cancels.length < 4 → s.get (.act a) F.CH_RQ_TAIL ≠ s.get (.act
    a) F.CH_RQ_HEAD → Answers (.chCancel a tag) s fun t => (t.chan a.val).cancels = (s.chan a.val).cancels ++ [(tag.val, s.get
    (.act a) F.CH_RQ_TAIL)] ∧ (t.chan a.val).ents = (s.chan a.val).ents.map fun y => if y.phase == .fetched && y.e.tag ==
    tag.val then { y with cancelled := true } else y)

/-- Passes of a read and their ends (spec/03_channel_engines.md: Sample intake, spec/03_channel_engines.md: Zone sets,
spec/03_channel_engines.md: Joint detection, spec/03_channel_engines.md: The LDPC code, spec/03_channel_engines.md: Read
entries and completions, spec/03_channel_engines.md: The retry ladder). Which codewords decode follows the operands of the
pass (log 2). READ_PASS_START of an entry at its window, after the gate of its WEDGE, with a RATE in range, the medium
free, nothing held by the sluice and no re-read waiting before it, gives it the medium and latches its zone set, and as its
first pass begins CH_DEC and CH_SYNC (log 222); no register changes. A first pass waits while a re-read does, and while the
sluice holds the medium RWAIT counts and no channel changes. SYNC_WINDOW_EXPIRY or READ_PASS_END of a pass without sync
mark frees the medium, counts NOSYNC and, for another OP than READ_SOFT while the ladder allows one, makes the entry wait
for a re-read, counted. At the ladder's end, the head seen, not every pass off-track and no sync mark ever, the entry
completes NOSYNC (0x12) in its ring. READ_PASS_END on-track with a sync mark and no codeword decoded, without DEEP, waits
for a re-read while the ladder allows one; with DEEP the codewords that still fail all enter the deep queue if it takes
them. A READ with RAWDATA whose eight codewords have decoded with good tags, without write-back, writes its 32 KiB, then
its completion, to plain MRAM. DEEP_DECODE_DONE with an empty queue frees its decoder and takes the codeword off the
entry's list: one that fails stays undecoded, one that decodes joins the entry (log 42). The last one back, with codewords
failing, makes a re-read wait while the ladder allows one. With codewords queued the decoder takes the oldest. -/
def Obligations.ReadPasses : Prop :=
  (∀ (s : State) (a : Fin 96) (x : ChEntry), (s.chan a.val).ents.find? (fun y => y.idx == x.idx && y.phase == .window) = some x
    → s.get (.act a) F.SV_STAT_WEDGE = x.e.wedge → s.slHolds a = false → (s.chan a.val).medium = none → x.reread = true ∨
    ((s.chan a.val).ents.any fun y => y.reread && y.phase == .window) = false → 1000 ≤ s.get (.act a) F.ZSET_RATE x.e.zset →
    s.get (.act a) F.ZSET_RATE x.e.zset ≤ 3000 → Answers (.readPassStart a x.idx) s fun t => t.chan a.val =
    { s.chan a.val with medium := some x.idx, zcopy := some x.e.zset, zdirty := false, off := !s.on (.act a) F.SV_STAT_ONTRACK, headSeen := s.get (.act a) F.YL_STAT_HEAD == x.e.head, frames := 0, lostAt := [], missAt := [], ents := (s.chan a.val).ents.map fun y => if y.idx == x.idx then { x with phase := .pass, zone := s.zoneSet a x.e.zset, dec := if x.passes = 0 then s.decSet a else x.dec } else y }
    ∧ t.regs = s.regs) ∧
  (∀ (s : State) (a : Fin 96) (x : ChEntry), (s.chan a.val).ents.find? (fun y => y.idx == x.idx && y.phase == .window) = some x
    → s.get (.act a) F.SV_STAT_WEDGE = x.e.wedge → s.slHolds a = false → x.reread = false → ((s.chan a.val).ents.any fun y =>
    y.reread && y.phase == .window) = true → Answers (.readPassStart a x.idx) s fun t => t.chans = s.chans ∧ t.regs = s.regs) ∧
  (∀ (s : State) (a : Fin 96) (x : ChEntry), (s.chan a.val).ents.find? (fun y => y.idx == x.idx && y.phase == .window) = some x
    → s.get (.act a) F.SV_STAT_WEDGE = x.e.wedge → s.slHolds a = true → Answers (.readPassStart a x.idx) s fun t => t.chans =
    s.chans ∧ t.get (.act a) F.CH_CNT_RWAIT = min (s.get (.act a) F.CH_CNT_RWAIT + 1) (2 ^ F.CH_CNT_RWAIT.width - 1)) ∧
  (∀ (s : State) (a : Fin 96) (x : ChEntry), s.passEntry? a = some x → x.e.op ≠ 1 → x.rereads < s.get (.act a) F.CH_CTRL_LADDER
    → Answers (.syncWindowExpiry a) s fun t => (t.chan a.val).medium = none ∧ (t.chan a.val).zcopy = none ∧ (t.chan a.val).ents
    = (s.chan a.val).ents.map (fun y => if y.idx == x.idx then
    { x with passes := x.passes + 1, phase := .window, reread := true, rereads := x.rereads + 1, deepLeft := [], soft := [], tried := (wanted x).foldl (fun m j => m ||| 2 ^ j) x.tried, headSeen := x.headSeen || (s.chan a.val).headSeen, offAll := x.offAll && (s.chan a.val).off, recovered := x.recovered || decide (0 < x.passes) }
    else y) ∧ t.get (.act a) F.CH_CNT_NOSYNC = min (s.get (.act a) F.CH_CNT_NOSYNC + 1) (2 ^ F.CH_CNT_NOSYNC.width - 1) ∧ t.get
    (.act a) F.CH_CNT_REREAD = min (s.get (.act a) F.CH_CNT_REREAD + 1) (2 ^ F.CH_CNT_REREAD.width - 1)) ∧
  (∀ (s : State) (a : Fin 96) (x : ChEntry) (obs : PassObs), s.passEntry? a = some x → s.syncFound a x obs = false → x.e.op ≠ 1
    → x.rereads < s.get (.act a) F.CH_CTRL_LADDER → Answers (.readPassEnd a obs) s fun t => (t.chan a.val).medium = none ∧
    (t.chan a.val).zcopy = none ∧ (t.chan a.val).ents = (s.chan a.val).ents.map (fun y => if y.idx == x.idx then
    { x with passes := x.passes + 1, phase := .window, reread := true, rereads := x.rereads + 1, deepLeft := [], soft := [], tried := (wanted x).foldl (fun m j => m ||| 2 ^ j) x.tried, headSeen := x.headSeen || (s.chan a.val).headSeen, offAll := x.offAll && (s.chan a.val).off, recovered := x.recovered || decide (0 < x.passes) }
    else y) ∧ t.get (.act a) F.CH_CNT_NOSYNC = min (s.get (.act a) F.CH_CNT_NOSYNC + 1) (2 ^ F.CH_CNT_NOSYNC.width - 1) ∧ t.get
    (.act a) F.CH_CNT_REREAD = min (s.get (.act a) F.CH_CNT_REREAD + 1) (2 ^ F.CH_CNT_REREAD.width - 1)) ∧
  (∀ (s : State) (a : Fin 96) (x : ChEntry), s.passEntry? a = some x → x.e.op = 1 ∨ s.get (.act a) F.CH_CTRL_LADDER ≤ x.rereads
    → x.headSeen = true ∨ (s.chan a.val).headSeen = true → x.offAll = false ∨ (s.chan a.val).off = false → x.syncSeen = false →
    s.plainMram (dieOf a).val (ringAt (s.get (.act a) F.CH_CQ_CFG_BASE) (s.get (.act a) F.CH_CQ_CFG_LOG2N) 16 (s.get (.act a)
    F.CH_CQ_TAIL)) 16 = true → Answers (.syncWindowExpiry a) s fun t => (t.chan a.val).medium = none ∧ (t.chan a.val).zcopy =
    none ∧ (t.chan a.val).ents = (s.chan a.val).ents.filter (fun y => y.idx != x.idx) ∧ t.get (.act a) F.CH_CQ_TAIL = (s.get
    (.act a) F.CH_CQ_TAIL + 1) % 2 ^ s.get (.act a) F.CH_CQ_CFG_LOG2N % 2 ^ F.CH_CQ_TAIL.width ∧ t.on (.act a) F.CH_EVT_CQ =
    true ∧ t.mramBytes (ringAt (s.get (.act a) F.CH_CQ_CFG_BASE) (s.get (.act a) F.CH_CQ_CFG_LOG2N) 16 (s.get (.act a)
    F.CH_CQ_TAIL) - mramBase) 16 = chCompletion
    ({ x with passes := x.passes + 1, phase := .window, reread := false, soft := [], tried := (wanted x).foldl (fun m j => m ||| 2 ^ j) x.tried })
    0x12 0xFFF (s.chan a.val).wrap) ∧
  (∀ (s : State) (a : Fin 96) (x : ChEntry) (obs : PassObs), s.passEntry? a = some x → s.syncFound a x obs = true → (s.chan
    a.val).off = false → ((wanted x).any fun j => cwDecodes (localSyn x.dec (obs.cws.getD j ⟨false, 0, [], []⟩).synZero
    (obs.cws.getD j ⟨false, 0, [], []⟩).iters) (obs.cws.getD j ⟨false, 0, [], []⟩).data) = false → failing x ≠ [] → x.e.op ≠ 1
    → s.on (.act a) F.CH_CTRL_DEEP = false → x.rereads < s.get (.act a) F.CH_CTRL_LADDER → ∀ (y : ChEntry), (wanted x).foldl
    (fun z j => takeCw z (unread (s.get (.act a) F.SV_FIELD_GATE_LEN) (s.sluice a.val).guard (s.chan a.val) x obs ++ (if
    (s.chan a.val).lostAt.isEmpty then [] else obs.erased)) j (obs.cws.getD j ⟨false, 0, [], []⟩)) (passCounted x true false
    (s.chan a.val).headSeen obs.mse) = y → Answers (.readPassEnd a obs) s fun t => (t.chan a.val).medium = none ∧ (t.chan
    a.val).zcopy = none ∧ (t.chan a.val).ents = (s.chan a.val).ents.map (fun z => if z.idx == x.idx then
    { y with rereads := x.rereads + 1, reread := true, deepLeft := [] } else z) ∧ y.done = x.done ∧ y.passes = x.passes + 1 ∧
    y.mse = obs.mse ∧ t.get (.act a) F.CH_CNT_REREAD = min (s.get (.act a) F.CH_CNT_REREAD + 1) (2 ^ F.CH_CNT_REREAD.width -
    1)) ∧
  (∀ (s : State) (a : Fin 96) (x : ChEntry) (obs : PassObs), s.passEntry? a = some x → s.syncFound a x obs = true → (s.chan
    a.val).off = false → x.e.op ≠ 1 → s.on (.act a) F.CH_CTRL_DEEP = true → ∀ (y : ChEntry), (wanted x).foldl (fun z j =>
    takeCw z (unread (s.get (.act a) F.SV_FIELD_GATE_LEN) (s.sluice a.val).guard (s.chan a.val) x obs ++ (if (s.chan
    a.val).lostAt.isEmpty then [] else obs.erased)) j (obs.cws.getD j ⟨false, 0, [], []⟩)) (passCounted x true false (s.chan
    a.val).headSeen obs.mse) = y → failing y ≠ [] → deepRoom (s.die (dieOf a).val) (failing y).length = true → Answers
    (.readPassEnd a obs) s fun t => (t.chan a.val).medium = none ∧ (t.chan a.val).zcopy = none ∧ (t.chan a.val).ents = (s.chan
    a.val).ents.map (fun z => if z.idx == x.idx then { y with phase := .deep, deepLeft := failing y } else z) ∧ (∀ j ∈ failing
    y, DeepJob.mk a.val x.idx j ∈ (t.die (dieOf a).val).deepQ ∨ some (DeepJob.mk a.val x.idx j) ∈ (t.die (dieOf
    a).val).deepRun) ∧ t.get (.act a) F.CH_CNT_DEEP = min (s.get (.act a) F.CH_CNT_DEEP + (failing y).length) (2 ^
    F.CH_CNT_DEEP.width - 1)) ∧
  (∀ (s : State) (a : Fin 96) (x : ChEntry) (obs : PassObs), s.passEntry? a = some x → s.syncFound a x obs = true → (s.chan
    a.val).off = false → x.e.op = 0 → x.e.raw = true → ∀ (y : ChEntry), (wanted x).foldl (fun z j => takeCw z (unread (s.get
    (.act a) F.SV_FIELD_GATE_LEN) (s.sluice a.val).guard (s.chan a.val) x obs ++ (if (s.chan a.val).lostAt.isEmpty then [] else
    obs.erased)) j (obs.cws.getD j ⟨false, 0, [], []⟩)) (passCounted x true false (s.chan a.val).headSeen obs.mse) = y →
    failing y = [] → tagCheck y = none → s.on (.act a) F.CH_CTRL_WBACK = false → s.plainMram (dieOf a).val x.e.addr 32768 =
    true → s.plainMram (dieOf a).val (ringAt (s.get (.act a) F.CH_CQ_CFG_BASE) (s.get (.act a) F.CH_CQ_CFG_LOG2N) 16 (s.get
    (.act a) F.CH_CQ_TAIL)) 16 = true → x.e.addr + 32768 ≤ ringAt (s.get (.act a) F.CH_CQ_CFG_BASE) (s.get (.act a)
    F.CH_CQ_CFG_LOG2N) 16 (s.get (.act a) F.CH_CQ_TAIL) ∨ ringAt (s.get (.act a) F.CH_CQ_CFG_BASE) (s.get (.act a)
    F.CH_CQ_CFG_LOG2N) 16 (s.get (.act a) F.CH_CQ_TAIL) + 16 ≤ x.e.addr → ((List.range 8).all fun j => ((y.done.find? fun p =>
    p.1 == j).map (fun p => decide (4096 ≤ p.2.length))) == some true) = true → Answers (.readPassEnd a obs) s fun t => (t.chan
    a.val).medium = none ∧ (t.chan a.val).zcopy = none ∧ t.mramBytes (x.e.addr - mramBase) 32768 = userData y ∧ (t.chan
    a.val).ents = (s.chan a.val).ents.filter (fun z => z.idx != x.idx) ∧ t.get (.act a) F.CH_CQ_TAIL = (s.get (.act a)
    F.CH_CQ_TAIL + 1) % 2 ^ s.get (.act a) F.CH_CQ_CFG_LOG2N % 2 ^ F.CH_CQ_TAIL.width ∧ t.on (.act a) F.CH_EVT_CQ = true ∧
    t.mramBytes (ringAt (s.get (.act a) F.CH_CQ_CFG_BASE) (s.get (.act a) F.CH_CQ_CFG_LOG2N) 16 (s.get (.act a) F.CH_CQ_TAIL) -
    mramBase) 16 = chCompletion (y) (goodStatus y) 0xFFF (s.chan a.val).wrap) ∧
  (∀ (s : State) (m d : Fin 4) (j : DeepJob) (x : ChEntry) (obs : DeepObs), (s.die m.val).deepRun[d.val]? = some (some j) →
    (s.die m.val).deepQ = [] → (s.chan (actOf j.act).val).ents.find? (fun y => y.idx == j.idx && y.phase == .deep &&
    y.deepLeft.contains j.cw) = some x → (deepOutcome x obs).2.1 = false → x.deepLeft.filter (fun k => k != j.cw) ≠ [] →
    Answers (.deepDecodeDone m d obs) s fun t => (t.die m.val).deepRun = (s.die m.val).deepRun.set d.val none ∧ (t.chan (actOf
    j.act).val).ents = (s.chan (actOf j.act).val).ents.map (fun z => if z.idx == x.idx then
    { x with deepLeft := x.deepLeft.filter fun k => k != j.cw, iterOf := addIters x.iterOf j.cw (deepOutcome x obs).2.2 } else
    z)) ∧
  (∀ (s : State) (m d : Fin 4) (j : DeepJob) (x : ChEntry) (obs : DeepObs), (s.die m.val).deepRun[d.val]? = some (some j) →
    (s.die m.val).deepQ = [] → (s.chan (actOf j.act).val).ents.find? (fun y => y.idx == j.idx && y.phase == .deep &&
    y.deepLeft.contains j.cw) = some x → (deepOutcome x obs).2.1 = true → x.deepLeft.filter (fun k => k != j.cw) ≠ [] → Answers
    (.deepDecodeDone m d obs) s fun t => (t.die m.val).deepRun = (s.die m.val).deepRun.set d.val none ∧ (t.chan (actOf
    j.act).val).ents = (s.chan (actOf j.act).val).ents.map (fun z => if z.idx == x.idx then
    { x with deepLeft := x.deepLeft.filter fun k => k != j.cw, iterOf := addIters x.iterOf j.cw (deepOutcome x obs).2.2, done := x.done ++ [(j.cw, obs.data)], recovered := x.mem.isNone || x.recovered }
    else z)) ∧
  (∀ (s : State) (m d : Fin 4) (j : DeepJob) (x : ChEntry) (obs : DeepObs), (s.die m.val).deepRun[d.val]? = some (some j) →
    (s.die m.val).deepQ = [] → (s.chan (actOf j.act).val).ents.find? (fun y => y.idx == j.idx && y.phase == .deep &&
    y.deepLeft.contains j.cw) = some x → (deepOutcome x obs).2.1 = false → x.deepLeft.filter (fun k => k != j.cw) = [] →
    failing x ≠ [] → x.mem = none → x.e.op ≠ 1 → x.rereads < s.get (.act (actOf j.act)) F.CH_CTRL_LADDER → Answers
    (.deepDecodeDone m d obs) s fun t => (t.die m.val).deepRun = (s.die m.val).deepRun.set d.val none ∧ (t.chan (actOf
    j.act).val).ents = (s.chan (actOf j.act).val).ents.map (fun z => if z.idx == x.idx then
    { x with phase := .window, rereads := x.rereads + 1, reread := true, deepLeft := [], iterOf := addIters x.iterOf j.cw (deepOutcome x obs).2.2 }
    else z)) ∧
  (∀ (s : State) (m d : Fin 4) (j : DeepJob) (js : List DeepJob) (k : DeepJob) (obs : DeepObs), (s.die m.val).deepRun[d.val]? =
    some (some j) → (s.die m.val).deepQ = k :: js → ((s.die m.val).deepRun.set d.val none).findIdx? Option.isNone = some d.val
    → (s.chan (actOf j.act).val).ents.find? (fun y => y.idx == j.idx && y.phase == .deep && y.deepLeft.contains j.cw) = none →
    Answers (.deepDecodeDone m d obs) s fun t => (t.die m.val).deepRun = (s.die m.val).deepRun.set d.val (some k) ∧ (t.die
    m.val).deepQ = js ∧ t.chans = s.chans)

/-- Motion commands of the servo engine (spec/04_servo_engines.md: States and commands, spec/04_servo_engines.md: Seek
profiles, spec/04_servo_engines.md: Nothing stops at once, spec/04_servo_engines.md: Registers). Each clause but the last
is of an actuator outside a sweep, with its lane in T7 and no motion command running. SEEK with the heads flying, a usable
profile, track and head in range and no sector being written enters SEEK with that track, offset and head. OFFSET likewise
enters SETTLE with its offset on the present track. LOAD of a parked actuator whose spindle is locked, with a head in
range, enters LOADING with that head and, with a place and a TAG free, sends LOAD. UNLOAD in FOLLOW and HALT in FOLLOW with
EN 1 enter UNLOADING, with ONTRACK and WRITE_OK 0. A reserved OP, 8 to 15, completes with 0x03 in any state. -/
def Obligations.MotionCommands : Prop :=
  (∀ (s : State) (a : Fin 96) (g : SvArgs), s.swept a = false → s.upT7 a = true → s.flying a = true → (s.servo a.val).motion =
    none → s.profOk a g.prof = true → (s.sluice a.val).ents.filter (fun e => e.ph == .writing) = [] → s.trackOk a g.track =
    true → g.head ≤ s.get (.act a) F.YL_BRIDGE_HEADS → g.head < 16 → Answers (.seek a g) s fun t => t.svState a = 5 ∧ t.get
    (.act a) F.SV_STAT_HEAD = g.head ∧ (t.servo a.val).motion = some .seek ∧ (t.servo a.val).track = g.track ∧ (t.servo
    a.val).offset = g.offset) ∧
  (∀ (s : State) (a : Fin 96) (g : SvArgs), s.swept a = false → s.upT7 a = true → s.flying a = true → (s.servo a.val).motion =
    none → s.profOk a g.prof = true → (s.sluice a.val).ents.filter (fun e => e.ph == .writing) = [] → Answers (.offset a g) s
    fun t => t.svState a = 6 ∧ (t.servo a.val).motion = some .offset ∧ (t.servo a.val).offset = g.offset ∧ (t.servo
    a.val).track = (s.servo a.val).track) ∧
  (∀ (s : State) (a : Fin 96) (g : SvArgs), s.swept a = false → s.upT7 a = true → s.svState a = 1 → (s.servo a.val).motion =
    none → g.head ≤ s.get (.act a) F.YL_BRIDGE_HEADS → g.head < 16 → s.on (.act a) F.SV_STAT_LOCK = true → Answers (.svLoad a
    g) s fun t => t.svState a = 2 ∧ (t.servo a.val).motion = some .load ∧ (freeTag (s.lane a) ≠ none → (s.lane a).out.length <
    4 → (t.lane a).out.getLast?.map (fun m => (m.op, m.payload)) = some (0x13, g.head % 16)) ∧ t.get (.act a) F.SV_STAT_HEAD =
    g.head) ∧
  (∀ (s : State) (a : Fin 96), s.swept a = false → s.upT7 a = true → s.svState a = 4 → (s.servo a.val).motion = none → Answers
    (.unload a) s fun t => t.svState a = 7 ∧ t.on (.act a) F.SV_STAT_ONTRACK = false ∧ t.on (.act a) F.SV_STAT_WRITE_OK = false
    ∧ (t.servo a.val).motion = some .unload) ∧
  (∀ (s : State) (a : Fin 96), s.swept a = false → s.upT7 a = true → s.svState a = 4 → (s.servo a.val).motion = none → s.on
    (.act a) F.SV_CTRL_EN = true → Answers (.halt a) s fun t => t.svState a = 7 ∧ t.on (.act a) F.SV_STAT_ONTRACK = false ∧
    t.on (.act a) F.SV_STAT_WRITE_OK = false ∧ (t.servo a.val).motion = some .halt) ∧
  (∀ (s : State) (a : Fin 96) (op : Nat), 8 ≤ op → op < 16 → Answers (.svCmdReserved a op) s fun t => t.get (.act a)
    F.SV_RESULT_RESULT = 3 ∧ t.get (.act a) F.SV_RESULT_OP = op ∧ t.on (.act a) F.SV_EVT_DONE = true)

/-- Spindle commands, their scheduler, and SV_CTRL.EN (spec/04_servo_engines.md: States and commands,
spec/04_servo_engines.md: The spindle, spec/04_servo_engines.md: Nothing stops at once, spec/04_servo_engines.md:
Registers). SPIN_UP outside a sweep, in T7 with EN 1, of an assembly not locked, queued or granted and with no spindle
command running, runs and joins the queue of its die. SPIN_DOWN outside a sweep, in T7 with both actuators' heads in and no
spindle command running, runs, and the assembly holds neither place nor slot. SPIN_GRANT takes the oldest request while
fewer than SPIN_MAX run. SPIN_TIMEOUT of an assembly with a slot, no sweep on it, frees the slot, ends its SPIN_UP and sets
SPIN_TMO of both actuators. SV_ENABLE in HALTED with the lane in T7 sets EN and enters PARKED. SV_DISABLE with the heads
out and no sweep clears EN, enters HALTED and ends the commands that run. -/
def Obligations.SpindleCommands : Prop :=
  (∀ (s : State) (a : Fin 96), s.swept a = false → s.upT7 a = true → s.on (.act a) F.SV_CTRL_EN = true → (s.servo a.val).spin =
    none → s.asmLocked a = false → (s.die (dieOf a).val).spinQ.contains (asmOf a) = false → (s.die (dieOf
    a).val).spinRun.contains (asmOf a) = false → Answers (.spinUp a) s fun t => (t.servo a.val).spin = some .up ∧ (t.die (dieOf
    a).val).spinQ = (s.die (dieOf a).val).spinQ ++ [asmOf a]) ∧
  (∀ (s : State) (a : Fin 96), s.swept a = false → s.upT7 a = true → (s.servo a.val).spin = none → s.headsOut a = false →
    s.headsOut (twin a) = false → Answers (.spinDown a) s fun t => (t.servo a.val).spin = some .down ∧ (t.die (dieOf
    a).val).spinQ.contains (asmOf a) = false ∧ (t.die (dieOf a).val).spinRun.contains (asmOf a) = false) ∧
  (∀ (s : State) (m : Fin 4) (k : Nat) (ks : List Nat), (s.die m.val).spinQ = k :: ks → (s.die m.val).spinRun.length <
    s.spinMax m → Answers (.spinGrant m) s fun t => (t.die m.val).spinQ = ks ∧ (t.die m.val).spinRun = (s.die m.val).spinRun ++
    [k]) ∧
  (∀ (s : State) (m : Fin 4) (k : Fin 12), (s.die m.val).spinRun.contains k.val = true → (s.swpAct (evenOf m.val
    k.val).val).state = 0 → (s.swpAct (oddOf m.val k.val).val).state = 0 → Answers (.spinTimeout m k) s fun t => (t.die
    m.val).spinRun = (s.die m.val).spinRun.filter (fun x => x != k.val) ∧ t.on (.act (oddOf m.val k.val)) F.SV_EVT_SPIN_TMO =
    true ∧ t.on (.act (evenOf m.val k.val)) F.SV_EVT_SPIN_TMO = true ∧ (t.servo (oddOf m.val k.val).val).spin ≠ some .up) ∧
  (∀ (s : State) (a : Fin 96), s.svState a = 8 → s.upT7 a = true → Answers (.svEnable a) s fun t => t.on (.act a) F.SV_CTRL_EN
    = true ∧ t.svState a = 1) ∧
  (∀ (s : State) (a : Fin 96), s.headsOut a = true → (s.swpAct a.val).state = 0 → Answers (.svDisable a) s fun t => t.on (.act
    a) F.SV_CTRL_EN = false ∧ t.svState a = 8 ∧ (t.servo a.val).motion = none ∧ (t.servo a.val).spin = none)

/-- Wedges and other events of the servo loop (spec/04_servo_engines.md: The servo gate, spec/04_servo_engines.md: The
turnaround, spec/04_servo_engines.md: The position loop, spec/04_servo_engines.md: Acquiring the track,
spec/04_servo_engines.md: Seek profiles, spec/04_servo_engines.md: Lost wedges, shocks and lost links,
spec/04_servo_engines.md: Registers). Each clause is of an actuator without a sweep. The fraction of a track and predicted
positions are free values (log 48); a lost track number is judged as log 171 says. SERVO_WEDGE in ACQUIRE, the lane in T7,
with its mark found and no bad frame in its gate, joins the list of wedges read while no three are in order, shows its
wedge and track, and a servo command is ready; with three in order a LOAD is done: FOLLOW on the track read, with
GATE_LOCK, and RESULT 0 for OP 3. Otherwise the list is emptied and nothing is reported. In FOLLOW, with no entries held by
the sluice, no record waiting, no command held, no swap pending and not late, the wedge is shown and reported, as read or
as predicted; one with a bad frame in its gate or no mark is predicted and counts in LOST. ACQUIRE_TIMEOUT in ACQUIRE and
SERVO_LOST after LOST_MAX lost wedges in a row, the heads flying, set SERVO_LOST, end the motion command and enter
UNLOADING. SETTLE_TIMEOUT after SETTLE_MAX wedges in SETTLE ends a SEEK with 0x0A; the state stays. SHOCK_HOLD_END ends a
hold that has run out and changes nothing else. COEF_SWAP changes the bank at once while the heads do not fly, and else
waits in SWAP. -/
def Obligations.ServoEvents : Prop :=
  (∀ (s : State) (a : Fin 96) (o : WedgeObs), s.upT7 a = true → s.svState a = 3 → (s.lane a.val).gateBad = false → s.markFound
    a o = true → (s.swpAct a.val).state = 0 → inOrder (o.wedge % 1024 :: (s.servo a.val).acq.take 2) = false → Answers
    (.servoWedge a o) s fun t => (t.servo a.val).acq = o.wedge % 1024 :: (s.servo a.val).acq.take 2 ∧ (t.lane
    a.val).actCmd.isSome = true ∧ t.svState a = 3 ∧ t.get (.act a) F.SV_STAT_WEDGE = o.wedge % 1024 ∧ t.get (.act a)
    F.SV_STAT_TRACK = (s.fieldPos a o).1 % 2 ^ F.SV_STAT_TRACK.width) ∧
  (∀ (s : State) (a : Fin 96) (o : WedgeObs), s.upT7 a = true → s.svState a = 3 → (s.lane a.val).gateBad = false → s.markFound
    a o = true → (s.swpAct a.val).state = 0 → inOrder (o.wedge % 1024 :: (s.servo a.val).acq.take 2) = true → (s.servo
    a.val).motion = some .load → Answers (.servoWedge a o) s fun t => t.svState a = 4 ∧ t.on (.act a) F.SV_STAT_GATE_LOCK =
    true ∧ (t.servo a.val).track = (s.fieldPos a o).1 ∧ (t.servo a.val).offset = 0 ∧ (t.servo a.val).motion = none ∧ t.get
    (.act a) F.SV_RESULT_RESULT = 0 ∧ t.get (.act a) F.SV_RESULT_OP = 3 ∧ t.get (.act a) F.SV_CNT_TRIM = s.get (.act a)
    F.SV_CNT_TRIM) ∧
  (∀ (s : State) (a : Fin 96) (o : WedgeObs), s.upT7 a = true → s.svState a = 3 → (s.lane a.val).gateBad = true ∨ s.markFound a
    o = false → (s.swpAct a.val).state = 0 → Answers (.servoWedge a o) s fun t => (t.servo a.val).acq = [] ∧ (t.lane
    a.val).actCmd.isSome = true ∧ t.svState a = 3 ∧ (t.lane a.val).gateBad = false ∧ t.out = []) ∧
  (∀ (s : State) (a : Fin 96) (o : WedgeObs), s.upT7 a = true → s.svState a = 4 → (s.swpAct a.val).state = 0 → s.on (.act a)
    F.SV_LIM_SWAP = false → (s.servo a.val).held = none → o.late = false → (s.sluice a.val).ents = [] → (s.die (dieOf
    a).val).jwait = [] → o.wedge < 540 → Answers (.servoWedge a o) s fun t => t.get (.act a) F.SV_STAT_WEDGE = (if t.on (.act
    a) F.SV_STAT_PRED = true then (s.get (.act a) F.SV_STAT_WEDGE + 1) % 540 else o.wedge) ∧ (t.lane a.val).actCmd.isSome =
    true ∧ t.out.getLast? = some (if t.on (.act a) F.SV_STAT_PRED = true then .wedge a.val (t.get (.act a) F.SV_STAT_WEDGE)
    (Config.predictedIndex 0 (s.servo a.val).repMark) (Config.predictedIndex 1 (s.servo a.val).repFirst) (Config.predictedIndex
    2 (s.servo a.val).repLast) true else .wedge a.val o.wedge o.markAt o.first o.last false) ∧ ((s.lane a.val).gateBad = true ∨
    s.markFound a o = false → t.on (.act a) F.SV_STAT_PRED = true ∧ t.get (.act a) F.SV_CNT_LOST = min (s.get (.act a)
    F.SV_CNT_LOST + 1) (2 ^ F.SV_CNT_LOST.width - 1))) ∧
  (∀ (s : State) (a : Fin 96), s.svState a = 3 → (s.swpAct a.val).state = 0 → Answers (.acquireTimeout a) s fun t => t.svState
    a = 7 ∧ (t.servo a.val).parkStop = true ∧ t.on (.act a) F.SV_EVT_SERVO_LOST = true ∧ (t.servo a.val).motion = none) ∧
  (∀ (s : State) (a : Fin 96), s.flying a = true → s.lostMax a ≤ (s.servo a.val).lostRun → (s.swpAct a.val).state = 0 → Answers
    (.servoLost a) s fun t => t.svState a = 7 ∧ (t.servo a.val).parkStop = true ∧ t.on (.act a) F.SV_EVT_SERVO_LOST = true ∧
    (t.servo a.val).motion = none) ∧
  (∀ (s : State) (a : Fin 96), s.svState a = 6 → s.get (.act a) F.SV_SHOCK_SETTLE_MAX ≤ (s.servo a.val).settleAll → (s.servo
    a.val).motion = some .seek → (s.swpAct a.val).state = 0 → Answers (.settleTimeout a) s fun t => t.get (.act a)
    F.SV_RESULT_RESULT = 10 ∧ t.get (.act a) F.SV_RESULT_OP = 1 ∧ (t.servo a.val).motion = none ∧ t.svState a = 6) ∧
  (∀ (s : State) (a : Fin 96), (s.servo a.val).shockOn = true → (s.servo a.val).shockLeft = 0 → Answers (.shockHoldEnd a) s fun
    t => t.servo a.val = { s.servo a.val with shockOn := false } ∧ t.regs = s.regs) ∧
  (∀ (s : State) (a : Fin 96), s.flying a = false → Answers (.coefSwap a) s fun t => t.get (.act a) F.SV_LIM_BANK = 1 - s.get
    (.act a) F.SV_LIM_BANK ∧ t.on (.act a) F.SV_LIM_SWAP = false) ∧
  (∀ (s : State) (a : Fin 96), s.flying a = true → Answers (.coefSwap a) s fun t => t.get (.act a) F.SV_LIM_BANK = s.get (.act
    a) F.SV_LIM_BANK ∧ t.on (.act a) F.SV_LIM_SWAP = true)

/-- Commands of the sluice and its journal (spec/05_sluice.md: Write entries and rings, spec/05_sluice.md: The life of an
entry, spec/05_sluice.md: The journal, spec/05_sluice.md: Cancel, disable and loss of the lane, spec/05_sluice.md: After
supply loss, spec/05_sluice.md: Registers). SL_ENABLE outside a sweep, with EN 0, sets EN and nothing else under a good
configuration, and under a bad one sets CFG_ERR and leaves EN 0. SL_DISABLE outside a sweep, with nothing held, clears EN
and nothing else. WRITE, where an entry may be fetched, it can be read, nothing is held, no cancel is pending and it is not
bad, holds it waiting for its fill (its rate the choice of log 215) and advances HEAD. SL_CANCEL with fewer than four
pending, nothing held and entries before the tail stays pending. SLD_JHEAD is written while no record waits and no actuator
of the die is enabled, SLD_JTAIL while none is enabled, and nothing else changes. -/
def Obligations.WriteCommands : Prop :=
  (∀ (s : State) (a : Fin 96), s.swept a = false → s.on (.act a) F.SL_CTRL_EN = false → s.slConfigOk a = true → Answers
    (.slEnable a) s fun t => t = { s.put (.act a) F.SL_CTRL_EN 1 with out := [] } ∧ t.on (.act a) F.SL_CTRL_EN = true) ∧
  (∀ (s : State) (a : Fin 96), s.swept a = false → s.on (.act a) F.SL_CTRL_EN = false → s.slConfigOk a = false → Answers
    (.slEnable a) s fun t => t.on (.act a) F.SL_CTRL_EN = false ∧ t.on (.act a) F.SL_EVT_CFG_ERR = true) ∧
  (∀ (s : State) (a : Fin 96), s.swept a = false → (s.sluice a.val).ents = [] → Answers (.slDisable a) s fun t => t =
    { s.put (.act a) F.SL_CTRL_EN 0 with out := [] } ∧ t.on (.act a) F.SL_CTRL_EN = false) ∧
  (∀ (s : State) (a : Fin 96), s.slFetches a = true → ∀ (r : State × MemAns), s.clean.masterRead (dieOf a).val (.act a) (ringAt
    (s.get (.act a) F.SL_WQ_CFG_BASE) (s.get (.act a) F.SL_WQ_CFG_LOG2N) 32 (s.get (.act a) F.SL_WQ_HEAD)) 32 = r → ∀ bs,
    r.2.data? = some bs → (s.sluice a.val).cancels = [] → (s.sluice a.val).ents = [] → r.1.writeBad a (writeEntryOf bs) = false
    → Answers (.write a) s fun t => ((t.sluice a.val).ents.map fun x => (x.e, x.order, x.ph)) = [(writeEntryOf bs, (s.sluice
    a.val).nextOrder, .waiting)] ∧ t.get (.act a) F.SL_WQ_HEAD = (s.get (.act a) F.SL_WQ_HEAD + 1) % 2 ^ s.get (.act a)
    F.SL_WQ_CFG_LOG2N % 2 ^ F.SL_WQ_HEAD.width) ∧
  (∀ (s : State) (a : Fin 96) (tag : Fin 65536), (s.sluice a.val).cancels.length < 4 → s.get (.act a) F.SL_WQ_TAIL ≠ s.get
    (.act a) F.SL_WQ_HEAD → (s.sluice a.val).ents = [] → Answers (.slCancel a tag) s fun t => (t.sluice a.val).cancels =
    (s.sluice a.val).cancels ++ [(tag.val, s.get (.act a) F.SL_WQ_TAIL)]) ∧
  (∀ (s : State) (m : Fin 4) (v : Fin 4294967296), s.dieWrites m = false → (s.die m.val).jwait = [] → Answers (.sldJheadWrite m
    v) s fun t => t = { s.put (.med m) F.SLD_JHEAD v.val with out := [] } ∧ t.get (.med m) F.SLD_JHEAD = v.val) ∧
  (∀ (s : State) (m : Fin 4) (v : Fin 4294967296), s.dieWrites m = false → Answers (.sldJtailWrite m v) s fun t => t =
    { s.put (.med m) F.SLD_JTAIL v.val with out := [] } ∧ t.get (.med m) F.SLD_JTAIL = v.val)

/-- The life of a sector being written (spec/05_sluice.md: The life of an entry, spec/05_sluice.md: Release on the link,
spec/05_sluice.md: Interrupted writes and rewrites, spec/05_sluice.md: Verify, spec/05_sluice.md: The journal,
spec/05_sluice.md: Commit and completion, spec/05_sluice.md: Registers). Each clause is of an actuator that holds one
entry. FILL_START of a waiting entry, its key slot usable and its source readable, takes the next sequence number, and the
furrow holds its sector, encrypted and encoded. A slot that may not be used ends the entry, counted in KEY_CNT_REFUSED.
FILL_DONE, with room in the journal, sends the INTENT record and awaits it. JOURNAL_RECORD_ACK of a lone INTENT record
fills its entry. BURST_START while WRITE_OK is 1 begins the next burst of the sector being written, of the size that its
wedge interval leaves, after a gate with a resync field of 96 bits; with WRITE_OK 0, in a burst or with the sector sent it
does nothing. SECTOR_WRITE_END turns writing into verifying. REVOLUTION_VERIFY_START starts the read-back of a sector that
awaits one. VERIFY_RESULT with eight good codewords (their decoding an operand, log 2) frees the slot and begins
committing; one that fails, while a rewrite is allowed, makes the sector wait for it, with VFAIL, counted. WRATE_SET in T7,
no message outstanding, sends the rate of the next filled entry if another is acknowledged. -/
def Obligations.SectorLife : Prop :=
  (∀ (s : State) (a : Fin 96) (e : SlEntry), (s.sluice a.val).ents = [e] → e.ph = .waiting → s.keyOk e.e.kslot = true → ∀ (q :
    State), ((s.clean.put (.act a) F.SL_SEQ_NEXT (s.seqNext a + 1)).putEnt a
    { e with ph := .filling, started := true, seq := s.seqNext a }).keyTouch (dieOf a) e.e.kslot = q → ∀ (r : State × MemAns),
    q.masterRead (dieOf a).val (.act a) e.e.addr 32768 = r → r.2.data?.isSome = true → ∀ (d : List Byte), r.2.data?.getD [] = d
    → Answers (.fillStart a) s fun t => t.get (.act a) F.SL_SEQ_NEXT = (s.seqNext a + 1) % 2 ^ F.SL_SEQ_NEXT.width ∧ (t.sluice
    a.val).ents = [{ e with ph := .filling, started := true, seq := s.seqNext a }] ∧ tget [] t.furrow (4096 * (dieOf a).val +
    e.slot) = encodeSector (s.cipher true e.e.kslot a.val e.e.band e.e.sect d) (s.seqNext a) e.e.band e.e.sect e.e.kslot
    e.e.column e.e.par 1 ∧ t.keys.uses = s.keys.uses ++ [⟨e.e.kslot, a.val, e.order, true⟩]) ∧
  (∀ (s : State) (a : Fin 96) (e : SlEntry), (s.sluice a.val).ents = [e] → e.ph = .waiting → s.keyOk e.e.kslot = false →
    Answers (.fillStart a) s fun t => t.on .key F.KEY_EVT_REFUSED = true ∧ ((t.sluice a.val).ents.all fun x => x.ph ==
    .closing) = true ∧ t.get .key F.KEY_CNT_REFUSED = min (s.get .key F.KEY_CNT_REFUSED + 1) (2 ^ F.KEY_CNT_REFUSED.width - 1)) ∧
  (∀ (s : State) (a : Fin 96) (e : SlEntry), (s.sluice a.val).ents = [e] → e.ph = .filling → s.journalFull (dieOf a) = false →
    (s.die (dieOf a).val).jwait = [] → Answers (.fillDone a) s fun t => (t.sluice a.val).ents.map (fun x => (x.order, x.ph)) =
    [(e.order, .intent)] ∧ (t.die (dieOf a).val).jfly.length = (s.die (dieOf a).val).jfly.length + 1 ∧ ((t.die (dieOf
    a).val).jfly.getLast?.map fun r => (r.type, r.act, r.idx)) = some (1, a.val, e.order)) ∧
  (∀ (s : State) (m : Fin 4) (r : JRec) (e : SlEntry), (s.die m.val).jfly = [r] → r.type = 1 → s.ent? (actOf r.act) r.idx =
    some e → e.ph = .intent → e.order = r.idx → Answers (.journalRecordAck m) s fun t => (t.die m.val).jfly = [] ∧ (t.ent?
    (actOf r.act) r.idx).map SlEntry.ph = some .filled) ∧
  (∀ (s : State) (a : Fin 96) (e : SlEntry), (s.sluice a.val).ents = [e] → e.ph = .writing → e.burst = false → e.sent ≠
    sectorBits → s.on (.act a) F.SV_STAT_WRITE_OK = true → Answers (.burstStart a) s fun t => ((t.sluice a.val).ents.map fun x
    => (x.order, x.ph, x.burst, x.left, x.pre)) = [(e.order, .writing, true, burstBits (s.get (.act a) F.SV_FIELD_GATE_LEN)
    e.rate (s.sluice a.val).guard e.e.start e.gates e.sent, if e.gates = 0 then 0 else 96)]) ∧
  (∀ (s : State) (a : Fin 96) (e : SlEntry), (s.sluice a.val).ents = [e] → e.ph = .writing → e.burst = true ∨ e.sent =
    sectorBits ∨ s.on (.act a) F.SV_STAT_WRITE_OK = false → Answers (.burstStart a) s fun t => t = s.clean) ∧
  (∀ (s : State) (a : Fin 96) (e : SlEntry), (s.sluice a.val).ents = [e] → e.ph = .writing → Answers (.sectorWriteEnd a) s fun
    t => (t.sluice a.val).ents = [{ e with ph := .verifying, burst := false, left := 0, sent := sectorBits }]) ∧
  (∀ (s : State) (a : Fin 96) (e : SlEntry), (s.sluice a.val).ents = [e] → e.ph = .verifying → e.vmode = true → e.reading =
    false → Answers (.revolutionVerifyStart a) s fun t => (t.sluice a.val).ents =
    [{ e with reading := true, off := !s.on (.act a) F.SV_STAT_ONTRACK }]) ∧
  (∀ (s : State) (a : Fin 96) (e : SlEntry) (obs : VerifyObs), (s.sluice a.val).ents = [e] → e.ph = .verifying → e.vmode =
    false ∨ (e.reading = true ∧ e.off = false ∧ verifySync e.dec obs = true) → s.verifyBad a e.dec false (tagWritten e) obs = 0
    → Answers (.verifyResult a obs) s fun t => ((t.sluice a.val).ents.map fun x => (x.order, x.ph, x.verified, x.holds)) =
    [(e.order, .committing, true, false)]) ∧
  (∀ (s : State) (a : Fin 96) (e : SlEntry) (obs : VerifyObs), (s.sluice a.val).ents = [e] → e.ph = .verifying → e.vmode =
    false ∨ e.reading = true → e.rewrites < s.get (.act a) F.SL_CTRL_REWRITE_MAX → s.verifyBad a e.dec (e.vmode && (e.off ||
    !verifySync e.dec obs)) (tagWritten e) obs ≠ 0 → Answers (.verifyResult a obs) s fun t => (t.sluice a.val).ents =
    [{ e with ph := .filled, rewrites := e.rewrites + 1, burst := false, sent := 0, left := 0, acc := 0, frames := 0, gates := 0, reading := false, off := false }]
    ∧ t.on (.act a) F.SL_EVT_VFAIL = true ∧ t.get (.act a) F.SL_CNT_REWRITE = min (s.get (.act a) F.SL_CNT_REWRITE + 1) (2 ^
    F.SL_CNT_REWRITE.width - 1)) ∧
  (∀ (s : State) (a : Fin 96) (e : SlEntry), (s.sluice a.val).ents = [e] → e.ph = .filled → (s.lane a.val).wrate ≠ e.rate →
    s.upT7 a = true → (s.lane a.val).out = [] → (s.lane a.val).waiting = [] → ∀ g, (freeTag (s.lane a.val)) = some g → Answers
    (.wrateSet a) s fun t => t.out = [.sideband a 0x15 g e.rate] ∧ (t.lane a.val).out = [⟨g, 0x15, e.rate, .sluice, 1⟩])

/-- Stripe engines (spec/06_stripes_and_keys.md: The stripe code, spec/06_stripes_and_keys.md: Stripe engines,
spec/06_stripes_and_keys.md: Degraded stripes, spec/06_stripes_and_keys.md: Registers). A descriptor starts when it is
fetched and of the command's OP, the engine is enabled with fewer active ones than it holds, and completion room remains;
it and its column list are good, and all buffers plain MRAM, disjoint where written. ENCODE then writes to each byte of
parity column 40 + i the sum over the K data columns of the coefficient of row i and the column times its byte, active with
status 0x00; REBUILD writes to each VALID column of the erasure set the combination of the K columns read that the code
gives it, and names the set as used; CHECK writes nothing; a parity row whose sum differs is a mismatch (0x34). REBUILD
with fewer than K columns left writes nothing (0x33), nor does ENCODE of a bad descriptor (0x30). STRIPE_DESC_DONE of the
one active descriptor writes its completion, advances CQ_TAIL and sets CQ. STR_ENABLE with both rings in range sets EN and
starts the engine; with one out of range it sets EN and CFG_ERR and does not. STR_DISABLE with nothing fetched stops it; EN
is 0. With a descriptor fetched that completes CANCELLED (0x22). A write of STR_DOWN clears the bits that it writes as
ones. -/
def Obligations.StripeEngines : Prop :=
  (∀ (s : State) (k : Fin 4) (idx i b : Nat) (d : StripeDesc), (s.stripe k.val).fetched = some (idx, d) → d.op = 1 →
    s.stripeMay k = true → descBad d = false → s.plainMram (4 + k.val) d.list 384 = true → ∀ (bs : List Byte), s.mramBytes
    (d.list - mramBase) 384 = bs → listBad d (stripeColOf bs) [] = false → ((stripeCols d.k d.p).all fun c => s.plainMram (4 +
    k.val) (stripeColOf bs c).addr (64 * d.len)) = true → ((List.range ((List.range d.p).map fun i => 40 + i).length).all fun i
    => !outputMeets (64 * d.len) ((List.range d.k).map fun c => (stripeColOf bs c).addr) (((List.range d.p).map fun i => 40 +
    i).map fun c => (stripeColOf bs c).addr) i) = true → i < d.p → b < 64 * d.len → Answers (.encode k) s fun t => t.stripe
    k.val =
    { s.stripe k.val with rate := s.stripeRate k, fetched := none, active := (s.stripe k.val).active ++ [⟨idx, d.tag, 0, 0, 0⟩] }
    ∧ t.on (.stripe k) F.STR_STAT_IDLE = false ∧ (tget 0 t.mram ((stripeColOf bs (40 + i)).addr - mramBase + b)).toNat =
    (List.range d.k).foldl (fun x c => x ^^^ gfMul (stripeCoef i c) (tget 0 s.mram ((stripeColOf bs c).addr - mramBase +
    b)).toNat) 0 ∧ t.dram = s.dram) ∧
  (∀ (s : State) (k : Fin 4) (idx c b : Nat) (d : StripeDesc), (s.stripe k.val).fetched = some (idx, d) → d.op = 2 →
    s.stripeMay k = true → descBad d = false → s.plainMram (4 + k.val) d.list 384 = true → ∀ (bs : List Byte), s.mramBytes
    (d.list - mramBase) 384 = bs → ∀ (lost : List Nat), s.erasureSet d (stripeColOf bs) = lost → listBad d (stripeColOf bs)
    lost = false → ∀ (rd : List Nat), (stripeUse d (stripeColOf bs) lost).1 = rd → rd.length = d.k → ∀ (wr : List Nat),
    (stripeUse d (stripeColOf bs) lost).2 = wr → ((rd ++ wr).all fun c => s.plainMram (4 + k.val) (stripeColOf bs c).addr (64 *
    d.len)) = true → ((List.range wr.length).all fun i => !outputMeets (64 * d.len) (rd.map fun c => (stripeColOf bs c).addr)
    (wr.map fun c => (stripeColOf bs c).addr) i) = true → c ∈ wr → b < 64 * d.len → Answers (.rebuild k) s fun t => t.stripe
    k.val =
    { s.stripe k.val with rate := s.stripeRate k, fetched := none, active := (s.stripe k.val).active ++ [⟨idx, d.tag, 0, 0, colMask lost⟩] }
    ∧ t.on (.stripe k) F.STR_STAT_IDLE = false ∧ (tget 0 t.mram ((stripeColOf bs c).addr - mramBase + b)).toNat = (List.zip
    (rowTimes (stripeRow d.k c) (gfInverse (rd.map (stripeRow d.k)))) rd).foldl (fun x p => x ^^^ gfMul p.1 (tget 0 s.mram
    ((stripeColOf bs p.2).addr - mramBase + b)).toNat) 0 ∧ t.dram = s.dram) ∧
  (∀ (s : State) (k : Fin 4) (idx : Nat) (d : StripeDesc), (s.stripe k.val).fetched = some (idx, d) → d.op = 3 → s.stripeMay k
    = true → descBad d = false → s.plainMram (4 + k.val) d.list 384 = true → ∀ (bs : List Byte), s.mramBytes (d.list -
    mramBase) 384 = bs → listBad d (stripeColOf bs) [] = false → ((stripeCols d.k d.p).all fun c => s.plainMram (4 + k.val)
    (stripeColOf bs c).addr (64 * d.len)) = true → ∀ (miss : Nat), (List.range d.p).foldl (fun m i => if (List.range (64 *
    d.len)).all (fun b => (tget 0 s.mram ((stripeColOf bs (40 + i)).addr - mramBase + b)).toNat == (List.range d.k).foldl (fun
    x c => x ^^^ gfMul (stripeCoef i c) (tget 0 s.mram ((stripeColOf bs c).addr - mramBase + b)).toNat) 0) then m else m + 2 ^
    i) 0 = miss → Answers (.check k) s fun t => t.stripe k.val =
    { s.stripe k.val with rate := s.stripeRate k, fetched := none, active := (s.stripe k.val).active ++ [⟨idx, d.tag, if miss = 0 then 0 else 0x34, miss, 0⟩] }
    ∧ t.on (.stripe k) F.STR_STAT_IDLE = false ∧ t.mram = s.mram ∧ t.dram = s.dram) ∧
  (∀ (s : State) (k : Fin 4) (idx : Nat) (d : StripeDesc), (s.stripe k.val).fetched = some (idx, d) → d.op = 2 → s.stripeMay k
    = true → descBad d = false → s.plainMram (4 + k.val) d.list 384 = true → ∀ (bs : List Byte), s.mramBytes (d.list -
    mramBase) 384 = bs → ∀ (lost : List Nat), s.erasureSet d (stripeColOf bs) = lost → listBad d (stripeColOf bs) lost = false
    → (stripeUse d (stripeColOf bs) lost).1.length < d.k → Answers (.rebuild k) s fun t => t.stripe k.val =
    { s.stripe k.val with fetched := none, active := (s.stripe k.val).active ++ [⟨idx, d.tag, 0x33, 0, colMask lost⟩] } ∧ t.on
    (.stripe k) F.STR_STAT_IDLE = false ∧ t.mram = s.mram ∧ t.dram = s.dram) ∧
  (∀ (s : State) (k : Fin 4) (idx : Nat) (d : StripeDesc), (s.stripe k.val).fetched = some (idx, d) → d.op = 1 → s.stripeMay k
    = true → descBad d = true → Answers (.encode k) s fun t => t.stripe k.val =
    { s.stripe k.val with fetched := none, active := (s.stripe k.val).active ++ [⟨idx, d.tag, 0x30, 0, 0⟩] } ∧ t.on (.stripe k)
    F.STR_STAT_IDLE = false ∧ t.mram = s.mram ∧ t.dram = s.dram) ∧
  (∀ (s : State) (k : Fin 4) (j : StripeJob), (s.stripe k.val).active = [j] → s.plainMram (4 + k.val) (ringAt (s.get (.stripe
    k) F.STR_CQ_CFG_BASE) (s.get (.stripe k) F.STR_CQ_CFG_LOG2N) 16 (s.get (.stripe k) F.STR_CQ_TAIL)) 16 = true → Answers
    (.stripeDescDone k j.idx) s fun t => t.mramBytes (ringAt (s.get (.stripe k) F.STR_CQ_CFG_BASE) (s.get (.stripe k)
    F.STR_CQ_CFG_LOG2N) 16 (s.get (.stripe k) F.STR_CQ_TAIL) - mramBase) 16 = stripeCompletion j (s.stripe k.val).wrap ∧
    (t.stripe k.val).active = [] ∧ t.get (.stripe k) F.STR_CQ_TAIL = (s.get (.stripe k) F.STR_CQ_TAIL + 1) % 2 ^ s.get (.stripe
    k) F.STR_CQ_CFG_LOG2N % 2 ^ F.STR_CQ_TAIL.width ∧ t.on (.stripe k) F.STR_EVT_CQ = true) ∧
  (∀ (s : State) (k : Fin 4), 4 ≤ s.get (.stripe k) F.STR_DQ_CFG_LOG2N → s.get (.stripe k) F.STR_DQ_CFG_LOG2N ≤ 12 → 4 ≤ s.get
    (.stripe k) F.STR_CQ_CFG_LOG2N → s.get (.stripe k) F.STR_CQ_CFG_LOG2N ≤ 12 → Answers (.strEnable k) s fun t => t.on
    (.stripe k) F.STR_CTRL_EN = true ∧ t.stripe k.val = { s.stripe k.val with run := true }) ∧
  (∀ (s : State) (k : Fin 4), s.get (.stripe k) F.STR_DQ_CFG_LOG2N < 4 ∨ 12 < s.get (.stripe k) F.STR_DQ_CFG_LOG2N ∨ s.get
    (.stripe k) F.STR_CQ_CFG_LOG2N < 4 ∨ 12 < s.get (.stripe k) F.STR_CQ_CFG_LOG2N → Answers (.strEnable k) s fun t => t.on
    (.stripe k) F.STR_CTRL_EN = true ∧ t.on (.stripe k) F.STR_EVT_CFG_ERR = true ∧ (t.stripe k.val).run = false) ∧
  (∀ (s : State) (k : Fin 4), (s.stripe k.val).fetched = none → Answers (.strDisable k) s fun t => t.on (.stripe k)
    F.STR_CTRL_EN = false ∧ t.stripe k.val = { s.stripe k.val with run := false }) ∧
  (∀ (s : State) (k : Fin 4) (idx : Nat) (d : StripeDesc), (s.stripe k.val).fetched = some (idx, d) → s.plainMram (4 + k.val)
    (ringAt (s.get (.stripe k) F.STR_CQ_CFG_BASE) (s.get (.stripe k) F.STR_CQ_CFG_LOG2N) 16 (s.get (.stripe k) F.STR_CQ_TAIL))
    16 = true → Answers (.strDisable k) s fun t => t.on (.stripe k) F.STR_CTRL_EN = false ∧ (t.stripe k.val).fetched = none ∧
    (t.stripe k.val).run = false ∧ t.mramBytes (ringAt (s.get (.stripe k) F.STR_CQ_CFG_BASE) (s.get (.stripe k)
    F.STR_CQ_CFG_LOG2N) 16 (s.get (.stripe k) F.STR_CQ_TAIL) - mramBase) 16 = stripeCompletion ⟨idx, d.tag, 0x22, 0, 0⟩
    (s.stripe k.val).wrap) ∧
  (∀ (s : State) (mask : Nat), Answers (.strDownClear mask) s fun t => ∀ i : Fin 96, t.strDown i.val = (s.strDown i.val &&
    !mask.testBit i.val))

/-- Commands of the key engine from the secure world (spec/06_stripes_and_keys.md: Encryption, spec/06_stripes_and_keys.md:
Using a key slot, spec/06_stripes_and_keys.md: Key slots and their life, spec/06_stripes_and_keys.md: Registers). The
commands are the secure world's, with BUSY 0 and no shelf sanitise; the wrapping of a copy is a free function (log 62).
KEY_LOAD of an empty slot, in Provisioning or Deployed with LOCK 1, the key readable and its halves different, runs with
that key, owner and GEN; the slot stays empty and its copy reads empty while the device secret stands. Equal halves end it
with 0x03. KEY_RESTORE of one EMPTY slot likewise runs; its result, the slot's state and key are those that the copy gives,
and an empty copy gives 0x08. KEY_SUSPEND of an ACTIVE slot takes it out of every cache and runs; KEY_RESUME of a SUSPENDED
one makes it ACTIVE; KEY_ERASE of one not EMPTY, with LOCK 1, marks it ERASING and takes it out of every cache.
KEY_ERASE_DRAINED with no use of the slot left empties it, its key gone and GEN one higher. KEY_CMD_DONE of a command but
SUSPEND and LOAD that may end reports its result, with BUSY 0 and DONE; a LOAD's also makes the slot ACTIVE with its key,
owner and GEN, and zeroes its source in plain MRAM; a SUSPEND's, with no use left, makes the slot SUSPENDED.
KEY_CMD_RESERVED with OP 0 or above 5, or SCOPE 3, completes with 0x02. KEY_CACHE_FILL puts a usable slot that the cache of
the die misses, with a place free and no decryption waiting for it, at its front. -/
def Obligations.KeyCommands : Prop :=
  (∀ (s : State) (slot : Fin 4096) (fn : Fin 1024) (ns : Fin 4), s.on .key F.KEY_STAT_BUSY = false → s.shelfSanitise = false →
    s.get .cfg F.CFG_STAT_LCS = 1 ∨ s.get .cfg F.CFG_STAT_LCS = 2 → s.on .key F.KEY_CTRL_LOCK = true → s.slotState slot.val = 0
    → ∀ (r : State × MemAns), s.clean.masterRead 11 .key (s.get .key F.KEY_SRC_ADDR / 64 * 64) 64 = r → ∀ key, r.2.data? = some
    key → key.take 32 ≠ key.drop 32 → Answers (.keyLoad .secure slot fn ns) s fun t => t.keys.job = some ⟨1, [], 0, true, some
    ⟨⟨slot.val, fn.val, ns.val, key⟩, r.1.copyGen slot.val, s.get .key F.KEY_SRC_ADDR / 64 * 64⟩⟩ ∧ t.on .key F.KEY_STAT_BUSY =
    true ∧ t.slotState slot.val = 0 ∧ (s.keys.secret = true → (t.copyMark slot.val).map Prod.fst = some .empty)) ∧
  (∀ (s : State) (slot : Fin 4096) (fn : Fin 1024) (ns : Fin 4), s.on .key F.KEY_STAT_BUSY = false → s.shelfSanitise = false →
    s.get .cfg F.CFG_STAT_LCS = 1 ∨ s.get .cfg F.CFG_STAT_LCS = 2 → s.on .key F.KEY_CTRL_LOCK = true → s.slotState slot.val = 0
    → ∀ (r : State × MemAns), s.clean.masterRead 11 .key (s.get .key F.KEY_SRC_ADDR / 64 * 64) 64 = r → ∀ key, r.2.data? = some
    key → key.take 32 = key.drop 32 → Answers (.keyLoad .secure slot fn ns) s fun t => t.get .key F.KEY_STAT_RESULT = 3 ∧ t.on
    .key F.KEY_STAT_BUSY = false ∧ t.on .key F.KEY_EVT_DONE = true ∧ t.slotState slot.val = 0 ∧ t.keys.issued = s.keys.issued) ∧
  (∀ (s : State) (slot : Fin 4096), s.on .key F.KEY_STAT_BUSY = false → s.shelfSanitise = false → s.get .cfg F.CFG_STAT_LCS = 1
    ∨ s.get .cfg F.CFG_STAT_LCS = 2 → s.on .key F.KEY_CTRL_LOCK = true → s.slotState slot.val = 0 → Answers (.keyRestore
    .secure 0 slot) s fun t => t.on .key F.KEY_STAT_BUSY = true ∧ t.keys.job = some ⟨2, [], (s.clean.restoreSlot slot.val).2,
    true, none⟩ ∧ t.slotState slot.val = (s.clean.restoreSlot slot.val).1.slotState slot.val ∧ t.keyBytes slot.val =
    (s.clean.restoreSlot slot.val).1.keyBytes slot.val ∧ (s.copyMark slot.val = some (.empty, 0) → t.keys.job = some ⟨2, [], 8,
    true, none⟩ ∧ t.slotState slot.val = 0)) ∧
  (∀ (s : State) (slot : Fin 4096) (fn : Fin 1024), s.on .key F.KEY_STAT_BUSY = false → s.shelfSanitise = false → s.slotState
    slot.val = 1 → Answers (.keySuspend .secure 0 slot fn) s fun t => t.keys.job = some ⟨3, [slot.val], 0, false, none⟩ ∧ t.on
    .key F.KEY_STAT_BUSY = true ∧ ∀ m : Fin 4, (t.die m.val).keyCache.contains slot.val = false) ∧
  (∀ (s : State) (slot : Fin 4096) (fn : Fin 1024), s.on .key F.KEY_STAT_BUSY = false → s.shelfSanitise = false → s.slotState
    slot.val = 2 → Answers (.keyResume .secure 0 slot fn) s fun t => t.slotState slot.val = 1 ∧ t.keys.job = some ⟨4, [], 0,
    true, none⟩ ∧ t.on .key F.KEY_STAT_BUSY = true) ∧
  (∀ (s : State) (slot : Fin 4096) (fn : Fin 1024), s.on .key F.KEY_STAT_BUSY = false → s.shelfSanitise = false → s.on .key
    F.KEY_CTRL_LOCK = true → s.slotState slot.val ≠ 0 → Answers (.keyErase .secure 0 slot fn) s fun t => t.slotState slot.val =
    3 ∧ t.keys.job = some ⟨5, [slot.val], 0, false, none⟩ ∧ t.on .key F.KEY_STAT_BUSY = true ∧ ∀ m : Fin 4, (t.die
    m.val).keyCache.contains slot.val = false) ∧
  (∀ (s : State) (slot : Fin 4096) (r : Nat), s.keys.job = some ⟨5, [slot.val], r, false, none⟩ → s.keysDrained [slot.val] =
    true → Answers (.keyEraseDrained) s fun t => t.slotState slot.val = 0 ∧ t.keyBytes slot.val = [] ∧ t.get .key
    F.KEY_SLOT_GEN slot.val = (s.get .key F.KEY_SLOT_GEN slot.val + 1) % 65536 ∧ t.keys.job = some ⟨5, [], r, true, none⟩) ∧
  (∀ (s : State) (j : KeyJob), s.keys.job = some j → j.op ≠ 3 → j.drained = true → j.load = none → j.result < 256 → Answers
    (.keyCmdDone) s fun t => t.keys.job = none ∧ t.on .key F.KEY_STAT_BUSY = false ∧ t.get .key F.KEY_STAT_RESULT = j.result ∧
    t.on .key F.KEY_EVT_DONE = true) ∧
  (∀ (s : State) (l : KeyLoadJob) (r : Nat), s.keys.job = some ⟨1, [], r, true, some l⟩ → r < 256 → l.body.fn < 1024 →
    l.body.ns < 4 → l.gen < 65536 → l.body.slot < 4096 → s.plainMram 11 l.src 64 = true → Answers (.keyCmdDone) s fun t =>
    t.slotState l.body.slot = 1 ∧ t.keyBytes l.body.slot = l.body.key ∧ t.get .key F.KEY_SLOT_FN l.body.slot = l.body.fn ∧
    t.get .key F.KEY_SLOT_NS l.body.slot = l.body.ns ∧ t.get .key F.KEY_SLOT_GEN l.body.slot = l.gen ∧ t.mramBytes (l.src -
    mramBase) 64 = List.replicate 64 0 ∧ t.keys.job = none ∧ t.on .key F.KEY_STAT_BUSY = false ∧ t.get .key F.KEY_STAT_RESULT =
    r ∧ t.on .key F.KEY_EVT_DONE = true) ∧
  (∀ (s : State) (slot : Fin 4096) (r : Nat), s.keys.job = some ⟨3, [slot.val], r, false, none⟩ → r < 256 → s.keysDrained
    [slot.val] = true → Answers (.keyCmdDone) s fun t => t.slotState slot.val = 2 ∧ t.keys.job = none ∧ t.on .key
    F.KEY_STAT_BUSY = false ∧ t.get .key F.KEY_STAT_RESULT = r ∧ t.on .key F.KEY_EVT_DONE = true) ∧
  (∀ (s : State) (op scope : Nat), s.on .key F.KEY_STAT_BUSY = false → s.shelfSanitise = false → op = 0 ∨ 5 < op ∨ 2 < scope →
    Answers (.keyCmdReserved .secure op scope) s fun t => t.get .key F.KEY_STAT_RESULT = 2 ∧ t.on .key F.KEY_EVT_DONE = true ∧
    t.on .key F.KEY_STAT_BUSY = false) ∧
  (∀ (s : State) (m : Fin 4) (slot : Fin 4096), ((dieActs m.val).all fun a => (awaiting (s.chan a.val) slot.val).isEmpty) =
    true → s.keyOk slot.val = true → (s.die m.val).keyCache.contains slot.val = false → (s.die m.val).keyCache.length < 128 →
    Answers (.keyCacheFill m slot) s fun t => (t.die m.val).keyCache = slot.val :: (s.die m.val).keyCache)

/-- Commands of the sweep from the secure world (spec/07_format_and_sanitise.md: Operations and their conditions,
spec/07_format_and_sanitise.md: Phases, spec/07_format_and_sanitise.md: Resumption, spec/07_format_and_sanitise.md:
Registers). The commands are the secure world's; a start needs Twelve or Serve, BUSY and PENDING 0 and LOCK 1 (log 67).
FORMAT in an allowed lifecycle state, the seal closed and, for the shelf, presence confirmed, whose geometry table can be
read and is good for its scope, enters Format and Quiesce with BUSY 1, its OP, table and scope and RESULT 0, the mode
before it kept. SANITISE of METHOD 2, not in Blank and, for the shelf, with presence, with such a table, enters Sanitise
likewise, with at least one pass; one of METHOD 1, of the shelf, with presence or an open seal, needs no table. RESUME of a
pending operation without a table, in Twelve, Serve or Recovery with BUSY 0 and LOCK 1, clears PENDING, sets BUSY and
enters Report; with a table that is read with the length and CRC recorded it enters Fill with it. ABORT outside Diagnostic
ends a running FORMAT before Report with 0x09, PHASE 0 and the mode returned (log 71). A reserved OP, 0 or above 4, gives
RESULT 2 and changes neither mode nor sweep. -/
def Obligations.SweepCommands : Prop :=
  (∀ (s : State) (verify shelf : Bool) (asm : Nat), s.mode = .twelve ∨ s.mode = .serve → s.on .sweep F.SWP_STAT_BUSY = false →
    s.on .sweep F.SWP_STAT_PENDING = false → s.on .sweep F.SWP_CTRL_LOCK = true → 1 ≤ s.get .cfg F.CFG_STAT_LCS → s.get .cfg
    F.CFG_STAT_LCS ≤ 3 → shelf = false ∨ s.present = true → s.sealOpen = false → ∀ (r : State × Option (List GeomEntry × Nat)),
    s.clean.readGeom = r → ∀ p, r.2 = some p → r.1.geomBad (if shelf then 2 ^ 48 - 1 else asm % 2 ^ 48) p.1 = false → Answers
    (.format .secure verify shelf asm) s fun t => t.mode = .format ∧ t.get .sweep F.SWP_STAT_OP = 1 ∧ t.sweep.geom = p.1 ∧
    t.sweep.asm = (if shelf then 2 ^ 48 - 1 else asm % 2 ^ 48) ∧ t.on .sweep F.SWP_STAT_BUSY = true ∧ t.get .sweep
    F.SWP_STAT_PHASE = 1 ∧ t.get .sweep F.SWP_STAT_RESULT = 0 ∧ t.sweep.begun = false ∧ t.sweep.retMode = s.mode) ∧
  (∀ (s : State) (passes : Fin 4) (verify shelf : Bool) (asm : Nat), s.mode = .twelve ∨ s.mode = .serve → s.on .sweep
    F.SWP_STAT_BUSY = false → s.on .sweep F.SWP_STAT_PENDING = false → s.on .sweep F.SWP_CTRL_LOCK = true → s.get .cfg
    F.CFG_STAT_LCS ≠ 0 → shelf = false ∨ s.present = true → ∀ (r : State × Option (List GeomEntry × Nat)), s.clean.readGeom = r
    → ∀ p, r.2 = some p → r.1.geomBad (if shelf then 2 ^ 48 - 1 else asm % 2 ^ 48) p.1 = false → Answers (.sanitise .secure 2
    passes verify shelf asm) s fun t => t.mode = .sanitise ∧ t.get .sweep F.SWP_STAT_OP = 2 ∧ t.sweep.geom = p.1 ∧
    t.sweep.method = 2 ∧ t.sweep.passes = max 1 passes.val ∧ t.on .sweep F.SWP_STAT_BUSY = true ∧ t.get .sweep F.SWP_STAT_PHASE
    = 1 ∧ t.get .sweep F.SWP_STAT_RESULT = 0 ∧ t.sweep.begun = false ∧ t.sweep.retMode = s.mode) ∧
  (∀ (s : State) (passes : Fin 4) (verify : Bool) (asm : Nat), s.mode = .twelve ∨ s.mode = .serve → s.on .sweep F.SWP_STAT_BUSY
    = false → s.on .sweep F.SWP_STAT_PENDING = false → s.on .sweep F.SWP_CTRL_LOCK = true → s.get .cfg F.CFG_STAT_LCS ≠ 0 →
    s.present = true ∨ s.sealOpen = true → Answers (.sanitise .secure 1 passes verify true asm) s fun t => t.mode = .sanitise ∧
    t.get .sweep F.SWP_STAT_OP = 2 ∧ t.sweep.geom = [] ∧ t.sweep.asm = 2 ^ 48 - 1 ∧ t.on .sweep F.SWP_STAT_BUSY = true ∧ t.get
    .sweep F.SWP_STAT_PHASE = 1 ∧ t.get .sweep F.SWP_STAT_RESULT = 0 ∧ t.sweep.begun = false ∧ t.sweep.retMode = s.mode) ∧
  (∀ (s : State), s.mode = .twelve ∨ s.mode = .serve ∨ s.mode = .recovery → s.on .sweep F.SWP_STAT_BUSY = false → s.on .sweep
    F.SWP_STAT_PENDING = true → s.on .sweep F.SWP_CTRL_LOCK = true → s.sweep.geomN = 0 → Answers (.resume .secure) s fun t =>
    t.on .sweep F.SWP_STAT_BUSY = true ∧ t.on .sweep F.SWP_STAT_PENDING = false ∧ t.get .sweep F.SWP_STAT_PHASE = 5 ∧
    t.sweep.begun = false) ∧
  (∀ (s : State), s.mode = .twelve ∨ s.mode = .serve ∨ s.mode = .recovery → s.on .sweep F.SWP_STAT_BUSY = false → s.on .sweep
    F.SWP_STAT_PENDING = true → s.on .sweep F.SWP_CTRL_LOCK = true → s.sweep.geomN ≠ 0 → ∀ (r : State × Option (List GeomEntry
    × Nat)), s.clean.readGeom = r → r.2.map (fun p => (p.1.length, p.2)) = some (s.sweep.geomN, s.sweep.geomCrc) → Answers
    (.resume .secure) s fun t => t.on .sweep F.SWP_STAT_BUSY = true ∧ t.on .sweep F.SWP_STAT_PENDING = false ∧ t.get .sweep
    F.SWP_STAT_PHASE = 4 ∧ t.sweep.begun = false ∧ some t.sweep.geom = r.2.map Prod.fst) ∧
  (∀ (s : State), s.mode ≠ .diagnostic → s.on .sweep F.SWP_STAT_BUSY = true → s.sweep.op = 1 → s.get .sweep F.SWP_STAT_PHASE ≠
    5 → Answers (.abort .secure) s fun t => t.get .sweep F.SWP_STAT_RESULT = 9 ∧ t.on .sweep F.SWP_STAT_BUSY = false ∧ t.get
    .sweep F.SWP_STAT_PHASE = 0 ∧ t.mode = s.sweep.retMode) ∧
  (∀ (s : State) (op : Nat), op % 16 = 0 ∨ 4 < op % 16 → Answers (.swpCmdReserved .secure op) s fun t => t.get .sweep
    F.SWP_STAT_RESULT = 2 ∧ t.mode = s.mode ∧ t.sweep = s.sweep)

/-- Phases of the sweep (spec/07_format_and_sanitise.md: Phases, spec/07_format_and_sanitise.md: The sweep,
spec/07_format_and_sanitise.md: Progress records, spec/07_format_and_sanitise.md: Events that meet,
spec/07_format_and_sanitise.md: Registers). Each clause is of a running operation. SWP_PHASE_BEGIN sets the event PHASE: in
Report it changes nothing else; in Quiesce sluice and channel engine of every actuator in scope get EN 0; in Crypto, the
key engine free, every slot is ERASING; in Fill an actuator in scope, waiting, in T7 with EN 1, not locked and with no
spindle command, spins up and is running; in Metadata every journal is empty. With the engines in scope idle
SWP_QUIESCE_DONE, with no use of a key left SWP_CRYPTO_DONE, which empties every slot, and SWP_METADATA_DONE enter the next
phase that the operation runs. BURST_START on a track being written, with WRITE_OK 1 and a sector of the plan left,
releases it: it takes the next sequence number, its bytes are those of R211, and its first burst begins. With WRITE_OK 0 it
is not written, a defect of cause 3. SWP_FILL_SECTOR_RESULT counts the oldest sector written, which without a cause is
good; with one it counts as a defect, and as a sector unless none of it was sent. SWP_TRACK_DONE with every result in, a
track left in the entry and no seal opened, counts the track and goes to the next. SWP_REPORT ends the operation: DONE,
BUSY 0, the mode returned, and RESULT 0x0C after an open seal, else 0x0E with a stopped assembly, else 0. -/
def Obligations.SweepPhases : Prop :=
  (∀ (s : State), s.on .sweep F.SWP_STAT_BUSY = true → s.sweep.begun = false → s.get .sweep F.SWP_STAT_PHASE = 5 → Answers
    (.swpPhaseBegin) s fun t => t =
    { (s.put .sweep F.SWP_EVT_PHASE 1) with sweep := { s.sweep with begun := true }, out := t.out } ∧ t.on .sweep
    F.SWP_EVT_PHASE = true) ∧
  (∀ (s : State) (a : Fin 96), s.on .sweep F.SWP_STAT_BUSY = true → s.sweep.begun = false → s.get .sweep F.SWP_STAT_PHASE = 1 →
    inAsm s.sweep.asm a.val = true → Answers (.swpPhaseBegin) s fun t => t.on .sweep F.SWP_EVT_PHASE = true ∧ t.sweep.begun =
    true ∧ t.on (.act a) F.SL_CTRL_EN = false ∧ t.on (.act a) F.CH_CTRL_EN = false) ∧
  (∀ (s : State) (k : Fin 4096), s.on .sweep F.SWP_STAT_BUSY = true → s.sweep.begun = false → s.get .sweep F.SWP_STAT_PHASE = 2
    → s.on .key F.KEY_STAT_BUSY = false → Answers (.swpPhaseBegin) s fun t => t.on .sweep F.SWP_EVT_PHASE = true ∧
    t.sweep.begun = true ∧ t.slotState k.val = 3) ∧
  (∀ (s : State) (a : Fin 96), s.on .sweep F.SWP_STAT_BUSY = true → s.sweep.begun = false → s.get .sweep F.SWP_STAT_PHASE = 4 →
    s.sweep.acts = [(a.val, { state := 1, gidx := 0, track := 5 })] → s.upT7 a = true → s.on (.act a) F.SV_CTRL_EN = true →
    (s.servo a.val).spin = none → s.asmLocked a = false → Answers (.swpPhaseBegin) s fun t => t.on .sweep F.SWP_EVT_PHASE =
    true ∧ t.sweep.begun = true ∧ (t.servo a.val).spin = some .up ∧ (t.swpAct a.val).state = 2 ∧ (t.swpAct a.val).step = 1) ∧
  (∀ (s : State), s.on .sweep F.SWP_STAT_BUSY = true → s.sweep.begun = false → s.get .sweep F.SWP_STAT_PHASE = 3 → Answers
    (.swpPhaseBegin) s fun t => t.on .sweep F.SWP_EVT_PHASE = true ∧ t.sweep.begun = true ∧ ∀ m : Fin 4, t.get (.med m)
    F.SLD_JTAIL = 0 ∧ t.get (.med m) F.SLD_JHEAD = 0) ∧
  (∀ (s : State), s.on .sweep F.SWP_STAT_BUSY = true → s.sweep.begun = true → s.get .sweep F.SWP_STAT_PHASE = 1 →
    (s.swpScope.all fun a => (s.sluice a.val).ents.isEmpty && (s.chan a.val).ents.isEmpty) = true → ∀ q, ((swpPhases s.sweep.op
    s.sweep.method s.sweep.shelf).find? fun q => decide (s.get .sweep F.SWP_STAT_PHASE < q)) = some q → Answers
    (.swpQuiesceDone) s fun t => t.get .sweep F.SWP_STAT_PHASE = q ∧ t.sweep.begun = false) ∧
  (∀ (s : State), s.on .sweep F.SWP_STAT_BUSY = true → s.sweep.begun = true → s.get .sweep F.SWP_STAT_PHASE = 2 → s.keys.uses =
    [] → ∀ q, ((swpPhases s.sweep.op s.sweep.method s.sweep.shelf).find? fun q => decide (s.get .sweep F.SWP_STAT_PHASE < q)) =
    some q → Answers (.swpCryptoDone) s fun t => t.get .sweep F.SWP_STAT_PHASE = q ∧ t.sweep.begun = false ∧ ∀ k : Fin 4,
    t.slotState k.val = 0) ∧
  (∀ (s : State), s.on .sweep F.SWP_STAT_BUSY = true → s.sweep.begun = true → s.get .sweep F.SWP_STAT_PHASE = 3 → ∀ q,
    ((swpPhases s.sweep.op s.sweep.method s.sweep.shelf).find? fun q => decide (s.get .sweep F.SWP_STAT_PHASE < q)) = some q →
    Answers (.swpMetadataDone) s fun t => t.get .sweep F.SWP_STAT_PHASE = q ∧ t.sweep.begun = false) ∧
  (∀ (s : State) (a : Fin 96) (x : SwpAct), s.swpAct a.val = x → x.state = 2 → x.step = 4 → x.fills = [] → (s.sluice
    a.val).ents = [] → x.next < (s.swpPlan a).1 → s.on (.act a) F.SV_STAT_WRITE_OK = true → ∀ (f : SlEntry), s.fillEntry a
    x.next = f → Answers (.burstStart a) s fun t => t.swpAct a.val =
    { x with next := x.next + 1, fills := [burstOf (s.get (.act a) F.SV_FIELD_GATE_LEN) (s.sluice a.val).guard f] } ∧ f.seq =
    s.seqNext a ∧ f.e.track = x.track ∧ f.e.sect = x.next ∧ t.get (.act a) F.SL_SEQ_NEXT = (s.seqNext a + 1) % 2 ^
    F.SL_SEQ_NEXT.width ∧ t.out = [.fillSector a.val (s.swpEntry x).head x.track x.next (encodeSector s.fillData (s.seqNext a)
    0xFFFFFF x.next 0 0 false 2)] ∧ t.mram = s.mram) ∧
  (∀ (s : State) (a : Fin 96) (x : SwpAct), s.swpAct a.val = x → x.state = 2 → x.step = 4 → x.fills = [] → (s.sluice
    a.val).ents = [] → x.next < (s.swpPlan a).1 → s.on (.act a) F.SV_STAT_WRITE_OK = false → ∀ (f : SlEntry), s.fillEntry a
    x.next = f → Answers (.burstStart a) s fun t => t.swpAct a.val =
    { x with next := x.next + 1, fills := [{ f with ph := .closing, status := 3 }] } ∧ t.out = []) ∧
  (∀ (s : State) (a : Fin 96) (x : SwpAct) (e : SlEntry) (es : List SlEntry) (obs : VerifyObs), s.swpAct a.val = x → x.state =
    2 → x.step = 4 → x.fills = e :: es → s.fillEnds e = true → s.fillCause a e obs = 0 → Answers (.swpFillSectorResult a obs) s
    fun t => t.swpAct a.val = { x with sect := x.sect + 1, sectors := x.sectors + 1, fills := es } ∧ t.get .sweep
    F.SWP_CNT_SECT = min (s.get .sweep F.SWP_CNT_SECT + 1) (2 ^ F.SWP_CNT_SECT.width - 1) ∧ t.out = [] ∧ t.mram = s.mram) ∧
  (∀ (s : State) (a : Fin 96) (x : SwpAct) (e : SlEntry) (es : List SlEntry) (obs : VerifyObs), s.swpAct a.val = x → x.state =
    2 → x.step = 4 → x.fills = e :: es → s.fillEnds e = true → s.fillCause a e obs ≠ 0 → Answers (.swpFillSectorResult a obs) s
    fun t => (t.swpAct a.val).defects = x.defects + 1 ∧ (t.swpAct a.val).sect = x.sect + 1 ∧ (t.swpAct a.val).sectors = (if
    e.status = 3 ∧ e.sent = 0 then x.sectors else x.sectors + 1) ∧ (t.swpAct a.val).fills = es ∧ t.get .sweep F.SWP_CNT_DEFECT
    = min (s.get .sweep F.SWP_CNT_DEFECT + 1) (2 ^ F.SWP_CNT_DEFECT.width - 1)) ∧
  (∀ (s : State) (a : Fin 96) (x : SwpAct), s.swpAct a.val = x → x.state = 2 → x.step = 4 → (s.swpPlan a).1 ≤ x.sect → x.track
    < (s.swpEntry x).last → s.sweep.sealStop = false → Answers (.swpTrackDone a) s fun t => (t.swpAct a.val).tracks = x.tracks
    + 1 ∧ (t.swpAct a.val).track = x.track + 1 ∧ (t.swpAct a.val).seqNext = s.seqNext a) ∧
  (∀ (s : State), s.on .sweep F.SWP_STAT_BUSY = true → s.sweep.begun = true → s.get .sweep F.SWP_STAT_PHASE = 5 → Answers
    (.swpReport) s fun t => t.on .sweep F.SWP_EVT_DONE = true ∧ t.on .sweep F.SWP_STAT_BUSY = false ∧ t.mode = s.sweep.retMode
    ∧ t.get .sweep F.SWP_STAT_RESULT = (if s.sweep.sealStop then 0x0C else if s.get .sweep F.SWP_MISS = 0 then 0 else 0x0E))

/-- Events and link states of a port (spec/08_host_endpoint.md: The ports, spec/08_host_endpoint.md: Link power,
spec/08_host_endpoint.md: Removal and insertion, spec/08_host_endpoint.md: Registers). Events and link states of a port.
SHUTDOWN accepted bars training (log 246). PERST_ASSERT, PERST 0, sets PERST and its event and leaves the port as a lost
link does: LINK_UP and CFG_READY 0, PM 5, nothing outstanding, LINK_DOWN. PERST_DEASSERT clears PERST and sets the event.
PCIE_LINK_UP at a rate and width within the limits, in flit mode at 64 GT/s, of a port that is down and trains (EN 1, PERST
0, a mode with ports) shows them, PM 0 and LINK_UP with its event. PCIE_LINK_DOWN of a link that is up leaves the port down
so. With FNM_CTRL.LOCK 1 PCIE_ENABLE sets EN. CFG_READY sets that bit. L0P_ENTRY, the link up in L0, L0p enabled by the
host and L0P_IDLE not 0, shows PM 1. L1_ENTRY, the link up in L0 or L0p, L1 enabled by the host, no request outstanding,
held or waiting, shows PM 2 and counts; with LTR on the values of PCIE_PM are the last sent. CLKREQ_RELEASE in L1 shows PM
4 where the host enables L1.2 for this L1 and the last LTR values allow it; PM 3 where it enables L1.1 and not L1.2; PM 2
where it enables L1.2 only and the values do not allow it. L1_EXIT of a link that is up shows PM 0. -/
def Obligations.PortEvents : Prop :=
  (∀ (s : State) (k : Fin 2), s.on (.pcie k) F.PCIE_STAT_PERST = false → Answers (.perstAssert k) s fun t => t.on (.pcie k)
    F.PCIE_STAT_PERST = true ∧ t.on (.pcie k) F.PCIE_EVT_PERST = true ∧ t.on (.pcie k) F.PCIE_STAT_LINK_UP = false ∧ t.on
    (.pcie k) F.PCIE_CTRL_CFG_READY = false ∧ t.get (.pcie k) F.PCIE_STAT_PM = 5 ∧ t.portS k.val = {} ∧ t.on (.pcie k)
    F.PCIE_EVT_LINK_DOWN = true) ∧
  (∀ (s : State) (k : Fin 2), s.on (.pcie k) F.PCIE_STAT_PERST = true → Answers (.perstDeassert k) s fun t => t.on (.pcie k)
    F.PCIE_STAT_PERST = false ∧ t.on (.pcie k) F.PCIE_EVT_PERST = true) ∧
  (∀ (s : State) (k : Fin 2) (rate : Fin 6) (width : Nat) (flit : Bool), s.portTrains k = true → s.linkUp k = false → rate.val
    ≤ s.get (.pcie k) F.PCIE_CTRL_MAX_RATE → width ≤ maxLanes (s.get (.pcie k) F.PCIE_CTRL_MAX_WIDTH) → width ∈ [1, 4, 8, 16] →
    flit = true ∨ rate.val < 5 → Answers (.pcieLinkUp k rate width flit) s fun t => t.linkUp k = true ∧ t.get (.pcie k)
    F.PCIE_STAT_RATE = rate.val ∧ t.get (.pcie k) F.PCIE_STAT_WIDTH = width ∧ t.on (.pcie k) F.PCIE_STAT_FLIT = flit ∧ t.get
    (.pcie k) F.PCIE_STAT_PM = 0 ∧ t.on (.pcie k) F.PCIE_EVT_LINK_UP = true) ∧
  (∀ (s : State) (k : Fin 2), s.linkUp k = true → Answers (.pcieLinkDown k) s fun t => t.on (.pcie k) F.PCIE_STAT_LINK_UP =
    false ∧ t.on (.pcie k) F.PCIE_CTRL_CFG_READY = false ∧ t.get (.pcie k) F.PCIE_STAT_PM = 5 ∧ t.portS k.val = {} ∧ t.on
    (.pcie k) F.PCIE_EVT_LINK_DOWN = true) ∧
  (∀ (s : State) (k : Fin 2), s.on .fnmgr F.FNM_CTRL_LOCK = true → Answers (.pcieEnable k) s fun t => t.on (.pcie k)
    F.PCIE_CTRL_EN = true) ∧
  (∀ (s : State) (k : Fin 2), Answers (.cfgReady k) s fun t => t.on (.pcie k) F.PCIE_CTRL_CFG_READY = true) ∧
  (∀ (s : State) (k : Fin 2), s.linkUp k = true → s.get (.pcie k) F.PCIE_STAT_PM = 0 → s.get (.pcie k) F.PCIE_PM_L0P_IDLE ≠ 0 →
    (s.fnS (1024 + k.val)).l0pEn = true → Answers (.l0pEntry k) s fun t => t.get (.pcie k) F.PCIE_STAT_PM = 1) ∧
  (∀ (s : State) (k : Fin 2), s.linkUp k = true → s.get (.pcie k) F.PCIE_STAT_PM ≤ 1 → (s.portS k.val).reqs = [] → (s.portS
    k.val).orphans = [] → s.bytesWaiting k = 0 → s.l1Enabled k = true → Answers (.l1Entry k) s fun t => t.get (.pcie k)
    F.PCIE_STAT_PM = 2 ∧ ((s.fnS (1024 + k.val)).ltrEn = true → (t.portS k.val).ltr = some (s.get (.pcie k)
    F.PCIE_PM_LTR_SNOOP, s.get (.pcie k) F.PCIE_PM_LTR_NOSNOOP)) ∧ t.get (.pcie k) F.PCIE_CNT_L1 = min (s.get (.pcie k)
    F.PCIE_CNT_L1 + 1) (2 ^ F.PCIE_CNT_L1.width - 1)) ∧
  (∀ (s : State) (k : Fin 2), s.linkUp k = true → s.get (.pcie k) F.PCIE_STAT_PM = 2 → (s.fnS (1024 + k.val)).l1ss / 2 ^ (if
    (s.fnS (1024 + k.val)).d3 = true then 0 else 0 + 2) % 2 = 1 → s.ltrAllows k = true → Answers (.clkreqRelease k) s fun t =>
    t.get (.pcie k) F.PCIE_STAT_PM = 4 ∧ t.fns = s.fns) ∧
  (∀ (s : State) (k : Fin 2), s.linkUp k = true → s.get (.pcie k) F.PCIE_STAT_PM = 2 → (s.fnS (1024 + k.val)).l1ss / 2 ^ (if
    (s.fnS (1024 + k.val)).d3 = true then 0 else 0 + 2) % 2 = 0 → (s.fnS (1024 + k.val)).l1ss / 2 ^ (if (s.fnS (1024 +
    k.val)).d3 = true then 1 else 1 + 2) % 2 = 1 → Answers (.clkreqRelease k) s fun t => t.get (.pcie k) F.PCIE_STAT_PM = 3 ∧
    t.fns = s.fns) ∧
  (∀ (s : State) (k : Fin 2), s.linkUp k = true → s.get (.pcie k) F.PCIE_STAT_PM = 2 → (s.fnS (1024 + k.val)).l1ss / 2 ^ (if
    (s.fnS (1024 + k.val)).d3 = true then 0 else 0 + 2) % 2 = 1 → s.ltrAllows k = false → (s.fnS (1024 + k.val)).l1ss / 2 ^ (if
    (s.fnS (1024 + k.val)).d3 = true then 1 else 1 + 2) % 2 = 0 → Answers (.clkreqRelease k) s fun t => t.get (.pcie k)
    F.PCIE_STAT_PM = 2 ∧ t.fns = s.fns) ∧
  (∀ (s : State) (k : Fin 2), s.linkUp k = true → Answers (.l1Exit k) s fun t => t.get (.pcie k) F.PCIE_STAT_PM = 0)

/-- Requests of a host to a function (spec/08_host_endpoint.md: Functions, spec/08_host_endpoint.md: BAR layouts,
spec/08_host_endpoint.md: Link power, spec/08_host_endpoint.md: Master enable and function reset). Requests of the host,
the link up, CFG_READY 1 and no reset of the function in progress. A request whose ECRC is bad and checked is another case.
CONFIG_REQUEST reading a register of a physical or enabled virtual function answers it. Any to a virtual function not
enabled is answered Unsupported Request. A write of Max Payload Size to a physical function sets it. BUS_MASTER_DISABLE of
a function with Bus Master Enable 1 clears it, sets BME_CLR and freezes every queue of the function. BUS_MASTER_ENABLE sets
it. FUNCTION_LEVEL_RESET clears it and MSI-X Enable, sets FLR, and the function is resetting until FUNCTION_RESET_DONE,
which changes no register. VF_ENABLE_SET of up to TotalVFs, VF Enable 0, sets VF Enable, NumVFs, NUMVFS and VFE;
VF_ENABLE_CLEAR with VF Enable 1 clears VF Enable and NUMVFS and sets VFE. D3HOT_ENTRY puts the function in D3hot.
BAR_ACCESS, memory space enabled, of a good range in the MSI-X table reads it, in the register page answers what the unit
reads there, of a bad range answers Unsupported Request and logs it; a poisoned write is logged and answered by nothing. -/
def Obligations.FunctionRequests : Prop :=
  (∀ (s : State) (f : Fin 1026) (r : CfgReg), s.linkUp (s.fnPort f.val) = true → s.on (.pcie (s.fnPort f.val))
    F.PCIE_CTRL_CFG_READY = true → (s.fnS f.val).resetting = false → isPf f.val = true ∨ s.vfEnabled f.val = true → Answers
    (.configRequest f (.read r)) s fun t => t = { s with out := [.hostData (s.cfgRead f.val r)] }) ∧
  (∀ (s : State) (f : Fin 1026) (r : CfgReq), s.linkUp (s.fnPort f.val) = true → s.on (.pcie (s.fnPort f.val))
    F.PCIE_CTRL_CFG_READY = true → (s.fnS f.val).resetting = false → isPf f.val = false → s.vfEnabled f.val = false → Answers
    (.configRequest f r) s fun t => t = { s with out := [.hostUr] }) ∧
  (∀ (s : State) (f : Fin 1026) (v : Nat), s.linkUp (s.fnPort f.val) = true → s.on (.pcie (s.fnPort f.val))
    F.PCIE_CTRL_CFG_READY = true → (s.fnS f.val).resetting = false → isPf f.val = true → v = 128 ∨ v = 256 ∨ v = 512 → Answers
    (.configRequest f (.write .maxPayload v)) s fun t => (t.fnS f.val).maxPayload = v) ∧
  (∀ (s : State) (f : Fin 1026), s.cfgReach f.val = true → (s.fnS f.val).bme = true → Answers (.busMasterDisable f) s fun t =>
    (t.fnS f.val).bme = false ∧ t.on (.pcie (s.fnPort f.val)) F.PCIE_EVT_BME_CLR = true ∧ ∀ q : Fin 8, q.val < s.fnQueues f.val
    → t.on (.fn f) F.QSTAT_FROZEN q.val = true) ∧
  (∀ (s : State) (f : Fin 1026), s.cfgReach f.val = true → Answers (.busMasterEnable f) s fun t => (t.fnS f.val).bme = true) ∧
  (∀ (s : State) (f : Fin 1026), s.cfgReach f.val = true → Answers (.functionLevelReset f) s fun t => (t.fnS f.val).resetting =
    true ∧ (t.fnS f.val).bme = false ∧ (t.fnS f.val).msixEnable = false ∧ t.on (.pcie (s.fnPort f.val)) F.PCIE_EVT_FLR = true) ∧
  (∀ (s : State) (f : Fin 1026), Answers (.functionResetDone f) s fun t => t.fnS f.val =
    { s.fnS f.val with resetting := false } ∧ t.regs = s.regs) ∧
  (∀ (s : State) (k : Fin 2) (n : Nat), s.cfgReach (1024 + k.val) = true → n ≤ s.totalVfs k → (s.fnS (1024 + k.val)).vfEnable =
    false → Answers (.vfEnableSet k n) s fun t => (t.fnS (1024 + k.val)).vfEnable = true ∧ (t.fnS (1024 + k.val)).numVfs = n ∧
    t.get (.pcie k) F.PCIE_STAT_NUMVFS = n ∧ t.on (.pcie k) F.PCIE_EVT_VFE = true) ∧
  (∀ (s : State) (k : Fin 2), s.cfgReach (1024 + k.val) = true → (s.fnS (1024 + k.val)).vfEnable = true → Answers
    (.vfEnableClear k) s fun t => (t.fnS (1024 + k.val)).vfEnable = false ∧ t.get (.pcie k) F.PCIE_STAT_NUMVFS = 0 ∧ t.on
    (.pcie k) F.PCIE_EVT_VFE = true) ∧
  (∀ (s : State) (f : Fin 1026), s.cfgReach f.val = true → Answers (.d3hotEntry f) s fun t => (t.fnS f.val).d3 = true) ∧
  (∀ (s : State) (f : Fin 1026) (o n off : Nat), s.memReach f.val = true → badBar (isPf f.val) ⟨off, n, none, false, false⟩ =
    false → barPart (isPf f.val) off = .table o → Answers (.barAccess f ⟨off, n, none, false, false⟩) s fun t => t =
    { s with out := [.hostData (s.tableRead f.val o n)] }) ∧
  (∀ (s : State) (f : Fin 1026) (n off : Nat), s.memReach f.val = true → badBar (isPf f.val) ⟨off, n, none, false, false⟩ =
    false → barPart (isPf f.val) off = .page → Answers (.barAccess f ⟨off, n, none, false, false⟩) s fun t => t.out.getLast? =
    some (.hostData (s.clean.unitRead false (.fn f) 63 off n).2)) ∧
  (∀ (s : State) (f : Fin 1026) (r : BarReq), s.memReach f.val = true → badBar (isPf f.val) r = true → Answers (.barAccess f r)
    s fun t => t.out = [.hostUr] ∧ (t.fnS f.val).aer.contains .unsupportedRequest = true) ∧
  (∀ (s : State) (f : Fin 1026) (r : BarReq) (v : Nat), s.memReach f.val = true → badBar (isPf f.val) r = false → r.write =
    some v → r.poisoned = true → Answers (.barAccess f r) s fun t => (t.fnS f.val).aer.contains .poisonedTlp = true ∧ t.out =
    [])

/-- The function table (spec/08_host_endpoint.md: Creating a function, spec/08_host_endpoint.md: Registers). Entries of the
function table. FN_CREATE of a FREE entry whose queues, vectors and share are within range and pool makes it CREATED;
outside them it stays FREE and REFUSED is set. FN_FREE of a CREATED entry neither live nor busy makes it FREE; a live or
busy one stays CREATED and REFUSED is set. FN_LIVE_FIELD_WRITE writes the setting, and sets CHANGED of a CREATED function.
-/
def Obligations.FunctionTable : Prop :=
  (∀ (s : State) (f : Fin 1024), s.fnCreated f.val = false → s.fnPoolsOk f.val = true → Answers (.fnCreate f) s fun t =>
    t.fnCreated f.val = true) ∧
  (∀ (s : State) (f : Fin 1024), s.fnCreated f.val = false → s.fnPoolsOk f.val = false → Answers (.fnCreate f) s fun t =>
    t.fnCreated f.val = false ∧ t.on .fnmgr F.FNM_EVT_REFUSED = true) ∧
  (∀ (s : State) (f : Fin 1024), s.fnCreated f.val = true → s.fnLive f.val = false → s.fnBusy f.val = false → Answers (.fnFree
    f) s fun t => t.fnCreated f.val = false) ∧
  (∀ (s : State) (f : Fin 1024), s.fnCreated f.val = true → s.fnLive f.val = true ∨ s.fnBusy f.val = true → Answers (.fnFree f)
    s fun t => t.fnCreated f.val = true ∧ t.on .fnmgr F.FNM_EVT_REFUSED = true) ∧
  (∀ (s : State) (f : Fin 1024) (x : LiveField) (v : Nat), Answers (.fnLiveFieldWrite f x v) s fun t => t.get .fnmgr (liveFld
    x) f.val = v % 2 ^ (liveFld x).width ∧ (s.fnCreated f.val = true → t.on (.fn (fnOf f.val)) F.FN_INFO_CHANGED = true))

/-- Transfer rings (spec/08_host_endpoint.md: Moving data, spec/08_host_endpoint.md: Master enable and function reset,
spec/08_host_endpoint.md: Removal and insertion, spec/08_host_endpoint.md: Registers). Transfer rings. In the HOST_READ and
HOST_WRITE clauses a descriptor of that OP is fetched, nothing refuses it, the ring may start it, no transfer has its index
or a request waiting, and it crosses no 4 KiB boundary. The link's taking of writes is XFER_DONE (log 230). EN 1 with sizes
from 4 to 12 starts a ring; with a submission size below 4 or a completion size above 12 it sets CFG_ERR and the ring does
not run. EN 0 with nothing fetched stops it. HOST_READ of at most Max Read Request Size with a free tag makes the transfer
active and issues it as one request with that tag; PM 2, 3 or 4 becomes 0. HOST_WRITE makes it active with no byte handed
over, no request, and PM likewise. A successful completion, ECRC good, of the one request of the one transfer, whose
requests are all issued, writes its data to DRAM as the port, and with the last byte no request is left; Unsupported
Request stops that transfer with 0x51, the bytes missing, and writes no memory. XFER_DONE of the one transfer of a ring,
stopped or all issued and none outstanding, empties the ring, moves TAIL and sets CQ. of a write of one request not yet
handed over, Bus Master Enable 1 and the link up, it hands that request over first. HOST_READ_TIMEOUT holds the tag, sets
CTO and logs Completion Timeout; TAG_HOLD_EXPIRY ends the hold. -/
def Obligations.Transfers : Prop :=
  (∀ (s : State) (k : Fin 2) (r : Fin 16), 4 ≤ s.get (.pcie k) F.XQ_CFG_LOG2N r.val → s.get (.pcie k) F.XQ_CFG_LOG2N r.val ≤ 12
    → 4 ≤ s.get (.pcie k) F.XC_CFG_LOG2N r.val → s.get (.pcie k) F.XC_CFG_LOG2N r.val ≤ 12 → Answers (.xferRingEnable k r true)
    s fun t => t.get (.pcie k) F.XR_CTRL_EN r.val = 1 ∧ t.xring k.val r.val = { s.xring k.val r.val with run := true }) ∧
  (∀ (s : State) (k : Fin 2) (r : Fin 16), s.get (.pcie k) F.XQ_CFG_LOG2N r.val < 4 ∨ 12 < s.get (.pcie k) F.XC_CFG_LOG2N r.val
    → Answers (.xferRingEnable k r true) s fun t => t.on (.pcie k) F.XR_EVT_CFG_ERR r.val = true ∧ (t.xring k.val r.val).run =
    false) ∧
  (∀ (s : State) (k : Fin 2) (r : Fin 16), (s.xring k.val r.val).fetched = none → Answers (.xferRingEnable k r false) s fun t
    => t.get (.pcie k) F.XR_CTRL_EN r.val = 0 ∧ t.xring k.val r.val = { s.xring k.val r.val with run := false }) ∧
  (∀ (s : State) (k : Fin 2) (r : Fin 16) (idx g : Nat) (d : XferDesc), (s.xring k.val r.val).fetched = some (idx, d) → d.op =
    1 → (s.xring k.val r.val).doom = none → s.xferMay k r.val = true → s.xferRefusal k d = none → ((s.xring k.val
    r.val).active.all fun x => x.idx != idx) = true → s.xfersReady k = [] → d.haddr % 4096 + d.len ≤ 4096 → d.len ≤ (s.fnS
    (1024 + k.val)).maxRead → freeReqTag (s.portS k.val) = some g → Answers (.hostRead k r) s fun t => t.out.getLast? = some
    (.hostRead k.val g (xferFn k d) d.haddr d.len) ∧ (t.portS k.val).reqs = (s.portS k.val).reqs ++ [⟨g, (xferFn k d), r.val,
    idx, 0, d.len, 0⟩] ∧ (t.xring k.val r.val).fetched = none ∧ ((t.xring k.val r.val).active.find? fun x => x.idx == idx).map
    (fun x => (x.d, x.fn, x.next, x.stop)) = some (d, (xferFn k d), d.len, false) ∧ (2 ≤ s.get (.pcie k) F.PCIE_STAT_PM ∧ s.get
    (.pcie k) F.PCIE_STAT_PM ≤ 4 → t.get (.pcie k) F.PCIE_STAT_PM = 0)) ∧
  (∀ (s : State) (k : Fin 2) (r : Fin 16) (idx : Nat) (d : XferDesc), (s.xring k.val r.val).fetched = some (idx, d) → d.op = 2
    → (s.xring k.val r.val).doom = none → s.xferMay k r.val = true → s.xferRefusal k d = none → ((s.xring k.val
    r.val).active.all fun x => x.idx != idx) = true → s.xfersReady k = [] → d.haddr % 4096 + d.len ≤ 4096 → Answers (.hostWrite
    k r) s fun t => (t.xring k.val r.val).fetched = none ∧ ((t.xring k.val r.val).active.find? fun x => x.idx == idx).map (fun
    x => (x.d, x.fn, x.next, x.stop)) = some (d, (xferFn k d), 0, false) ∧ (t.portS k.val).reqs = (s.portS k.val).reqs ∧ (2 ≤
    s.get (.pcie k) F.PCIE_STAT_PM ∧ s.get (.pcie k) F.PCIE_STAT_PM ≤ 4 → t.get (.pcie k) F.PCIE_STAT_PM = 0) ∧ t.out = []) ∧
  (∀ (s : State) (k : Fin 2) (q : HostReqS) (x : Xfer) (data : List Byte), q.tag < 1024 → (s.portS k.val).reqs = [q] → (s.xring
    k.val q.ring).active = [x] → x.idx = q.idx → x.d.len ≤ x.next → (∀ r : Fin 16, r.val = q.ring ∨ (s.xring k.val
    r.val).active = []) → Answers (.hostCompletion k (Fin.ofNat 1024 q.tag) .success false data) s fun t => t.dram =
    (s.clean.masterWrite (8 + k.val) (.pcie k) (x.d.daddr + q.off + q.got) (data.take (q.len - q.got))).dram ∧ t.mram =
    (s.clean.masterWrite (8 + k.val) (.pcie k) (x.d.daddr + q.off + q.got) (data.take (q.len - q.got))).mram ∧ (q.len ≤ q.got +
    data.length → (t.portS k.val).reqs = [])) ∧
  (∀ (s : State) (k : Fin 2) (q : HostReqS) (x : Xfer) (data : List Byte), q.tag < 1024 → (s.portS k.val).reqs = [q] → (s.xring
    k.val q.ring).active = [x] → x.idx = q.idx → x.status = 0 → q.ring < 16 → Answers (.hostCompletion k (Fin.ofNat 1024 q.tag)
    .ur false data) s fun t => (t.xring k.val q.ring).active =
    [{ x with missing := (q.off + q.got) :: x.missing, stop := true, status := 0x51 }] ∧ t.dram = s.dram ∧ t.mram = s.mram) ∧
  (∀ (s : State) (k : Fin 2) (r : Fin 16) (x : Xfer), (s.xring k.val r.val).active = [x] → s.xferReqs k r.val x.idx = [] →
    x.stop = true ∨ x.d.len ≤ x.next → (∀ q : Fin 16, q = r ∨ (s.xring k.val q.val).active = []) → Answers (.xferDone k r
    x.idx) s fun t => (t.xring k.val r.val).active = [] ∧ t.get (.pcie k) F.XC_TAIL r.val = (s.get (.pcie k) F.XC_TAIL r.val +
    1) % 2 ^ s.get (.pcie k) F.XC_CFG_LOG2N r.val % 2 ^ F.XC_TAIL.width ∧ t.on (.pcie k) F.XR_EVT_CQ r.val = true) ∧
  (∀ (s : State) (k : Fin 2) (r : Fin 16) (x : Xfer), (s.xring k.val r.val).active = [x] → (∀ q : Fin 16, q = r ∨ (s.xring
    k.val q.val).active = []) → s.xferReqs k r.val x.idx = [] → x.d.op = 2 → x.stop = false → x.next = 0 → 0 < x.d.len →
    x.d.haddr % 4096 + x.d.len ≤ 4096 → x.d.len ≤ (s.fnS (1024 + k.val)).maxPayload → s.mayIssue k x.fn = true → ∀ ans,
    (s.clean.masterRead (8 + k.val) (.pcie k) x.d.daddr x.d.len).2 = ans → Answers (.xferDone k r x.idx) s fun t => .hostWrite
    k.val x.fn x.d.haddr (ans.data?.getD (List.replicate x.d.len 0)) ans.data?.isNone (x.d.ro && (s.fnS (1024 +
    k.val)).relaxed) ∈ t.out ∧ (t.xring k.val r.val).active = [] ∧ t.on (.pcie k) F.XR_EVT_CQ r.val = true) ∧
  (∀ (s : State) (k : Fin 2) (q : HostReqS) (x : Xfer), q.tag < 1024 → (s.portS k.val).reqs = [q] → (s.xring k.val
    q.ring).active = [x] → x.idx = q.idx → Answers (.hostReadTimeout k (Fin.ofNat 1024 q.tag)) s fun t => (t.portS k.val).reqs
    = [] ∧ (t.portS k.val).timedOut = (s.portS k.val).timedOut ++ [(q.tag, q.fn)] ∧ t.on (.pcie k) F.PCIE_EVT_CTO = true ∧
    (t.fnS q.fn).aer.contains .completionTimeout = true) ∧
  (∀ (s : State) (k : Fin 2) (tag : Fin 1024), Answers (.tagHoldExpiry k tag) s fun t => (t.portS k.val).timedOut = (s.portS
    k.val).timedOut.filter fun e => e.1 != tag.val)

/-- Queue registers, doorbells and fetches (spec/09_command_queues.md: The Juhagar queue protocol, spec/09_command_queues.md:
Queues in host memory, spec/09_command_queues.md: Command entries and tags, spec/09_command_queues.md: Freeze, error log
and restart, spec/09_command_queues.md: Registers). Queue registers, doorbells and fetches. VER_REQ_WRITE of a function
with no queue enabled gives VER, the smaller of it and the version spoken. QUEUE_ENABLE of a queue neither enabled nor
draining sets EN and ENABLED where nothing refuses it, else REFUSED alone. QUEUE_DISABLE of an enabled queue, not frozen or
draining, clears EN, drops its fetched entries and waiting completions and lets it drain; QUEUE_ENABLE while it drains only
sets EN. QUEUE_DISABLE_DRAINED, no tag busy and EN 0, ends ENABLED. SQ_TAIL of an enabled queue of the function, not
frozen, moves the index within the ring, CQ_HEAD likewise, frozen or not, when no completion waits; an index outside the
ring, of SQ_TAIL or CQ_HEAD, freezes the queue, not frozen before, with cause 8. SQ_FETCH of a queue that fetches, a tag
free and no package-fatal pending, reads 64 bytes at the base and SQ_HEAD; without ECRC the read is all that leaves; a good
entry with a free tag is appended with the time, and SQ_HEAD moves; a failed read freezes the queue with cause 9, nothing
fetched, SQ_HEAD as it was; an entry with a busy tag freezes it with cause 7, of the fetched entries only one with the tag
staying. -/
def Obligations.QueueCommands : Prop :=
  (∀ (s : State) (f : Fin 1026) (v : Fin 256), ((List.range 8).any fun q => s.on (.fn f) F.QSTAT_ENABLED q) = false → Answers
    (.verReqWrite f v) s fun t => t.get (.fn f) F.QP_CTRL_VER_REQ = v.val ∧ t.get (.fn f) F.QP_CTRL_VER = min v.val (protoOf
    s.build)) ∧
  (∀ (s : State) (f : Fin 1026) (q : Fin 8), (s.queue f.val q.val).draining = false → s.on (.fn f) F.QSTAT_ENABLED q.val =
    false → s.enableRefused f.val q.val = false → Answers (.queueEnable f q) s fun t => t.on (.fn f) F.QSTAT_ENABLED q.val =
    true ∧ t.on (.fn f) F.QCTRL_EN q.val = true ∧ t.on (.fn f) F.QSTAT_REFUSED q.val = false) ∧
  (∀ (s : State) (f : Fin 1026) (q : Fin 8), (s.queue f.val q.val).draining = false → s.on (.fn f) F.QSTAT_ENABLED q.val =
    false → s.enableRefused f.val q.val = true → Answers (.queueEnable f q) s fun t => t.on (.fn f) F.QSTAT_ENABLED q.val =
    false ∧ t.on (.fn f) F.QSTAT_REFUSED q.val = true) ∧
  (∀ (s : State) (f : Fin 1026) (q : Fin 8), s.on (.fn f) F.QSTAT_FROZEN q.val = false → s.on (.fn f) F.QSTAT_ENABLED q.val =
    true → (s.queue f.val q.val).draining = false → Answers (.queueDisable f q) s fun t => t.queue f.val q.val =
    { s.queue f.val q.val with fetched := [], held := [], draining := true, coal := 0 } ∧ t.on (.fn f) F.QCTRL_EN q.val = false
    ∧ t.on (.fn f) F.QSTAT_ENABLED q.val = true) ∧
  (∀ (s : State) (f : Fin 1026) (q : Fin 8), (s.queue f.val q.val).draining = true → Answers (.queueEnable f q) s fun t => t =
    { s.put (.fn f) F.QCTRL_EN 1 q.val with out := [] }) ∧
  (∀ (s : State) (f : Fin 1026) (q : Fin 8), (s.queue f.val q.val).draining = true → busyTags (s.queue f.val q.val) = [] → s.on
    (.fn f) F.QCTRL_EN q.val = false → Answers (.queueDisableDrained f q) s fun t => t.on (.fn f) F.QSTAT_ENABLED q.val = false
    ∧ (t.queue f.val q.val).draining = false) ∧
  (∀ (s : State) (f : Fin 1026) (q : Fin 8) (v : Fin 65536), s.qEnabled f.val q.val = true → s.on (.fn f) F.QSTAT_FROZEN q.val
    = false → q.val < s.fnQueues f.val → v.val < 2 ^ s.get (.fn f) F.QP_SQ_LOG2N q.val → Answers (.sqTail f q v) s fun t =>
    t.queue f.val q.val = { s.queue f.val q.val with sqTail := v.val } ∧ t.regs = s.regs) ∧
  (∀ (s : State) (f : Fin 1026) (q : Fin 8) (v : Fin 65536), s.qEnabled f.val q.val = true → q.val < s.fnQueues f.val → v.val <
    2 ^ s.get (.fn f) F.QP_CQ_LOG2N q.val → (s.queue f.val q.val).held = [] → Answers (.cqHead f q v) s fun t => t.queue f.val
    q.val = { s.queue f.val q.val with cqHead := v.val } ∧ t.regs = s.regs) ∧
  (∀ (s : State) (f : Fin 1026) (q : Fin 8) (v : Fin 65536), s.qEnabled f.val q.val = true → q.val < s.fnQueues f.val → 2 ^
    s.get (.fn f) F.QP_SQ_LOG2N q.val ≤ v.val → s.on (.fn f) F.QSTAT_FROZEN q.val = false → Answers (.sqTail f q v) s fun t =>
    t.on (.fn f) F.QSTAT_FROZEN q.val = true ∧ t.get (.fn f) F.QSTAT_CAUSE q.val = 8) ∧
  (∀ (s : State) (f : Fin 1026) (q : Fin 8) (v : Fin 65536), s.qEnabled f.val q.val = true → q.val < s.fnQueues f.val → 2 ^
    s.get (.fn f) F.QP_CQ_LOG2N q.val ≤ v.val → s.on (.fn f) F.QSTAT_FROZEN q.val = false → Answers (.cqHead f q v) s fun t =>
    t.on (.fn f) F.QSTAT_FROZEN q.val = true ∧ t.get (.fn f) F.QSTAT_CAUSE q.val = 8) ∧
  (∀ (s : State) (f : Fin 1026) (q : Fin 8) (g : Nat) (bs : List Byte), s.qFetches f.val q.val = true → s.fatalStop = false →
    freeReqTag (s.portS (s.fnPort f.val).val) = some g → bs.length = 64 → bitsOf (leNat (bs.take 4)) 5 3 = 0 → bitsOf (leNat
    (bs.take 4)) 17 15 = 0 → (busyTags (s.queue f.val q.val)).contains (bitsOf (leNat (bs.take 4)) 0 5) = false → Answers
    (.sqFetch f q (.entry bs)) s fun t => ((s.fnS f.val).ecrcGen = false → t.out = [.hostRead (s.fnPort f.val).val g f.val
    (s.get (.fn f) F.QP_SQ_BASE q.val * 4096 + 64 * s.get (.fn f) F.QSTAT_SQ_HEAD q.val) 64]) ∧ (t.queue f.val q.val).fetched =
    (s.queue f.val q.val).fetched ++ [⟨bitsOf (leNat (bs.take 4)) 0 5, bitsOf (leNat (bs.take 4)) 16 1 == 1, bs, s.get
    .headgate F.HG_TIME⟩] ∧ t.get (.fn f) F.QSTAT_SQ_HEAD q.val = (s.get (.fn f) F.QSTAT_SQ_HEAD q.val + 1) % 2 ^ s.get (.fn f)
    F.QP_SQ_LOG2N q.val % 2 ^ F.QSTAT_SQ_HEAD.width) ∧
  (∀ (s : State) (f : Fin 1026) (q : Fin 8) (g : Nat), s.qFetches f.val q.val = true → s.fatalStop = false → freeReqTag
    (s.portS (s.fnPort f.val).val) = some g → Answers (.sqFetch f q .error) s fun t => t.on (.fn f) F.QSTAT_FROZEN q.val = true
    ∧ t.get (.fn f) F.QSTAT_CAUSE q.val = 9 ∧ (t.queue f.val q.val).fetched = [] ∧ t.get (.fn f) F.QSTAT_SQ_HEAD q.val = s.get
    (.fn f) F.QSTAT_SQ_HEAD q.val) ∧
  (∀ (s : State) (f : Fin 1026) (q : Fin 8) (g : Nat) (bs : List Byte), s.qFetches f.val q.val = true → s.fatalStop = false →
    freeReqTag (s.portS (s.fnPort f.val).val) = some g → bs.length = 64 → bitsOf (leNat (bs.take 4)) 5 3 = 0 → bitsOf (leNat
    (bs.take 4)) 17 15 = 0 → (busyTags (s.queue f.val q.val)).contains (bitsOf (leNat (bs.take 4)) 0 5) = true → Answers
    (.sqFetch f q (.entry bs)) s fun t => t.on (.fn f) F.QSTAT_FROZEN q.val = true ∧ t.get (.fn f) F.QSTAT_CAUSE q.val = 7 ∧
    (t.queue f.val q.val).fetched = (s.queue f.val q.val).fetched.filter (fun e => e.tag == bitsOf (leNat (bs.take 4)) 0 5) ∧
    (t.queue f.val q.val).admitted = (s.queue f.val q.val).admitted)

/-- Admission, completions, freeze and restart (spec/09_command_queues.md: The headgate, spec/09_command_queues.md: Intake to
firmware, spec/09_command_queues.md: Posting completions, spec/09_command_queues.md: Freeze, error log and restart,
spec/09_command_queues.md: Registers). Admission, completions, freeze and restart. A cause arising with HG_RESTART is an
operand (log 198). HG_ADMISSION, EN 1 and running, PAUSE 0, no package-fatal pending, with one candidate queue, admits its
first entry, counted in its class, with INTAKE. POST_CONSUME of a nonempty ring moves its head: an entry, its zero fields
0, that names an admitted tag of a virtual function, the queue enabled, not full and with none waiting, the function able
to send, frees the tag and moves the completion tail, something leaving for the host; one whose tag is not admitted sets
BADPOST and changes no queue. COALESCE_TIMEOUT with completions counted clears the count: with IEN 0 nothing leaves; with 1
the vector is sent where it may be, alone where no ECRC is made and the link is not in L1. HG_FREEZE freezes the queues of
its mask that the function has. HG_RESTART of one queue, frozen, its cause over and no command admitted, puts it back to
reset, not frozen; of one not frozen it sets RESTART_REFUSED and changes no queue; with a cause but 2 arising on a frozen
queue it does so too, and FROZEN and CAUSE stay. HG_ENABLE with every ring size from 4 to 12 sets EN and runs; else it sets
CFG_ERR and does not run. -/
def Obligations.Headgate : Prop :=
  (∀ (s : State) (f q c : Nat) (e : CmdEntry) (es : List CmdEntry), s.on .headgate F.HG_CTRL_EN = true → s.hg.run = true → s.on
    .headgate F.HG_CTRL_PAUSE = false → s.fatalStop = false → s.candidates = [(f, q, c)] → c < 4 → (s.queue f q).fetched = e ::
    es → Answers (.hgAdmission) s fun t => (t.queue f q).fetched = es ∧ (t.queue f q).admitted = (s.queue f q).admitted ++
    [e.tag] ∧ t.get .headgate F.HG_CNT_ADMIT c = min (s.get .headgate F.HG_CNT_ADMIT c + 1) (2 ^ F.HG_CNT_ADMIT.width - 1) ∧
    (t.get .headgate F.HG_EVT_INTAKE).testBit c = true) ∧
  (∀ (s : State) (p : Fin 4) (f : Fin 1024) (q : Fin 8) (tag : Fin 32), s.get .headgate F.PQ_HEAD p.val ≠ s.get .headgate
    F.PQ_TAIL p.val → ∀ (r : State × MemAns), s.clean.masterRead 10 .headgate (ringAt (s.get .headgate F.PQ_CFG_BASE p.val)
    (s.get .headgate F.PQ_CFG_LOG2N p.val) 32 (s.get .headgate F.PQ_HEAD p.val)) 32 = r → ∀ bs, r.2.data? = some bs → bitsOf
    (wordAt bs 0) 0 12 = f.val → bitsOf (wordAt bs 0) 12 3 = q.val → bitsOf (wordAt bs 0) 15 5 = tag.val → bitsOf (wordAt bs 0)
    20 12 = 0 → bitsOf (wordAt bs 0) 48 16 = 0 → wordAt bs 2 = 0 → wordAt bs 3 = 0 → (s.queue f.val q.val).admitted.contains
    tag.val = true → s.qEnabled f.val q.val = true → (s.fnS f.val).bme = true → s.linkUp (s.fnPort f.val) = true → (s.fnS
    f.val).resetting = false → s.cqFull f.val q.val = false → (s.queue f.val q.val).held = [] → Answers (.postConsume p) s fun
    t => (t.queue f.val q.val).admitted = (s.queue f.val q.val).admitted.filter (fun x => x != tag.val) ∧ (t.queue f.val
    q.val).cqTail = ((s.queue f.val q.val).cqTail + 1) % 2 ^ s.get (.fn (fnOf f.val)) F.QP_CQ_LOG2N q.val ∧ t.out ≠ [] ∧ t.get
    .headgate F.PQ_HEAD p.val = (s.get .headgate F.PQ_HEAD p.val + 1) % 2 ^ s.get .headgate F.PQ_CFG_LOG2N p.val % 2 ^
    F.PQ_HEAD.width) ∧
  (∀ (s : State) (p : Fin 4) (f : Fin 1024) (q : Fin 8) (tag : Fin 32), s.get .headgate F.PQ_HEAD p.val ≠ s.get .headgate
    F.PQ_TAIL p.val → ∀ (r : State × MemAns), s.clean.masterRead 10 .headgate (ringAt (s.get .headgate F.PQ_CFG_BASE p.val)
    (s.get .headgate F.PQ_CFG_LOG2N p.val) 32 (s.get .headgate F.PQ_HEAD p.val)) 32 = r → ∀ bs, r.2.data? = some bs → bitsOf
    (wordAt bs 0) 0 12 = f.val → bitsOf (wordAt bs 0) 12 3 = q.val → bitsOf (wordAt bs 0) 15 5 = tag.val → (s.queue f.val
    q.val).admitted.contains tag.val = false → Answers (.postConsume p) s fun t => t.on .headgate F.HG_EVT_BADPOST = true ∧
    t.queues = s.queues ∧ t.get .headgate F.PQ_HEAD p.val = (s.get .headgate F.PQ_HEAD p.val + 1) % 2 ^ s.get .headgate
    F.PQ_CFG_LOG2N p.val % 2 ^ F.PQ_HEAD.width) ∧
  (∀ (s : State) (f : Fin 1026) (q : Fin 8), (s.queue f.val q.val).coal ≠ 0 → Answers (.coalesceTimeout f q) s fun t =>
    (t.queue f.val q.val).coal = 0 ∧ (s.on (.fn f) F.QCTRL_IEN q.val = false → t.out = [] ∧ t.fns = s.fns) ∧ (s.on (.fn f)
    F.QCTRL_IEN q.val = true → s.msixGoes f.val (s.get (.fn f) F.QCTRL_VECTOR q.val) = true → t.out = [.msix f.val (s.get (.fn
    f) F.QCTRL_VECTOR q.val) (vecOf (s.fnS f.val) (s.get (.fn f) F.QCTRL_VECTOR q.val)).addr (vecOf (s.fnS f.val) (s.get (.fn
    f) F.QCTRL_VECTOR q.val)).data])) ∧
  (∀ (s : State) (fn : Fin 1024) (pf : Bool) (port : Fin 2) (mask : Fin 256), Answers (.hgFreeze fn pf port mask) s fun t => ∀
    q : Fin 8, mask.val / 2 ^ q.val % 2 = 1 → q.val < s.fnQueues (hgFn fn pf port) → t.on (.fn (fnOf (hgFn fn pf port)))
    F.QSTAT_FROZEN q.val = true) ∧
  (∀ (s : State) (fn : Fin 1024) (pf : Bool) (port : Fin 2) (q : Fin 8), s.on (.fn (fnOf (hgFn fn pf port))) F.QSTAT_FROZEN
    q.val = true → s.restartFree (hgFn fn pf port) (s.get (.fn (fnOf (hgFn fn pf port))) F.QSTAT_CAUSE q.val) = true → (s.queue
    (hgFn fn pf port) q.val).admitted = [] → Answers (.hgRestart fn pf port (Fin.ofNat 256 (2 ^ q.val)) none) s fun t => t.on
    (.fn (fnOf (hgFn fn pf port))) F.QSTAT_FROZEN q.val = false ∧ t.on (.fn (fnOf (hgFn fn pf port))) F.QSTAT_ENABLED q.val =
    false ∧ t.queue (hgFn fn pf port) q.val = {}) ∧
  (∀ (s : State) (fn : Fin 1024) (pf : Bool) (port : Fin 2) (q : Fin 8), s.on (.fn (fnOf (hgFn fn pf port))) F.QSTAT_FROZEN
    q.val = false → Answers (.hgRestart fn pf port (Fin.ofNat 256 (2 ^ q.val)) none) s fun t => t.on .headgate
    F.HG_EVT_RESTART_REFUSED = true ∧ t.queues = s.queues) ∧
  (∀ (s : State) (fn : Fin 1024) (pf : Bool) (port : Fin 2) (q : Fin 8) (cause : Fin 11), s.on (.fn (fnOf (hgFn fn pf port)))
    F.QSTAT_FROZEN q.val = true → cause ≠ 2 → Answers (.hgRestart fn pf port (Fin.ofNat 256 (2 ^ q.val)) (some cause)) s fun t
    => t.on .headgate F.HG_EVT_RESTART_REFUSED = true ∧ t.on (.fn (fnOf (hgFn fn pf port))) F.QSTAT_FROZEN q.val = true ∧ t.get
    (.fn (fnOf (hgFn fn pf port))) F.QSTAT_CAUSE q.val = s.get (.fn (fnOf (hgFn fn pf port))) F.QSTAT_CAUSE q.val ∧ t.queues =
    s.queues) ∧
  (∀ (s : State), (∀ c : Fin 4, 4 ≤ s.get .headgate F.IN_CFG_LOG2N c.val ∧ s.get .headgate F.IN_CFG_LOG2N c.val ≤ 12 ∧ 4 ≤
    s.get .headgate F.PQ_CFG_LOG2N c.val ∧ s.get .headgate F.PQ_CFG_LOG2N c.val ≤ 12) → Answers (.hgEnable) s fun t => t.on
    .headgate F.HG_CTRL_EN = true ∧ t.hg = { s.hg with run := true }) ∧
  (∀ (s : State), ¬ (∀ c : Fin 4, 4 ≤ s.get .headgate F.IN_CFG_LOG2N c.val ∧ s.get .headgate F.IN_CFG_LOG2N c.val ≤ 12 ∧ 4 ≤
    s.get .headgate F.PQ_CFG_LOG2N c.val ∧ s.get .headgate F.PQ_CFG_LOG2N c.val ≤ 12) → Answers (.hgEnable) s fun t => t.on
    .headgate F.HG_EVT_CFG_ERR = true ∧ t.hg = { s.hg with run := false })

/-- Mailboxes and the SMBus endpoint (spec/09_command_queues.md: Mailboxes, spec/09_command_queues.md: Registers). Mailboxes
and the SMBus endpoint, which answers outside Off. MB_COMMIT that is not refused writes OUT word 3 and moves the OUT words
to the peer, whose box is full; the timeout in force is taken; a ready receiver gets IN_MSG; onto a full box both ends see
the collision. TAKE of a full box empties it and the sender gets OUT_EMPTY; of an empty one nothing changes. MB_TIMEOUT of
a message not taken or held, its timeout not 0, sets OUT_TIMEOUT. MB_DELIVER_HELD to a ready receiver gives IN_MSG and ends
the hold. SMB_MB_WRITE of 16 bytes, not in Keep either, is acknowledged and fills the box of firmware with them; of other
lengths it is refused and changes nothing. SMB_MB_READ answers the four IN words, SMB_MB_STAT the flags; SMB_MB_FLAGS
clears those its bits 0, 1 and 2 name. -/
def Obligations.Mailboxes : Prop :=
  (∀ (s : State) (e : MbEnd) (w3 : Nat), s.mbRefused e = false → Answers (.mbCommit e w3) s fun t => t.mbOn (mbPeer e) (mbFlds
    (mbPeer e)).full = true ∧ t.mbOn e (mbFlds e).outFull = true ∧ (∀ i : Fin 3, t.mbWord (mbPeer e) (mbFlds (mbPeer e)).inn
    i.val = s.mbWord e (mbFlds e).out i.val % 2 ^ (mbFlds (mbPeer e)).inn.width) ∧ t.mbWord (mbPeer e) (mbFlds (mbPeer e)).inn
    3 = w3 % 2 ^ 32 ∧ t.mbDue e = s.mbTimeout e ∧ (s.mbReady (mbPeer e) = true → t.mbOn (mbPeer e) (mbFlds (mbPeer e)).inMsg =
    true) ∧ (s.mbOn (mbPeer e) (mbFlds (mbPeer e)).full = true → t.mbOn (mbPeer e) (mbFlds (mbPeer e)).inColl = true ∧ t.mbOn e
    (mbFlds e).outColl = true)) ∧
  (∀ (s : State) (e : MbEnd), s.mbOn e (mbFlds e).full = true → Answers (.take e) s fun t => t.mbOn e (mbFlds e).full = false ∧
    t.mbOn (mbPeer e) (mbFlds (mbPeer e)).outFull = false ∧ t.mbOn (mbPeer e) (mbFlds (mbPeer e)).outEmpty = true) ∧
  (∀ (s : State) (e : MbEnd), s.mbOn e (mbFlds e).full = false → Answers (.take e) s fun t => t = { s with out := [] }) ∧
  (∀ (s : State) (e : MbEnd), s.mbOn e (mbFlds e).outFull = true → s.mbDue e ≠ 0 → s.mbHeld.contains (mbPeer e) = false →
    Answers (.mbTimeout e) s fun t => t.mbOn e (mbFlds e).outTmo = true) ∧
  (∀ (s : State) (e : MbEnd), s.mbHeld.contains e = true → s.mbReady e = true → Answers (.mbDeliverHeld e) s fun t => t.mbOn e
    (mbFlds e).inMsg = true ∧ t.mbHeld = s.mbHeld.filter fun x => x != e) ∧
  (∀ (s : State) (bytes : List Byte), s.isOff = false → s.mode ≠ .keep → bytes.length = 16 → Answers (.smbMbWrite bytes) s fun
    t => t.mbOn .smbFw F.MBB_STAT_IN_FULL = true ∧ t.out.head? = some (.smbAck true) ∧ ∀ k : Fin 4, t.mbWord .smbFw F.MBB_IN
    k.val = leNat ((bytes.drop (4 * k.val)).take 4)) ∧
  (∀ (s : State) (bytes : List Byte), s.isOff = false → bytes.length ≠ 16 → Answers (.smbMbWrite bytes) s fun t => t =
    { s with out := [.smbAck false] }) ∧
  (∀ (s : State), s.isOff = false → Answers (.smbMbRead) s fun t => t =
    { s with out := [.value (joinBits 32 ((List.range 4).map fun k => s.mbWord .bmc bmcFlds.inn k))] }) ∧
  (∀ (s : State), s.isOff = false → Answers (.smbMbStat) s fun t => t =
    { s with out := [.value (joinBits 1 ([bmcFlds.outFull, bmcFlds.outEmpty, bmcFlds.outColl, bmcFlds.outTmo].map (s.get .mbox) ++ [s.get .mbox bmcFlds.full, 0, s.get .mbox bmcFlds.inColl, s.get .mbox bmcFlds.inMsg]))] }) ∧
  (∀ (s : State) (data : Byte), s.isOff = false → Answers (.smbMbFlags data) s fun t => (data.toNat.testBit 0 = true → t.mbOn
    .bmc bmcFlds.full = false) ∧ (data.toNat.testBit 1 = true → t.mbOn .bmc bmcFlds.inColl = false) ∧ (data.toNat.testBit 2 =
    true → t.mbOn .bmc bmcFlds.inMsg = false))

/-- Supply, temperature and the sources of a wake (spec/14_package_and_supply.md: No supply detection,
spec/14_package_and_supply.md: Thermal limits, spec/14_package_and_supply.md: External interfaces,
spec/14_package_and_supply.md: Registers, spec/15_power_modes_and_wake.md: Modes and their transitions,
spec/15_power_modes_and_wake.md: Wake sources, spec/15_power_modes_and_wake.md: The wake sequence). Supply, temperature and
the sources of a wake. The package counts as off too in Waking before PWRON_N has risen (log 11). PWRON_ASSERT and
VAUX_LOSS lead to Off, MRAM kept, DRAM and harts as unpowered. PWRON_RISE of a package that is off samples the straps and
starts a wake: Waking, the regulator step, attempt 1, the first exchange with regulator 0x40, SRC bit 7. THERMAL_TRIP of a
package that is not off sets TRIP, drops VR_EN, asserts THERM_TRIP_N and leads to Keep with TRIP_HOLD. THERMAL_WARN shows a
reading and sets WARN within WARN_C of the trip value; of a stack it is shown in that controller's TEMP and warns likewise,
its trip value 105. TRIP_CLEAR clears TRIP and releases the pin. In Keep without a trip hold a wake starts so: at
SMB_ADDRESS_MATCH of the strapped address, enabled, SRC bit 0; at SMB_WAKE_COMMAND 1, acknowledged, bit 2; another value,
the package not off, is acknowledged and changes nothing; and at AON_ALARM_MATCH, enabled, the alarm not 0, bit 5.
SMB_MODE_READ, not off, answers mode, port, trip-hold and failed-wake bits. -/
def Obligations.SupplyAndTemperature : Prop :=
  (∀ (s : State), Answers (.pwronAssert) s fun t => t.mode = .off ∧ t.mram = s.mram ∧ t.dram = [] ∧ t.harts = []) ∧
  (∀ (s : State), Answers (.vauxLoss) s fun t => t.mode = .off ∧ t.mram = s.mram ∧ t.dram = [] ∧ t.harts = []) ∧
  (∀ (s : State) (straps : Fin 4), s.isOff = true → Answers (.pwronRise straps) s fun t => t.mode = .waking ∧ t.wake.step = 1 ∧
    t.wake.attempt = 1 ∧ t.pmb = some { q := 0, send := .clearFaults } ∧ bitsOf (t.get .aon F.AON_WREC0) 0 8 = 2 ^ 7 ∧ t.straps
    = straps.val) ∧
  (∀ (s : State) (die : DieKind), s.isOff = false → Answers (.thermalTrip die) s fun t => t.mode = .keep ∧ t.thermTrip = true ∧
    t.vrEn = 0 ∧ t.on .aon F.AON_MODE_TRIP_HOLD = true ∧ t.on .therm F.THM_EVT_TRIP = true) ∧
  (∀ (s : State) (die : DieKind) (temp : BitVec 8), ∀ k : Fin 8, die ≠ .stack k → Answers (.thermalWarn die temp) s fun t =>
    t.get .therm (thmFld die) = temp.toNat ∧ (tripOf die - s.warnMargin ≤ temp.toInt → t.on .therm F.THM_EVT_WARN = true)) ∧
  (∀ (s : State) (k : Fin 8) (temp : BitVec 8), Answers (.thermalWarn (.stack k) temp) s fun t => t.get (.mc k) F.MC_STAT_TEMP
    = temp.toNat ∧ (105 - s.warnMargin ≤ temp.toInt → t.on .therm F.THM_EVT_WARN = true)) ∧
  (∀ (s : State), Answers (.tripClear) s fun t => t.thermTrip = false ∧ t.on .therm F.THM_EVT_TRIP = false) ∧
  (∀ (s : State) (addr : Fin 128), s.mode = .keep → s.on .aon F.AON_MODE_TRIP_HOLD = false → s.on .aon F.AON_WAKE_EN_SMB_MATCH
    = true → addr.val = 0x4C + s.straps → Answers (.smbAddressMatch addr) s fun t => t.mode = .waking ∧ t.wake.step = 1 ∧
    t.wake.attempt = 1 ∧ t.pmb = some { q := 0, send := .clearFaults } ∧ bitsOf (t.get .aon F.AON_WREC0) 0 8 = 2 ^ 0) ∧
  (∀ (s : State), s.mode = .keep → s.on .aon F.AON_MODE_TRIP_HOLD = false → Answers (.smbWakeCommand 1) s fun t => .smbAck true
    ∈ t.out ∧ t.mode = .waking ∧ t.wake.step = 1 ∧ t.wake.attempt = 1 ∧ t.pmb = some { q := 0, send := .clearFaults } ∧ bitsOf
    (t.get .aon F.AON_WREC0) 0 8 = 2 ^ 2) ∧
  (∀ (s : State) (data : Byte), s.isOff = false → data ≠ 1 → Answers (.smbWakeCommand data) s fun t => t =
    { s with out := [.smbAck true] }) ∧
  (∀ (s : State), s.mode = .keep → s.on .aon F.AON_MODE_TRIP_HOLD = false → s.on .aon F.AON_WAKE_EN_ALARM = true → s.get .aon
    F.AON_ALARM ≠ 0 → Answers (.aonAlarmMatch) s fun t => t.mode = .waking ∧ t.wake.step = 1 ∧ t.wake.attempt = 1 ∧ t.pmb =
    some { q := 0, send := .clearFaults } ∧ bitsOf (t.get .aon F.AON_WREC0) 0 8 = 2 ^ 5) ∧
  (∀ (s : State), s.isOff = false → Answers (.smbModeRead) s fun t => t =
    { s with out := [.value (modeCode s.mode + placed (bit (portMode s.mode)) 4 1 + placed (s.get .aon F.AON_MODE_TRIP_HOLD) 5 1 + placed (bit s.wakeBad) 6 1)] })

/-- Presence and the seal (spec/16_configuration_and_lifecycle.md: Presence and the seal,
spec/16_configuration_and_lifecycle.md: Registers, spec/14_package_and_supply.md: External interfaces,
spec/07_format_and_sanitise.md: Events that meet). Presence and the seal. The pins are seen from Waking on (in Keep they
may start a wake). SEAL_OPEN of a closed seal shows SEAL_OPEN, sets SEAL and lets a running FORMAT stop; SEAL_CLOSE shows
it closed. PRESENCE_PRESS of a high pin opens the window: PRES 1 for PRES_S 60. PRESENCE_WINDOW_END closes it, PRES_S 0.
PRESENCE_JUMPER with the pin low and no window counts as a jumper, PRES 2 in Provisioning and Diagnostic, else 0;
PRESENCE_RELEASE ends it, PRES 1 only in a window. -/
def Obligations.PresenceAndSeal : Prop :=
  (∀ (s : State), s.isOff = false → s.mode ≠ .keep → s.sealOpen = false → Answers (.sealOpen) s fun t => t.sealOpen = true ∧
    t.on .cfg F.CFG_EVT_SEAL = true ∧ (s.on .sweep F.SWP_STAT_BUSY = true → s.sweep.op = 1 → t.sweep.sealStop = true)) ∧
  (∀ (s : State), Answers (.sealClose) s fun t => t.sealOpen = false) ∧
  (∀ (s : State), s.isOff = false → s.mode ≠ .keep → s.presence.low = false → Answers (.presencePress) s fun t => t.presence =
    { s.presence with low := true, window := true } ∧ t.get .cfg F.CFG_STAT_PRES = 1 ∧ t.get .cfg F.CFG_STAT_PRES_S = 60) ∧
  (∀ (s : State), Answers (.presenceWindowEnd) s fun t => t.presence = { s.presence with window := false } ∧ t.get .cfg
    F.CFG_STAT_PRES_S = 0 ∧ t.get .cfg F.CFG_STAT_PRES ≠ 1) ∧
  (∀ (s : State), s.presence.low = true → s.presence.window = false → Answers (.presenceJumper) s fun t => t.presence.jumper =
    true ∧ t.get .cfg F.CFG_STAT_PRES = (if s.get .cfg F.CFG_STAT_LCS = 1 ∨ s.get .cfg F.CFG_STAT_LCS = 3 then 2 else 0)) ∧
  (∀ (s : State), Answers (.presenceRelease) s fun t => t.presence = { s.presence with low := false, jumper := false } ∧ t.get
    .cfg F.CFG_STAT_PRES = bit s.presence.window)

/-- The wake sequence (spec/15_power_modes_and_wake.md: The wake sequence, spec/15_power_modes_and_wake.md: The wake record,
spec/15_power_modes_and_wake.md: Events that meet). The wake sequence (PMBus codes: log 138). The exchange clauses need no
change of VIN under way. Of the regulator step, an exchange acknowledged goes from CLEAR_FAULTS to ON_OFF_CONFIG; and
ON_OFF_CONFIG, then VOUT_COMMAND with VIN_CMD. acknowledged, it is the voltage of the quarter, whose VR_EN rises, VR_PG
awaited. An exchange not acknowledged, of any kind, waits; after PMBUS_RETRY_WAIT_END with under two failures before, it is
tried again and counted. WAKE_STEP_READY in Waking, no package-fatal pending: VR_PG awaited leads to STATUS_WORD; the
regulators up lead to the clocks, these to the memory, this, every controller TRAINED and CHK_OK, to the logic, this, hub
and keep ready, to Loading with WAKE_DONE. WAKE_STEP_TIMEOUT of the logic leads to Keep: VR_EN 0, WAKE_FAIL, RESULT 7.
WAKE_RETRY_TIMER in Keep, a retry due, starts Waking anew, one attempt more. TRIP_HOLD_END in Keep clears TRIP_HOLD: with
no source recorded the package stays, with one it wakes. -/
def Obligations.WakeSequence : Prop :=
  (∀ (s : State) (p : PmbS) (data : BitVec 16), s.pmb = some p → p.wait = false → s.vin = none → p.send = .clearFaults →
    Answers (.pmbusTransactionEnd true data) s fun t => t = { s with out := [], pmb := some { q := p.q, send := .enablePin } }) ∧
  (∀ (s : State) (p : PmbS) (data : BitVec 16), s.pmb = some p → p.wait = false → s.vin = none → p.send = .enablePin → Answers
    (.pmbusTransactionEnd true data) s fun t => t =
    { s with out := [], pmb := some { q := p.q, send := .vout (vinOf (s.get .pwr F.PWR_VIN_CMD)) } }) ∧
  (∀ (s : State) (p : PmbS) (data : BitVec 16) (mv : Nat), s.pmb = some p → p.wait = false → s.vin = none → p.send = .vout mv →
    Answers (.pmbusTransactionEnd true data) s fun t => t.pmb = none ∧ t.vrEn = s.vrEn ||| 2 ^ p.q ∧ tget 0 t.vinAt p.q = mv ∧
    t.wake = { s.wake with pgWait := true }) ∧
  (∀ (s : State) (p : PmbS) (data : BitVec 16), s.pmb = some p → p.wait = false → Answers (.pmbusTransactionEnd false data) s
    fun t => t.pmb = some { p with wait := true }) ∧
  (∀ (s : State) (p : PmbS), s.pmb = some p → p.wait = true → p.fails < 2 → Answers (.pmbusRetryWaitEnd) s fun t => t.pmb =
    some { p with fails := p.fails + 1, wait := false } ∧ t.get .aon F.AON_CNT_PMB_RETRY = min (s.get .aon F.AON_CNT_PMB_RETRY
    + 1) (2 ^ F.AON_CNT_PMB_RETRY.width - 1)) ∧
  (∀ (s : State) (ids : List StackId), s.mode = .waking → s.fatalStop = false → s.wake.step = 1 → s.wake.pgWait = true →
    Answers (.wakeStepReady ids) s fun t => t.wake = { s.wake with pgWait := false } ∧ t.pmb = some
    { q := s.wake.quarter, send := .statusWord }) ∧
  (∀ (s : State) (ids : List StackId), s.mode = .waking → s.fatalStop = false → s.wake.step = 1 → s.wake.pgWait = false →
    s.wake.regsUp = true → Answers (.wakeStepReady ids) s fun t => t.wake.step = 2) ∧
  (∀ (s : State) (ids : List StackId), s.mode = .waking → s.fatalStop = false → s.wake.step = 2 → Answers (.wakeStepReady ids)
    s fun t => t.wake.step = 3) ∧
  (∀ (s : State) (ids : List StackId), s.mode = .waking → s.fatalStop = false → s.wake.step = 3 → Answers (.wakeStepReady ids)
    s fun t => t.wake.step = 4 ∧ ∀ k : Fin 8, t.on (.mc k) F.MC_STAT_TRAINED = true ∧ t.on (.mc k) F.MC_STAT_CHK_OK = true) ∧
  (∀ (s : State) (ids : List StackId), s.mode = .waking → s.fatalStop = false → s.wake.step = 4 → s.on .hub F.UNIT_READY_READY
    = true → s.on .keep F.UNIT_READY_READY = true → Answers (.wakeStepReady ids) s fun t => t.mode = .loading ∧ t.wake = {} ∧
    t.on .aon F.AON_EVT_WAKE_DONE = true) ∧
  (∀ (s : State), s.mode = .waking → s.fatalStop = false → s.wake.step = 4 → Answers (.wakeStepTimeout .late) s fun t => t.mode
    = .keep ∧ t.vrEn = 0 ∧ t.on .aon F.AON_EVT_WAKE_FAIL = true ∧ bitsOf (t.get .aon F.AON_WREC0) 16 8 = 7) ∧
  (∀ (s : State), s.mode = .keep → s.wake.retry = true → Answers (.wakeRetryTimer) s fun t => t.mode = .waking ∧ t.wake =
    { step := 1, attempt := s.wake.attempt + 1 } ∧ t.pmb = some { q := 0, send := .clearFaults }) ∧
  (∀ (s : State), s.mode = .keep → s.wake.held = 0 → Answers (.tripHoldEnd) s fun t => t.on .aon F.AON_MODE_TRIP_HOLD = false ∧
    t.mode = .keep) ∧
  (∀ (s : State), s.mode = .keep → s.wake.held ≠ 0 → Answers (.tripHoldEnd) s fun t => t.on .aon F.AON_MODE_TRIP_HOLD = false ∧
    t.mode = .waking ∧ t.wake.step = 1)

/-- PWR_CMD and changes of VIN (spec/15_power_modes_and_wake.md: Modes and their transitions,
spec/15_power_modes_and_wake.md: Power domains and secure holds, spec/15_power_modes_and_wake.md: Clocks,
spec/15_power_modes_and_wake.md: Still, spec/15_power_modes_and_wake.md: Events that meet). PWR_CMD with BUSY 0, and
changes of VIN; SHUTDOWN and RESTART not held, and not in a Recovery that stays (log 159). SERVE in Twelve enters Serve
with RESULT 0 and CMD_DONE; in Still, VIN not changing, Serve with BUSY, no deep gating, and the change to VIN_CMD begun at
quarter 0. STILL in Serve enters Still and begins the change to VIN_STILL. SHUTDOWN in an allowed mode, its conditions met,
no tile operation or test running, starts the shutdown test; with a tile operation it waits, BUSY, both ports down. RESTART
in an allowed mode, no tile operation, enters Loading, warm: DRAM kept, channel engines reset. One of the normal world
under any hold is deferred with 0x04. A reserved code gives 0x02. SHUTDOWN_PROGRAM_END with no class left and no source
recorded leads to Keep, VR_EN 0, CMD_DONE. In a change of VIN VOUT_COMMAND acknowledged sets the quarter's voltage, its
slew awaited. VIN_CHANGE_CHECK of that quarter with VR_PG high reads STATUS_WORD; that without a fault goes to the next
quarter, of the last one it ends the command, in Still or Serve with BUSY 1. VR_PG low is a package-fatal error of aon. -/
def Obligations.PowerCommands : Prop :=
  (∀ (s : State) (w : World), s.on .aon F.AON_MODE_BUSY = false → s.mode = .twelve → Answers (.serve w) s fun t => t.mode =
    .serve ∧ t.on .aon F.AON_MODE_BUSY = false ∧ t.get .aon F.AON_MODE_RESULT = 0 ∧ t.on .aon F.AON_EVT_CMD_DONE = true) ∧
  (∀ (s : State) (w : World), s.on .aon F.AON_MODE_BUSY = false → s.mode = .still → s.vin = none → Answers (.serve w) s fun t
    => t.mode = .serve ∧ t.on .aon F.AON_MODE_BUSY = true ∧ t.deep = [] ∧ t.vin = some ⟨vinOf (s.get .pwr F.PWR_VIN_CMD), 0,
    .command, none⟩ ∧ t.pmb = some { q := 0, send := .vout (vinOf (s.get .pwr F.PWR_VIN_CMD)) }) ∧
  (∀ (s : State) (w : World), s.on .aon F.AON_MODE_BUSY = false → s.mode = .serve → s.vin = none → Answers (.still w) s fun t
    => t.mode = .still ∧ t.on .aon F.AON_MODE_BUSY = true ∧ t.vin = some ⟨vinOf (s.get .pwr F.PWR_VIN_STILL), 0, .command,
    none⟩ ∧ t.pmb = some { q := 0, send := .vout (vinOf (s.get .pwr F.PWR_VIN_STILL)) }) ∧
  (∀ (s : State) (w : World), s.on .aon F.AON_MODE_BUSY = false → pwrFrom 3 s.mode = true → s.holdsPwr w = false →
    s.stayRecovery = false → s.mayShut = true → s.tileOp = none → s.testing = false → Answers (.shutdown w) s fun t => t.mode =
    .shutdownTest ∧ t.on .aon F.AON_MODE_BUSY = true ∧ t.get .aon F.AON_MODE_RESULT = 0 ∧ t.st.active.isSome = true) ∧
  (∀ (s : State) (w : World), s.on .aon F.AON_MODE_BUSY = false → pwrFrom 3 s.mode = true → s.holdsPwr w = false →
    s.stayRecovery = false → s.mayShut = true → s.tileOp.isSome = true → Answers (.shutdown w) s fun t => t.mode = s.mode ∧
    t.on .aon F.AON_MODE_BUSY = true ∧ t.pwrNext = some 3 ∧ ∀ k : Fin 2, t.linkUp k = false) ∧
  (∀ (s : State) (w : World), s.on .aon F.AON_MODE_BUSY = false → pwrFrom 4 s.mode = true → s.holdsPwr w = false →
    s.stayRecovery = false → s.tileOp = none → Answers (.restart w) s fun t => t.mode = .loading ∧ t.on .aon F.AON_MODE_BUSY =
    true ∧ t.load = { warm := true } ∧ t.dram = s.dram ∧ t.chans = []) ∧
  (∀ (s : State), s.on .aon F.AON_MODE_BUSY = false → pwrFrom 4 s.mode = true → s.get .pwr F.PWR_HOLD ≠ 0 → Answers (.restart
    .normal) s fun t => t.mode = s.mode ∧ t.get .aon F.AON_MODE_RESULT = 4 ∧ t.on .aon F.AON_MODE_HELD = true ∧ t.pwrHeld =
    some 4 ∧ t.on .aon F.AON_EVT_DEFERRED = true) ∧
  (∀ (s : State) (op : Fin 16) (w : World), s.on .aon F.AON_MODE_BUSY = false → op.val = 0 ∨ 4 < op.val → Answers
    (.pwrCmdReserved op w) s fun t => t.mode = s.mode ∧ t.get .aon F.AON_MODE_RESULT = 2) ∧
  (∀ (s : State) (prog run : Nat), s.st.active = some ⟨some prog, run, []⟩ → s.mode = .shutdownTest → s.wake.held = 0 → Answers
    (.shutdownProgramEnd) s fun t => t.mode = .keep ∧ t.vrEn = 0 ∧ t.on .aon F.AON_MODE_BUSY = false ∧ t.on .aon
    F.AON_EVT_CMD_DONE = true) ∧
  (∀ (s : State) (v : VinS) (p : PmbS) (data : BitVec 16), s.vin = some v → s.pmb = some p → p.wait = false → p.send = .vout
    v.mv → Answers (.pmbusTransactionEnd true data) s fun t => t =
    { s with out := [], pmb := none, vin := some { v with stage := .slew }, vinAt := tset 0 s.vinAt p.q v.mv }) ∧
  (∀ (s : State) (v : VinS) (q : Fin 4), s.vin = some v → v.stage = .slew → v.quarter = q.val → Answers (.vinChangeCheck true
    q) s fun t => t =
    { s with out := [], vin := some { v with stage := .status }, pmb := some { q := q.val, send := .statusWord } }) ∧
  (∀ (s : State) (v : VinS) (p : PmbS) (data : BitVec 16), s.vin = some v → s.pmb = some p → p.wait = false → p.send =
    .statusWord → v.quarter < 3 → statusFault data.toNat = false → Answers (.pmbusTransactionEnd true data) s fun t => t =
    { s with out := [], vin := some { v with quarter := v.quarter + 1, stage := .command }, pmb := some { q := v.quarter + 1, send := .vout v.mv } }) ∧
  (∀ (s : State) (v : VinS) (p : PmbS) (data : BitVec 16), s.vin = some v → s.pmb = some p → p.wait = false → p.send =
    .statusWord → 3 ≤ v.quarter → v.next = none → statusFault data.toNat = false → s.mode = .still ∨ s.mode = .serve → s.on
    .aon F.AON_MODE_BUSY = true → Answers (.pmbusTransactionEnd true data) s fun t => t.vin = none ∧ t.on .aon F.AON_MODE_BUSY
    = false ∧ t.on .aon F.AON_EVT_CMD_DONE = true) ∧
  (∀ (s : State) (v : VinS) (q : Fin 4), s.isOff = false → s.mode ≠ .keep → s.vin = some v → v.stage = .slew → v.quarter =
    q.val → Answers (.vinChangeCheck false q) s fun t => t.vin = none ∧ t.fatal = s.fatal ++ [.aon])

/-- Power domains, frequencies, weirs and clock gating (spec/15_power_modes_and_wake.md: Power domains and secure holds,
spec/15_power_modes_and_wake.md: Clocks, spec/15_power_modes_and_wake.md: Still, spec/15_power_modes_and_wake.md: Weirs,
spec/15_power_modes_and_wake.md: Events that meet, spec/15_power_modes_and_wake.md: Registers). Power domains, frequencies,
weirs and clock gating (demands for a clock: log 199). DOM_REQ OFF of a domain ON, not held for the asking world and fit
for it, shows 3 and starts the change; one of the normal world under its hold is pending with 0x04 and DEFER.
DOMAIN_CHANGE_DONE shows ON or OFF, RESULT 0 and DOM. PWR_HOLD_WRITE of the secure world, no PWR_CMD deferred, sets the
holds, shown in each domain. TILE_FREQ_WRITE sets FREQ, and a running tile not changing starts towards its target;
FREQ_CHANGE_DONE at the wanted frequency shows CUR and VCORE. POWER_SAMPLE, with its power, joins the last hundred.
WEIR_TEST shows the weirs passed; a tile on which one acts, its CAP above FLOOR, loses one step, with WEIR; below 97 %
everywhere and calm at 0 every CAP in use gains one, up to 32, and calm is 9. CLOCK_GATE_ENTER from Twelve on gates a clock
that may be, the unit idle; DEEP_GATE_TIMER in Still the second level of a gated one, its time not 0 and nothing demanding
it; CLOCK_RESTART_DONE of one demanded ends both, and gating of the hub. -/
def Obligations.DomainsAndClocks : Prop :=
  (∀ (s : State) (d : Fin 43) (w : World), w = .secure ∨ s.get .pwr F.PWR_HOLD / 2 ^ d.val % 2 = 0 → s.mayOff d = true → s.get
    .pwr F.PWR_DOM_STATE d.val < 2 → Answers (.domReq d true w) s fun t => t.get .pwr F.PWR_DOM_STATE d.val = 3 ∧ tget 0
    t.domTo d.val = 3) ∧
  (∀ (s : State) (d : Fin 43), s.get .pwr F.PWR_HOLD / 2 ^ d.val % 2 = 1 → Answers (.domReq d true .normal) s fun t => t.get
    .pwr F.PWR_DOM_PEND d.val = 1 ∧ t.get .pwr F.PWR_DOM_RESULT d.val = 4 ∧ t.domTo = s.domTo ∧ t.on .pwr F.PWR_EVT_DEFER =
    true) ∧
  (∀ (s : State) (d : Fin 43), tget 0 s.domTo d.val = 1 → Answers (.domainChangeDone d) s fun t => t.get .pwr F.PWR_DOM_STATE
    d.val = 0 ∧ t.get .pwr F.PWR_DOM_RESULT d.val = 0 ∧ tget 0 t.domTo d.val = 0 ∧ t.on .pwr F.PWR_EVT_DOM = true) ∧
  (∀ (s : State) (d : Fin 43), tget 0 s.domTo d.val = 3 → Answers (.domainChangeDone d) s fun t => t.get .pwr F.PWR_DOM_STATE
    d.val = 2 ∧ t.get .pwr F.PWR_DOM_RESULT d.val = 0 ∧ tget 0 t.domTo d.val = 0 ∧ t.on .pwr F.PWR_EVT_DOM = true) ∧
  (∀ (s : State) (mask : BitVec 43), s.pwrHeld = none → Answers (.pwrHoldWrite mask .secure) s fun t => t.get .pwr F.PWR_HOLD =
    mask.toNat ∧ ∀ d : Fin 43, t.get .pwr F.PWR_DOM_HELD d.val = mask.toNat / 2 ^ d.val % 2) ∧
  (∀ (s : State) (n : Fin 32) (freq : Fin 64), Answers (.tileFreqWrite n freq) s fun t => t.get .pwr F.TILE_FREQ_FREQ n.val =
    freq.val ∧ (s.get .pwr F.TILE_FREQ_CUR n.val ≠ 0 → s.get .pwr F.TILE_FREQ_CUR n.val ≠ t.freqWant n.val → tget 0 s.freqTo
    n.val = 0 → tget 0 t.freqTo n.val = t.freqWant n.val)) ∧
  (∀ (s : State) (n : Fin 32) (g : Fin 64), tget 0 s.freqTo n.val = g.val → g.val ≠ 0 → s.freqWant n.val = g.val → Answers
    (.freqChangeDone n) s fun t => t.get .pwr F.TILE_FREQ_CUR n.val = g.val ∧ t.get .pwr F.TILE_FREQ_VCORE n.val = s.tileVcore
    n.val g.val % 2 ^ F.TILE_FREQ_VCORE.width) ∧
  (∀ (s : State) (amps : Vector Nat 4), Answers (.powerSample amps) s fun t => t.weir.samples = ((amps.toList, s.powerOf
    amps.toList) :: s.weir.samples).take 100 ∧ t.weir.calm = s.weir.calm) ∧
  (∀ (s : State) (temps : List Int), Answers (.weirTest temps) s fun t => t.get .pwr F.PWR_STAT_WEIR = ((s.tilesUsed.map fun e
    => s.weirsOn temps 100 e.1 e.2).foldl (fun a b => a ||| b) 0) % 2 ^ F.PWR_STAT_WEIR.width) ∧
  (∀ (s : State) (temps : List Int) (n : Fin 32) (p : Fin 36), s.physTile n.val = some p → s.weirsOn temps 100 n.val p.val ≠ 0
    → s.floorF < s.get .pwr F.TILE_FREQ_CAP n.val → Answers (.weirTest temps) s fun t => t.get .pwr F.TILE_FREQ_CAP n.val =
    s.get .pwr F.TILE_FREQ_CAP n.val - 1 ∧ t.on .pwr F.PWR_EVT_WEIR = true ∧ t.weir.calm = s.weir.calm - 1) ∧
  (∀ (s : State) (temps : List Int) (n : Fin 32) (p : Fin 36), s.physTile n.val = some p → (s.tilesUsed.any fun e => s.weirsOn
    temps 100 e.1 e.2 != 0) = false → (s.tilesUsed.any fun e => s.weirsOn temps 97 e.1 e.2 != 0) = false → s.weir.calm = 0 →
    Answers (.weirTest temps) s fun t => t.get .pwr F.TILE_FREQ_CAP n.val = min 32 (s.get .pwr F.TILE_FREQ_CAP n.val + 1) ∧
    t.weir.calm = 9 ∧ t.weir.halve = 0) ∧
  (∀ (s : State) (u : ClockUnit), 4 ≤ modeCode s.mode → s.clocks.contains u = false → s.mayGate u true = true → Answers
    (.clockGateEnter u true) s fun t => t.clocks = s.clocks ++ [u] ∧ t.deep = s.deep) ∧
  (∀ (s : State) (u : ClockUnit), s.mode = .still → s.clocks.contains u = true → s.deep.contains u = false → s.deepMs u ≠ 0 →
    s.demands u = false → Answers (.deepGateTimer u) s fun t => t.deep = s.deep ++ [u] ∧ t.clocks = s.clocks) ∧
  (∀ (s : State) (u : ClockUnit), s.clocks.contains u = true → s.demands u = true → Answers (.clockRestartDone u) s fun t =>
    t.clocks.contains u = false ∧ t.deep.contains u = false ∧ t.clocks.contains .hub = false)

/-- Traps and returns of a hart (spec/10_cores_worlds_translation.md: Worlds and privilege,
spec/10_cores_worlds_translation.md: Interrupts, spec/10_cores_worlds_translation.md: Translation). Traps and returns of a
running hart. An exception is delegated as medeleg and, in a guest, hedeleg say; 25 is the machine check, not among them.
TRAP not delegated, or in M, enters M in the secure world: cause, address and value saved, pc at mtvec. Delegated below M
in the secure world it enters secure S, in the normal world HS, SPV the V before (10, which only a guest has, is not
delegated on), delegated again in a guest VS, at its base with its address and cause saved. A guest-page fault on an
implicit access, not delegated, reports its pseudo instruction, address and jfault. MRET in M restores pc, MIE and the
level, MPP of M acting as U in the normal world; below M, not delegated, it is illegal. It is illegal too where it would
enter V 1 in the secure world. SRET in secure S, TSR 0, jsprev of the normal world, resumes its context; in HS, TSR 0,
sepc, SPP and SPV; in secure S, jsprev of the secure world, its own sepc and SPP; in VS, VTSR 0, vsepc and its SPP; in M
those of the bank that jworld names, unless SPV of the normal bank is 1; in U, or S with TSR 1, outside a guest and not
delegated, it is illegal. -/
def Obligations.Traps : Prop :=
  (∀ (s : State) (a : At) (h : Hart) (e : ExcArg), s.running a = some h → e.cause.val ≠ 25 → h.priv = 3 ∨ csr h 0x302 / 2 ^
    e.cause.val % 2 = 0 → Answers (.trap a e) s fun t => (t.hart a.hart.val).priv = 3 ∧ (t.hart a.hart.val).w = true ∧ (t.hart
    a.hart.val).v = false ∧ (t.hart a.hart.val).pc = csr h 0x305 / 4 * 4 ∧ csr (t.hart a.hart.val) 0x341 = a.pc % 2 ^ 64 ∧ csr
    (t.hart a.hart.val) 0x342 = e.cause.val ∧ csr (t.hart a.hart.val) 0x343 = e.tval % 2 ^ 64) ∧
  (∀ (s : State) (a : At) (h : Hart) (e : ExcArg), s.running a = some h → e.cause.val ≠ 25 → h.w = true → h.priv < 3 → csr h
    0x302 / 2 ^ e.cause.val % 2 = 1 → Answers (.trap a e) s fun t => (t.hart a.hart.val).priv = 1 ∧ (t.hart a.hart.val).w =
    true ∧ (t.hart a.hart.val).pc = csr h (4096 + 0x105) / 4 * 4 ∧ csr (t.hart a.hart.val) (4096 + 0x141) = a.pc % 2 ^ 64 ∧ csr
    (t.hart a.hart.val) (4096 + 0x142) = e.cause.val) ∧
  (∀ (s : State) (a : At) (h : Hart) (e : ExcArg), s.running a = some h → e.cause.val ≠ 25 → e.cause.val ≠ 10 → h.w = false →
    h.priv < 3 → csr h 0x302 / 2 ^ e.cause.val % 2 = 1 → h.v = false ∨ csr h 0x602 / 2 ^ e.cause.val % 2 = 0 → Answers (.trap a
    e) s fun t => (t.hart a.hart.val).priv = 1 ∧ (t.hart a.hart.val).w = false ∧ (t.hart a.hart.val).v = false ∧ (t.hart
    a.hart.val).pc = csr h 0x105 / 4 * 4 ∧ csr (t.hart a.hart.val) 0x141 = a.pc % 2 ^ 64 ∧ csr (t.hart a.hart.val) 0x142 =
    e.cause.val ∧ csr (t.hart a.hart.val) 0x143 = e.tval % 2 ^ 64 ∧ bitsOf (csr (t.hart a.hart.val) 0x600) 7 1 = bit h.v) ∧
  (∀ (s : State) (a : At) (h : Hart) (e : ExcArg), s.running a = some h → e.cause.val ≠ 25 → h.w = false → h.v = true → h.priv
    < 3 → csr h 0x302 / 2 ^ e.cause.val % 2 = 1 → csr h 0x602 / 2 ^ e.cause.val % 2 = 1 → Answers (.trap a e) s fun t =>
    (t.hart a.hart.val).priv = 1 ∧ (t.hart a.hart.val).w = false ∧ (t.hart a.hart.val).v = true ∧ (t.hart a.hart.val).pc = csr
    h 0x205 / 4 * 4 ∧ csr (t.hart a.hart.val) 0x241 = a.pc % 2 ^ 64 ∧ csr (t.hart a.hart.val) 0x242 = e.cause.val) ∧
  (∀ (s : State) (a : At) (h : Hart) (e : ExcArg), s.running a = some h → e.cause.val ∈ [20, 21, 23] → e.impl ≠ 0 → csr h 0x302
    / 2 ^ e.cause.val % 2 = 0 → Answers (.trap a e) s fun t => (t.hart a.hart.val).priv = 3 ∧ csr (t.hart a.hart.val) 0x34A =
    (if e.impl = 1 then 0x3000 else 0x3020) ∧ csr (t.hart a.hart.val) 0x34B = e.tval2 % 2 ^ 64 ∧ csr (t.hart a.hart.val) 0x7C2
    = e.jfault % 2 ^ 63 + 2 ^ 63) ∧
  (∀ (s : State) (a : At) (h : Hart), s.running a = some h → h.priv = 3 → csr h 0x7C0 % 2 = 0 ∨ bitsOf (csr h 0x300) 39 1 = 0 ∨
    bitsOf (csr h 0x300) 11 2 = 3 → Answers (.mret a) s fun t => (t.hart a.hart.val).pc = csr h 0x341 ∧ (t.hart
    a.hart.val).priv = (if csr h 0x7C0 % 2 = 0 ∧ bitsOf (csr h 0x300) 11 2 = 3 then 0 else bitsOf (csr h 0x300) 11 2) ∧ bitsOf
    (csr (t.hart a.hart.val) 0x300) 3 1 = bitsOf (csr h 0x300) 7 1) ∧
  (∀ (s : State) (a : At) (h : Hart), s.running a = some h → h.priv < 3 → csr h 0x302 / 4 % 2 = 0 → Answers (.mret a) s fun t
    => (t.hart a.hart.val).priv = 3 ∧ csr (t.hart a.hart.val) 0x342 = 2) ∧
  (∀ (s : State) (a : At) (h : Hart), s.running a = some h → h.priv = 3 → csr h 0x7C0 % 2 = 1 → bitsOf (csr h 0x300) 39 1 = 1 →
    bitsOf (csr h 0x300) 11 2 ≠ 3 → Answers (.mret a) s fun t => (t.hart a.hart.val).priv = 3 ∧ csr (t.hart a.hart.val) 0x342 =
    2) ∧
  (∀ (s : State) (a : At) (h : Hart), s.running a = some h → h.priv = 1 → h.v = false → h.w = true → bitsOf (csr h 0x300) 22 1
    = 0 → csr h 0x5C0 / 4 % 2 = 0 → Answers (.sret a) s fun t => (t.hart a.hart.val).w = false ∧ (t.hart a.hart.val).pc = csr h
    (4096 + 0x141) ∧ (t.hart a.hart.val).priv = csr h 0x5C0 % 2 ∧ ((t.hart a.hart.val).v = true ↔ csr h 0x5C0 / 2 % 2 = 1)) ∧
  (∀ (s : State) (a : At) (h : Hart), s.running a = some h → h.priv = 1 → h.v = false → h.w = false → bitsOf (csr h 0x300) 22 1
    = 0 → Answers (.sret a) s fun t => (t.hart a.hart.val).w = false ∧ (t.hart a.hart.val).pc = csr h 0x141 ∧ (t.hart
    a.hart.val).priv = bitsOf (csr h 0x100) 8 1 ∧ ((t.hart a.hart.val).v = true ↔ bitsOf (csr h 0x600) 7 1 = 1)) ∧
  (∀ (s : State) (a : At) (h : Hart), s.running a = some h → h.priv = 1 → h.v = false → h.w = true → bitsOf (csr h 0x300) 22 1
    = 0 → csr h 0x5C0 / 4 % 2 = 1 → Answers (.sret a) s fun t => (t.hart a.hart.val).w = true ∧ (t.hart a.hart.val).pc = csr h
    (4096 + 0x141) ∧ (t.hart a.hart.val).priv = bitsOf (csr h (4096 + 0x100)) 8 1) ∧
  (∀ (s : State) (a : At) (h : Hart), s.running a = some h → h.priv = 1 → h.v = true → bitsOf (csr h 0x600) 22 1 = 0 → Answers
    (.sret a) s fun t => (t.hart a.hart.val).v = true ∧ (t.hart a.hart.val).w = h.w ∧ (t.hart a.hart.val).pc = csr h 0x241 ∧
    (t.hart a.hart.val).priv = bitsOf (csr h 0x200) 8 1) ∧
  (∀ (s : State) (a : At) (h : Hart), s.running a = some h → h.priv = 3 → bankNow h ≠ 0 ∨ bitsOf (csr h 0x600) 7 1 = 0 →
    Answers (.sret a) s fun t => (t.hart a.hart.val).pc = csr h (bankNow h + 0x141) ∧ (t.hart a.hart.val).priv = bitsOf (csr h
    (bankNow h + 0x100)) 8 1) ∧
  (∀ (s : State) (a : At) (h : Hart), s.running a = some h → h.v = false → h.priv = 0 ∨ (h.priv = 1 ∧ bitsOf (csr h 0x300) 22 1
    = 1) → csr h 0x302 / 4 % 2 = 0 → Answers (.sret a) s fun t => (t.hart a.hart.val).priv = 3 ∧ csr (t.hart a.hart.val) 0x342
    = 2)

/-- Gates and the Xjuh registers with rows of their own (spec/10_cores_worlds_translation.md: GATE and GATEMARK,
spec/10_cores_worlds_translation.md: Xjuh registers). Gates and Xjuh registers, of a running hart. Faults and exceptions
here are not delegated. GATE_CALL from the normal world that jgatecfg allows, aligned, where secure S fetches GATEMARK with
the tag, enters secure S there, the link in rd; not allowed it is a gate fault, exception 24, from below M; GATE_RETURN in
secure S, jsprev of the normal world, resumes its context at rs1, the link in rd; GATEMARK with zero fields passes and
changes no register; with other fields or funct3 it is illegal. elsewhere in the secure world GATE is illegal. so it is to
an unaligned address, jfault KIND 11, counted in REFUSED, sepc at the call. JATOMCTL_CLEAR outside a guest and U writes the
mode and clears the tumbler, the pc passing. JGATECFG_WRITE in M writes the low five bits, REFUSED 0; below it, outside a
guest, it is illegal and changes nothing. In a guest JATOMCTL_CLEAR and JGATECFG_WRITE are virtual instructions. -/
def Obligations.Gates : Prop :=
  (∀ (s : State) (a : At) (h : Hart) (rd : Fin 32) (rs1 : BitVec 64) (tag : Fin 4096), s.running a = some h → h.w = false →
    gateAllowed h = true → rs1.toNat % 4 = 0 → ∀ (r : State × Option Nat), (s.clean.setHart a.hart.val h).secureFetch
    a.hart.val rs1.toNat = r → r.2 = some (gatemarkWord tag.val) → Answers (.gateCall a rd rs1 tag) s fun t => (t.hart
    a.hart.val).w = true ∧ (t.hart a.hart.val).priv = 1 ∧ (t.hart a.hart.val).v = false ∧ (t.hart a.hart.val).pc = rs1.toNat ∧
    (rd ≠ 0 → xreg (t.hart a.hart.val) rd.val = (a.pc + 4) % 2 ^ 64)) ∧
  (∀ (s : State) (a : At) (h : Hart) (rd : Fin 32) (rs1 : BitVec 64) (tag : Fin 4096), s.running a = some h → h.w = false →
    h.priv < 3 → gateAllowed h = false → csr h 0x302 / 2 ^ 24 % 2 = 0 → Answers (.gateCall a rd rs1 tag) s fun t => (t.hart
    a.hart.val).priv = 3 ∧ csr (t.hart a.hart.val) 0x342 = 24 ∧ (t.hart a.hart.val).pc = csr h 0x305 / 4 * 4) ∧
  (∀ (s : State) (a : At) (h : Hart) (rd : Fin 32) (rs1 : BitVec 64) (tag : Fin 4096), s.running a = some h → h.w = true →
    h.priv = 1 → csr h 0x5C0 / 4 % 2 = 0 → Answers (.gateReturn a rd rs1 tag) s fun t => (t.hart a.hart.val).w = false ∧
    (t.hart a.hart.val).pc = rs1.toNat ∧ (t.hart a.hart.val).priv = csr h 0x5C0 % 2 ∧ (rd ≠ 0 → xreg (t.hart a.hart.val) rd.val
    = (a.pc + 4) % 2 ^ 64)) ∧
  (∀ (s : State) (a : At) (h : Hart), s.running a = some h → Answers (.gatemark a 0 0 1) s fun t => t.hart a.hart.val =
    { h with pc := (a.pc + instLen a) % 2 ^ 64 } ∧ t.regs = s.regs) ∧
  (∀ (s : State) (a : At) (h : Hart) (rs1 rd : Fin 32) (f3 : Fin 8), s.running a = some h → rs1 ≠ 0 ∨ rd ≠ 0 ∨ f3 ≠ 1 → h.priv
    = 3 ∨ csr h 0x302 / 4 % 2 = 0 → Answers (.gatemark a rs1 rd f3) s fun t => (t.hart a.hart.val).priv = 3 ∧ (t.hart
    a.hart.val).w = true ∧ csr (t.hart a.hart.val) 0x342 = 2 ∧ csr (t.hart a.hart.val) 0x343 = a.inst % 2 ^ 64 ∧ csr (t.hart
    a.hart.val) 0x341 = a.pc % 2 ^ 64 ∧ (t.hart a.hart.val).pc = csr h 0x305 / 4 * 4) ∧
  (∀ (s : State) (a : At) (h : Hart) (rd : Fin 32) (rs1 : BitVec 64) (tag : Fin 4096), s.running a = some h → h.w = true →
    h.priv ≠ 1 ∨ csr h 0x5C0 / 4 % 2 = 1 → h.priv = 3 ∨ csr h 0x302 / 4 % 2 = 0 → Answers (.gateReturn a rd rs1 tag) s fun t =>
    (t.hart a.hart.val).priv = 3 ∧ (t.hart a.hart.val).w = true ∧ csr (t.hart a.hart.val) 0x342 = 2 ∧ csr (t.hart a.hart.val)
    0x343 = a.inst % 2 ^ 64 ∧ csr (t.hart a.hart.val) 0x341 = a.pc % 2 ^ 64 ∧ (t.hart a.hart.val).pc = csr h 0x305 / 4 * 4) ∧
  (∀ (s : State) (a : At) (h : Hart) (rd : Fin 32) (rs1 : BitVec 64) (tag : Fin 4096), s.running a = some h → h.w = false →
    h.priv < 3 → gateAllowed h = true → rs1.toNat % 4 ≠ 0 → csr h 0x302 / 2 ^ 24 % 2 = 0 → Answers (.gateCall a rd rs1 tag) s
    fun t => (t.hart a.hart.val).priv = 3 ∧ (t.hart a.hart.val).w = true ∧ csr (t.hart a.hart.val) 0x342 = 24 ∧ csr (t.hart
    a.hart.val) 0x7C2 = 11 * 64 + 2 ^ 63 ∧ bitsOf (csr (t.hart a.hart.val) 0x7C1) 32 32 = min (bitsOf (csr h 0x7C1) 32 32 + 1)
    (2 ^ 32 - 1) ∧ csr (t.hart a.hart.val) 0x341 = a.pc % 2 ^ 64) ∧
  (∀ (s : State) (a : At) (h : Hart) (mode : Fin 4), s.running a = some h → h.v = false → h.priv ≠ 0 → Answers (.jatomctlClear
    a mode) s fun t => (t.hart a.hart.val).tumbler = [] ∧ csr (t.hart a.hart.val) 0x5C2 = mode.val ∧ (t.hart a.hart.val).pc =
    (a.pc + instLen a) % 2 ^ 64) ∧
  (∀ (s : State) (a : At) (h : Hart) (v : BitVec 64), s.running a = some h → h.v = false → h.priv = 3 → Answers (.jgatecfgWrite
    a v) s fun t => csr (t.hart a.hart.val) 0x7C1 = v.toNat % 32 ∧ (t.hart a.hart.val).pc = (a.pc + instLen a) % 2 ^ 64) ∧
  (∀ (s : State) (a : At) (h : Hart) (v : BitVec 64), s.running a = some h → h.v = false → h.priv < 3 → csr h 0x302 / 4 % 2 = 0
    → Answers (.jgatecfgWrite a v) s fun t => csr (t.hart a.hart.val) 0x7C1 = csr h 0x7C1 ∧ csr (t.hart a.hart.val) 0x342 = 2 ∧
    (t.hart a.hart.val).priv = 3) ∧
  (∀ (s : State) (a : At) (h : Hart) (mode : Fin 4), s.running a = some h → h.v = true → h.priv < 3 → csr h 0x302 / 2 ^ 22 % 2
    = 0 → Answers (.jatomctlClear a mode) s fun t => (t.hart a.hart.val).priv = 3 ∧ (t.hart a.hart.val).w = true ∧ csr (t.hart
    a.hart.val) 0x342 = 22 ∧ csr (t.hart a.hart.val) 0x343 = a.inst % 2 ^ 64 ∧ csr (t.hart a.hart.val) 0x341 = a.pc % 2 ^ 64 ∧
    (t.hart a.hart.val).pc = csr h 0x305 / 4 * 4) ∧
  (∀ (s : State) (a : At) (h : Hart) (v : BitVec 64), s.running a = some h → h.v = true → h.priv < 3 → csr h 0x302 / 2 ^ 22 % 2
    = 0 → Answers (.jgatecfgWrite a v) s fun t => (t.hart a.hart.val).priv = 3 ∧ (t.hart a.hart.val).w = true ∧ csr (t.hart
    a.hart.val) 0x342 = 22 ∧ csr (t.hart a.hart.val) 0x343 = a.inst % 2 ^ 64 ∧ csr (t.hart a.hart.val) 0x341 = a.pc % 2 ^ 64 ∧
    (t.hart a.hart.val).pc = csr h 0x305 / 4 * 4)

/-- Fences of a hart (spec/10_cores_worlds_translation.md: Invalidation and stale entries,
spec/10_cores_worlds_translation.md: Worlds and privilege, spec/11_caches_and_coherence.md: The levels). Fences of a
running hart change no other hart, register or memory, and their pc passes; accesses are performed in their own step.
Exceptions are not delegated. FENCE and FENCE_I pass alone. SFENCE_VMA in S outside a guest, TVM 0, drops exactly the
entries of its world, no guest, that match address and space; in M those of the world that jworld names; in VS, VTVM 0, the
guest's own. In U, or S with TVM 1, it is illegal, in VU, or VS with VTVM 1, a virtual instruction, and drops nothing.
HFENCE_VVMA in HS drops exactly the matching entries of the current VMID, HFENCE_GVMA, TVM 0, those of the VMID named or of
all; in U or the secure world HFENCE_VVMA is illegal, in a guest a virtual instruction, and drops nothing. in U or the
secure world HFENCE_GVMA is illegal, in a guest a virtual instruction, and drops nothing. -/
def Obligations.Fences : Prop :=
  (∀ (s : State) (a : At) (h : Hart) (p q : Fin 16), s.running a = some h → Answers (.fence a p q) s fun t => t.hart a.hart.val
    = { h with pc := (a.pc + instLen a) % 2 ^ 64 } ∧ (∀ n : Fin 256, n ≠ a.hart → t.hart n.val = s.hart n.val) ∧ t.regs =
    s.regs ∧ SameMemory s t) ∧
  (∀ (s : State) (a : At) (h : Hart), s.running a = some h → Answers (.fenceI a) s fun t => t.hart a.hart.val =
    { h with pc := (a.pc + instLen a) % 2 ^ 64 } ∧ (∀ n : Fin 256, n ≠ a.hart → t.hart n.val = s.hart n.val) ∧ t.regs = s.regs
    ∧ SameMemory s t) ∧
  (∀ (s : State) (a : At) (h : Hart) (va : Option (BitVec 64)) (asid : Option (Fin 65536)), s.running a = some h → h.v = false
    → h.priv = 1 → bitsOf (csr h 0x300) 20 1 = 0 → Answers (.sfenceVma a va asid) s fun t => (∀ e ∈ (t.hart a.hart.val).tlb, e
    ∈ h.tlb ∧ ¬ (e.w = h.w ∧ e.v = false ∧ maps e va = true ∧ ofAsid e asid = true)) ∧ (∀ e ∈ h.tlb, e ∈ (t.hart
    a.hart.val).tlb ∨ (e.w = h.w ∧ e.v = false ∧ maps e va = true ∧ ofAsid e asid = true)) ∧ (t.hart a.hart.val) =
    { h with pc := (a.pc + instLen a) % 2 ^ 64, tlb := (t.hart a.hart.val).tlb } ∧ (∀ n : Fin 256, n ≠ a.hart → t.hart n.val =
    s.hart n.val) ∧ t.regs = s.regs ∧ SameMemory s t) ∧
  (∀ (s : State) (a : At) (h : Hart) (va : Option (BitVec 64)) (asid : Option (Fin 65536)), s.running a = some h → h.v = false
    → h.priv = 3 → Answers (.sfenceVma a va asid) s fun t => (∀ e ∈ (t.hart a.hart.val).tlb, e ∈ h.tlb ∧ ¬ (bit e.w = bitsOf
    (csr h 0x7C0) 1 1 ∧ e.v = false ∧ maps e va = true ∧ ofAsid e asid = true)) ∧ (∀ e ∈ h.tlb, e ∈ (t.hart a.hart.val).tlb ∨
    (bit e.w = bitsOf (csr h 0x7C0) 1 1 ∧ e.v = false ∧ maps e va = true ∧ ofAsid e asid = true)) ∧ (t.hart a.hart.val) =
    { h with pc := (a.pc + instLen a) % 2 ^ 64, tlb := (t.hart a.hart.val).tlb } ∧ (∀ n : Fin 256, n ≠ a.hart → t.hart n.val =
    s.hart n.val) ∧ t.regs = s.regs ∧ SameMemory s t) ∧
  (∀ (s : State) (a : At) (h : Hart) (va : Option (BitVec 64)) (asid : Option (Fin 65536)), s.running a = some h → h.v = true →
    h.priv = 1 → bitsOf (csr h 0x600) 20 1 = 0 → Answers (.sfenceVma a va asid) s fun t => (∀ e ∈ (t.hart a.hart.val).tlb, e ∈
    h.tlb ∧ ¬ (e.w = h.w ∧ e.v = true ∧ e.vmid = bitsOf (csr h 0x680) 44 14 ∧ maps e va = true ∧ ofAsid e asid = true)) ∧ (∀ e
    ∈ h.tlb, e ∈ (t.hart a.hart.val).tlb ∨ (e.w = h.w ∧ e.v = true ∧ e.vmid = bitsOf (csr h 0x680) 44 14 ∧ maps e va = true ∧
    ofAsid e asid = true)) ∧ (t.hart a.hart.val) = { h with pc := (a.pc + instLen a) % 2 ^ 64, tlb := (t.hart a.hart.val).tlb }
    ∧ (∀ n : Fin 256, n ≠ a.hart → t.hart n.val = s.hart n.val) ∧ t.regs = s.regs ∧ SameMemory s t) ∧
  (∀ (s : State) (a : At) (h : Hart) (va : Option (BitVec 64)) (asid : Option (Fin 65536)), s.running a = some h → h.v = false
    → h.priv = 0 ∨ (h.priv = 1 ∧ bitsOf (csr h 0x300) 20 1 = 1) → csr h 0x302 / 4 % 2 = 0 → Answers (.sfenceVma a va asid) s
    fun t => (t.hart a.hart.val).priv = 3 ∧ (t.hart a.hart.val).w = true ∧ csr (t.hart a.hart.val) 0x342 = 2 ∧ csr (t.hart
    a.hart.val) 0x343 = a.inst % 2 ^ 64 ∧ csr (t.hart a.hart.val) 0x341 = a.pc % 2 ^ 64 ∧ (t.hart a.hart.val).pc = csr h 0x305
    / 4 * 4 ∧ (t.hart a.hart.val).tlb = h.tlb ∧ (∀ n : Fin 256, n ≠ a.hart → t.hart n.val = s.hart n.val) ∧ t.regs = s.regs ∧
    SameMemory s t) ∧
  (∀ (s : State) (a : At) (h : Hart) (va : Option (BitVec 64)) (asid : Option (Fin 65536)), s.running a = some h → h.v = true →
    h.priv = 0 ∨ (h.priv = 1 ∧ bitsOf (csr h 0x600) 20 1 = 1) → csr h 0x302 / 2 ^ 22 % 2 = 0 → Answers (.sfenceVma a va asid) s
    fun t => (t.hart a.hart.val).priv = 3 ∧ (t.hart a.hart.val).w = true ∧ csr (t.hart a.hart.val) 0x342 = 22 ∧ csr (t.hart
    a.hart.val) 0x343 = a.inst % 2 ^ 64 ∧ csr (t.hart a.hart.val) 0x341 = a.pc % 2 ^ 64 ∧ (t.hart a.hart.val).pc = csr h 0x305
    / 4 * 4 ∧ (t.hart a.hart.val).tlb = h.tlb ∧ (∀ n : Fin 256, n ≠ a.hart → t.hart n.val = s.hart n.val) ∧ t.regs = s.regs ∧
    SameMemory s t) ∧
  (∀ (s : State) (a : At) (h : Hart) (va : Option (BitVec 64)) (asid : Option (Fin 65536)), s.running a = some h → h.v = false
    → h.w = false → h.priv = 1 → Answers (.hfenceVvma a va asid) s fun t => (∀ e ∈ (t.hart a.hart.val).tlb, e ∈ h.tlb ∧ ¬ (e.w
    = false ∧ e.v = true ∧ e.vmid = bitsOf (csr h 0x680) 44 14 ∧ maps e va = true ∧ ofAsid e asid = true)) ∧ (∀ e ∈ h.tlb, e ∈
    (t.hart a.hart.val).tlb ∨ (e.w = false ∧ e.v = true ∧ e.vmid = bitsOf (csr h 0x680) 44 14 ∧ maps e va = true ∧ ofAsid e
    asid = true)) ∧ (t.hart a.hart.val) = { h with pc := (a.pc + instLen a) % 2 ^ 64, tlb := (t.hart a.hart.val).tlb } ∧ (∀ n :
    Fin 256, n ≠ a.hart → t.hart n.val = s.hart n.val) ∧ t.regs = s.regs ∧ SameMemory s t) ∧
  (∀ (s : State) (a : At) (h : Hart) (gpa : Option (BitVec 64)) (vmid : Option (Fin 16384)), s.running a = some h → h.v = false
    → h.w = false → h.priv = 1 → bitsOf (csr h 0x300) 20 1 = 0 → Answers (.hfenceGvma a gpa vmid) s fun t => (∀ e ∈ (t.hart
    a.hart.val).tlb, e ∈ h.tlb ∧ ¬ (e.w = false ∧ e.v = true ∧ (vmid = none ∨ vmid.map Fin.val = some e.vmid))) ∧ (∀ e ∈ h.tlb,
    e ∈ (t.hart a.hart.val).tlb ∨ (e.w = false ∧ e.v = true ∧ (vmid = none ∨ vmid.map Fin.val = some e.vmid))) ∧ (t.hart
    a.hart.val) = { h with pc := (a.pc + instLen a) % 2 ^ 64, tlb := (t.hart a.hart.val).tlb } ∧ (∀ n : Fin 256, n ≠ a.hart →
    t.hart n.val = s.hart n.val) ∧ t.regs = s.regs ∧ SameMemory s t) ∧
  (∀ (s : State) (a : At) (h : Hart) (va : Option (BitVec 64)) (asid : Option (Fin 65536)), s.running a = some h → h.v = false
    → h.w = true ∨ h.priv = 0 → h.priv = 3 ∨ csr h 0x302 / 4 % 2 = 0 → Answers (.hfenceVvma a va asid) s fun t => (t.hart
    a.hart.val).priv = 3 ∧ (t.hart a.hart.val).w = true ∧ csr (t.hart a.hart.val) 0x342 = 2 ∧ csr (t.hart a.hart.val) 0x343 =
    a.inst % 2 ^ 64 ∧ csr (t.hart a.hart.val) 0x341 = a.pc % 2 ^ 64 ∧ (t.hart a.hart.val).pc = csr h 0x305 / 4 * 4 ∧ (t.hart
    a.hart.val).tlb = h.tlb ∧ (∀ n : Fin 256, n ≠ a.hart → t.hart n.val = s.hart n.val) ∧ t.regs = s.regs ∧ SameMemory s t) ∧
  (∀ (s : State) (a : At) (h : Hart) (va : Option (BitVec 64)) (asid : Option (Fin 65536)), s.running a = some h → h.v = true →
    h.priv < 3 → csr h 0x302 / 2 ^ 22 % 2 = 0 → Answers (.hfenceVvma a va asid) s fun t => (t.hart a.hart.val).priv = 3 ∧
    (t.hart a.hart.val).w = true ∧ csr (t.hart a.hart.val) 0x342 = 22 ∧ csr (t.hart a.hart.val) 0x343 = a.inst % 2 ^ 64 ∧ csr
    (t.hart a.hart.val) 0x341 = a.pc % 2 ^ 64 ∧ (t.hart a.hart.val).pc = csr h 0x305 / 4 * 4 ∧ (t.hart a.hart.val).tlb = h.tlb
    ∧ (∀ n : Fin 256, n ≠ a.hart → t.hart n.val = s.hart n.val) ∧ t.regs = s.regs ∧ SameMemory s t) ∧
  (∀ (s : State) (a : At) (h : Hart) (gpa : Option (BitVec 64)) (vmid : Option (Fin 16384)), s.running a = some h → h.v = false
    → h.w = true ∨ h.priv = 0 → h.priv = 3 ∨ csr h 0x302 / 4 % 2 = 0 → Answers (.hfenceGvma a gpa vmid) s fun t => (t.hart
    a.hart.val).priv = 3 ∧ (t.hart a.hart.val).w = true ∧ csr (t.hart a.hart.val) 0x342 = 2 ∧ csr (t.hart a.hart.val) 0x343 =
    a.inst % 2 ^ 64 ∧ csr (t.hart a.hart.val) 0x341 = a.pc % 2 ^ 64 ∧ (t.hart a.hart.val).pc = csr h 0x305 / 4 * 4 ∧ (t.hart
    a.hart.val).tlb = h.tlb ∧ (∀ n : Fin 256, n ≠ a.hart → t.hart n.val = s.hart n.val) ∧ t.regs = s.regs ∧ SameMemory s t) ∧
  (∀ (s : State) (a : At) (h : Hart) (gpa : Option (BitVec 64)) (vmid : Option (Fin 16384)), s.running a = some h → h.v = true
    → h.priv < 3 → csr h 0x302 / 2 ^ 22 % 2 = 0 → Answers (.hfenceGvma a gpa vmid) s fun t => (t.hart a.hart.val).priv = 3 ∧
    (t.hart a.hart.val).w = true ∧ csr (t.hart a.hart.val) 0x342 = 22 ∧ csr (t.hart a.hart.val) 0x343 = a.inst % 2 ^ 64 ∧ csr
    (t.hart a.hart.val) 0x341 = a.pc % 2 ^ 64 ∧ (t.hart a.hart.val).pc = csr h 0x305 / 4 * 4 ∧ (t.hart a.hart.val).tlb = h.tlb
    ∧ (∀ n : Fin 256, n ≠ a.hart → t.hart n.val = s.hart n.val) ∧ t.regs = s.regs ∧ SameMemory s t)

/-- Loads, stores and atomics of a hart (spec/10_cores_worlds_translation.md: What a hart can reach,
spec/10_cores_worlds_translation.md: The instruction set, spec/10_cores_worlds_translation.md: Interrupts,
spec/11_caches_and_coherence.md: Atomics, near and far). Accesses of a running hart. Translation and service are those of
the access itself (r). HART_LOAD of the current context into rd, not x0, that is served puts the value there, sign-extended
when it says so, and passes. In any context and to any destination, vector elements included, that is not refused, the
destination takes the bytes. A fetch answers its bytes. HART_STORE of the current context from an integer register that is
served passes. In any context from an integer or floating-point register, not refused, it passes too; of a vector element
it passes with vstart 0. HART_AMO in M of a doubleword at an unaligned address traps with cause 6. Of an aligned AMO, rd
not x0, translated, the line not poisoned: near, rd takes the old value and the core's line the result, far, rd takes the
old value that the home answers, memory, homes and copies being as it leaves them; LR likewise loads, its line reserved; SC
with the line reserved stores and answers 0, the reservation given up, without it answers 1. -/
def Obligations.HartMemory : Prop :=
  (∀ (s : State) (a : At) (h : Hart) (m : MemArg) (rd : Fin 32) (sg : Bool) (par : Parity), s.running a = some h → m.via = .own
    → rd ≠ 0 → ∀ (r : State × Access), (s.clean.setHart a.hart.val h).memRead (cxOf h a.hart.val false false) ⟨.load, 2 ^
    m.lg.val, false, false, false⟩ 8 m.va.toNat (2 ^ m.lg.val) m.walk par = r → ∀ bs, r.2 = .ok bs → Answers (.hartLoad a m (.x
    rd sg) par) s fun t => xreg (t.hart a.hart.val) rd.val = extended sg bs.length (leNat bs) % 2 ^ 64 ∧ (t.hart a.hart.val).pc
    = (a.pc + instLen a) % 2 ^ 64) ∧
  (∀ (s : State) (a : At) (h : Hart) (m : MemArg) (d : Dest) (par : Parity), s.running a = some h → d ≠ .fetch → accessRefusal
    h m.via (destExt d) = none → ∀ (c : WalkCx), (if m.via = .own then cxOf h a.hart.val false false else
    { cxOf h a.hart.val false true with w := false }) = c → ∀ (r : State × Access), (s.clean.setHart a.hart.val h).memRead c
    ⟨loadKind d m.via, 2 ^ m.lg.val, false, destExt d == some 9, false⟩ 8 m.va.toNat (2 ^ m.lg.val) m.walk par = r → ∀ bs, r.2
    = .ok bs → Answers (.hartLoad a m d par) s fun t => t = (r.1.setHart a.hart.val (destLoad (r.1.hart a.hart.val) bs
    d)).step_ a ∧ (t.hart a.hart.val).pc = (a.pc + instLen a) % 2 ^ 64) ∧
  (∀ (s : State) (a : At) (h : Hart) (m : MemArg) (par : Parity), s.running a = some h → ∀ (r : State × Access),
    (s.clean.setHart a.hart.val h).memRead (cxOf h a.hart.val true false) ⟨.fetch, instLen a, false, false, false⟩ 11 (a.pc % 2
    ^ 64) (instLen a) m.walk par = r → ∀ bs, r.2 = .ok bs → Answers (.hartLoad a m .fetch par) s fun t => t.out.getLast? = some
    (.value (leNat bs))) ∧
  (∀ (s : State) (a : At) (h : Hart) (m : MemArg) (rs2 : Fin 32), s.running a = some h → m.via = .own → ∀ (r : State × Option
    (Flt × Nat)), (s.clean.setHart a.hart.val h).memWrite (cxOf h a.hart.val false false) ⟨.store, 2 ^ m.lg.val, false, false,
    false⟩ m.va.toNat (leBytes (2 ^ m.lg.val) (xreg h rs2.val)) m.walk = r → r.2 = none → Answers (.hartStore a m (.x rs2)) s
    fun t => t = r.1.step_ a ∧ (t.hart a.hart.val).pc = (a.pc + instLen a) % 2 ^ 64) ∧
  (∀ (s : State) (a : At) (h : Hart) (m : MemArg) (d : Src), s.running a = some h → accessRefusal h m.via (srcExt d) = none → ∀
    v e, d ≠ .vec v e → ∀ (r : State × Option (Flt × Nat)), (s.clean.setHart a.hart.val h).memWrite (cxOf h a.hart.val false
    (m.via != .own)) ⟨.store, 2 ^ m.lg.val, false, false, false⟩ m.va.toNat (srcBytes h (2 ^ m.lg.val) d) m.walk = r → r.2 =
    none → Answers (.hartStore a m d) s fun t => t = r.1.step_ a ∧ (t.hart a.hart.val).pc = (a.pc + instLen a) % 2 ^ 64) ∧
  (∀ (s : State) (a : At) (h : Hart) (m : MemArg) (vs : Fin 32) (el : Fin 256), s.running a = some h → accessRefusal h m.via
    (some 9) = none → ∀ (r : State × Option (Flt × Nat)), (s.clean.setHart a.hart.val h).memWrite (cxOf h a.hart.val false
    (m.via != .own)) ⟨.store, 2 ^ m.lg.val, false, true, false⟩ m.va.toNat (elemOf h vs.val el.val (2 ^ m.lg.val)) m.walk = r →
    r.2 = none → Answers (.hartStore a m (.vec vs el)) s fun t => (t.hart a.hart.val).pc = (a.pc + instLen a) % 2 ^ 64 ∧ csr
    (t.hart a.hart.val) 0x008 = 0) ∧
  (∀ (s : State) (a : At) (h : Hart) (m : MemArg) (op : HartAmo) (rd rs2 : Fin 32) (par : Parity), s.running a = some h →
    m.lg.val = 3 → m.va.toNat % 8 ≠ 0 → h.priv = 3 → Answers (.hartAmo a m op rd rs2 par) s fun t => csr (t.hart a.hart.val)
    0x342 = 6 ∧ csr (t.hart a.hart.val) 0x343 = m.va.toNat ∧ (t.hart a.hart.val).pc = csr h 0x305 / 4 * 4) ∧
  (∀ (s : State) (a : At) (h : Hart) (m : MemArg) (op : HartAmo) (rd rs2 : Fin 32) (par : Parity), s.running a = some h →
    m.va.toNat % (if m.lg.val = 3 then 8 else 4) = 0 → rd ≠ 0 → ∀ (r : State × (Trans ⊕ Flt)), (s.clean.setHart a.hart.val
    h).translate (cxOf h a.hart.val false false) ⟨.store, if m.lg.val = 3 then 8 else 4, true, false, false⟩ m.va.toNat m.walk
    = r → ∀ p, r.2 = .inl p → goesFar ((r.1.coreParity a.hart.val (p.pa / 64) par).hart a.hart.val) (p.pa / 64) = false → ∀ (q
    : State), (r.1.coreParity a.hart.val (p.pa / 64) par).makeUnique a.hart.val (p.pa / 64) = q → ∀ c, q.myCopy a.hart.val
    (p.pa / 64) = some c → c.d.pmask = 0 → c.d.bytes.length = 64 → Answers (.hartAmo a m op rd rs2 par) s fun t => xreg (t.hart
    a.hart.val) rd.val = extended true (if m.lg.val = 3 then 8 else 4) (leNat ((c.d.bytes.drop (p.pa % 64)).take (if m.lg.val =
    3 then 8 else 4))) % 2 ^ 64 ∧ (t.myCopy a.hart.val (p.pa / 64)).map (fun x => (x.d.bytes.drop (p.pa % 64)).take (if
    m.lg.val = 3 then 8 else 4)) = some (leBytes (if m.lg.val = 3 then 8 else 4) (amoNew (amoOpOf op) (8 * (if m.lg.val = 3
    then 8 else 4)) (leNat ((c.d.bytes.drop (p.pa % 64)).take (if m.lg.val = 3 then 8 else 4))) (xreg h rs2.val))) ∧ (t.hart
    a.hart.val).pc = (a.pc + instLen a) % 2 ^ 64) ∧
  (∀ (s : State) (a : At) (h : Hart) (m : MemArg) (op : HartAmo) (rd rs2 : Fin 32) (par : Parity), s.running a = some h →
    m.va.toNat % (if m.lg.val = 3 then 8 else 4) = 0 → rd ≠ 0 → ∀ (r : State × (Trans ⊕ Flt)), (s.clean.setHart a.hart.val
    h).translate (cxOf h a.hart.val false false) ⟨.store, if m.lg.val = 3 then 8 else 4, true, false, false⟩ m.va.toNat m.walk
    = r → ∀ p, r.2 = .inl p → ∀ (q0 : State), (r.1.coreParity a.hart.val (p.pa / 64) par) = q0 → goesFar (q0.hart a.hart.val)
    (p.pa / 64) = true → ∀ (z : State × Option LineData × Bool), q0.atHome (p.pa / 64)
    { op := .amo, port := q0.hartPort a.hart.val, txn := 0, w := (q0.hart a.hart.val).w, own := storeOwn (q0.hart a.hart.val) a.hart.val, aop := amoOpOf op, off := p.pa % 64, wide := (if m.lg.val = 3 then 8 else 4) == 8, operand := xreg (q0.hart a.hart.val) rs2.val, hart := a.hart.val }
    = z → ∀ d, z.2.1 = some d → d.pmask = 0 → Answers (.hartAmo a m op rd rs2 par) s fun t => xreg (t.hart a.hart.val) rd.val =
    extended true (if m.lg.val = 3 then 8 else 4) (leNat ((d.bytes.drop (p.pa % 64)).take (if m.lg.val = 3 then 8 else 4))) % 2
    ^ 64 ∧ t.dram = z.1.dram ∧ t.homes = z.1.homes ∧ t.copies = z.1.copies ∧ (t.hart a.hart.val).pc = (a.pc + instLen a) % 2 ^
    64) ∧
  (∀ (s : State) (a : At) (h : Hart) (m : MemArg) (rd : Fin 32) (par : Parity), s.running a = some h → m.va.toNat % (if
    m.lg.val = 3 then 8 else 4) = 0 → rd ≠ 0 → ∀ (r : State × (Trans ⊕ Flt)), (s.clean.setHart a.hart.val h).translate (cxOf h
    a.hart.val false false) ⟨.load, if m.lg.val = 3 then 8 else 4, true, false, false⟩ m.va.toNat m.walk = r → ∀ p, r.2 = .inl
    p → ∀ (q : State), (r.1.coreParity a.hart.val (p.pa / 64) par).makeUnique a.hart.val (p.pa / 64) = q → ∀ c, q.myCopy
    a.hart.val (p.pa / 64) = some c → c.d.pmask = 0 → c.d.bytes.length = 64 → Answers (.lr a m rd par) s fun t => xreg (t.hart
    a.hart.val) rd.val = extended true (if m.lg.val = 3 then 8 else 4) (leNat ((c.d.bytes.drop (p.pa % 64)).take (if m.lg.val =
    3 then 8 else 4))) % 2 ^ 64 ∧ (t.hart a.hart.val).resv = some (p.pa / 64) ∧ (t.hart a.hart.val).pc = (a.pc + instLen a) % 2
    ^ 64) ∧
  (∀ (s : State) (a : At) (h : Hart) (m : MemArg) (rd rs2 : Fin 32) (par : Parity), s.running a = some h → m.va.toNat % (if
    m.lg.val = 3 then 8 else 4) = 0 → rd ≠ 0 → ∀ (r : State × (Trans ⊕ Flt)), (s.clean.setHart a.hart.val h).translate (cxOf h
    a.hart.val false false) ⟨.store, if m.lg.val = 3 then 8 else 4, true, false, false⟩ m.va.toNat m.walk = r → ∀ p, r.2 = .inl
    p → ((r.1.coreParity a.hart.val (p.pa / 64) par).hart a.hart.val).resv = some (p.pa / 64) → ∀ (q : State), (r.1.coreParity
    a.hart.val (p.pa / 64) par).makeUnique a.hart.val (p.pa / 64) = q → ∀ c, q.myCopy a.hart.val (p.pa / 64) = some c →
    c.d.pmask = 0 → c.d.bytes.length = 64 → Answers (.sc a m rd rs2 par) s fun t => xreg (t.hart a.hart.val) rd.val = 0 ∧
    (t.hart a.hart.val).resv = none ∧ (t.myCopy a.hart.val (p.pa / 64)).map (fun x => (x.d.bytes.drop (p.pa % 64)).take (if
    m.lg.val = 3 then 8 else 4)) = some (leBytes (if m.lg.val = 3 then 8 else 4) (xreg h rs2.val)) ∧ (t.hart a.hart.val).pc =
    (a.pc + instLen a) % 2 ^ 64) ∧
  (∀ (s : State) (a : At) (h : Hart) (m : MemArg) (rd rs2 : Fin 32) (par : Parity), s.running a = some h → m.va.toNat % (if
    m.lg.val = 3 then 8 else 4) = 0 → rd ≠ 0 → ∀ (r : State × (Trans ⊕ Flt)), (s.clean.setHart a.hart.val h).translate (cxOf h
    a.hart.val false false) ⟨.store, if m.lg.val = 3 then 8 else 4, true, false, false⟩ m.va.toNat m.walk = r → ∀ p, r.2 = .inl
    p → ((r.1.coreParity a.hart.val (p.pa / 64) par).hart a.hart.val).resv ≠ some (p.pa / 64) → Answers (.sc a m rd rs2 par) s
    fun t => xreg (t.hart a.hart.val) rd.val = 1 ∧ (t.hart a.hart.val).resv = none ∧ (t.hart a.hart.val).pc = (a.pc + instLen
    a) % 2 ^ 64)

/-- Interrupt sources, interrupts of a hart, and the maps of worlds (spec/10_cores_worlds_translation.md: Interrupts,
spec/10_cores_worlds_translation.md: The world map, spec/10_cores_worlds_translation.md: Internal masters,
spec/18_errors_counters_trace.md: Machine checks). Interrupt sources, interrupts of a hart, and the maps of worlds.
IRQ_SOURCE_CHANGE of a unit's source shows what the unit asserts. IRQ shows the level a die sends over a link that is
Active; over another nothing comes. MTIMECMP_MATCH of a present core lets PKG_TIME reach its compare value.
INTERRUPT_TAKEN, the hart running, no machine check waiting and its next interrupt for M, enters M at the boundary with
code and pc saved. ASYNC_MACHINE_CHECK of a store answered with ERR, the hart's core present and not taken by a tile
command, waits at a running hart. CORE_MCE_RELEASE with none waiting clears VALID alone. WMAP_COMMIT unlocked and not busy
takes the enabled regions with BUSY 1, the map standing; WMAP_COMMIT_DONE puts them in force, BUSY 0, every TLB empty.
IOW_WORLD_CHANGE of masters 0 to 10 writes the world with BUSY 1, the master keeping its world. -/
def Obligations.InterruptsAndWorlds : Prop :=
  (∀ (s : State) (src : Fin 3136) (u : UnitId), unitAt (src.val / 64) (src.val % 64) = some u → Answers (.irqSourceChange src)
    s fun t => t.get .irq F.ROUTE_ASSERTED src.val = bit (s.unitAsserted u)) ∧
  (∀ (s : State) (src : Fin 3136) (level : Bool), (∀ n : Fin 45, s.irqLink src.val = some n.val → s.get (.vz n) F.VZ_STAT_STATE
    = 8) → Answers (.irq src level) s fun t => t.get .irq F.ROUTE_ASSERTED src.val = bit level) ∧
  (∀ (s : State) (src : Fin 3136) (level : Bool) (n : Fin 45), s.irqLink src.val = some n.val → s.get (.vz n) F.VZ_STAT_STATE ≠
    8 → Answers (.irq src level) s fun t => t = { s with out := [] }) ∧
  (∀ (s : State) (n : Fin 256) (u : UnitId), s.coreUnit n.val = some u → s.get u F.CORE_MTIMECMP < 2 ^ 64 → Answers
    (.mtimecmpMatch n) s fun t => t.get .irq F.PKG_TIME = max (s.get .irq F.PKG_TIME) (s.get u F.CORE_MTIMECMP) % 2 ^
    F.PKG_TIME.width ∧ s.get u F.CORE_MTIMECMP ≤ t.get .irq F.PKG_TIME ∧ t.get u F.CORE_MTIMECMP = s.get u F.CORE_MTIMECMP ∧
    t.harts = s.harts) ∧
  (∀ (s : State) (n : Fin 256) (u : UnitId) (pc : BitVec 64) (c : Nat), s.coreUnit n.val = some u → (s.hart n.val).run = true →
    (s.hart n.val).halted = false → s.fatalStop = false → (s.hart n.val).mce = [] → (s.clean.setHart n.val
    { s.hart n.val with pc := pc.toNat }).nextIntr n.val = some (c, .m) → c < 64 → Answers (.interruptTaken n pc) s fun t =>
    (t.hart n.val).priv = 3 ∧ (t.hart n.val).w = true ∧ csr (t.hart n.val) 0x341 = pc.toNat ∧ csr (t.hart n.val) 0x342 = 2 ^ 63
    + c) ∧
  (∀ (s : State) (n : Fin 256) (u : UnitId) (own : Own) (level : Fin 8) (addr : BitVec 52), s.coreUnit n.val = some u → (s.hart
    n.val).run = true → (s.physTile (n.val / 8)).isSome = true → s.underTileCmd (n.val / 8) = false → Answers
    (.asyncMachineCheck n false own level addr) s fun t => (t.hart n.val).mce = (s.hart n.val).mce ++ [⟨4, (s.hart n.val).w,
    false, 6, addr.toNat⟩]) ∧
  (∀ (s : State) (n : Fin 256) (u : UnitId), s.coreUnit n.val = some u → (s.hart n.val).mce = [] → Answers (.coreMceRelease n
    .secure) s fun t => t.on u F.CORE_MCE_VALID = false ∧ t.harts = s.harts) ∧
  (∀ (s : State), s.on .wmap F.WMAP_CTRL_LOCK = false → s.on .wmap F.WMAP_STAT_BUSY = false → Answers (.wmapCommit .secure) s
    fun t => t.on .wmap F.WMAP_STAT_BUSY = true ∧ t.wmapNext = some s.wregions ∧ t.wmapNow = s.wmapNow) ∧
  (∀ (s : State) (rs : List WRegion), s.wmapNext = some rs → Answers (.wmapCommitDone) s fun t => t.wmapNow = rs ∧ t.wmapNext =
    none ∧ t.on .wmap F.WMAP_STAT_BUSY = false ∧ ∀ n : Fin 256, (t.hart n.val).tlb = []) ∧
  (∀ (s : State) (i : Fin 14) (b : Bool), i.val < 11 → Answers (.iowWorldChange i b .secure) s fun t => t.get .iow F.IOW_WORLD
    i.val = bit b ∧ t.on .iow F.IOW_STAT_BUSY = true ∧ t.masterSecure i.val = s.masterSecure i.val)

/-- Requests for a copy at a home (spec/11_caches_and_coherence.md: Homes and agents, spec/11_caches_and_coherence.md:
States, spec/11_caches_and_coherence.md: Order at the home, spec/11_caches_and_coherence.md: Crossings,
spec/10_cores_worlds_translation.md: Internal masters). A medium die or I/O cache asks, nothing under way, its link Active
and no clock gated, a transaction number n free, the line in DRAM below MEM_TOP and not busy, the master allowed; a tile
asks through its L3. A directory victim is an operand (log 94). RD_S of a line that no agent holds, the directory with
room, the LLC copy good, is granted UC from it, entry U, busy until COMP_ACK; of one that another holds unique, its link
not isolated, it sends that SNP_S and waits. RD_S of a tile, its request the one under way, is granted likewise; RD_U too.
RD_U of a line with one sharer sends that SNP_INV and waits. UPG of the only sharer is granted UC. So is that of a tile.
RD_U outside the master's windows gets ERR cause 2 and starts nothing. -/
def Obligations.CopyRequests : Prop :=
  (∀ (s : State) (agent : Fin 42) (line : BitVec 46) (n : Nat) (d : LineData), 36 ≤ agent.val → s.net = [] → s.WayOpen
    agent.val line.toNat → s.freeTxn agent.val = some n → s.mayAsk agent.val line.toNat .rdS = true → s.windowOk ((masterOf
    agent.val).getD 0) false (64 * line.toNat) 64 = true → 64 * line.toNat < dramSize → 64 * line.toNat < s.memTop * 2 ^ 29 →
    s.masterSecure ((masterOf agent.val).getD 0) = true ∨ s.securePage (line.toNat / 64) = false → (s.hline line.toNat).txn =
    none → (s.hline line.toNat).waitq = [] → hasRoom .dir (s.entriesOf (homeOf line.toNat)) line.toNat = true → (s.hline
    line.toNat).d = .i → (s.hline line.toNat).p = [] → (s.hline line.toNat).llc = some d → d.pmask = 0 → d.bad = none → Answers
    (.rdS agent line none .none) s fun t => t.net = [⟨.data .uc d, line.toNat, homePort line.toNat, agent.val, n, 0⟩, ⟨.comp
    .uc false, line.toNat, homePort line.toNat, agent.val, n, 0⟩] ∧ (t.hline line.toNat).d = .u ∧ (t.hline line.toNat).p =
    [agent.val] ∧ (t.hline line.toNat).llc = some d ∧ (t.hline line.toNat).txn.isSome = true ∧ t.dram = s.dram) ∧
  (∀ (s : State) (agent : Fin 42) (line : BitVec 46) (n : Nat) (o : Fin 36), 36 ≤ agent.val → s.net = [] → s.WayOpen agent.val
    line.toNat → s.freeTxn agent.val = some n → s.mayAsk agent.val line.toNat .rdS = true → s.windowOk ((masterOf
    agent.val).getD 0) false (64 * line.toNat) 64 = true → 64 * line.toNat < dramSize → 64 * line.toNat < s.memTop * 2 ^ 29 →
    s.masterSecure ((masterOf agent.val).getD 0) = true ∨ s.securePage (line.toNat / 64) = false → (s.hline line.toNat).txn =
    none → (s.hline line.toNat).waitq = [] → (s.hline line.toNat).d = .u → (s.hline line.toNat).p = [o.val] → s.isolated o.val
    line.toNat = false → Answers (.rdS agent line none .none) s fun t => t.net = [⟨.snp .s agent.val n, line.toNat, homePort
    line.toNat, o.val, 0, 0⟩] ∧ (t.hline line.toNat).d = .u ∧ (t.hline line.toNat).p = [o.val] ∧ (t.hline line.toNat).llc =
    (s.hline line.toNat).llc ∧ (t.hline line.toNat).txn.map (fun x => (x.wait, x.comp)) = some ([o.val], false)) ∧
  (∀ (s : State) (agent : Fin 42) (line : BitVec 46) (n : Nat) (r : HReq) (d : LineData), agent.val < 36 → s.net = [⟨.req r,
    line.toNat, agent.val, homePort line.toNat, n, 0⟩] → s.WayOpen agent.val line.toNat → r.op = .rdS → r.port = agent.val →
    r.txn = n → 64 * line.toNat < dramSize → 64 * line.toNat < s.memTop * 2 ^ 29 → r.w = true ∨ s.securePage (line.toNat / 64)
    = false → (s.hline line.toNat).txn = none → (s.hline line.toNat).waitq = [] → hasRoom .dir (s.entriesOf (homeOf
    line.toNat)) line.toNat = true → (s.hline line.toNat).d = .i → (s.hline line.toNat).p = [] → (s.hline line.toNat).llc =
    some d → d.pmask = 0 → d.bad = none → Answers (.rdS agent line none .none) s fun t => t.net = [⟨.data .uc d, line.toNat,
    homePort line.toNat, agent.val, n, 0⟩, ⟨.comp .uc false, line.toNat, homePort line.toNat, agent.val, n, 0⟩] ∧ (t.hline
    line.toNat).d = .u ∧ (t.hline line.toNat).p = [agent.val] ∧ (t.hline line.toNat).llc = some d ∧ (t.hline
    line.toNat).txn.isSome = true ∧ t.dram = s.dram) ∧
  (∀ (s : State) (agent : Fin 42) (line : BitVec 46) (n : Nat) (r : HReq) (d : LineData), agent.val < 36 → s.net = [⟨.req r,
    line.toNat, agent.val, homePort line.toNat, n, 0⟩] → s.WayOpen agent.val line.toNat → r.op = .rdU → r.port = agent.val →
    r.txn = n → 64 * line.toNat < dramSize → 64 * line.toNat < s.memTop * 2 ^ 29 → r.w = true ∨ s.securePage (line.toNat / 64)
    = false → (s.hline line.toNat).txn = none → (s.hline line.toNat).waitq = [] → hasRoom .dir (s.entriesOf (homeOf
    line.toNat)) line.toNat = true → (s.hline line.toNat).d = .i → (s.hline line.toNat).p = [] → (s.hline line.toNat).llc =
    some d → d.pmask = 0 → d.bad = none → Answers (.rdU agent line none .none) s fun t => t.net = [⟨.data .uc d, line.toNat,
    homePort line.toNat, agent.val, n, 0⟩, ⟨.comp .uc false, line.toNat, homePort line.toNat, agent.val, n, 0⟩] ∧ (t.hline
    line.toNat).d = .u ∧ (t.hline line.toNat).p = [agent.val] ∧ (t.hline line.toNat).llc = some d ∧ (t.hline
    line.toNat).txn.isSome = true ∧ t.dram = s.dram) ∧
  (∀ (s : State) (agent : Fin 42) (line : BitVec 46) (n : Nat) (o : Fin 36), 36 ≤ agent.val → s.net = [] → s.WayOpen agent.val
    line.toNat → s.freeTxn agent.val = some n → s.mayAsk agent.val line.toNat .rdU = true → s.windowOk ((masterOf
    agent.val).getD 0) false (64 * line.toNat) 64 = true → s.windowOk ((masterOf agent.val).getD 0) true (64 * line.toNat) 64 =
    true → 64 * line.toNat < dramSize → 64 * line.toNat < s.memTop * 2 ^ 29 → s.masterSecure ((masterOf agent.val).getD 0) =
    true ∨ s.securePage (line.toNat / 64) = false → (s.hline line.toNat).txn = none → (s.hline line.toNat).waitq = [] →
    (s.hline line.toNat).d = .s → (s.hline line.toNat).p = [o.val] → s.isolated o.val line.toNat = false → Answers (.rdU agent
    line none .none) s fun t => t.net = [⟨.snp .inv agent.val n, line.toNat, homePort line.toNat, o.val, 0, 0⟩] ∧ (t.hline
    line.toNat).llc = (s.hline line.toNat).llc ∧ (t.hline line.toNat).txn.map (fun x => (x.wait, x.comp)) = some ([o.val],
    false)) ∧
  (∀ (s : State) (agent : Fin 42) (line : BitVec 46) (n : Nat), 36 ≤ agent.val → s.net = [] → s.WayOpen agent.val line.toNat →
    s.freeTxn agent.val = some n → s.mayAsk agent.val line.toNat .upg = true → s.windowOk ((masterOf agent.val).getD 0) true
    (64 * line.toNat) 64 = true → 64 * line.toNat < dramSize → 64 * line.toNat < s.memTop * 2 ^ 29 → s.masterSecure ((masterOf
    agent.val).getD 0) = true ∨ s.securePage (line.toNat / 64) = false → (s.hline line.toNat).txn = none → (s.hline
    line.toNat).waitq = [] → (s.hline line.toNat).d = .s → (s.hline line.toNat).p = [agent.val] → Answers (.upg agent line none
    .none) s fun t => t.net = [⟨.comp .uc false, line.toNat, homePort line.toNat, agent.val, n, 0⟩] ∧ (t.hline line.toNat).d =
    .u ∧ (t.hline line.toNat).p = [agent.val] ∧ (t.hline line.toNat).txn.isSome = true ∧ (t.hline line.toNat).llc = (s.hline
    line.toNat).llc) ∧
  (∀ (s : State) (agent : Fin 42) (line : BitVec 46) (n : Nat) (r : HReq), agent.val < 36 → s.net = [⟨.req r, line.toNat,
    agent.val, homePort line.toNat, n, 0⟩] → s.WayOpen agent.val line.toNat → r.op = .upg → r.port = agent.val → r.txn = n → 64
    * line.toNat < dramSize → 64 * line.toNat < s.memTop * 2 ^ 29 → r.w = true ∨ s.securePage (line.toNat / 64) = false →
    (s.hline line.toNat).txn = none → (s.hline line.toNat).waitq = [] → (s.hline line.toNat).d = .s → (s.hline line.toNat).p =
    [agent.val] → Answers (.upg agent line none .none) s fun t => t.net = [⟨.comp .uc false, line.toNat, homePort line.toNat,
    agent.val, n, 0⟩] ∧ (t.hline line.toNat).d = .u ∧ (t.hline line.toNat).p = [agent.val] ∧ (t.hline line.toNat).txn.isSome =
    true) ∧
  (∀ (s : State) (agent : Fin 42) (line : BitVec 46), 36 ≤ agent.val → s.net = [] → s.mayAsk agent.val line.toNat .rdU = true →
    s.windowOk ((masterOf agent.val).getD 0) true (64 * line.toNat) 64 = false → Answers (.rdU agent line none .none) s fun t
    => t.out.getLast? = some (.err 2) ∧ t.net = [] ∧ t.homes = s.homes ∧ t.dram = s.dram)

/-- Requests that leave no copy (spec/11_caches_and_coherence.md: Masters that do not cache lines,
spec/11_caches_and_coherence.md: Atomics, near and far, spec/11_caches_and_coherence.md: Parity errors in cached lines,
spec/10_cores_worlds_translation.md: Internal masters). A master's request with nothing under way, its link Active and no
clock gated, number n free, window and world allowing it, the line in DRAM below MEM_TOP and not busy. RD_ONCE of a line
that no agent holds unique, the LLC copy good, is answered from it, the line as it was. With a parity error met in a clean
LLC copy that is dropped, counted and reported, and the line is answered still. WR_FULL and WR_PTL of a line that no agent
holds write all or the masked bytes of the LLC's copy, dirty then, DRAM as it was; without one WR_FULL and WR_PTL write
those bytes of DRAM and no other. WR_FULL outside the windows gets ERR cause 2 and writes nothing, the loss recorded. AMO
of a present hart so, the line held by no agent, its LLC copy good and with room, stores the new value in the LLC and
answers the old line; with another hart's atomic of the line in the history it is CONTENDED and counted. -/
def Obligations.SingleRequests : Prop :=
  (∀ (s : State) (i : Fin 13) (line : BitVec 46) (n : Nat) (d : LineData), s.net = [] → s.WayOpen (masterPort i.val) line.toNat
    → s.freeTxn (masterPort i.val) = some n → s.windowOk i.val false (64 * line.toNat) 64 = true → 64 * line.toNat < dramSize →
    64 * line.toNat < s.memTop * 2 ^ 29 → s.masterSecure i.val = true ∨ s.securePage (line.toNat / 64) = false → (s.hline
    line.toNat).txn = none → (s.hline line.toNat).waitq = [] → (s.hline line.toNat).d ≠ .u → (s.hline line.toNat).llc = some d
    → d.pmask = 0 → d.bad = none → Answers (.rdOnce i line .none) s fun t => t.net = [⟨.data .s d, line.toNat, homePort
    line.toNat, (masterPort i.val), n, 0⟩, ⟨.comp .s false, line.toNat, homePort line.toNat, (masterPort i.val), n, 0⟩] ∧
    (t.hline line.toNat) = (s.hline line.toNat) ∧ t.dram = s.dram) ∧
  (∀ (s : State) (i : Fin 13) (line : BitVec 46) (n : Nat) (d : LineData) (again : Bool), s.net = [] → s.WayOpen (masterPort
    i.val) line.toNat → s.freeTxn (masterPort i.val) = some n → s.windowOk i.val false (64 * line.toNat) 64 = true → 64 *
    line.toNat < dramSize → 64 * line.toNat < s.memTop * 2 ^ 29 → s.masterSecure i.val = true ∨ s.securePage (line.toNat / 64)
    = false → (s.hline line.toNat).txn = none → (s.hline line.toNat).waitq = [] → (s.hline line.toNat).d ≠ .u → (s.hline
    line.toNat).llc = some d → (s.hline line.toNat).dirty = false → Answers (.rdOnce i line (.bad again)) s fun t => (t.hline
    line.toNat).llc = none ∧ t.get (.home (homeOf line.toNat)) F.HM_CNT_PAR_CLEAN = min (s.get (.home (homeOf line.toNat))
    F.HM_CNT_PAR_CLEAN + 1) (2 ^ F.HM_CNT_PAR_CLEAN.width - 1) ∧ t.on (.home (homeOf line.toNat)) F.HOME_EVT_PAR_CLEAN = true ∧
    t.net.length = 2) ∧
  (∀ (s : State) (i : Fin 13) (line : BitVec 46) (n : Nat) (data : Vector Byte 64) (d : LineData), s.net = [] → s.WayOpen
    (masterPort i.val) line.toNat → s.freeTxn (masterPort i.val) = some n → s.windowOk i.val true (64 * line.toNat) 64 = true →
    64 * line.toNat < dramSize → 64 * line.toNat < s.memTop * 2 ^ 29 → s.masterSecure i.val = true ∨ s.securePage (line.toNat /
    64) = false → (s.hline line.toNat).txn = none → (s.hline line.toNat).waitq = [] → (s.hline line.toNat).p = [] → (s.hline
    line.toNat).llc = some d → Answers (.wrFull i line data) s fun t => t.net = [⟨.comp .s false, line.toNat, homePort
    line.toNat, (masterPort i.val), n, 0⟩] ∧ (t.hline line.toNat).llc.map LineData.bytes = some ((List.range 64).map fun k =>
    data.toList.getD k 0) ∧ (t.hline line.toNat).dirty = true ∧ (t.hline line.toNat).d = .i ∧ (t.hline line.toNat).txn = none ∧
    t.dram = s.dram ∧ (t.hline line.toNat).llc.map LineData.pmask = some 0) ∧
  (∀ (s : State) (i : Fin 13) (line : BitVec 46) (n : Nat) (data : Vector Byte 64) (mask : BitVec 64) (d : LineData), s.net =
    [] → s.WayOpen (masterPort i.val) line.toNat → s.freeTxn (masterPort i.val) = some n → s.windowOk i.val true (64 *
    line.toNat) 64 = true → 64 * line.toNat < dramSize → 64 * line.toNat < s.memTop * 2 ^ 29 → s.masterSecure i.val = true ∨
    s.securePage (line.toNat / 64) = false → (s.hline line.toNat).txn = none → (s.hline line.toNat).waitq = [] → (s.hline
    line.toNat).p = [] → (s.hline line.toNat).llc = some d → d.bad = none → Answers (.wrPtl i line data mask) s fun t => t.net
    = [⟨.comp .s false, line.toNat, homePort line.toNat, (masterPort i.val), n, 0⟩] ∧ (t.hline line.toNat).llc.map
    LineData.bytes = some ((List.range 64).map fun k => if mask.toNat / 2 ^ k % 2 = 1 then data.toList.getD k 0 else
    d.bytes.getD k 0) ∧ (t.hline line.toNat).dirty = true ∧ (t.hline line.toNat).d = .i ∧ (t.hline line.toNat).txn = none ∧
    t.dram = s.dram) ∧
  (∀ (s : State) (i : Fin 13) (line : BitVec 46) (n : Nat) (data : Vector Byte 64) (b : Nat), s.net = [] → s.WayOpen
    (masterPort i.val) line.toNat → s.freeTxn (masterPort i.val) = some n → s.windowOk i.val true (64 * line.toNat) 64 = true →
    64 * line.toNat < dramSize → 64 * line.toNat < s.memTop * 2 ^ 29 → s.masterSecure i.val = true ∨ s.securePage (line.toNat /
    64) = false → (s.hline line.toNat).txn = none → (s.hline line.toNat).waitq = [] → (s.hline line.toNat).p = [] → (s.hline
    line.toNat).llc = none → Answers (.wrFull i line data) s fun t => t.net = [⟨.comp .s false, line.toNat, homePort
    line.toNat, (masterPort i.val), n, 0⟩] ∧ tget 0 t.dram b = (if 64 * line.toNat ≤ b ∧ b < 64 * line.toNat + 64 then
    data.toList.getD (b - 64 * line.toNat) 0 else tget 0 s.dram b) ∧ (t.hline line.toNat).llc = none ∧ (t.hline line.toNat).d =
    .i ∧ t.mram = s.mram) ∧
  (∀ (s : State) (i : Fin 13) (line : BitVec 46) (n : Nat) (data : Vector Byte 64) (mask : BitVec 64) (b : Nat), s.net = [] →
    s.WayOpen (masterPort i.val) line.toNat → s.freeTxn (masterPort i.val) = some n → s.windowOk i.val true (64 * line.toNat)
    64 = true → 64 * line.toNat < dramSize → 64 * line.toNat < s.memTop * 2 ^ 29 → s.masterSecure i.val = true ∨ s.securePage
    (line.toNat / 64) = false → (s.hline line.toNat).txn = none → (s.hline line.toNat).waitq = [] → (s.hline line.toNat).p = []
    → (s.hline line.toNat).llc = none → Answers (.wrPtl i line data mask) s fun t => t.net = [⟨.comp .s false, line.toNat,
    homePort line.toNat, (masterPort i.val), n, 0⟩] ∧ tget 0 t.dram b = (if 64 * line.toNat ≤ b ∧ b < 64 * line.toNat + 64 ∧
    mask.toNat / 2 ^ (b - 64 * line.toNat) % 2 = 1 then data.toList.getD (b - 64 * line.toNat) 0 else tget 0 s.dram b) ∧
    (t.hline line.toNat).llc = none ∧ (t.hline line.toNat).d = .i ∧ t.mram = s.mram) ∧
  (∀ (s : State) (i : Fin 13) (line : BitVec 46) (data : Vector Byte 64), s.net = [] → s.windowOk i.val true (64 * line.toNat)
    64 = false → Answers (.wrFull i line data) s fun t => t.out.getLast? = some (.err 2) ∧ t.net = [] ∧ t.homes = s.homes ∧
    t.dram = s.dram ∧ t.on (portUnit (masterPort i.val)) F.UNIT_ERR_UE = true ∧ t.on (portUnit (masterPort i.val))
    F.UNIT_ERR_DENIED = true) ∧
  (∀ (s : State) (hart : Fin 256) (line : BitVec 46) (word : Fin 16) (wide : Bool) (op : AmoOp) (operand : Word) (d : LineData)
    (p : Fin 36) (n : Nat), s.physTile (hart.val / 8) = some p → s.net = [] → s.WayOpen p.val line.toNat → s.freeTxn p.val =
    some n → 64 * line.toNat < dramSize → 64 * line.toNat < s.memTop * 2 ^ 29 → (s.hart hart.val).w = true ∨ s.securePage
    (line.toNat / 64) = false → (s.hline line.toNat).txn = none → (s.hline line.toNat).waitq = [] → (s.hline line.toNat).p = []
    → (s.hline line.toNat).llc = some d → d.pmask = 0 → d.bad = none → hasRoom (s.arrayOf (.home (homeOf line.toNat)) .llc)
    (s.llcLines (homeOf line.toNat)) line.toNat = true → Answers (.amo hart line word wide op operand) s fun t => (t.hline
    line.toNat).llc.map LineData.bytes = some (spliceNum d.bytes (if wide then 8 * (word.val / 2) else 4 * word.val) (if wide
    then 8 else 4) (amoNew op (8 * (if wide then 8 else 4)) (leNat ((d.bytes.drop (if wide then 8 * (word.val / 2) else 4 *
    word.val)).take (if wide then 8 else 4))) operand.toNat)) ∧ (t.hline line.toNat).dirty = true ∧ (t.hline line.toNat).txn =
    none ∧ t.dram = s.dram ∧ ∃ b : Bool, t.net.map Msg.kind = [.data .s d, .comp .s b]) ∧
  (∀ (s : State) (hart : Fin 256) (line : BitVec 46) (word : Fin 16) (wide : Bool) (op : AmoOp) (operand : Word) (d : LineData)
    (p : Fin 36) (n : Nat) (k : Nat), s.physTile (hart.val / 8) = some p → s.net = [] → s.WayOpen p.val line.toNat → s.freeTxn
    p.val = some n → 64 * line.toNat < dramSize → 64 * line.toNat < s.memTop * 2 ^ 29 → (s.hart hart.val).w = true ∨
    s.securePage (line.toNat / 64) = false → (s.hline line.toNat).txn = none → (s.hline line.toNat).waitq = [] → (s.hline
    line.toNat).p = [] → (s.hline line.toNat).llc = some d → d.pmask = 0 → d.bad = none → hasRoom (s.arrayOf (.home (homeOf
    line.toNat)) .llc) (s.llcLines (homeOf line.toNat)) line.toNat = true → (tget [] s.amoHist (homeOf line.toNat).val).find?
    (fun e => e.1 == line.toNat) = some (line.toNat, k) → k ≠ hart.val → Answers (.amo hart line word wide op operand) s fun t
    => t.net.map Msg.kind = [.data .s d, .comp .s true] ∧ t.get (.home (homeOf line.toNat)) F.HM_CNT_CONTENDED = min (s.get
    (.home (homeOf line.toNat)) F.HM_CNT_CONTENDED + 1) (2 ^ F.HM_CNT_CONTENDED.width - 1))

/-- Evictions, write-backs and answers at a home (spec/11_caches_and_coherence.md: Evictions, offers and declines,
spec/11_caches_and_coherence.md: Crossings, spec/11_caches_and_coherence.md: Order at the home). EVICT and WB are rows of
two phases, sent and then arriving (log 97). A message named is the next on its way, its link Active and no clock gated.
EVICT with none under way sends it for a clean good copy of a medium die or I/O cache that has no work on the line, the
data kept in its buffer; arriving without an offer it takes the agent out of P and is declined; an offer of a line that the
LLC lacks, offers enabled and fewer than OFFER_Q waiting, is accepted; of an agent not in P it is stale, counted. WB
likewise sends the data of a dirty copy; arriving at a line not busy whose LLC set has room they are its copy, dirty,
acknowledged; at a busy line that does not wait for it, it is held there. ODATA of an accepted offer, the set with room, is
installed clean, of a cancelled one dropped. An ACK leaves the wait, MISS also P; WB_PENDING, its WB not in, makes an
RD_ONCE wait for that; the last, of data sent, completes it. COMP_ACK frees a line with nothing waiting. WB_ACK and
EVICT_ACK end the notice of such an agent; ACCEPT sends ODATA, DECLINE nothing. -/
def Obligations.NoticesAndAnswers : Prop :=
  (∀ (s : State) (agent : Fin 42) (line : BitVec 46) (n : Nat) (c : Copy), 36 ≤ agent.val → s.net = [] → s.freeTxn agent.val =
    some n → s.agentBusy agent.val line.toNat = false → s.copyOf agent.val line.toNat = some c → c.st ≠ .ud → c.d.bad = none →
    Answers (.evict agent line) s fun t => t.copyOf agent.val line.toNat = none ∧ t.evbufs = s.evbufs ++ [(agent.val,
    line.toNat, c.d)] ∧ t.net = [⟨.evict false, line.toNat, agent.val, homePort line.toNat, n, 0⟩] ∧ t.homes = s.homes ∧
    t.reqs.length = s.reqs.length + 1) ∧
  (∀ (s : State) (agent : Fin 42) (line : BitVec 46) (n : Nat) (rest : List Msg), s.net = ⟨.evict false, line.toNat, agent.val,
    homePort line.toNat, n, 0⟩ :: rest → s.WayOpen agent.val line.toNat → (s.hline line.toNat).p.contains agent.val = true →
    Answers (.evict agent line) s fun t => (t.hline line.toNat).p = (s.hline line.toNat).p.filter (fun x => x != agent.val) ∧
    t.net = rest ++ [⟨.evAck .decline, line.toNat, homePort line.toNat, agent.val, n, 0⟩] ∧ (t.hline line.toNat).llc = (s.hline
    line.toNat).llc) ∧
  (∀ (s : State) (agent : Fin 42) (line : BitVec 46) (n : Nat) (rest : List Msg), s.net = ⟨.evict true, line.toNat, agent.val,
    homePort line.toNat, n, 0⟩ :: rest → s.WayOpen agent.val line.toNat → (s.hline line.toNat).p.contains agent.val = true →
    (s.hline line.toNat).llc = none → s.on (.home (homeOf line.toNat)) F.HOME_TUNE_OFFER_EN = true → s.offersAt (homeOf
    line.toNat).val < max 1 (s.get (.home (homeOf line.toNat)) F.HOME_TUNE_OFFER_Q) → Answers (.evict agent line) s fun t =>
    (t.hline line.toNat).p = (s.hline line.toNat).p.filter (fun x => x != agent.val) ∧ t.net = rest ++ [⟨.evAck .accept,
    line.toNat, homePort line.toNat, agent.val, n, 0⟩] ∧ (t.hline line.toNat).offers = (s.hline line.toNat).offers ++
    [(agent.val, false)]) ∧
  (∀ (s : State) (agent : Fin 42) (line : BitVec 46) (n : Nat) (rest : List Msg), s.net = ⟨.evict false, line.toNat, agent.val,
    homePort line.toNat, n, 0⟩ :: rest → s.WayOpen agent.val line.toNat → (s.hline line.toNat).p.contains agent.val = false →
    Answers (.evict agent line) s fun t => t.net = rest ++ [⟨.evAck .stale, line.toNat, homePort line.toNat, agent.val, n, 0⟩]
    ∧ t.homes = s.homes ∧ t.copies = s.copies ∧ t.get (.home (homeOf line.toNat)) F.HM_CNT_CROSS_EV = min (s.get (.home (homeOf
    line.toNat)) F.HM_CNT_CROSS_EV + 1) (2 ^ F.HM_CNT_CROSS_EV.width - 1)) ∧
  (∀ (s : State) (agent : Fin 42) (line : BitVec 46) (n : Nat) (d : LineData), 36 ≤ agent.val → s.net = [] → s.freeTxn
    agent.val = some n → s.agentBusy agent.val line.toNat = false → s.copyOf agent.val line.toNat = some ⟨.ud, d⟩ → d.pmask = 0
    → d.bad = none → Answers (.wb agent line) s fun t => t.copyOf agent.val line.toNat = none ∧ t.net = [⟨.wb d, line.toNat,
    agent.val, homePort line.toNat, n, 0⟩] ∧ t.homes = s.homes ∧ t.wbOut agent.val line.toNat = true) ∧
  (∀ (s : State) (agent : Fin 42) (line : BitVec 46) (n : Nat) (rest : List Msg) (d : LineData), s.net = ⟨.wb d, line.toNat,
    agent.val, homePort line.toNat, n, 0⟩ :: rest → s.WayOpen agent.val line.toNat → d.pmask = 0 → (s.hline line.toNat).txn =
    none → (s.hline line.toNat).llc = none → hasRoom (s.arrayOf (.home (homeOf line.toNat)) .llc) (s.llcLines (homeOf
    line.toNat)) line.toNat = true → Answers (.wb agent line) s fun t => (t.hline line.toNat).llc = some d ∧ (t.hline
    line.toNat).dirty = true ∧ (t.hline line.toNat).p = (s.hline line.toNat).p.filter (fun x => x != agent.val) ∧ t.net = rest
    ++ [⟨.wbAck false, line.toNat, homePort line.toNat, agent.val, 0, 0⟩]) ∧
  (∀ (s : State) (agent : Fin 42) (line : BitVec 46) (n : Nat) (rest : List Msg) (d : LineData) (x : HTxn), s.net = ⟨.wb d,
    line.toNat, agent.val, homePort line.toNat, n, 0⟩ :: rest → s.WayOpen agent.val line.toNat → (s.hline line.toNat).txn =
    some x → x.wbWait.contains agent.val = false → Answers (.wb agent line) s fun t => (t.hline line.toNat).txn = some
    { x with wbs := x.wbs ++ [(agent.val, d)] } ∧ (t.hline line.toNat).llc = (s.hline line.toNat).llc ∧ t.net = rest) ∧
  (∀ (s : State) (agent : Fin 42) (line : BitVec 46) (n : Nat) (rest : List Msg) (d : LineData), s.net = ⟨.odata d, line.toNat,
    agent.val, homePort line.toNat, n, 0⟩ :: rest → s.WayOpen agent.val line.toNat → (s.hline line.toNat).offers = [(agent.val,
    false)] → (s.hline line.toNat).llc = none → d.pmask = 0 → hasRoom (s.arrayOf (.home (homeOf line.toNat)) .llc) (s.llcLines
    (homeOf line.toNat)) line.toNat = true → Answers (.odata agent line) s fun t => t.net = rest ∧ (t.hline line.toNat).offers
    = [] ∧ (t.hline line.toNat).llc = some { d with own := {} } ∧ (t.hline line.toNat).dirty = false) ∧
  (∀ (s : State) (agent : Fin 42) (line : BitVec 46) (n : Nat) (rest : List Msg) (d : LineData), s.net = ⟨.odata d, line.toNat,
    agent.val, homePort line.toNat, n, 0⟩ :: rest → s.WayOpen agent.val line.toNat → (s.hline line.toNat).offers = [(agent.val,
    true)] → Answers (.odata agent line) s fun t => t.net = rest ∧ (t.hline line.toNat) =
    { (s.hline line.toNat) with offers := [] }) ∧
  (∀ (s : State) (agent : Fin 42) (line : BitVec 46) (n : Nat) (rest : List Msg) (x : HTxn), s.net = ⟨.ack .hit none .s,
    line.toNat, agent.val, homePort line.toNat, n, 0⟩ :: rest → s.WayOpen agent.val line.toNat → (s.hline line.toNat).txn =
    some x → x.wait.contains agent.val = true → x.wait.filter (fun k => k != agent.val) ≠ [] → Answers (.ack agent line) s fun
    t => t.net = rest ∧ (t.hline line.toNat) =
    { (s.hline line.toNat) with txn := some { x with wait := x.wait.filter (fun k => k != agent.val) } }) ∧
  (∀ (s : State) (agent : Fin 42) (line : BitVec 46) (n : Nat) (rest : List Msg) (x : HTxn), s.net = ⟨.ack .miss none .s,
    line.toNat, agent.val, homePort line.toNat, n, 0⟩ :: rest → s.WayOpen agent.val line.toNat → (s.hline line.toNat).txn =
    some x → x.wait.contains agent.val = true → x.wait.filter (fun k => k != agent.val) ≠ [] → Answers (.ack agent line) s fun
    t => t.net = rest ∧ (t.hline line.toNat).p = (s.hline line.toNat).p.filter (fun k => k != agent.val) ∧ (t.hline
    line.toNat).txn = some { x with wait := x.wait.filter (fun k => k != agent.val), missed := true }) ∧
  (∀ (s : State) (agent : Fin 42) (line : BitVec 46) (n : Nat) (rest : List Msg) (x : HTxn), s.net = ⟨.ack .wbPending none .s,
    line.toNat, agent.val, homePort line.toNat, n, 0⟩ :: rest → s.WayOpen agent.val line.toNat → (s.hline line.toNat).txn =
    some x → x.wait = [agent.val] → x.wbs = [] → x.r.op = .rdOnce → Answers (.ack agent line) s fun t => t.net = rest ∧
    (t.hline line.toNat) = { (s.hline line.toNat) with txn := some { x with wait := [], wbWait := x.wbWait ++ [agent.val] } }) ∧
  (∀ (s : State) (agent : Fin 42) (line : BitVec 46) (n : Nat) (rest : List Msg) (x : HTxn), s.net = ⟨.ack .dataSent none .s,
    line.toNat, agent.val, homePort line.toNat, n, 0⟩ :: rest → s.WayOpen agent.val line.toNat → (s.hline line.toNat).txn =
    some x → (s.hline line.toNat).waitq = [] → x.wait = [agent.val] → x.wbWait = [] → x.wbs = [] → x.dir = none → x.gone =
    false → x.comp = false → x.r.op = .rdOnce → Answers (.ack agent line) s fun t => t.net = rest ++ [⟨.comp .s false,
    line.toNat, homePort line.toNat, x.r.port, x.r.txn, 0⟩] ∧ (t.hline line.toNat) = { (s.hline line.toNat) with txn := none }) ∧
  (∀ (s : State) (agent : Fin 42) (line : BitVec 46) (n : Nat) (rest : List Msg) (x : HTxn), s.net = ⟨.compAck, line.toNat,
    agent.val, homePort line.toNat, n, 0⟩ :: rest → s.WayOpen agent.val line.toNat → (s.hline line.toNat).txn = some x →
    (s.hline line.toNat).waitq = [] → x.comp = true → x.wbs = [] → Answers (.compAck agent line) s fun t => t.net = rest ∧
    (t.hline line.toNat) = { (s.hline line.toNat) with txn := none }) ∧
  (∀ (s : State) (agent : Fin 42) (line : BitVec 46) (n : Nat) (rest : List Msg) (b : Bool) (q : OReq), s.net = ⟨.wbAck b,
    line.toNat, homePort line.toNat, agent.val, n, 0⟩ :: rest → s.WayOpen agent.val line.toNat → 36 ≤ agent.val → s.reqs = [q]
    → q.port = agent.val → q.line = line.toNat → q.op = some .wb → Answers (.wbAck agent line) s fun t => t.net = rest ∧ t.reqs
    = [] ∧ t.homes = s.homes ∧ t.copies = s.copies) ∧
  (∀ (s : State) (agent : Fin 42) (line : BitVec 46) (n : Nat) (rest : List Msg) (d : LineData) (q : OReq), s.net = ⟨.evAck
    .accept, line.toNat, homePort line.toNat, agent.val, n, 0⟩ :: rest → s.WayOpen agent.val line.toNat → s.evbufs =
    [(agent.val, line.toNat, d)] → 36 ≤ agent.val → s.reqs = [q] → q.port = agent.val → q.line = line.toNat → q.op = some
    .evict → Answers (.evictAck agent line) s fun t => t.evbufs = [] ∧ t.reqs = [] ∧ t.net = rest ++ [⟨.odata d, line.toNat,
    agent.val, homePort line.toNat, 0, 0⟩] ∧ t.homes = s.homes) ∧
  (∀ (s : State) (agent : Fin 42) (line : BitVec 46) (n : Nat) (rest : List Msg) (d : LineData) (q : OReq), s.net = ⟨.evAck
    .decline, line.toNat, homePort line.toNat, agent.val, n, 0⟩ :: rest → s.WayOpen agent.val line.toNat → s.evbufs =
    [(agent.val, line.toNat, d)] → 36 ≤ agent.val → s.reqs = [q] → q.port = agent.val → q.line = line.toNat → q.op = some
    .evict → Answers (.evictAck agent line) s fun t => t.evbufs = [] ∧ t.reqs = [] ∧ t.net = rest ∧ t.homes = s.homes)

/-- Snoops, data and answers at an agent (spec/11_caches_and_coherence.md: States, spec/11_caches_and_coherence.md:
Crossings, spec/11_caches_and_coherence.md: Order at the home, spec/13_fabric_and_valiez_links.md: Timeouts,
spec/10_cores_worlds_translation.md: Internal masters). A message named is the next on its way and passes: links Active, no
clock gated. The snoop clauses but the last two are of a medium die or I/O cache. A holder of a good line answers SNP_S
with the data, keeping S, dirty data also to the home; SNP_U by giving copy and state to the requester; SNP_INV by giving
it up, dirty data to the home; SNP_ONCE with the data, keeping all; SNP_CLEAN with dirty data to the home, keeping UC.
Without the line an agent answers SNP_INV MISS, and SNP_S WB_PENDING while its WB is unanswered. A tile with the line in
cores asks those T_INV first. DATA is held until COMP; to no request it is late, counted and dropped. COMP ends a WR_FULL;
of an RD_U with its data it installs the copy and sends COMP_ACK, with room and without. ERR ends a request and shows its
cause. -/
def Obligations.AgentMessages : Prop :=
  (∀ (s : State) (agent : Fin 42) (line : BitVec 46) (c : Copy) (q n : Nat) (rest : List Msg), 36 ≤ agent.val → s.net = ⟨.snp
    .s q n, line.toNat, homePort line.toNat, agent.val, 0, 0⟩ :: rest → s.WayOpen agent.val line.toNat → s.copyOf agent.val
    line.toNat = some c → c.d.pmask = 0 → c.d.bad = none → Answers (.snpS agent line .none) s fun t => t.copyOf agent.val
    line.toNat = some ⟨.s, { c.d with own := {} }⟩ ∧ t.net = rest ++ [⟨.data .s c.d, line.toNat, agent.val, q, n, 0⟩, ⟨.ack
    .dataSent (if c.st = .ud then some c.d else none) .s, line.toNat, agent.val, homePort line.toNat, 0, 0⟩] ∧ t.homes =
    s.homes) ∧
  (∀ (s : State) (agent : Fin 42) (line : BitVec 46) (c : Copy) (q n : Nat) (rest : List Msg), 36 ≤ agent.val → s.net = ⟨.snp
    .u q n, line.toNat, homePort line.toNat, agent.val, 0, 0⟩ :: rest → s.WayOpen agent.val line.toNat → s.copyOf agent.val
    line.toNat = some c → c.d.pmask = 0 → c.d.bad = none → Answers (.snpU agent line .none) s fun t => t.copyOf agent.val
    line.toNat = none ∧ t.net = rest ++ [⟨.data c.st c.d, line.toNat, agent.val, q, n, 0⟩, ⟨.ack .dataSent none c.st,
    line.toNat, agent.val, homePort line.toNat, 0, 0⟩] ∧ t.homes = s.homes) ∧
  (∀ (s : State) (agent : Fin 42) (line : BitVec 46) (c : Copy) (q n : Nat) (rest : List Msg), 36 ≤ agent.val → s.net = ⟨.snp
    .inv q n, line.toNat, homePort line.toNat, agent.val, 0, 0⟩ :: rest → s.WayOpen agent.val line.toNat → s.copyOf agent.val
    line.toNat = some c → c.d.pmask = 0 → c.d.bad = none → Answers (.snpInv agent line .none) s fun t => t.copyOf agent.val
    line.toNat = none ∧ t.net = rest ++ [⟨.ack .hit (if c.st = .ud then some c.d else none) .s, line.toNat, agent.val, homePort
    line.toNat, 0, 0⟩] ∧ t.homes = s.homes) ∧
  (∀ (s : State) (agent : Fin 42) (line : BitVec 46) (c : Copy) (q n : Nat) (rest : List Msg), 36 ≤ agent.val → s.net = ⟨.snp
    .once q n, line.toNat, homePort line.toNat, agent.val, 0, 0⟩ :: rest → s.WayOpen agent.val line.toNat → s.copyOf agent.val
    line.toNat = some c → c.d.pmask = 0 → c.d.bad = none → Answers (.snpOnce agent line .none) s fun t => t.copies = s.copies ∧
    t.net = rest ++ [⟨.data .s c.d, line.toNat, agent.val, q, n, 0⟩, ⟨.ack .dataSent none .s, line.toNat, agent.val, homePort
    line.toNat, 0, 0⟩] ∧ t.homes = s.homes) ∧
  (∀ (s : State) (agent : Fin 42) (line : BitVec 46) (c : Copy) (q n : Nat) (rest : List Msg), 36 ≤ agent.val → s.net = ⟨.snp
    .clean q n, line.toNat, homePort line.toNat, agent.val, 0, 0⟩ :: rest → s.WayOpen agent.val line.toNat → s.copyOf agent.val
    line.toNat = some c → c.d.pmask = 0 → c.d.bad = none → Answers (.snpClean agent line .none) s fun t => t.copyOf agent.val
    line.toNat = some (if c.st = .ud then ⟨.uc, { c.d with own := {} }⟩ else c) ∧ t.net = rest ++ [⟨.ack .hit (if c.st = .ud
    then some c.d else none) .s, line.toNat, agent.val, homePort line.toNat, 0, 0⟩] ∧ t.homes = s.homes) ∧
  (∀ (s : State) (agent : Fin 42) (line : BitVec 46) (q n : Nat) (rest : List Msg), s.net = ⟨.snp .inv q n, line.toNat,
    homePort line.toNat, agent.val, 0, 0⟩ :: rest → s.WayOpen agent.val line.toNat → s.copyOf agent.val line.toNat = none →
    s.wbOut agent.val line.toNat = false → s.coreVec agent.val line.toNat = [] → Answers (.snpInv agent line .none) s fun t =>
    t.net = rest ++ [⟨.ack .miss none .s, line.toNat, agent.val, homePort line.toNat, 0, 0⟩] ∧ t.copies = s.copies) ∧
  (∀ (s : State) (agent : Fin 42) (line : BitVec 46) (q n : Nat) (rest : List Msg), s.net = ⟨.snp .s q n, line.toNat, homePort
    line.toNat, agent.val, 0, 0⟩ :: rest → s.WayOpen agent.val line.toNat → s.copyOf agent.val line.toNat = none → s.wbOut
    agent.val line.toNat = true → s.coreVec agent.val line.toNat = [] → Answers (.snpS agent line .none) s fun t => t.net =
    rest ++ [⟨.ack .wbPending none .s, line.toNat, agent.val, homePort line.toNat, 0, 0⟩] ∧ t.copies = s.copies) ∧
  (∀ (s : State) (agent : Fin 42) (line : BitVec 46) (q n : Nat) (rest : List Msg) (c : Copy), agent.val < 36 → s.net = ⟨.snp
    .inv q n, line.toNat, homePort line.toNat, agent.val, 0, 0⟩ :: rest → s.WayOpen agent.val line.toNat → s.copyOf agent.val
    line.toNat = some c → c.d.bad = none → s.coreVec agent.val line.toNat ≠ [] → Answers (.snpInv agent line .none) s fun t =>
    t.net = rest ++ (s.coreVec agent.val line.toNat).map (fun k => ⟨.tile .inv, line.toNat, agent.val, agent.val, 1, k⟩) ∧
    (t.tileTxn agent.val line.toNat).snp = some (.inv, q, n) ∧ (t.tileTxn agent.val line.toNat).snpWait = s.coreVec agent.val
    line.toNat ∧ t.copies = s.copies) ∧
  (∀ (s : State) (port : Fin 50) (txn : Fin 1024) (ln src : Nat) (rest : List Msg) (q : OReq) (d : LineData) (g : CopySt),
    s.net = ⟨.data g d, ln, src, port.val, txn.val, 0⟩ :: rest → s.passes ⟨.data g d, ln, src, port.val, txn.val, 0⟩ = true →
    s.clocks = [] → s.reqs.find? (fun r => r.port == port.val && r.txn == txn.val) = some q → q.comp = none → Answers (.data
    port txn) s fun t => t.net = rest ∧ t.reqs = s.reqs.map (fun x => if x == q then { q with got := some (g, d) } else x) ∧
    t.copies = s.copies) ∧
  (∀ (s : State) (port : Fin 50) (txn : Fin 1024) (ln src : Nat) (rest : List Msg) (d : LineData) (g : CopySt), s.net = ⟨.data
    g d, ln, src, port.val, txn.val, 0⟩ :: rest → s.passes ⟨.data g d, ln, src, port.val, txn.val, 0⟩ = true → s.clocks = [] →
    s.reqs.find? (fun r => r.port == port.val && r.txn == txn.val) = none → Answers (.data port txn) s fun t => t.net = rest ∧
    t.on .xbar F.XB_EVT_LATE = true ∧ t.get .xbar F.XB_CNT_LATE = min (s.get .xbar F.XB_CNT_LATE + 1) (2 ^ F.XB_CNT_LATE.width
    - 1) ∧ t.copies = s.copies ∧ (t.heldTxn.any fun e => e.port == port.val && e.txn == txn.val && e.data) = false) ∧
  (∀ (s : State) (port : Fin 50) (txn : Fin 1024) (ln src : Nat) (rest : List Msg) (q : OReq) (g : CopySt) (b : Bool), s.net =
    ⟨.comp g b, ln, src, port.val, txn.val, 0⟩ :: rest → s.passes ⟨.comp g b, ln, src, port.val, txn.val, 0⟩ = true → s.clocks
    = [] → s.reqs.find? (fun r => r.port == port.val && r.txn == txn.val) = some q → s.reqs.filter (fun x => x == q) = [q] →
    q.op = some .wrFull → q.comp = none → { q with comp := some g, contended := b } ∉ s.reqs → Answers (.comp port txn) s fun t
    => t.net = rest ∧ q ∉ t.reqs ∧ { q with comp := some g, contended := b } ∉ t.reqs ∧ t.copies = s.copies) ∧
  (∀ (s : State) (port : Fin 50) (txn : Fin 1024) (ln src : Nat) (rest : List Msg) (q : OReq) (g : CopySt) (b : Bool) (d :
    LineData), s.net = ⟨.comp g b, ln, src, port.val, txn.val, 0⟩ :: rest → s.passes ⟨.comp g b, ln, src, port.val, txn.val, 0⟩
    = true → s.clocks = [] → s.reqs.find? (fun r => r.port == port.val && r.txn == txn.val) = some q → q.op = some .rdU →
    q.core = none → q.got = some (.uc, d) → 36 ≤ port.val → hasRoom (s.arrayOf (agentUnit port.val) (agentArray port.val))
    (s.agentLines port.val) q.line = true → Answers (.comp port txn) s fun t => t.copyOf port.val q.line = some ⟨.uc, d⟩ ∧
    t.net = rest ++ [⟨.compAck, q.line, port.val, homePort q.line, txn.val, 0⟩] ∧ t.homes = s.homes ∧
    { q with comp := some g, contended := b } ∉ t.reqs) ∧
  (∀ (s : State) (port : Fin 50) (txn : Fin 1024) (ln src : Nat) (rest : List Msg) (q : OReq) (g : CopySt) (b : Bool) (d :
    LineData), s.net = ⟨.comp g b, ln, src, port.val, txn.val, 0⟩ :: rest → s.passes ⟨.comp g b, ln, src, port.val, txn.val, 0⟩
    = true → s.clocks = [] → s.reqs.find? (fun r => r.port == port.val && r.txn == txn.val) = some q → q.op = some .rdU →
    q.core = none → q.got = some (.uc, d) → 36 ≤ port.val → hasRoom (s.arrayOf (agentUnit port.val) (agentArray port.val))
    (s.agentLines port.val) q.line = false → Answers (.comp port txn) s fun t => t.copyOf port.val q.line = some ⟨.uc, d⟩ ∧
    t.net.getLast? = some ⟨.compAck, q.line, port.val, homePort q.line, txn.val, 0⟩ ∧ { q with comp := some g, contended := b }
    ∉ t.reqs) ∧
  (∀ (s : State) (port : Fin 50) (txn : Fin 1024) (ln src : Nat) (rest : List Msg) (q : OReq) (c : Nat), s.net = ⟨.err c, ln,
    src, port.val, txn.val, 0⟩ :: rest → s.passes ⟨.err c, ln, src, port.val, txn.val, 0⟩ = true → s.clocks = [] → s.reqs.find?
    (fun r => r.port == port.val && r.txn == txn.val) = some q → q.core = none → Answers (.err port txn) s fun t => t.net =
    rest ∧ t.out.getLast? = some (.err c) ∧ q ∉ t.reqs ∧ t.copies = s.copies)

/-- Cores within a tile (spec/11_caches_and_coherence.md: The levels, spec/11_caches_and_coherence.md: States). Copies named
are good. A tile clause with IDLE work has no other work on the line; no clock is gated. GET_S and GET_U of a line that an
idle tile holds unique for no core, the core with room, give it UC. An idle tile without the line, and with no request for
it, sends RD_S for GET_S. TILE_UPG of the one core, which holds S, in a tile that is unique gives it UC. PUT of dirty data
hands it to the L3, whose copy is not dirty, and drops the core's. A core answers T_INV without hold by giving the line up,
dirty data with it, T_DOWN by its data, keeping S, T_FETCH by its data. Held for a reservation it stays under way, held
once and counted. T_DATA of one core of several leaves the wait of a hub snoop; of the last one, no request waiting,
SNP_INV is answered and the copy given up. -/
def Obligations.TileMessages : Prop :=
  (∀ (s : State) (tile : Fin 36) (core : Fin 8) (line : BitVec 46) (c : Copy), s.tileTxn tile.val line.toNat = {} → s.coreVec
    tile.val line.toNat = [] → s.copyOf tile.val line.toNat = some c → c.d.bad = none → c.st ≠ .s → hasRoom (s.arrayOf (coreOf
    tile.val core.val) .l2) (s.coreLines tile.val core.val) line.toNat = true → Answers (.getS tile core line) s fun t =>
    t.coreCopy tile.val core.val line.toNat = some ⟨.uc, { c.d with own := {} }⟩ ∧ t.copies = s.copies ∧ t.net = s.net) ∧
  (∀ (s : State) (tile : Fin 36) (core : Fin 8) (line : BitVec 46) (c : Copy), s.tileTxn tile.val line.toNat = {} → s.coreVec
    tile.val line.toNat = [] → s.copyOf tile.val line.toNat = some c → c.d.bad = none → c.st ≠ .s → hasRoom (s.arrayOf (coreOf
    tile.val core.val) .l2) (s.coreLines tile.val core.val) line.toNat = true → Answers (.getU tile core line) s fun t =>
    t.coreCopy tile.val core.val line.toNat = some ⟨.uc, { c.d with own := {} }⟩ ∧ t.copies = s.copies ∧ t.net = s.net) ∧
  (∀ (s : State) (tile : Fin 36) (core : Fin 8) (line : BitVec 46) (n : Nat), s.tileTxn tile.val line.toNat = {} → s.copyOf
    tile.val line.toNat = none → s.coreCopy tile.val core.val line.toNat = none → s.freeTxn tile.val = some n → (s.reqs.any fun
    r => r.port == tile.val && r.line == line.toNat) = false → Answers (.getS tile core line) s fun t => (∃ r : HReq, r.op =
    .rdS ∧ t.net = s.net ++ [⟨.req r, line.toNat, tile.val, homePort line.toNat, n, 0⟩]) ∧ t.reqs.length = s.reqs.length + 1 ∧
    t.coreCopy tile.val core.val line.toNat = none ∧ t.homes = s.homes) ∧
  (∀ (s : State) (tile : Fin 36) (core : Fin 8) (line : BitVec 46) (c x : Copy), s.tileTxn tile.val line.toNat = {} → s.copyOf
    tile.val line.toNat = some c → c.d.bad = none → c.st ≠ .s → s.coreCopy tile.val core.val line.toNat = some x → x.st = .s →
    s.coreVec tile.val line.toNat = [core.val] → hasRoom (s.arrayOf (coreOf tile.val core.val) .l2) (s.coreLines tile.val
    core.val) line.toNat = true → Answers (.tileUpg tile core line) s fun t => t.coreCopy tile.val core.val line.toNat = some
    ⟨.uc, x.d⟩ ∧ t.copies = s.copies ∧ t.net = s.net ∧ t.tileTxn tile.val line.toNat = {}) ∧
  (∀ (s : State) (tile : Fin 36) (core : Fin 8) (line : BitVec 46) (c x : Copy), s.copyOf tile.val line.toNat = some c → c.st ≠
    .ud → s.coreCopy tile.val core.val line.toNat = some x → x.st = .ud → x.d.pmask = 0 → x.d.bad = none → Answers (.put tile
    core line) s fun t => t.coreCopy tile.val core.val line.toNat = none ∧ t.copyOf tile.val line.toNat = some ⟨.ud, x.d⟩ ∧
    t.net = s.net ∧ t.homes = s.homes) ∧
  (∀ (s : State) (tile : Fin 36) (core : Fin 8) (line : BitVec 46) (x : Copy) (y : Nat) (rest : List Msg), s.net = ⟨.tile .inv,
    line.toNat, tile.val, tile.val, y, core.val⟩ :: rest → s.coreCopy tile.val core.val line.toNat = some x → x.d.pmask = 0 →
    x.d.bad = none → s.clocks = [] → Answers (.tInv tile ⟨core, false⟩ line) s fun t => t.coreCopy tile.val core.val line.toNat
    = none ∧ t.net = rest ++ [⟨.tdata (if x.st = .ud then some x.d else none) (x.st == .ud), line.toNat, tile.val, tile.val, y,
    core.val⟩] ∧ t.copies = s.copies) ∧
  (∀ (s : State) (tile : Fin 36) (core : Fin 8) (line : BitVec 46) (x : Copy) (y : Nat) (rest : List Msg), s.net = ⟨.tile
    .down, line.toNat, tile.val, tile.val, y, core.val⟩ :: rest → s.coreCopy tile.val core.val line.toNat = some x → x.d.pmask
    = 0 → x.d.bad = none → s.clocks = [] → Answers (.tDown tile ⟨core, false⟩ line) s fun t => t.coreCopy tile.val core.val
    line.toNat = some ⟨.s, { x.d with own := {} }⟩ ∧ t.net = rest ++ [⟨.tdata (some x.d) (x.st == .ud), line.toNat, tile.val,
    tile.val, y, core.val⟩] ∧ t.copies = s.copies) ∧
  (∀ (s : State) (tile : Fin 36) (core : Fin 8) (line : BitVec 46) (x : Copy) (y : Nat) (rest : List Msg), s.net = ⟨.tile
    .fetch, line.toNat, tile.val, tile.val, y, core.val⟩ :: rest → s.coreCopy tile.val core.val line.toNat = some x → x.d.pmask
    = 0 → x.d.bad = none → s.clocks = [] → Answers (.tFetch tile ⟨core, false⟩ line) s fun t => t.cores = s.cores ∧ t.net =
    rest ++ [⟨.tdata (some x.d) (x.st == .ud), line.toNat, tile.val, tile.val, y, core.val⟩] ∧ t.copies = s.copies) ∧
  (∀ (s : State) (tile : Fin 36) (core : Fin 8) (line : BitVec 46) (x : Copy) (y : Nat) (rest : List Msg), s.net = ⟨.tile .inv,
    line.toNat, tile.val, tile.val, y, core.val⟩ :: rest → s.coreCopy tile.val core.val line.toNat = some x → x.d.pmask = 0 →
    x.d.bad = none → s.clocks = [] → y = 1 → s.mayHold tile.val core.val line.toNat = true → Answers (.tInv tile ⟨core, true⟩
    line) s fun t => t.net = s.net ∧ t.cores = s.cores ∧ core.val ∈ (t.tileTxn tile.val line.toNat).held ∧ t.get (coreOf
    tile.val core.val) F.CC_CNT_SNPHOLD = min (s.get (coreOf tile.val core.val) F.CC_CNT_SNPHOLD + 1) (2 ^
    F.CC_CNT_SNPHOLD.width - 1)) ∧
  (∀ (s : State) (tile : Fin 36) (core : Fin 8) (line : BitVec 46) (w : TileTxn) (rest : List Msg), s.net = ⟨.tdata none false,
    line.toNat, tile.val, tile.val, 1, core.val⟩ :: rest → s.clocks = [] → s.tileTxn tile.val line.toNat = w → w.snp.isSome =
    true → w.snpWait.filter (fun k => k != core.val) ≠ [] → Answers (.tData tile core line) s fun t => t.net = rest ∧ t.tileTxn
    tile.val line.toNat = { w with snpWait := w.snpWait.filter (fun k => k != core.val) } ∧ t.copies = s.copies) ∧
  (∀ (s : State) (tile : Fin 36) (core : Fin 8) (line : BitVec 46) (w : TileTxn) (q n : Nat) (c : Copy) (rest : List Msg),
    s.net = ⟨.tdata none false, line.toNat, tile.val, tile.val, 1, core.val⟩ :: rest → s.clocks = [] → s.tileTxn tile.val
    line.toNat = w → w.snp = some (.inv, q, n) → w.snpWait = [core.val] → w.req = none → s.copyOf tile.val line.toNat = some c
    → c.st ≠ .ud → Answers (.tData tile core line) s fun t => t.net = rest ++ [⟨.ack .hit none .s, line.toNat, tile.val,
    homePort line.toNat, 0, 0⟩] ∧ t.copyOf tile.val line.toNat = none)

/-- The range maintenance engine (spec/11_caches_and_coherence.md: The range maintenance engine,
spec/11_caches_and_coherence.md: Registers). The engine reaches its lines at RME_DONE, or as a world map commits (log 105).
CLEAN, CLEAN_INV and INV on channel 0, not busy, of a range that holds the one line at a home, in the LLC, set BUSY and
have that line to do, no home or memory changed; RME_DONE on such a line, dirty, good, in the LLC alone and in no secure
page: CLEAN writes it to DRAM and leaves it clean, CLEAN_INV writes it and takes it out, INV takes it out and writes
nothing; each counts it, ends BUSY with RESULT 0 and sets DONE. RECALL of the secure world on channel 1, not busy, sets
BUSY and has the agent's one line to do; RME_DONE then sends SNP_INV for it, BUSY staying. With nothing to do and nothing
under way it ends channel 1. RECALL on channel 0 and a reserved OP there end with RESULT 0x02 and DONE. CLEAN_INV of the
normal world on channel 1 is denied. -/
def Obligations.RangeMaintenance : Prop :=
  (∀ (s : State) (agent : Fin 64) (w : World) (line : BitVec 46) (h : HLine), agent.val ≤ 41 → s.on .rme F.RME0_BUSY = false →
    s.get .rme F.RME0_BASE ≤ line.toNat → line.toNat ≤ s.get .rme F.RME0_LIMIT → s.homes = [(line.toNat, h)] → h.llc.isSome =
    true → Answers (.clean 0 agent w) s fun t => t.on .rme F.RME0_BUSY = true ∧ tget none t.rme 0 = some ⟨.clean, w == .secure,
    0, [line.toNat]⟩ ∧ t.homes = s.homes ∧ t.dram = s.dram ∧ t.net = s.net) ∧
  (∀ (s : State) (agent : Fin 64) (w : World) (line : BitVec 46) (h : HLine), agent.val ≤ 41 → s.on .rme F.RME0_BUSY = false →
    s.get .rme F.RME0_BASE ≤ line.toNat → line.toNat ≤ s.get .rme F.RME0_LIMIT → s.homes = [(line.toNat, h)] → h.llc.isSome =
    true → Answers (.cleanInv 0 agent w) s fun t => t.on .rme F.RME0_BUSY = true ∧ tget none t.rme 0 = some ⟨.cleanInv, w ==
    .secure, 0, [line.toNat]⟩ ∧ t.homes = s.homes ∧ t.dram = s.dram ∧ t.net = s.net) ∧
  (∀ (s : State) (agent : Fin 64) (w : World) (line : BitVec 46) (h : HLine), agent.val ≤ 41 → s.on .rme F.RME0_BUSY = false →
    s.get .rme F.RME0_BASE ≤ line.toNat → line.toNat ≤ s.get .rme F.RME0_LIMIT → s.homes = [(line.toNat, h)] → h.llc.isSome =
    true → Answers (.inv 0 agent w) s fun t => t.on .rme F.RME0_BUSY = true ∧ tget none t.rme 0 = some ⟨.inv, w == .secure, 0,
    [line.toNat]⟩ ∧ t.homes = s.homes ∧ t.dram = s.dram ∧ t.net = s.net) ∧
  (∀ (s : State) (line : BitVec 46) (w : Bool) (h : HLine) (d : LineData) (b : Nat), s.on .rme F.RME0_BUSY = true → tget none
    s.rme 0 = some ⟨.clean, w, 0, [line.toNat]⟩ → s.homes = [(line.toNat, h)] → h.p = [] → h.d = .i → h.txn = none → h.waitq =
    [] → h.llc = some d → d.pmask = 0 → d.bad = none → d.bytes.length = 64 → h.dirty = true → s.securePage (line.toNat / 64) =
    false → 64 * line.toNat < dramSize → Answers (.rmeDone 0) s fun t => (t.hline line.toNat) =
    { h with dirty := false, llc := some { d with own := {} } } ∧ tget 0 t.dram b = (if 64 * line.toNat ≤ b ∧ b < 64 *
    line.toNat + 64 then d.bytes.getD (b - 64 * line.toNat) 0 else tget 0 s.dram b) ∧ t.mram = s.mram ∧ t.copies = s.copies ∧
    t.on .rme F.RME0_BUSY = false ∧ t.get .rme F.RME0_RESULT = 0 ∧ t.on .rme F.RME0_DONE = true ∧ t.get .rme F.RME0_LINES = min
    (s.get .rme F.RME0_LINES + 1) (2 ^ F.RME0_LINES.width - 1)) ∧
  (∀ (s : State) (line : BitVec 46) (w : Bool) (h : HLine) (d : LineData) (b : Nat), s.on .rme F.RME0_BUSY = true → tget none
    s.rme 0 = some ⟨.cleanInv, w, 0, [line.toNat]⟩ → s.homes = [(line.toNat, h)] → h.p = [] → h.d = .i → h.txn = none → h.waitq
    = [] → h.llc = some d → d.pmask = 0 → d.bad = none → d.bytes.length = 64 → h.dirty = true → s.securePage (line.toNat / 64)
    = false → 64 * line.toNat < dramSize → Answers (.rmeDone 0) s fun t => (t.hline line.toNat).llc = none ∧ (t.hline
    line.toNat).dirty = false ∧ (t.hline line.toNat).d = .i ∧ tget 0 t.dram b = (if 64 * line.toNat ≤ b ∧ b < 64 * line.toNat +
    64 then d.bytes.getD (b - 64 * line.toNat) 0 else tget 0 s.dram b) ∧ t.mram = s.mram ∧ t.copies = s.copies ∧ t.on .rme
    F.RME0_BUSY = false ∧ t.get .rme F.RME0_RESULT = 0 ∧ t.on .rme F.RME0_DONE = true ∧ t.get .rme F.RME0_LINES = min (s.get
    .rme F.RME0_LINES + 1) (2 ^ F.RME0_LINES.width - 1)) ∧
  (∀ (s : State) (line : BitVec 46) (w : Bool) (h : HLine) (d : LineData), s.on .rme F.RME0_BUSY = true → tget none s.rme 0 =
    some ⟨.inv, w, 0, [line.toNat]⟩ → s.homes = [(line.toNat, h)] → h.p = [] → h.d = .i → h.txn = none → h.waitq = [] → h.llc =
    some d → d.pmask = 0 → d.bad = none → d.bytes.length = 64 → h.dirty = true → s.securePage (line.toNat / 64) = false → 64 *
    line.toNat < dramSize → Answers (.rmeDone 0) s fun t => (t.hline line.toNat).llc = none ∧ (t.hline line.toNat).dirty =
    false ∧ (t.hline line.toNat).d = .i ∧ t.dram = s.dram ∧ t.on .rme F.RME0_BUSY = false ∧ t.get .rme F.RME0_RESULT = 0 ∧ t.on
    .rme F.RME0_DONE = true ∧ t.get .rme F.RME0_LINES = min (s.get .rme F.RME0_LINES + 1) (2 ^ F.RME0_LINES.width - 1)) ∧
  (∀ (s : State) (agent : Fin 64) (line : BitVec 46) (h : HLine), agent.val ≤ 41 → s.on .rme F.RME1_BUSY = false → s.homes =
    [(line.toNat, h)] → h.p = [agent.val] → Answers (.recall 1 agent .secure) s fun t => t.on .rme F.RME1_BUSY = true ∧ tget
    none t.rme 1 = some ⟨.recall, true, agent.val, [line.toNat]⟩ ∧ t.homes = s.homes ∧ t.net = s.net) ∧
  (∀ (s : State) (agent : Fin 42) (line : BitVec 46) (h : HLine), s.on .rme F.RME1_BUSY = true → tget none s.rme 1 = some
    ⟨.recall, true, agent.val, [line.toNat]⟩ → s.homes = [(line.toNat, h)] → h.p = [agent.val] → h.txn = none → h.waitq = [] →
    s.isolated agent.val line.toNat = false → 64 * line.toNat < dramSize → Answers (.rmeDone 1) s fun t => t.on .rme
    F.RME1_BUSY = true ∧ t.net = s.net ++ [⟨.snp .inv 49 1, line.toNat, homePort line.toNat, agent.val, 0, 0⟩] ∧ (t.hline
    line.toNat).txn.isSome = true) ∧
  (∀ (s : State), s.on .rme F.RME1_BUSY = true → tget none s.rme 1 = none → s.rmeOpen 1 = false → Answers (.rmeDone 1) s fun t
    => t.on .rme F.RME1_BUSY = false ∧ t.get .rme F.RME1_RESULT = 0 ∧ t.on .rme F.RME1_DONE = true) ∧
  (∀ (s : State) (agent : Fin 64) (w : World), s.on .rme F.RME0_BUSY = false → Answers (.recall 0 agent w) s fun t => t.get
    .rme F.RME0_RESULT = 2 ∧ t.on .rme F.RME0_BUSY = false ∧ t.on .rme F.RME0_DONE = true ∧ t.homes = s.homes ∧ t.net = s.net) ∧
  (∀ (s : State) (op : Fin 8) (agent : Fin 64) (w : World), s.on .rme F.RME0_BUSY = false → op.val = 0 ∨ 5 ≤ op.val → Answers
    (.rmeCmdReserved 0 op agent w) s fun t => t.get .rme F.RME0_RESULT = 2 ∧ t.on .rme F.RME0_BUSY = false ∧ t.on .rme
    F.RME0_DONE = true ∧ t.homes = s.homes ∧ t.net = s.net) ∧
  (∀ (s : State) (agent : Fin 64), Answers (.cleanInv 1 agent .normal) s fun t => t.homes = s.homes ∧ t.net = s.net ∧ t.get
    .rme F.RME1_BUSY = s.get .rme F.RME1_BUSY ∧ t.on .rme F.UNIT_ERR_DENIED = true)

/-- Stack controllers, the memory map and the fill engine (spec/12_memory_and_protection.md: Reading, correcting and poison,
spec/12_memory_and_protection.md: Scrubbing, spec/12_memory_and_protection.md: Regions and the annex,
spec/12_memory_and_protection.md: Write before read, spec/12_memory_and_protection.md: Stacks and channels,
spec/12_memory_and_protection.md: Events that meet, spec/12_memory_and_protection.md: Registers,
spec/14_package_and_supply.md: Thermal limits). MC_CORRECTION_WRITEBACK, where a line read back needs no correction or
WB_VERIFY is 0, stores the corrected value of an entry of one byte and sets CE; of any entry with a byte left it takes the
entry off, sets CE and counts it. A hard fault leaves the copy, sets CE_HARD and counts it. A poison entry of one byte
stores that byte as poison. An empty queue: nothing. SCRUB_READ advances the position and leaves the data and the stored
poison; with EN 0 it does nothing. STACK_HOT shows the temperature, HOT above 85 °C, the HOT event as it rises, and WARN
from WARN_C below 105 °C. A secure MEMMAP_COMMIT, LOCK and both BUSY bits 0, sets BUSY and clears ERR where the regions
keep the rules, with the old map in force; else it sets ERR. One from the normal world, or with one of those bits 1, is
denied. MEMMAP_COMMIT_DONE puts the map in force and clears BUSY, with DRAM kept where the regions are the same; a byte
whose code or annex changed is undefined. A secure FILL_GO with both BUSY bits 0 and a range within DRAM starts the fill;
with another range it does no more than set FILL_ERR. From the normal world or with a BUSY bit 1 it is denied.
FILL_DONE_MEM outside Loading leaves zeros in the range, every other byte as it read, and FILL_BUSY 0; in Loading, whose
fill has its own command, or with no fill it does nothing. -/
def Obligations.StackControllers : Prop :=
  (∀ (s : State) (k : Fin 8) (e : WbEnt) (q : List WbEnt) (i v : Nat) (hard : Bool), s.wbq k.val = e :: q → e.bytes = [i] → i <
    64 → e.poison = false → e.line * 64 + i < dramSize → stackOf (64 * e.line) = k → hard = false ∨ s.on (.mc k)
    F.MC_TUNE_WB_VERIFY = false → judgeByte (s.strongAt (64 * e.line)).isSome (s.readByte (64 * e.line + i)) (s.synAt
    (s.strongAt (64 * e.line)) (64 * e.line + i)) = .corrected v → Answers (.mcCorrectionWriteback k hard) s fun t => t.wbq
    k.val = q ∧ (t.dramByte (64 * e.line + i)).toNat = v % 256 ∧ t.on (.mc k) F.MC_EVT_CE = true ∧ t.mram = s.mram) ∧
  (∀ (s : State) (k : Fin 8) (e : WbEnt) (q : List WbEnt) (hard : Bool), s.wbq k.val = e :: q → e.bytes ≠ [] → e.poison = false
    → stackOf (64 * e.line) = k → hard = false ∨ s.on (.mc k) F.MC_TUNE_WB_VERIFY = false → Answers (.mcCorrectionWriteback k
    hard) s fun t => t.wbq k.val = q ∧ t.on (.mc k) F.MC_EVT_CE = true ∧ t.get (.mc k) F.MC_CNT_CE = min (s.get (.mc k)
    F.MC_CNT_CE + 1) (2 ^ F.MC_CNT_CE.width - 1) ∧ t.mram = s.mram) ∧
  (∀ (s : State) (k : Fin 8) (e : WbEnt) (q : List WbEnt), s.wbq k.val = e :: q → e.bytes ≠ [] → e.poison = false → stackOf (64
    * e.line) = k → s.on (.mc k) F.MC_TUNE_WB_VERIFY = true → Answers (.mcCorrectionWriteback k true) s fun t => t.wbq k.val =
    q ∧ t.on (.mc k) F.MC_EVT_CE_HARD = true ∧ t.get (.mc k) F.MC_CNT_CE_HARD = min (s.get (.mc k) F.MC_CNT_CE_HARD + 1) (2 ^
    F.MC_CNT_CE_HARD.width - 1) ∧ t.dram = s.dram ∧ t.flips = s.flips) ∧
  (∀ (s : State) (k : Fin 8) (e : WbEnt) (q : List WbEnt) (i : Nat) (hard : Bool), s.wbq k.val = e :: q → e.bytes = [i] →
    e.poison = true → Answers (.mcCorrectionWriteback k hard) s fun t => t.wbq k.val = q ∧ tget 0 t.poison e.line = tget 0
    s.poison e.line ||| 2 ^ i ∧ t.mram = s.mram) ∧
  (∀ (s : State) (k : Fin 8) (hard : Bool), s.wbq k.val = [] → Answers (.mcCorrectionWriteback k hard) s fun t => t = s.clean) ∧
  (∀ (s : State) (k : Fin 8) (i : Fin 64) (bits : BitVec 13), s.on (.mc k) F.MC_SCRUB_EN = true → Answers (.scrubRead k i bits)
    s fun t => t.get (.mc k) F.MC_SCRUB_POS = (s.get (.mc k) F.MC_SCRUB_POS + 1) % stackLines ∧ t.dram = s.dram ∧ t.mram =
    s.mram ∧ t.poison = s.poison) ∧
  (∀ (s : State) (k : Fin 8) (i : Fin 64) (bits : BitVec 13), s.on (.mc k) F.MC_SCRUB_EN = false → Answers (.scrubRead k i
    bits) s fun t => t = s.clean) ∧
  (∀ (s : State) (k : Fin 8) (temp : BitVec 8), Answers (.stackHot k temp) s fun t => t.get (.mc k) F.MC_STAT_TEMP = temp.toNat
    ∧ (t.on (.mc k) F.MC_STAT_HOT = true ↔ 85 < temp.toInt) ∧ (85 < temp.toInt → s.on (.mc k) F.MC_STAT_HOT = false → t.on (.mc
    k) F.MC_EVT_HOT = true) ∧ (105 - s.warnMargin ≤ temp.toInt → t.on .therm F.THM_EVT_WARN = true) ∧ t.dram = s.dram) ∧
  (∀ (s : State), s.on .memmap F.MEMMAP_CTRL_LOCK = false → s.on .memmap F.FILL_BUSY = false → s.on .memmap F.MEMMAP_STAT_BUSY
    = false → (s.mregions.all (regionOk (s.get .memmap F.MEM_TOP)) && pairsAll regionsApart s.mregions) = true → Answers
    (.memmapCommit .secure) s fun t => t.on .memmap F.MEMMAP_STAT_BUSY = true ∧ t.on .memmap F.MEMMAP_STAT_ERR = false ∧
    t.mregNext = some (s.mregions, s.get .memmap F.MEM_TOP) ∧ t.mregNow = s.mregNow ∧ t.memTop = s.memTop ∧ t.dram = s.dram) ∧
  (∀ (s : State), s.on .memmap F.MEMMAP_CTRL_LOCK = false → s.on .memmap F.FILL_BUSY = false → s.on .memmap F.MEMMAP_STAT_BUSY
    = false → (s.mregions.all (regionOk (s.get .memmap F.MEM_TOP)) && pairsAll regionsApart s.mregions) = false → Answers
    (.memmapCommit .secure) s fun t => t.on .memmap F.MEMMAP_STAT_ERR = true ∧ t.on .memmap F.MEMMAP_STAT_BUSY = false ∧
    t.mregNext = s.mregNext ∧ t.mregNow = s.mregNow ∧ t.dram = s.dram) ∧
  (∀ (s : State) (w : World), w = .normal ∨ s.on .memmap F.MEMMAP_CTRL_LOCK = true ∨ s.on .memmap F.FILL_BUSY = true ∨ s.on
    .memmap F.MEMMAP_STAT_BUSY = true → Answers (.memmapCommit w) s fun t => t.on .memmap F.UNIT_ERR_DENIED = true ∧ t.mregNext
    = s.mregNext ∧ t.mregNow = s.mregNow ∧ t.dram = s.dram) ∧
  (∀ (s : State) (rs : List MRegion) (top : Nat), s.mregNext = some (rs, top) → Answers (.memmapCommitDone) s fun t =>
    t.mregNow = rs ∧ t.memTop = min top 384 ∧ t.mregNext = none ∧ t.on .memmap F.MEMMAP_STAT_BUSY = false ∧ (rs = s.mregNow →
    t.dram = s.dram ∧ t.lost = s.lost)) ∧
  (∀ (s : State) (rs : List MRegion) (top a : Nat), s.mregNext = some (rs, top) → a < 192 * 2 ^ 30 → codeAt s.mregNow (a / 2 ^
    30) ≠ codeAt rs (a / 2 ^ 30) → Answers (.memmapCommitDone) s fun t => t.lost.any (fun r => decide (r.lo ≤ a ∧ a < r.hi)) =
    true ∧ t.mregNow = rs) ∧
  (∀ (s : State), s.on .memmap F.FILL_BUSY = false → s.on .memmap F.MEMMAP_STAT_BUSY = false → (4096 * s.get .memmap
    F.FILL_LIMIT < dramSize ∧ s.get .memmap F.FILL_BASE ≤ s.get .memmap F.FILL_LIMIT) → Answers (.fillGo .secure) s fun t =>
    t.on .memmap F.FILL_BUSY = true ∧ t.on .memmap F.FILL_ERR = false ∧ t.fill = some (4096 * s.get .memmap F.FILL_BASE, 4096 *
    s.get .memmap F.FILL_LIMIT + 4095) ∧ t.dram = s.dram) ∧
  (∀ (s : State), s.on .memmap F.FILL_BUSY = false → s.on .memmap F.MEMMAP_STAT_BUSY = false → ¬(4096 * s.get .memmap
    F.FILL_LIMIT < dramSize ∧ s.get .memmap F.FILL_BASE ≤ s.get .memmap F.FILL_LIMIT) → Answers (.fillGo .secure) s fun t => t
    = s.clean.put .memmap F.FILL_ERR 1) ∧
  (∀ (s : State) (w : World), w = .normal ∨ s.on .memmap F.FILL_BUSY = true ∨ s.on .memmap F.MEMMAP_STAT_BUSY = true → Answers
    (.fillGo w) s fun t => t.on .memmap F.UNIT_ERR_DENIED = true ∧ t.fill = s.fill ∧ t.dram = s.dram) ∧
  (∀ (s : State) (lo hi a : Nat), s.fill = some (lo, hi) → s.mode ≠ .loading → Answers (.fillDoneMem) s fun t => t.dramByte a =
    (if lo ≤ a ∧ a ≤ hi then 0 else s.dramByte a) ∧ t.fill = none ∧ t.on .memmap F.FILL_BUSY = false ∧ t.mram = s.mram) ∧
  (∀ (s : State), s.fill = none ∨ s.mode = .loading → Answers (.fillDoneMem) s fun t => t = s.clean)

/-- NC accesses, timeouts, bad units, error summaries and register writes (spec/13_fabric_and_valiez_links.md: Networks and
units, spec/13_fabric_and_valiez_links.md: Paths and latency, spec/13_fabric_and_valiez_links.md: Timeouts,
spec/10_cores_worlds_translation.md: Internal masters, spec/10_cores_worlds_translation.md: The world map,
spec/10_cores_worlds_translation.md: Xjuh registers, spec/12_memory_and_protection.md: Registers,
spec/18_errors_counters_trace.md: Error summaries, spec/18_errors_counters_trace.md: Package-fatal errors,
spec/19_register_reference.md: The physical address map, spec/19_register_reference.md: The unit header). NC_RD of aligned
MRAM, its TXN neither open nor held, its links Active, the windows and the world map allowing it (a tile: 8 bytes at most;
the locked keystore: hub/key only), is answered with the bytes and their poison; NC_WR, likewise, outside the package area
and the progress area (hub/sweep may write that), stores its bytes and no other, and is acknowledged. NC_DATA, next on its
way with its links Active and no clock gated, hands the data over and ends the request; NC_ACK ends it. BADOP_UNIT sets
BADOP, counts, and records an uncorrected error at the port. REQUEST_TIMEOUT ends the request with its TXN held and logged:
a RD_ONCE, WR_FULL or WR_PTL with ERR cause 5; a caching agent's is package-fatal, from Waking on. With no such request:
nothing. TXN_HOLD_EXPIRY frees the TXN. UNIT_ERR_CLEAR clears the classes written with 1, not FATAL. REGISTER_WRITE: csrrw
of mscratch in M of a running hart moves both values and the pc on; a 2-byte write of XB_TMO at offset 0x100 of hub/xbar,
ready, writes NC_US alone; a normal-world write of INJ_ADDR of hub/mc1, ready, is denied. -/
def Obligations.FabricAccesses : Prop :=
  (∀ (s : State) (port : Fin 50) (txn : Fin 1024) (addr : BitVec 52) (lg : Fin 7) (w : NcBy), (s.reqs.any fun r => r.port ==
    port.val && r.txn == txn.val) = false → (s.heldTxn.any fun e => e.port == port.val && e.txn == txn.val) = false →
    s.ncPasses port.val addr.toNat = true → (masterOf port.val).all (fun i => s.windowOk i false addr.toNat (2 ^ lg.val)) =
    true → masterOf port.val = none → (2 ^ lg.val) ≤ 8 → addr.toNat % (2 ^ lg.val) = 0 → inMram addr.toNat (2 ^ lg.val) = true
    → s.worldOk (s.ncWorld port.val w) addr.toNat (2 ^ lg.val) = true → s.inKeystore addr.toNat (2 ^ lg.val) = false ∨ port.val
    = 47 → Answers (.ncRd port txn addr lg w) s fun t => t.net = s.net ++ [⟨.ncData (s.mramBytes (addr.toNat - mramBase) (2 ^
    lg.val)) (s.mramPoisoned addr.toNat (2 ^ lg.val)), addr.toNat, ncTarget addr.toNat, port.val, txn.val, 0⟩] ∧ t.mram =
    s.mram ∧ t.reqs = s.reqs ++
    [{ port := port.val, txn := txn.val, line := addr.toNat, op := none, hart := s.ncHart port.val w }]) ∧
  (∀ (s : State) (port : Fin 50) (txn : Fin 1024) (addr : BitVec 52) (data : List Byte) (w : NcBy) (b : Nat), (s.reqs.any fun r
    => r.port == port.val && r.txn == txn.val) = false → (s.heldTxn.any fun e => e.port == port.val && e.txn == txn.val) =
    false → s.ncPasses port.val addr.toNat = true → [1, 2, 4, 8, 16, 32, 64].contains data.length = true → (masterOf
    port.val).all (fun i => s.windowOk i true addr.toNat data.length) = true → masterOf port.val = none → data.length ≤ 8 →
    addr.toNat % data.length = 0 → inMram addr.toNat data.length = true → s.worldOk (s.ncWorld port.val w) addr.toNat
    data.length = true → s.inKeystore addr.toNat data.length = false ∨ port.val = 47 → s.inProgress addr.toNat data.length =
    false ∨ port.val = 48 → inPkgArea addr.toNat data.length = false → Answers (.ncWr port txn addr data w) s fun t => t.net =
    s.net ++ [⟨.ncAck, addr.toNat, ncTarget addr.toNat, port.val, txn.val, 0⟩] ∧ t.mramBytes (addr.toNat - mramBase)
    data.length = data ∧ (b < addr.toNat - mramBase ∨ addr.toNat - mramBase + data.length ≤ b → t.mramByte b = s.mramByte b) ∧
    t.regs = s.regs ∧ t.dram = s.dram) ∧
  (∀ (s : State) (port : Fin 50) (txn : Fin 1024) (a src : Nat) (bs : List Byte) (p : Bool) (rest : List Msg), s.net = ⟨.ncData
    bs p, a, src, port.val, txn.val, 0⟩ :: rest → s.passes ⟨.ncData bs p, a, src, port.val, txn.val, 0⟩ = true → s.clocks = []
    → (s.reqs.any fun r => r.port == port.val && r.txn == txn.val) = true → Answers (.ncData port txn) s fun t =>
    t.out.getLast? = some (.line bs p) ∧ t.net = rest ∧ t.reqs.all (fun r => !(r.port == port.val && r.txn == txn.val)) = true
    ∧ t.mram = s.mram) ∧
  (∀ (s : State) (port : Fin 50) (txn : Fin 1024) (a src : Nat) (rest : List Msg), s.net = ⟨.ncAck, a, src, port.val, txn.val,
    0⟩ :: rest → s.passes ⟨.ncAck, a, src, port.val, txn.val, 0⟩ = true → s.clocks = [] → (s.reqs.any fun r => r.port ==
    port.val && r.txn == txn.val) = true → Answers (.ncAck port txn) s fun t => t.net = rest ∧ t.reqs.all (fun r => !(r.port ==
    port.val && r.txn == txn.val)) = true ∧ t.mram = s.mram ∧ t.regs = s.regs) ∧
  (∀ (s : State) (port : Fin 60), Answers (.badopUnit port) s fun t => t.on .xbar F.XB_EVT_BADOP = true ∧ t.get .xbar
    F.XB_CNT_BADOP = min (s.get .xbar F.XB_CNT_BADOP + 1) (2 ^ F.XB_CNT_BADOP.width - 1) ∧ t.on (portUnit port.val)
    F.UNIT_ERR_UE = true ∧ t.net = s.net ∧ t.reqs = s.reqs) ∧
  (∀ (s : State) (port : Fin 60) (txn : Fin 1024) (q : OReq), s.reqs.find? (fun r => r.port == port.val && r.txn == txn.val) =
    some q → q.op = some .rdOnce ∨ q.op = some .wrFull ∨ q.op = some .wrPtl → Answers (.requestTimeout (.req port txn)) s fun t
    => t.reqs = s.reqs.filter (fun x => x != q) ∧ t.heldTxn = s.heldTxn ++ [answersLeft q] ∧ t.get .xbar F.XB_TLOG_TXN = q.txn
    % 1024 ∧ t.on .xbar F.XB_EVT_TIMEOUT = true ∧ t.out.getLast? = some (.err 5) ∧ t.on (portUnit q.port) F.UNIT_ERR_UE = true
    ∧ t.fatal = s.fatal) ∧
  (∀ (s : State) (port : Fin 60) (txn : Fin 1024) (q : OReq), s.reqs.find? (fun r => r.port == port.val && r.txn == txn.val) =
    some q → q.op ≠ none → q.op ≠ some .rdOnce → q.op ≠ some .wrFull → q.op ≠ some .wrPtl → s.isOff = false → s.mode ≠ .keep →
    Answers (.requestTimeout (.req port txn)) s fun t => t.reqs = s.reqs.filter (fun x => x != q) ∧ t.heldTxn = s.heldTxn ++
    [answersLeft q] ∧ t.get .xbar F.XB_TLOG_TXN = q.txn % 1024 ∧ t.on .xbar F.XB_EVT_TIMEOUT = true ∧ t.fatal = s.fatal ++
    [portUnit q.port] ∧ t.get .err F.FATAL_N = (s.get .err F.FATAL_N + 1) % 2 ^ F.FATAL_N.width) ∧
  (∀ (s : State) (port : Fin 60) (txn : Fin 1024), s.reqs.find? (fun r => r.port == port.val && r.txn == txn.val) = none →
    Answers (.requestTimeout (.req port txn)) s fun t => t = s.clean) ∧
  (∀ (s : State) (port : Fin 60) (txn : Fin 1024), Answers (.txnHoldExpiry port txn) s fun t => (t.heldTxn.any fun e => e.port
    == port.val && e.txn == txn.val) = false ∧ t.regs = s.regs ∧ t.reqs = s.reqs) ∧
  (∀ (s : State) (u : UnitId) (mask : Fin 16), Answers (.unitErrClear u mask) s fun t => t.get u F.UNIT_ERR_CE = (if mask.val /
    1 % 2 = 1 then 0 else s.get u F.UNIT_ERR_CE) ∧ t.get u F.UNIT_ERR_UE = (if mask.val / 2 % 2 = 1 then 0 else s.get u
    F.UNIT_ERR_UE) ∧ t.get u F.UNIT_ERR_DENIED = (if mask.val / 4 % 2 = 1 then 0 else s.get u F.UNIT_ERR_DENIED) ∧ t.get u
    F.UNIT_ERR_HWFAULT = (if mask.val / 8 % 2 = 1 then 0 else s.get u F.UNIT_ERR_HWFAULT) ∧ t.get u F.UNIT_ERR_FATAL = s.get u
    F.UNIT_ERR_FATAL ∧ t.dram = s.dram) ∧
  (∀ (s : State) (a : At) (h : Hart) (rd : Fin 32) (v : BitVec 64), s.running a = some h → h.priv = 3 → rd ≠ 0 → Answers
    (.registerWrite (.csr a 0x340 rd false) v) s fun t => csr (t.hart a.hart.val) 0x340 = v.toNat ∧ xreg (t.hart a.hart.val)
    rd.val = csr h 0x340 ∧ (t.hart a.hart.val).pc = (a.pc + instLen a) % 2 ^ 64 ∧ t.regs = s.regs) ∧
  (∀ (s : State) (addr : BitVec 52) (slot : Nat) (w : World) (v : BitVec 64), s.busAt addr.toNat = .unit .xbar slot →
    addr.toNat % 2 ^ 16 = 0x100 → v.toNat < 2 ^ 16 → s.unitReady .xbar = true → Answers (.registerWrite (.mem addr 1 w) v) s
    fun t => t.get .xbar F.XB_TMO_NC_US = v.toNat ∧ t.get .xbar F.XB_TMO_COH_MS = s.get .xbar F.XB_TMO_COH_MS ∧ t.dram = s.dram
    ∧ t.mram = s.mram) ∧
  (∀ (s : State) (addr : BitVec 52) (slot : Nat) (v : BitVec 64), s.busAt addr.toNat = .unit (.mc 1) slot → addr.toNat % 2 ^ 16
    = 288 → s.unitReady (.mc 1) = true → Answers (.registerWrite (.mem addr 3 .normal) v) s fun t => t.get (.mc 1) F.INJ_ADDR =
    s.get (.mc 1) F.INJ_ADDR ∧ t.on (.mc 1) F.UNIT_ERR_DENIED = true ∧ t.dram = s.dram ∧ t.mram = s.mram)

/-- Training of a Valiez link (spec/13_fabric_and_valiez_links.md: Training, spec/13_fabric_and_valiez_links.md: Spare lanes
and width, spec/13_fabric_and_valiez_links.md: Versions, spec/13_fabric_and_valiez_links.md: Losing a link,
spec/13_fabric_and_valiez_links.md: Events that meet, spec/13_fabric_and_valiez_links.md: Registers). Never Active, below:
neither this link nor its twin was. VZ_ENABLE with 1 of a link whose EN is 0 sets EN and puts it in Detect, TRIES 0, no
kept mask; of the value EN has it does nothing; with 0 of one never Active, it is Off. VZ_DETECT: Detect to Clock;
elsewhere nothing. VZ_STEP_DONE: 2 to 3; 4 to 5; 3 to 4 in full with every lane of tile or medium-die links good, the
lowest 32 mapped; with no good lane towards the die, of one never Active, Failed; 5 to 6 in full, with the mapped masks; to
10, counted, masks dropped, where the hub drives fewer lanes than MAP; 6 to 7 with the lower of both ends' versions; 7 to
Active, UP set, the round trip shown, the masks kept, TRIES 0, the replay buffer kept; else nothing. VZ_MISMATCH_HOLD_END
trains in full; after three in a row, of a link never Active, Failed; not held, nothing. VZ_STEP_TIMEOUT in steps 2 to 7
trains in full with TRIES one more; with TRIES 3, never Active, Failed; else nothing. VZ_RETRAIN of an Active link with
kept masks is fast: RETRAIN set, STATE 2, the replay buffer kept; with FULL it is in full, with DOWN. In training it starts
over in full with TRIES 0; Off, nothing. -/
def Obligations.LinkTraining : Prop :=
  (∀ (s : State) (n : Fin 45), s.on (.vz n) F.VZ_CTRL_EN = false → Answers (.vzEnable n true) s fun t => t.on (.vz n)
    F.VZ_CTRL_EN = true ∧ t.get (.vz n) F.VZ_STAT_STATE = 1 ∧ t.get (.vz n) F.VZ_STAT_TRIES = 0 ∧ (t.link n).hubKept = none ∧
    t.fatal = s.fatal) ∧
  (∀ (s : State) (n : Fin 45) (en : Bool), s.on (.vz n) F.VZ_CTRL_EN = en → Answers (.vzEnable n en) s fun t => t = s.clean) ∧
  (∀ (s : State) (n : Fin 45), s.on (.vz n) F.VZ_CTRL_EN = true → (s.link n).wasUp = false → (vzTwin n).all (fun m => !(s.link
    m).wasUp) = true → Answers (.vzEnable n false) s fun t => t.on (.vz n) F.VZ_CTRL_EN = false ∧ t.get (.vz n) F.VZ_STAT_STATE
    = 0 ∧ t.fatal = s.fatal) ∧
  (∀ (s : State) (n : Fin 45), s.get (.vz n) F.VZ_STAT_STATE = 1 → Answers (.vzDetect n) s fun t => t.get (.vz n)
    F.VZ_STAT_STATE = 2 ∧ t.links = s.links ∧ t.fatal = s.fatal) ∧
  (∀ (s : State) (n : Fin 45), s.get (.vz n) F.VZ_STAT_STATE ≠ 1 → Answers (.vzDetect n) s fun t => t = s.clean) ∧
  (∀ (s : State) (n : Fin 45) (o : VzObs), s.get (.vz n) F.VZ_STAT_STATE = 2 → Answers (.vzStepDone n o) s fun t => t.get (.vz
    n) F.VZ_STAT_STATE = 3 ∧ t.links = s.links) ∧
  (∀ (s : State) (n : Fin 45) (o : VzObs), s.get (.vz n) F.VZ_STAT_STATE = 4 → Answers (.vzStepDone n o) s fun t => t.get (.vz
    n) F.VZ_STAT_STATE = 5 ∧ t.links = s.links) ∧
  (∀ (s : State) (n : Fin 45) (o : VzObs), s.get (.vz n) F.VZ_STAT_STATE = 3 → n.val ≠ 44 → s.get (.vz n) F.VZ_TX_FUSE = 0 →
    s.get (.vz n) F.VZ_RX_FUSE = 0 → (s.link n).hubFast = false → (s.link n).dieFast = false → o.tx = BitVec.allOnes 34 → o.rx
    = BitVec.allOnes 34 → Answers (.vzStepDone n o) s fun t => t.get (.vz n) F.VZ_STAT_STATE = 4 ∧ (t.link n).good = (2 ^ 32 -
    1, 2 ^ 32 - 1) ∧ t.get (.vz n) F.VZ_CNT_LANEFAIL = min (s.get (.vz n) F.VZ_CNT_LANEFAIL) (2 ^ F.VZ_CNT_LANEFAIL.width - 1)) ∧
  (∀ (s : State) (n : Fin 45) (o : VzObs), s.get (.vz n) F.VZ_STAT_STATE = 3 → o.tx = 0 → (s.link n).wasUp = false → (vzTwin
    n).all (fun m => !(s.link m).wasUp) = true → Answers (.vzStepDone n o) s fun t => t.get (.vz n) F.VZ_STAT_STATE = 9 ∧ t.on
    (.vz n) F.VZ_EVT_FAILED = true ∧ t.fatal = s.fatal) ∧
  (∀ (s : State) (n : Fin 45) (o : VzObs), s.get (.vz n) F.VZ_STAT_STATE = 5 → (s.link n).hubFast = false → (s.link n).dieFast
    = false → Answers (.vzStepDone n o) s fun t => t.get (.vz n) F.VZ_STAT_STATE = 6 ∧ t.get (.vz n) F.VZ_TX_MASK = (s.link
    n).good.1 % 2 ^ F.VZ_TX_MASK.width ∧ t.get (.vz n) F.VZ_RX_MASK = (s.link n).good.2 % 2 ^ F.VZ_RX_MASK.width) ∧
  (∀ (s : State) (n : Fin 45) (o : VzObs) (k : Nat × Nat), s.get (.vz n) F.VZ_STAT_STATE = 5 → (s.link n).hubFast = true →
    (s.link n).hubKept = some k → k.1 &&& (s.link n).good.1 ≠ (s.link n).good.1 → Answers (.vzStepDone n o) s fun t => t.get
    (.vz n) F.VZ_STAT_STATE = 10 ∧ t.on (.vz n) F.VZ_EVT_MISMATCH = true ∧ t.get (.vz n) F.VZ_CNT_MISMATCH = min (s.get (.vz n)
    F.VZ_CNT_MISMATCH + 1) (2 ^ F.VZ_CNT_MISMATCH.width - 1) ∧ (t.link n).mism = (s.link n).mism + 1 ∧ (t.link n).hubKept =
    none ∧ (t.link n).dieKept = none) ∧
  (∀ (s : State) (n : Fin 45) (o : VzObs), s.get (.vz n) F.VZ_STAT_STATE = 6 → Answers (.vzStepDone n o) s fun t => t.get (.vz
    n) F.VZ_STAT_STATE = 7 ∧ t.get (.vz n) F.VZ_STAT_VER = min (s.vzCeiling n) (s.vzFar n) % 2 ^ F.VZ_STAT_VER.width) ∧
  (∀ (s : State) (n : Fin 45) (o : VzObs), s.get (.vz n) F.VZ_STAT_STATE = 7 → Answers (.vzStepDone n o) s fun t => t.get (.vz
    n) F.VZ_STAT_STATE = 8 ∧ t.get (.vz n) F.VZ_RTT = o.rtt.toNat ∧ t.get (.vz n) F.VZ_STAT_TRIES = 0 ∧ t.on (.vz n)
    F.VZ_EVT_UP = true ∧ (t.link n).wasUp = true ∧ (t.link n).mism = 0 ∧ (t.link n).hubKept = some (s.get (.vz n) F.VZ_TX_MASK,
    s.get (.vz n) F.VZ_RX_MASK) ∧ (t.link n).hub.replay = (s.link n).hub.replay) ∧
  (∀ (s : State) (n : Fin 45) (o : VzObs), s.get (.vz n) F.VZ_STAT_STATE = 1 ∨ 8 ≤ s.get (.vz n) F.VZ_STAT_STATE ∨ s.get (.vz
    n) F.VZ_STAT_STATE = 0 → Answers (.vzStepDone n o) s fun t => t = s.clean) ∧
  (∀ (s : State) (n : Fin 45), s.get (.vz n) F.VZ_STAT_STATE = 10 → (s.link n).mism < 3 → Answers (.vzMismatchHoldEnd n) s fun
    t => t.get (.vz n) F.VZ_STAT_STATE = 1 ∧ (t.link n).hubKept = none ∧ t.fatal = s.fatal) ∧
  (∀ (s : State) (n : Fin 45), s.get (.vz n) F.VZ_STAT_STATE = 10 → 3 ≤ (s.link n).mism → (s.link n).wasUp = false → (vzTwin
    n).all (fun m => !(s.link m).wasUp) = true → Answers (.vzMismatchHoldEnd n) s fun t => t.get (.vz n) F.VZ_STAT_STATE = 9 ∧
    t.on (.vz n) F.VZ_EVT_FAILED = true ∧ t.fatal = s.fatal) ∧
  (∀ (s : State) (n : Fin 45), s.get (.vz n) F.VZ_STAT_STATE ≠ 10 → Answers (.vzMismatchHoldEnd n) s fun t => t = s.clean) ∧
  (∀ (s : State) (n : Fin 45), 2 ≤ s.get (.vz n) F.VZ_STAT_STATE → s.get (.vz n) F.VZ_STAT_STATE ≤ 7 → s.get (.vz n)
    F.VZ_STAT_TRIES < 3 → Answers (.vzStepTimeout n) s fun t => t.get (.vz n) F.VZ_STAT_STATE = 1 ∧ t.get (.vz n)
    F.VZ_STAT_TRIES = s.get (.vz n) F.VZ_STAT_TRIES + 1 ∧ (t.link n).hubKept = none ∧ t.fatal = s.fatal) ∧
  (∀ (s : State) (n : Fin 45), 2 ≤ s.get (.vz n) F.VZ_STAT_STATE → s.get (.vz n) F.VZ_STAT_STATE ≤ 7 → s.get (.vz n)
    F.VZ_STAT_TRIES = 3 → (s.link n).wasUp = false → (vzTwin n).all (fun m => !(s.link m).wasUp) = true → Answers
    (.vzStepTimeout n) s fun t => t.get (.vz n) F.VZ_STAT_STATE = 9 ∧ t.on (.vz n) F.VZ_EVT_FAILED = true ∧ t.fatal = s.fatal) ∧
  (∀ (s : State) (n : Fin 45), s.get (.vz n) F.VZ_STAT_STATE < 2 ∨ 7 < s.get (.vz n) F.VZ_STAT_STATE → Answers (.vzStepTimeout
    n) s fun t => t = s.clean) ∧
  (∀ (s : State) (n : Fin 45), s.get (.vz n) F.VZ_STAT_STATE = 8 → (s.link n).hubKept.isSome = true → Answers (.vzRetrain n
    false) s fun t => t.get (.vz n) F.VZ_STAT_STATE = 2 ∧ t.on (.vz n) F.VZ_EVT_RETRAIN = true ∧ (t.link n).hubFast = true ∧
    (t.link n).hub = (s.link n).hub ∧ t.fatal = s.fatal) ∧
  (∀ (s : State) (n : Fin 45), s.get (.vz n) F.VZ_STAT_STATE = 8 → Answers (.vzRetrain n true) s fun t => t.get (.vz n)
    F.VZ_STAT_STATE = 1 ∧ t.on (.vz n) F.VZ_EVT_DOWN = true ∧ (t.link n).hubKept = none ∧ t.get (.vz n) F.VZ_STAT_TRIES = 0 ∧
    t.fatal = s.fatal) ∧
  (∀ (s : State) (n : Fin 45) (full : Bool), s.get (.vz n) F.VZ_STAT_STATE ≠ 0 → s.get (.vz n) F.VZ_STAT_STATE ≠ 8 → s.get (.vz
    n) F.VZ_STAT_STATE ≠ 9 → Answers (.vzRetrain n full) s fun t => t.get (.vz n) F.VZ_STAT_STATE = 1 ∧ t.get (.vz n)
    F.VZ_STAT_TRIES = 0 ∧ (t.link n).hubKept = none ∧ t.fatal = s.fatal) ∧
  (∀ (s : State) (n : Fin 45) (full : Bool), s.get (.vz n) F.VZ_STAT_STATE = 0 → Answers (.vzRetrain n full) s fun t => t =
    s.clean)

/-- Flits, isolation and half idle of a Valiez link (spec/13_fabric_and_valiez_links.md: Flits,
spec/13_fabric_and_valiez_links.md: Reserving buffers, spec/13_fabric_and_valiez_links.md: Networks and units,
spec/13_fabric_and_valiez_links.md: Versions, spec/13_fabric_and_valiez_links.md: Losing a link,
spec/13_fabric_and_valiez_links.md: Culverts, spec/13_fabric_and_valiez_links.md: Registers). The bits that a flit loses
are an operand. FLIT_RECEIVED on an Active link, both clocks running, of a fresh sender with one request unit whose OP is
defined and the SEQ awaited, its receiver with nothing outstanding, no bit lost: the flit is accepted, its unit takes a
credit and it rests in the replay buffer. While the receiver's clock is stopped, what is left of it waits in the receiver's
culvert. With that culvert full, the link not Active or the sender's clock stopped, nothing goes. A flit whose CRC fails at
the hub is not accepted: NAK, counted. NAK: an end that met NAK sends again from its first unacknowledged flit; one that
met none does nothing. FAST_RETRAIN_START of an Active link with kept masks, a flit of one end sent REPLAY_MAX times,
begins a fast retrain that keeps both ends; so does one with more than CRC_THR bad flits within 1 ms; not Active, nothing.
ISOLATE_SET sets ISOLATE; a tile link lost in that cycle is Failed and not fatal. ISOLATE_CLEAR clears it. EN 0 on a tile
or keep link that was Active, not isolated, from Waking on, is package-fatal; on a medium die's link, its twin Active, it
loses nothing: DOWN, and its unacknowledged flits follow the twin's. HALF_IDLE_ENTER of an Active full-width link of
version 2, IDLE_US not 0, sets HALF_IDLE; another it leaves. HALF_IDLE_EXIT clears it. -/
def Obligations.LinkFlits : Prop :=
  (∀ (s : State) (n : Fin 45) (toHub : Bool) (u : VzUnit), s.get (.vz n) F.VZ_STAT_STATE = 8 → s.vzClocked n (!toHub) = true →
    s.vzClocked n toHub = true → (s.vzEnd n toHub).culvert = [] → (s.vzEnd n toHub).replay = [] → (s.vzEnd n toHub).again =
    none → (s.vzEnd n (!toHub)).seq = ((s.vzEnd n toHub).rx + 1) % 256 → (s.vzEnd n (!toHub)).again = none → (s.vzEnd n
    (!toHub)).replay = [] → (s.vzEnd n (!toHub)).sent = [0, 0, 0, 0] → (s.vzEnd n (!toHub)).seen = [0, 0, 0, 0] → (s.vzEnd n
    (!toHub)).seq < 256 → u.net = 0 → 1 ≤ unitOp u → unitOp u ≤ 10 → Answers (.flitReceived n toHub [u] 0) s fun t => (t.vzEnd
    n toHub).rx = (s.vzEnd n (!toHub)).seq ∧ (t.vzEnd n toHub).nak = false ∧ (t.vzEnd n toHub).culvert = [] ∧ (t.vzEnd n
    (!toHub)).replay = [⟨(s.vzEnd n (!toHub)).seq, 1, [u]⟩] ∧ (t.vzEnd n (!toHub)).seq = ((s.vzEnd n (!toHub)).seq + 1) % 256 ∧
    (t.vzEnd n (!toHub)).sent = [1, 0, 0, 0] ∧ t.get (.vz n) F.VZ_CNT_CRC = s.get (.vz n) F.VZ_CNT_CRC) ∧
  (∀ (s : State) (n : Fin 45) (toHub : Bool) (u : VzUnit) (noise : BitVec 2048), s.get (.vz n) F.VZ_STAT_STATE = 8 →
    s.vzClocked n (!toHub) = true → s.vzClocked n toHub = false → (s.vzEnd n toHub).culvert.length < 16 → (s.vzEnd n
    (!toHub)).again = none → (s.vzEnd n (!toHub)).replay = [] → (s.vzEnd n (!toHub)).sent = [0, 0, 0, 0] → (s.vzEnd n
    (!toHub)).seen = [0, 0, 0, 0] → (s.vzEnd n (!toHub)).seq < 256 → u.net = 0 → 1 ≤ unitOp u → unitOp u ≤ 10 → Answers
    (.flitReceived n toHub [u] noise) s fun t => (t.vzEnd n toHub) =
    { (s.vzEnd n toHub) with culvert := (s.vzEnd n toHub).culvert ++ [readFlit (flitWord ⟨some (s.vzEnd n (!toHub)).seq, [u]⟩ (((s.vzEnd n (!toHub)).seq + 1) % 256) (s.vzEnd n (!toHub)).rx (s.vzEnd n (!toHub)).nak (s.vzEnd n (!toHub)).freed ^^^ noise.toNat)] }
    ∧ (t.vzEnd n (!toHub)).replay = [⟨(s.vzEnd n (!toHub)).seq, 1, [u]⟩] ∧ (t.vzEnd n (!toHub)).seq = ((s.vzEnd n (!toHub)).seq
    + 1) % 256 ∧ (t.vzEnd n (!toHub)).sent = [1, 0, 0, 0]) ∧
  (∀ (s : State) (n : Fin 45) (toHub : Bool) (want : List VzUnit) (noise : BitVec 2048), 16 ≤ (s.vzEnd n toHub).culvert.length
    ∨ s.get (.vz n) F.VZ_STAT_STATE ≠ 8 ∨ s.vzClocked n (!toHub) = false → Answers (.flitReceived n toHub want noise) s fun t
    => t = s.clean) ∧
  (∀ (s : State) (n : Fin 45) (want : List VzUnit) (noise : BitVec 2048), s.get (.vz n) F.VZ_STAT_STATE = 8 → s.vzClocked n
    true = true → s.vzClocked n false = true → (s.link n).hub.culvert = [] → ∀ f, nextFlit n true (s.get (.vz n) F.VZ_STAT_VER)
    (s.link n).die want = f → (readFlit (flitWord f.2 f.1.seq f.1.rx f.1.nak f.1.freed ^^^ noise.toNat)).bad = true → Answers
    (.flitReceived n true want noise) s fun t => (t.link n).hub.nak = true ∧ (t.link n).hub.rx = (s.link n).hub.rx ∧ t.get (.vz
    n) F.VZ_CNT_CRC = min (s.get (.vz n) F.VZ_CNT_CRC + 1) (2 ^ F.VZ_CNT_CRC.width - 1)) ∧
  (∀ (s : State) (n : Fin 45) (hubEnd : Bool), (s.vzEnd n hubEnd).nakSeen = true → (s.vzEnd n hubEnd).replay ≠ [] → Answers
    (.nak n hubEnd) s fun t => (t.vzEnd n hubEnd).again = some 0 ∧ (t.vzEnd n hubEnd).nakSeen = false ∧ (t.vzEnd n
    hubEnd).replay = (s.vzEnd n hubEnd).replay ∧ t.vzEnd n (!hubEnd) = s.vzEnd n (!hubEnd) ∧ t.regs = s.regs) ∧
  (∀ (s : State) (n : Fin 45) (hubEnd : Bool), (s.vzEnd n hubEnd).nakSeen = false → Answers (.nak n hubEnd) s fun t => t =
    s.clean) ∧
  (∀ (s : State) (n : Fin 45) (hubEnd : Bool), s.get (.vz n) F.VZ_STAT_STATE = 8 → (s.link n).hubKept.isSome = true → (s.vzEnd
    n hubEnd).replay.any (fun f => decide (max 2 (s.get (.vz n) F.VZ_TUNE_REPLAY_MAX) ≤ f.sends)) = true → Answers
    (.fastRetrainStart n) s fun t => t.get (.vz n) F.VZ_STAT_STATE = 2 ∧ t.on (.vz n) F.VZ_EVT_RETRAIN = true ∧ (t.link
    n).hubFast = true ∧ (t.link n).hub = (s.link n).hub ∧ (t.link n).die = (s.link n).die) ∧
  (∀ (s : State) (n : Fin 45) (hubEnd : Bool), s.get (.vz n) F.VZ_STAT_STATE = 8 → (s.link n).hubKept.isSome = true → max 1
    (s.get (.vz n) F.VZ_TUNE_CRC_THR) < recentBad (s.vzEnd n hubEnd) (s.get .irq F.PKG_TIME) → Answers (.fastRetrainStart n) s
    fun t => t.get (.vz n) F.VZ_STAT_STATE = 2 ∧ t.on (.vz n) F.VZ_EVT_RETRAIN = true ∧ (t.link n).hubFast = true ∧ (t.link
    n).hub = (s.link n).hub ∧ (t.link n).die = (s.link n).die) ∧
  (∀ (s : State) (n : Fin 45), s.get (.vz n) F.VZ_STAT_STATE ≠ 8 → Answers (.fastRetrainStart n) s fun t => t = s.clean) ∧
  (∀ (s : State) (n : Fin 45), Answers (.isolateSet n false) s fun t => t.on (.vz n) F.VZ_CTRL_ISOLATE = true ∧ t.get (.vz n)
    F.VZ_STAT_STATE = s.get (.vz n) F.VZ_STAT_STATE ∧ t.links = s.links ∧ t.fatal = s.fatal) ∧
  (∀ (s : State) (n : Fin 45), s.get (.vz n) F.VZ_STAT_STATE = 8 → n.val < 36 → Answers (.isolateSet n true) s fun t => t.on
    (.vz n) F.VZ_CTRL_ISOLATE = true ∧ t.get (.vz n) F.VZ_STAT_STATE = 9 ∧ t.fatal = s.fatal ∧ (t.link n).wasUp = false) ∧
  (∀ (s : State) (n : Fin 45), Answers (.isolateClear n) s fun t => t.on (.vz n) F.VZ_CTRL_ISOLATE = false ∧ t.get (.vz n)
    F.VZ_STAT_STATE = s.get (.vz n) F.VZ_STAT_STATE ∧ t.links = s.links) ∧
  (∀ (s : State) (n : Fin 45), vzTwin n = none → s.on (.vz n) F.VZ_CTRL_EN = true → (s.link n).wasUp = true → s.on (.vz n)
    F.VZ_CTRL_ISOLATE = false → s.isOff = false → s.mode ≠ .keep → Answers (.vzEnable n false) s fun t => t.get (.vz n)
    F.VZ_STAT_STATE = 0 ∧ t.fatal = s.fatal ++ [.vz n] ∧ (t.link n).wasUp = false) ∧
  (∀ (s : State) (n : Fin 45) (m : Fin 45), vzTwin n = some m → s.get (.vz m) F.VZ_STAT_STATE = 8 → s.on (.vz n) F.VZ_CTRL_EN =
    true → Answers (.vzEnable n false) s fun t => t.get (.vz n) F.VZ_STAT_STATE = 0 ∧ t.fatal = s.fatal ∧ t.on (.vz n)
    F.VZ_EVT_DOWN = true ∧ (t.link n).moved = true ∧ (t.link m).hub.replay.map VzFlit.units = (s.link m).hub.replay.map
    VzFlit.units ++ (s.link n).hub.replay.map VzFlit.units) ∧
  (∀ (s : State) (n : Fin 45), s.get (.vz n) F.VZ_STAT_STATE = 8 → s.get (.vz n) F.VZ_STAT_VER = 2 → s.get (.vz n)
    F.VZ_STAT_TXW = 2 → s.get (.vz n) F.VZ_STAT_RXW = 2 → s.get (.vz n) F.VZ_TUNE_IDLE_US ≠ 0 → Answers (.halfIdleEnter n) s
    fun t => t.get (.vz n) F.VZ_STAT_HALF_IDLE = 1 ∧ t.get (.vz n) F.VZ_STAT_STATE = 8 ∧ t.links = s.links) ∧
  (∀ (s : State) (n : Fin 45), s.get (.vz n) F.VZ_STAT_STATE ≠ 8 ∨ s.get (.vz n) F.VZ_STAT_VER ≠ 2 ∨ s.get (.vz n)
    F.VZ_STAT_TXW ≠ 2 ∨ s.get (.vz n) F.VZ_STAT_RXW ≠ 2 ∨ s.get (.vz n) F.VZ_TUNE_IDLE_US = 0 → Answers (.halfIdleEnter n) s
    fun t => t = s.clean) ∧
  (∀ (s : State) (n : Fin 45), Answers (.halfIdleExit n) s fun t => t.get (.vz n) F.VZ_STAT_HALF_IDLE = 0 ∧ t.get (.vz n)
    F.VZ_STAT_STATE = s.get (.vz n) F.VZ_STAT_STATE ∧ t.links = s.links)

/-- Loading (spec/16_configuration_and_lifecycle.md: The configuration image, spec/16_configuration_and_lifecycle.md:
Loading, spec/16_configuration_and_lifecycle.md: Ready flags, spec/16_configuration_and_lifecycle.md: Registers,
spec/12_memory_and_protection.md: Regions and the annex, spec/12_memory_and_protection.md: Write before read). In Loading
with no package-fatal error: LOADING_BEGIN of a cold start with a good header and map puts the map in force, takes the
fastest read mode and fills all of DRAM; a bad one, with its cause, or a bad map, cause 6, sets DEFAULTED and fills under
the factory map. After RESTART the map stays, with cause 6 just where the header has another. Begun, or outside such
Loading, it does nothing. LOADING_FILL_DONE leaves zeros in the range and FILL_BUSY 0. LOADING_IMAGE_END, DRAM filled, with
a good body gives the entry address and the REG records; an unanswered read is cause 1, a bad record 7, a bad CRC 8.
LOADING_REG_WRITE writes the next record as a secure initiator, the bits outside MASK as they read; one of START_PC,
hub/cfg ready, sets it. LOADING_END, cold, with the records written and no sanitise found under way, ends a good image in
Twelve at the entry; with too few tiles or a failed unit, in Recovery, cause 9 or 10; after a bad image in Recovery, no
hart started without a recovery segment, at 0 with one. -/
def Obligations.Loading : Prop :=
  (∀ (s : State) (head : FlashHead), s.mode = .loading → s.fatalStop = false → s.load.begun = false → s.load.warm = false →
    headCause head = 0 → headMapOk head.bytes = true → Answers (.loadingBegin head) s fun t => t.load.begun = true ∧
    t.load.head = head.bytes ∧ t.load.read = fastestRead head ∧ t.mregNow = headRegions head.bytes ∧ t.memTop = min (headTop
    head.bytes) 384 ∧ t.fill = some (0, dramSize - 1) ∧ t.on .memmap F.FILL_BUSY = true ∧ t.mode = .loading) ∧
  (∀ (s : State) (head : FlashHead), s.mode = .loading → s.fatalStop = false → s.load.begun = false → s.load.warm = false → ∀
    c, (if headCause head ≠ 0 then headCause head else 6) = c → headCause head ≠ 0 ∨ headMapOk head.bytes = false → Answers
    (.loadingBegin head) s fun t => t.get .cfg F.CFG_STAT_CAUSE = c ∧ t.on .cfg F.CFG_STAT_DEFAULTED = true ∧ t.mregNow = [] ∧
    t.memTop = 384 ∧ t.load.judged = true ∧ t.fill = some (0, dramSize - 1)) ∧
  (∀ (s : State) (head : FlashHead), s.mode = .loading → s.fatalStop = false → s.load.begun = false → s.load.warm = true →
    headCause head = 0 → Answers (.loadingBegin head) s fun t => t.mregNow = s.mregNow ∧ t.memTop = s.memTop ∧ t.fill = s.fill
    ∧ t.load.begun = true ∧ (t.load.judged = true ∧ t.get .cfg F.CFG_STAT_CAUSE = 6 ↔ ¬(headRegions head.bytes = s.mregNow ∧
    min (headTop head.bytes) 384 = s.memTop))) ∧
  (∀ (s : State) (head : FlashHead), s.mode ≠ .loading ∨ s.fatalStop = true ∨ s.load.begun = true → Answers (.loadingBegin
    head) s fun t => t = s.clean) ∧
  (∀ (s : State) (lo hi a : Nat), s.fill = some (lo, hi) → s.mode = .loading → Answers (.loadingFillDone) s fun t => t.dramByte
    a = (if lo ≤ a ∧ a ≤ hi then 0 else s.dramByte a) ∧ t.fill = none ∧ t.load.filled = true ∧ t.on .memmap F.FILL_BUSY = false
    ∧ t.mram = s.mram) ∧
  (∀ (s : State) (body : List Byte), s.mode = .loading → s.fatalStop = false → s.load.begun = true → s.load.judged = false →
    s.load.warm = true ∨ s.load.filled = true → body.length = s.load.len - 256 → ∀ (r : List ImgRec × Bool), recordsOf
    (s.memTop * 2 ^ 29) (body.length / 8 + 1) body = r → (r.2 = true ∧ (heldRegs r.1).length ≤ 4096) → leNat (body.drop
    (body.length - 4)) = crc32c (s.load.head ++ body.take (body.length - 4)) → Answers (.loadingImageEnd true body) s fun t =>
    t.load.judged = true ∧ t.load.cause = 0 ∧ t.load.regs = heldRegs r.1 ∧ t.on .cfg F.CFG_STAT_DEFAULTED = false ∧ t.get .cfg
    F.CFG_STAT_CAUSE = 0 ∧ t.get .cfg F.CFG_ENTRY = numAt s.load.head 24 8 % 2 ^ F.CFG_ENTRY.width ∧ t.svid = numAt s.load.head
    16 2) ∧
  (∀ (s : State) (body : List Byte) (answered : Bool), s.mode = .loading → s.fatalStop = false → s.load.begun = true →
    s.load.judged = false → s.load.warm = true ∨ s.load.filled = true → answered = false ∨ body.length ≠ s.load.len - 256 →
    Answers (.loadingImageEnd answered body) s fun t => t.load.judged = true ∧ t.load.cause = 1 ∧ t.load.regs = [] ∧ t.on .cfg
    F.CFG_STAT_DEFAULTED = true ∧ t.get .cfg F.CFG_STAT_CAUSE = 1) ∧
  (∀ (s : State) (body : List Byte), s.mode = .loading → s.fatalStop = false → s.load.begun = true → s.load.judged = false →
    s.load.warm = true ∨ s.load.filled = true → body.length = s.load.len - 256 → ∀ (r : List ImgRec × Bool), recordsOf
    (s.memTop * 2 ^ 29) (body.length / 8 + 1) body = r → ¬(r.2 = true ∧ (heldRegs r.1).length ≤ 4096) → Answers
    (.loadingImageEnd true body) s fun t => t.load.judged = true ∧ t.load.cause = 7 ∧ t.load.regs = [] ∧ t.on .cfg
    F.CFG_STAT_DEFAULTED = true ∧ t.get .cfg F.CFG_STAT_CAUSE = 7) ∧
  (∀ (s : State) (body : List Byte), s.mode = .loading → s.fatalStop = false → s.load.begun = true → s.load.judged = false →
    s.load.warm = true ∨ s.load.filled = true → body.length = s.load.len - 256 → ∀ (r : List ImgRec × Bool), recordsOf
    (s.memTop * 2 ^ 29) (body.length / 8 + 1) body = r → (r.2 = true ∧ (heldRegs r.1).length ≤ 4096) → ¬(leNat (body.drop
    (body.length - 4)) = crc32c (s.load.head ++ body.take (body.length - 4))) → Answers (.loadingImageEnd true body) s fun t =>
    t.load.judged = true ∧ t.load.cause = 8 ∧ t.load.regs = [] ∧ t.on .cfg F.CFG_STAT_DEFAULTED = true ∧ t.get .cfg
    F.CFG_STAT_CAUSE = 8) ∧
  (∀ (s : State) (r : RegRec) (rest : List RegRec), s.mode = .loading → s.fatalStop = false → s.load.regs = r :: rest →
    s.load.warm = true ∨ s.load.filled = true → r.mask = 2 ^ 64 - 1 → ∀ (w : State × NcAns),
    ({ s.clean with load := { s.load with regs := rest } }).ncWrite true 59 r.addr (leBytes 8 r.value) = w → Answers
    (.loadingRegWrite) s fun t => t = w.1) ∧
  (∀ (s : State) (r : RegRec) (rest : List RegRec) (bs : List Byte) (p : Bool), s.mode = .loading → s.fatalStop = false →
    s.load.regs = r :: rest → s.load.warm = true ∨ s.load.filled = true → r.mask ≠ 2 ^ 64 - 1 → ∀ (o : State × NcAns),
    ({ s.clean with load := { s.load with regs := rest } }).ncRead true 59 r.addr 8 = o → o.2 = .value bs p → ∀ (w : State ×
    NcAns), o.1.ncWrite true 59 r.addr (leBytes 8 ((leNat bs &&& (2 ^ 64 - 1 - r.mask)) ||| (r.value &&& r.mask))) = w →
    Answers (.loadingRegWrite) s fun t => t = w.1) ∧
  (∀ (s : State) (v : Nat) (rest : List RegRec), s.mode = .loading → s.fatalStop = false → s.load.regs = ⟨unitBase .cfg +
    F.START_PC.off, 2 ^ 64 - 1, v⟩ :: rest → s.load.warm = true ∨ s.load.filled = true → s.unitReady .cfg = true → Answers
    (.loadingRegWrite) s fun t => t.get .cfg F.START_PC = v % 2 ^ F.START_PC.width ∧ t.load.regs = rest ∧ t.mode = .loading ∧
    t.harts = s.harts) ∧
  (∀ (s : State), s.mode = .loading → s.fatalStop = false → s.load.judged = true → s.load.regs = [] → s.load.warm = false →
    s.load.filled = true → s.load.cause = 0 → ∀ (w : State × Bool), s.clean.swpAtLoad = w → w.2 = false → w.1.fewTiles = false
    → w.1.unitFailed = false → Answers (.loadingEnd) s fun t => t.mode = .twelve ∧ t.load = {} ∧ t.boot = some ⟨w.1.get .cfg
    F.CFG_ENTRY, 0⟩ ∧ t.dram = s.dram) ∧
  (∀ (s : State), s.mode = .loading → s.fatalStop = false → s.load.judged = true → s.load.regs = [] → s.load.warm = false →
    s.load.filled = true → s.load.cause = 0 → ∀ (w : State × Bool), s.clean.swpAtLoad = w → w.1.fewTiles = true → Answers
    (.loadingEnd) s fun t => t.mode = .recovery ∧ t.load = {} ∧ t.boot = some ⟨w.1.get .cfg F.CFG_ENTRY, 0⟩ ∧ t.get .cfg
    F.CFG_STAT_CAUSE = 9) ∧
  (∀ (s : State), s.mode = .loading → s.fatalStop = false → s.load.judged = true → s.load.regs = [] → s.load.warm = false →
    s.load.filled = true → s.load.cause = 0 → ∀ (w : State × Bool), s.clean.swpAtLoad = w → w.1.fewTiles = false →
    w.1.unitFailed = true → Answers (.loadingEnd) s fun t => t.mode = .recovery ∧ t.load = {} ∧ t.boot = some ⟨w.1.get .cfg
    F.CFG_ENTRY, 0⟩ ∧ t.get .cfg F.CFG_STAT_CAUSE = 10) ∧
  (∀ (s : State), s.mode = .loading → s.fatalStop = false → s.load.judged = true → s.load.regs = [] → s.load.warm = false →
    s.load.filled = true → s.load.cause ≠ 0 → ∀ (w : State × Bool), s.clean.swpAtLoad = w → w.1.recSegOk = none → Answers
    (.loadingEnd) s fun t => t.mode = .recovery ∧ t.load = {} ∧ t.boot = none ∧ t.dram = s.dram) ∧
  (∀ (s : State) (bs : List Byte), s.mode = .loading → s.fatalStop = false → s.load.judged = true → s.load.regs = [] →
    s.load.warm = false → s.load.filled = true → s.load.cause ≠ 0 → ∀ (w : State × Bool), s.clean.swpAtLoad = w → w.1.recSegOk
    = some bs → Answers (.loadingEnd) s fun t => t.mode = .recovery ∧ t.load = {} ∧ t.boot = some ⟨0, 0⟩)

/-- Tiles and ready flags (spec/16_configuration_and_lifecycle.md: Tiles, spec/16_configuration_and_lifecycle.md: Retiring
and adding tiles at run time, spec/16_configuration_and_lifecycle.md: Ready flags, spec/16_configuration_and_lifecycle.md:
Loading, spec/16_configuration_and_lifecycle.md: Events that meet, spec/16_configuration_and_lifecycle.md: Registers).
TILE_POWER_UP powers the next tile of a quarter and puts its link in Detect; with none waiting: nothing. UNIT_READY_RISE of
a powered stack controller sets READY. Of a unit without power or already ready: nothing. A tile of Twelve that does not
run and has a boot address starts its eight harts there, in M and the secure world. A secure CFG_START of a ready tile that
neither runs nor is under TILE_CMD starts its harts at START_PC, a0 their number; of another it answers 0x02; the normal
world is denied; a 0: nothing. With no operation under way a secure TILE_RETIRE of a mapped tile that is no tile of Twelve
nor the last running one of its quarter begins at step 1, its harts stopped; else 0x02. TILE_ADD of an absent tile whose
quarter has a spare at step 6; else 0x02. TILE_SWAP of a mapped one with a spare at step 1, its harts stopped; else 0x02.
From the normal world each is denied. TILE_CMD_RESERVED answers 0x02. TILE_OP_STEP_DONE leads from step 1 to 2; a step
whose condition is not met stays; RETIRE ends after step 5 with the tile retired, absent and TILE set, where no PWR_CMD
waits. -/
def Obligations.Tiles : Prop :=
  (∀ (s : State) (q : Fin 4) (p : Fin 36) (ps : List Nat), s.powerQ.getD q.val [] = p.val :: ps → q.val < s.powerQ.length →
    Answers (.tilePowerUp q) s fun t => t.get .pwr F.PWR_DOM_STATE p.val = 0 ∧ t.powerQ = s.powerQ.set q.val ps ∧ t.get (.vz
    ⟨p.val, by omega⟩) F.VZ_STAT_STATE = 1 ∧ t.dram = s.dram) ∧
  (∀ (s : State) (q : Fin 4), s.powerQ.getD q.val [] = [] → Answers (.tilePowerUp q) s fun t => t = s.clean) ∧
  (∀ (s : State) (k : Fin 8), s.powered (.mc k) = true → Answers (.unitReadyRise (.mc k)) s fun t => t.on (.mc k)
    F.UNIT_READY_READY = true ∧ t.harts = s.harts ∧ t.dram = s.dram) ∧
  (∀ (s : State) (u : UnitId), s.powered u = false ∨ s.on u F.UNIT_READY_READY = true → Answers (.unitReadyRise u) s fun t => t
    = s.clean) ∧
  (∀ (s : State) (p : Fin 36) (t8 : Fin 32) (b : BootAt), s.powered (.tile p) = true → s.on (.tile p) F.UNIT_READY_READY =
    false → s.mode = .twelve → s.logTile p.val = some t8.val → s.physTile t8.val = some p → twelveTile t8.val = true → s.boot =
    some b → s.get .cfg F.CFG_TMAP_RUN t8.val = 0 → Answers (.unitReadyRise (.tile p)) s fun t => t.on (.tile p)
    F.UNIT_READY_READY = true ∧ t.get .cfg F.CFG_TMAP_RUN t8.val = 1 ∧ ∀ c : Fin 8, (t.hart (8 * t8.val + c.val)).run = true ∧
    (t.hart (8 * t8.val + c.val)).w = true ∧ (t.hart (8 * t8.val + c.val)).priv = 3 ∧ (t.hart (8 * t8.val + c.val)).pc = b.pc) ∧
  (∀ (s : State) (tile : Fin 32), s.tileReady tile.val = true → s.get .cfg F.CFG_TMAP_RUN tile.val = 0 → s.underTileCmd
    tile.val = false → Answers (.cfgStart tile true .secure) s fun t => t.get .cfg F.CFG_TILE_STAT_RESULT = 0 ∧ t.get .cfg
    F.CFG_TMAP_RUN tile.val = 1 ∧ ∀ c : Fin 8, (t.hart (8 * tile.val + c.val)).run = true ∧ (t.hart (8 * tile.val + c.val)).w =
    true ∧ (t.hart (8 * tile.val + c.val)).priv = 3 ∧ (t.hart (8 * tile.val + c.val)).pc = s.get .cfg F.START_PC ∧ xreg (t.hart
    (8 * tile.val + c.val)) 10 = 8 * tile.val + c.val) ∧
  (∀ (s : State) (tile : Fin 32), s.tileReady tile.val = false ∨ s.get .cfg F.CFG_TMAP_RUN tile.val ≠ 0 ∨ s.underTileCmd
    tile.val = true → Answers (.cfgStart tile true .secure) s fun t => t.get .cfg F.CFG_TILE_STAT_RESULT = 2 ∧ t.harts =
    s.harts) ∧
  (∀ (s : State) (tile : Fin 32) (go : Bool), Answers (.cfgStart tile go .normal) s fun t => t.on .cfg F.UNIT_ERR_DENIED = true
    ∧ t.harts = s.harts) ∧
  (∀ (s : State) (tile : Fin 32), Answers (.cfgStart tile false .secure) s fun t => t = s.clean) ∧
  (∀ (s : State) (tile : Fin 32), s.tileOp = none → s.absent tile.val = false → twelveTile tile.val = false → s.runningTiles
    (tile.val / 8) ≠ [tile.val] → Answers (.tileRetire tile .secure) s fun t => t.tileOp.map (fun o => (o.op, o.tile)) = some
    (1, tile.val) ∧ t.on .cfg F.CFG_TILE_STAT_BUSY = true ∧ t.get .cfg F.CFG_TILE_STAT_STEP = 1 ∧ t.get .cfg F.TILE_CMD_TILE =
    tile.val ∧ ∀ c : Fin 8, (t.hart (8 * tile.val + c.val)).run = false) ∧
  (∀ (s : State) (tile : Fin 32), s.absent tile.val = true ∨ twelveTile tile.val = true ∨ s.runningTiles (tile.val / 8) =
    [tile.val] ∨ s.tileOp.isSome = true → Answers (.tileRetire tile .secure) s fun t => t.tileOp = s.tileOp ∧ t.get .cfg
    F.CFG_TILE_STAT_RESULT = 2 ∧ t.harts = s.harts) ∧
  (∀ (s : State) (tile : Fin 32), Answers (.tileRetire tile .normal) s fun t => t.on .cfg F.UNIT_ERR_DENIED = true ∧ t.tileOp =
    s.tileOp ∧ t.harts = s.harts) ∧
  (∀ (s : State) (tile : Fin 32), s.tileOp = none → s.absent tile.val = true → (s.spareOf (tile.val / 8)).isSome = true →
    Answers (.tileAdd tile .secure) s fun t => t.tileOp.map (fun o => (o.op, o.tile)) = some (2, tile.val) ∧ t.on .cfg
    F.CFG_TILE_STAT_BUSY = true ∧ t.get .cfg F.CFG_TILE_STAT_STEP = 6 ∧ t.get .cfg F.TILE_CMD_TILE = tile.val ∧ t.harts =
    s.harts) ∧
  (∀ (s : State) (tile : Fin 32), s.absent tile.val = false ∨ s.spareOf (tile.val / 8) = none ∨ s.tileOp.isSome = true →
    Answers (.tileAdd tile .secure) s fun t => t.tileOp = s.tileOp ∧ t.get .cfg F.CFG_TILE_STAT_RESULT = 2 ∧ t.harts = s.harts) ∧
  (∀ (s : State) (tile : Fin 32), Answers (.tileAdd tile .normal) s fun t => t.on .cfg F.UNIT_ERR_DENIED = true ∧ t.tileOp =
    s.tileOp ∧ t.harts = s.harts) ∧
  (∀ (s : State) (tile : Fin 32), s.tileOp = none → s.absent tile.val = false → (s.spareOf (tile.val / 8)).isSome = true →
    Answers (.tileSwap tile .secure) s fun t => t.tileOp.map (fun o => (o.op, o.tile)) = some (3, tile.val) ∧ t.on .cfg
    F.CFG_TILE_STAT_BUSY = true ∧ t.get .cfg F.CFG_TILE_STAT_STEP = 1 ∧ t.get .cfg F.TILE_CMD_TILE = tile.val ∧ ∀ c : Fin 8,
    (t.hart (8 * tile.val + c.val)).run = false) ∧
  (∀ (s : State) (tile : Fin 32), s.absent tile.val = true ∨ s.spareOf (tile.val / 8) = none ∨ s.tileOp.isSome = true → Answers
    (.tileSwap tile .secure) s fun t => t.tileOp = s.tileOp ∧ t.get .cfg F.CFG_TILE_STAT_RESULT = 2 ∧ t.harts = s.harts) ∧
  (∀ (s : State) (tile : Fin 32), Answers (.tileSwap tile .normal) s fun t => t.on .cfg F.UNIT_ERR_DENIED = true ∧ t.tileOp =
    s.tileOp ∧ t.harts = s.harts) ∧
  (∀ (s : State) (tile : Fin 32), Answers (.tileCmdReserved tile .secure) s fun t => t.tileOp = s.tileOp ∧ t.get .cfg
    F.CFG_TILE_STAT_RESULT = 2 ∧ t.harts = s.harts) ∧
  (∀ (s : State) (o : TileOpS), s.tileOp = some o → s.get .cfg F.CFG_TILE_STAT_STEP = 1 → Answers (.tileOpStepDone) s fun t =>
    t.tileOp = some o ∧ t.get .cfg F.CFG_TILE_STAT_STEP = 2 ∧ t.harts = s.harts) ∧
  (∀ (s : State) (o : TileOpS), s.tileOp = some o → s.tileStepOver o (s.get .cfg F.CFG_TILE_STAT_STEP) = false → Answers
    (.tileOpStepDone) s fun t => t = s.clean) ∧
  (∀ (s : State) (o : TileOpS), s.tileOp = some o → s.get .cfg F.CFG_TILE_STAT_STEP = 5 → o.op = 1 → o.out < 36 → o.tile < 32 →
    s.pwrNext = none → Answers (.tileOpStepDone) s fun t => t.tileOp = none ∧ t.on .cfg F.CFG_TILE_STAT_BUSY = false ∧ t.get
    .cfg F.CFG_TILE_STAT_RESULT = 0 ∧ t.on .cfg F.CFG_EVT_TILE = true ∧ t.get .cfg F.CFG_PTILE_STATE o.out = 3 ∧ t.get .cfg
    F.CFG_TMAP_VALID o.tile = 0)

/-- Lifecycle commands (spec/16_configuration_and_lifecycle.md: Lifecycle, spec/16_configuration_and_lifecycle.md: Presence
and the seal, spec/16_configuration_and_lifecycle.md: Events that meet, spec/16_configuration_and_lifecycle.md: Registers).
PROVISION, DEPLOY, DIAG, UNDIAG, RETIRE, DIAG_MODE and STORE_REC, from the secure world with none under way, in a state
from which each runs, with its presence and its other condition, begin and set BUSY; in another state each answers 0x02;
from the normal world each is denied. DEPLOY without presence answers 0x0B. DIAG with a key slot in state 1 answers 0x10.
DEPLOY while a command runs answers 0x01. LC_CMD_RESERVED answers 0x02. LC_CMD_DONE clears BUSY, sets LC and has the
effect: PROVISION, DEPLOY, DIAG and UNDIAG change their fuse or the flag; RETIRE burns its fuse, destroys the secret and
reads LCS 4; DIAG_MODE in Twelve enters Diagnostic; STORE_REC stores the bytes read, their length and CRC. -/
def Obligations.Lifecycle : Prop :=
  (∀ (s : State), s.lc = none → lcFrom 1 (s.get .cfg F.CFG_STAT_LCS) = true → s.lcPresence 1 = true → s.lcOther 1 = 0 → Answers
    (.provision .secure) s fun t => t.lc = some ⟨1⟩ ∧ t.on .cfg F.LC_STAT_BUSY = true ∧ t.life = s.life) ∧
  (∀ (s : State), s.lc = none → lcFrom 2 (s.get .cfg F.CFG_STAT_LCS) = true → s.lcPresence 2 = true → s.lcOther 2 = 0 → Answers
    (.deploy .secure) s fun t => t.lc = some ⟨2⟩ ∧ t.on .cfg F.LC_STAT_BUSY = true ∧ t.life = s.life) ∧
  (∀ (s : State), s.lc = none → lcFrom 3 (s.get .cfg F.CFG_STAT_LCS) = true → s.lcPresence 3 = true → s.lcOther 3 = 0 → Answers
    (.diag .secure) s fun t => t.lc = some ⟨3⟩ ∧ t.on .cfg F.LC_STAT_BUSY = true ∧ t.life = s.life) ∧
  (∀ (s : State), s.lc = none → lcFrom 4 (s.get .cfg F.CFG_STAT_LCS) = true → s.lcPresence 4 = true → s.lcOther 4 = 0 → Answers
    (.undiag .secure) s fun t => t.lc = some ⟨4⟩ ∧ t.on .cfg F.LC_STAT_BUSY = true ∧ t.life = s.life) ∧
  (∀ (s : State), s.lc = none → lcFrom 5 (s.get .cfg F.CFG_STAT_LCS) = true → s.lcPresence 5 = true → s.lcOther 5 = 0 → Answers
    (.retire .secure) s fun t => t.lc = some ⟨5⟩ ∧ t.on .cfg F.LC_STAT_BUSY = true ∧ t.life = s.life) ∧
  (∀ (s : State), s.lc = none → lcFrom 6 (s.get .cfg F.CFG_STAT_LCS) = true → s.lcPresence 6 = true → s.lcOther 6 = 0 → Answers
    (.diagMode .secure) s fun t => t.lc = some ⟨6⟩ ∧ t.on .cfg F.LC_STAT_BUSY = true ∧ t.life = s.life) ∧
  (∀ (s : State), s.lc = none → lcFrom 7 (s.get .cfg F.CFG_STAT_LCS) = true → s.lcPresence 7 = true → s.lcOther 7 = 0 → Answers
    (.storeRec .secure) s fun t => t.lc = some ⟨7⟩ ∧ t.on .cfg F.LC_STAT_BUSY = true ∧ t.life = s.life) ∧
  (∀ (s : State), s.lc = none → lcFrom 1 (s.get .cfg F.CFG_STAT_LCS) = false → Answers (.provision .secure) s fun t => t.lc =
    none ∧ t.get .cfg F.LC_STAT_RESULT = 2 ∧ t.life = s.life ∧ t.mode = s.mode) ∧
  (∀ (s : State), s.lc = none → lcFrom 2 (s.get .cfg F.CFG_STAT_LCS) = false → Answers (.deploy .secure) s fun t => t.lc = none
    ∧ t.get .cfg F.LC_STAT_RESULT = 2 ∧ t.life = s.life ∧ t.mode = s.mode) ∧
  (∀ (s : State), s.lc = none → lcFrom 3 (s.get .cfg F.CFG_STAT_LCS) = false → Answers (.diag .secure) s fun t => t.lc = none ∧
    t.get .cfg F.LC_STAT_RESULT = 2 ∧ t.life = s.life ∧ t.mode = s.mode) ∧
  (∀ (s : State), s.lc = none → lcFrom 4 (s.get .cfg F.CFG_STAT_LCS) = false → Answers (.undiag .secure) s fun t => t.lc = none
    ∧ t.get .cfg F.LC_STAT_RESULT = 2 ∧ t.life = s.life ∧ t.mode = s.mode) ∧
  (∀ (s : State), s.lc = none → lcFrom 5 (s.get .cfg F.CFG_STAT_LCS) = false → Answers (.retire .secure) s fun t => t.lc = none
    ∧ t.get .cfg F.LC_STAT_RESULT = 2 ∧ t.life = s.life ∧ t.mode = s.mode) ∧
  (∀ (s : State), s.lc = none → lcFrom 6 (s.get .cfg F.CFG_STAT_LCS) = false → Answers (.diagMode .secure) s fun t => t.lc =
    none ∧ t.get .cfg F.LC_STAT_RESULT = 2 ∧ t.life = s.life ∧ t.mode = s.mode) ∧
  (∀ (s : State), s.lc = none → lcFrom 7 (s.get .cfg F.CFG_STAT_LCS) = false → Answers (.storeRec .secure) s fun t => t.lc =
    none ∧ t.get .cfg F.LC_STAT_RESULT = 2 ∧ t.life = s.life ∧ t.mode = s.mode) ∧
  (∀ (s : State), Answers (.provision .normal) s fun t => t.lc = s.lc ∧ t.life = s.life ∧ t.mode = s.mode ∧ t.on .cfg
    F.UNIT_ERR_DENIED = true) ∧
  (∀ (s : State), Answers (.deploy .normal) s fun t => t.lc = s.lc ∧ t.life = s.life ∧ t.mode = s.mode ∧ t.on .cfg
    F.UNIT_ERR_DENIED = true) ∧
  (∀ (s : State), Answers (.diag .normal) s fun t => t.lc = s.lc ∧ t.life = s.life ∧ t.mode = s.mode ∧ t.on .cfg
    F.UNIT_ERR_DENIED = true) ∧
  (∀ (s : State), Answers (.undiag .normal) s fun t => t.lc = s.lc ∧ t.life = s.life ∧ t.mode = s.mode ∧ t.on .cfg
    F.UNIT_ERR_DENIED = true) ∧
  (∀ (s : State), Answers (.retire .normal) s fun t => t.lc = s.lc ∧ t.life = s.life ∧ t.mode = s.mode ∧ t.on .cfg
    F.UNIT_ERR_DENIED = true) ∧
  (∀ (s : State), Answers (.diagMode .normal) s fun t => t.lc = s.lc ∧ t.life = s.life ∧ t.mode = s.mode ∧ t.on .cfg
    F.UNIT_ERR_DENIED = true) ∧
  (∀ (s : State), Answers (.storeRec .normal) s fun t => t.lc = s.lc ∧ t.life = s.life ∧ t.mode = s.mode ∧ t.on .cfg
    F.UNIT_ERR_DENIED = true) ∧
  (∀ (s : State), s.lc = none → s.get .cfg F.CFG_STAT_LCS = 1 → s.get .cfg F.CFG_STAT_PRES = 0 → Answers (.deploy .secure) s
    fun t => t.lc = none ∧ t.get .cfg F.LC_STAT_RESULT = 11 ∧ t.life = s.life) ∧
  (∀ (s : State) (k : Fin 4096), s.lc = none → s.get .cfg F.CFG_STAT_LCS = 2 → s.get .cfg F.CFG_STAT_PRES = 1 → s.get .key
    F.KEY_SLOT_STATE k.val = 1 → Answers (.diag .secure) s fun t => t.lc = none ∧ t.get .cfg F.LC_STAT_RESULT = 16 ∧ t.life =
    s.life) ∧
  (∀ (s : State), s.lc.isSome = true → Answers (.deploy .secure) s fun t => t.lc = s.lc ∧ t.get .cfg F.LC_STAT_RESULT = 1 ∧
    t.life = s.life) ∧
  (∀ (s : State) (op : Fin 16), s.lc = none → op.val = 0 ∨ 8 ≤ op.val → Answers (.lcCmdReserved op .secure) s fun t => t.lc =
    none ∧ t.get .cfg F.LC_STAT_RESULT = 2 ∧ t.life = s.life) ∧
  (∀ (s : State), s.lc = some ⟨1⟩ → Answers (.lcCmdDone) s fun t => t.lc = none ∧ t.on .cfg F.LC_STAT_BUSY = false ∧ t.get .cfg
    F.LC_STAT_RESULT = 0 ∧ t.on .cfg F.CFG_EVT_LC = true ∧ t.life = { s.life with prov := true }) ∧
  (∀ (s : State), s.lc = some ⟨2⟩ → Answers (.lcCmdDone) s fun t => t.lc = none ∧ t.on .cfg F.LC_STAT_BUSY = false ∧ t.get .cfg
    F.LC_STAT_RESULT = 0 ∧ t.on .cfg F.CFG_EVT_LC = true ∧ t.life = { s.life with deploy := true }) ∧
  (∀ (s : State), s.lc = some ⟨3⟩ → Answers (.lcCmdDone) s fun t => t.lc = none ∧ t.on .cfg F.LC_STAT_BUSY = false ∧ t.get .cfg
    F.LC_STAT_RESULT = 0 ∧ t.on .cfg F.CFG_EVT_LC = true ∧ t.life = { s.life with diag := true }) ∧
  (∀ (s : State), s.lc = some ⟨4⟩ → Answers (.lcCmdDone) s fun t => t.lc = none ∧ t.on .cfg F.LC_STAT_BUSY = false ∧ t.get .cfg
    F.LC_STAT_RESULT = 0 ∧ t.on .cfg F.CFG_EVT_LC = true ∧ t.life = { s.life with diag := false }) ∧
  (∀ (s : State), s.lc = some ⟨5⟩ → Answers (.lcCmdDone) s fun t => t.lc = none ∧ t.on .cfg F.LC_STAT_BUSY = false ∧ t.get .cfg
    F.LC_STAT_RESULT = 0 ∧ t.on .cfg F.CFG_EVT_LC = true ∧ t.life = { s.life with retire := true } ∧ t.keys.secret = false ∧
    t.get .cfg F.CFG_STAT_LCS = 4) ∧
  (∀ (s : State), s.lc = some ⟨6⟩ → s.mode = .twelve → Answers (.lcCmdDone) s fun t => t.lc = none ∧ t.on .cfg F.LC_STAT_BUSY =
    false ∧ t.get .cfg F.LC_STAT_RESULT = 0 ∧ t.on .cfg F.CFG_EVT_LC = true ∧ t.mode = .diagnostic) ∧
  (∀ (s : State) (bs : List Byte), s.lc = some ⟨7⟩ → ∀ (w : State × MemAns), ({ s.clean with lc := none }).masterRead 12 .cfg
    (s.get .cfg F.LC_SRC) (s.get .cfg F.LC_LEN) = w → w.2 = .bytes bs → Answers (.lcCmdDone) s fun t => t.lc = none ∧ t.on .cfg
    F.LC_STAT_BUSY = false ∧ t.get .cfg F.LC_STAT_RESULT = 0 ∧ t.on .cfg F.CFG_EVT_LC = true ∧ t.recSeg = some ⟨s.get .cfg
    F.LC_LEN, crc32c bs⟩ ∧ t.mramBytes (pkgArea + 0x10000) bs.length = bs)

/-- Self-test commands (spec/17_self_test_and_repair.md: Test classes, spec/17_self_test_and_repair.md: Units and their
numbers, spec/17_self_test_and_repair.md: Shutdown programs, spec/17_self_test_and_repair.md: Results in the keep die,
spec/17_self_test_and_repair.md: Repair, spec/17_self_test_and_repair.md: Direct tests and Diagnostic,
spec/17_self_test_and_repair.md: Events that meet, spec/17_self_test_and_repair.md: Registers). ST_CLASS_DONE of a unit
that may run records the run in its entry and goes on to its next class: ANA with its lanes, failed with a bad one, a tile
isolated first; LOG of a program passes with the unit's golden signature; ARR with one failing cell that a spare row or
column or a disabled way repairs takes a soft entry while there are fewer than 64; else it fails with that array; INIT, a
tile's last class, clears its marks and, passed, ends its isolation. With nothing running: nothing. Below, secure, LCS
Provisioning or Diagnostic and none running: TEST of a unit that may be tested isolates it, sets BUSY and has its classes
to run; of another, 0x02. FUSE with presence and soft entries for which the bank has room begins the burn, without room
0x11, with none 0x12; CLEAR_SOFT with presence empties the soft map. Without presence both answer 0x0B. In another LCS the
three answer 0x02; from the normal world they are denied. ST_CMD_RESERVED answers 0x02. ST_CMD_DONE, no PWR_CMD waiting,
moves the soft entries of a burn to the bank, and ends a direct test whose classes are over, its run recorded. -/
def Obligations.SelfTest : Prop :=
  (∀ (s : State) (unit : Fin 64) (obs : ClassObs) (r : TestRun) (cs : List TestClass), s.st.active = some r → mayRun r unit.val
    = true → (r.todo.find? fun e => e.1 == unit.val) = some (unit.val, .ana :: cs) → cs ≠ [] → Answers (.stClassDone unit obs)
    s fun t => (t.draftEnt unit.val).ana = (if obs.lanes = 0 then (if obs.pass then 1 else 2) else 2) ∧ (t.draftEnt
    unit.val).lanes = obs.lanes.toNat ∧ (t.draftEnt unit.val).run = r.run ∧ t.get .stest F.ST_STAT_CUR_UNIT = unit.val ∧
    t.st.active.map (fun x => x.todo) = some ((r.todo.map fun e => if e.1 == unit.val then (unit.val, cs) else e).filter fun e
    => !e.2.isEmpty) ∧ (unit.val < 36 → (s.st.iso.any fun e => e.1 == unit.val) = false → t.linkIsolated unit.val = true)) ∧
  (∀ (s : State) (unit : Fin 64) (obs : ClassObs) (r : TestRun) (cs : List TestClass), s.st.active = some r → mayRun r unit.val
    = true → r.prog.isSome = true → (r.todo.find? fun e => e.1 == unit.val) = some (unit.val, .log :: cs) → cs ≠ [] → Answers
    (.stClassDone unit obs) s fun t => (t.draftEnt unit.val).log = (if obs.misr.toNat = Config.goldenSignature unit.val % 2 ^
    64 then 1 else 2) ∧ (t.draftEnt unit.val).misr = obs.misr.toNat ∧ (t.draftEnt unit.val).run = r.run ∧ t.get .stest
    F.ST_STAT_CUR_UNIT = unit.val ∧ t.st.active.map (fun x => x.todo) = some ((r.todo.map fun e => if e.1 == unit.val then
    (unit.val, cs) else e).filter fun e => !e.2.isEmpty)) ∧
  (∀ (s : State) (unit : Fin 64) (obs : ClassObs) (r : TestRun) (cs : List TestClass) (cell : CellFail) (e : Nat), s.st.active
    = some r → mayRun r unit.val = true → (r.todo.find? fun e => e.1 == unit.val) = some (unit.val, .arr :: cs) → cs ≠ [] →
    obs.cells = [cell] → obs.pass = true → cellRepair cell = some e → (s.softMap unit.val).length < 64 → Answers (.stClassDone
    unit obs) s fun t => t.softMap unit.val = s.softMap unit.val ++ [e] ∧ (t.draftEnt unit.val).arr = 1 ∧ t.on .stest
    F.ST_EVT_REPAIR = true ∧ (t.draftEnt unit.val).run = r.run ∧ t.get .stest F.ST_STAT_CUR_UNIT = unit.val ∧ t.st.active.map
    (fun x => x.todo) = some ((r.todo.map fun e => if e.1 == unit.val then (unit.val, cs) else e).filter fun e =>
    !e.2.isEmpty)) ∧
  (∀ (s : State) (unit : Fin 64) (obs : ClassObs) (r : TestRun) (cs : List TestClass) (cell : CellFail), s.st.active = some r →
    mayRun r unit.val = true → (r.todo.find? fun e => e.1 == unit.val) = some (unit.val, .arr :: cs) → cs ≠ [] → obs.cells =
    [cell] → cellRepair cell = none ∨ 64 ≤ (s.softMap unit.val).length → Answers (.stClassDone unit obs) s fun t => t.softMap
    unit.val = s.softMap unit.val ∧ (t.draftEnt unit.val).arr = 2 ∧ (t.draftEnt unit.val).array = cell.array.val ∧ t.on .stest
    F.ST_EVT_EXHAUST = true ∧ (t.draftEnt unit.val).run = r.run ∧ t.get .stest F.ST_STAT_CUR_UNIT = unit.val ∧ t.st.active.map
    (fun x => x.todo) = some ((r.todo.map fun e => if e.1 == unit.val then (unit.val, cs) else e).filter fun e =>
    !e.2.isEmpty)) ∧
  (∀ (s : State) (unit : Fin 64) (obs : ClassObs) (r : TestRun), s.st.active = some r → mayRun r unit.val = true → unit.val <
    36 → (r.todo.find? fun e => e.1 == unit.val) = some (unit.val, [.init]) → Answers (.stClassDone unit obs) s fun t =>
    (t.draftEnt unit.val).init = (if obs.pass then 1 else 2) ∧ (t.draftEnt unit.val).run = r.run ∧ t.get .stest
    F.ST_STAT_CUR_UNIT = unit.val ∧ t.st.active.map (fun x => x.todo) = some ((r.todo.map fun e => if e.1 == unit.val then
    (unit.val, []) else e).filter fun e => !e.2.isEmpty) ∧ (t.st.arrPend.contains unit.val) = false ∧ (t.st.suspect.contains
    unit.val) = false ∧ ((t.st.iso.any fun e => e.1 == unit.val) = true ↔ obs.pass = false)) ∧
  (∀ (s : State) (unit : Fin 64) (obs : ClassObs), s.st.active = none → Answers (.stClassDone unit obs) s fun t => t = s.clean) ∧
  (∀ (s : State) (unit : Fin 64) (classes : Fin 16), s.testing = false → s.get .cfg F.CFG_STAT_LCS = 3 ∨ s.get .cfg
    F.CFG_STAT_LCS = 1 → s.mayTest unit.val = true → Answers (.test unit classes .secure) s fun t => t.st.active = some ⟨none,
    s.st.run + 1, [(unit.val, maskClasses unit.val classes.val)]⟩ ∧ t.on .stest F.ST_STAT_BUSY = true ∧ t.get .stest
    F.ST_STAT_CUR_UNIT = unit.val ∧ (unit.val < 36 → (s.st.iso.any fun e => e.1 == unit.val) = false → t.linkIsolated unit.val
    = true) ∧ t.mram = s.mram) ∧
  (∀ (s : State) (unit : Fin 64) (classes : Fin 16), s.testing = false → s.get .cfg F.CFG_STAT_LCS = 3 ∨ s.get .cfg
    F.CFG_STAT_LCS = 1 → s.mayTest unit.val = false → Answers (.test unit classes .secure) s fun t => t.get .stest
    F.ST_STAT_RESULT = 2 ∧ t.on .stest F.ST_EVT_DONE = true ∧ t.st = s.st) ∧
  (∀ (s : State) (unit : Fin 64), s.testing = false → s.get .cfg F.CFG_STAT_LCS = 3 ∨ s.get .cfg F.CFG_STAT_LCS = 1 → unit.val
    < 59 → s.present = true → (s.softMap unit.val) ≠ [] → (s.fuseBank unit.val).length + (s.softMap unit.val).length ≤ fuseRoom
    → Answers (.fuse unit .secure) s fun t => t.st.fuse = some unit.val ∧ t.on .stest F.ST_STAT_BUSY = true ∧ t.st.soft =
    s.st.soft ∧ t.st.fuses = s.st.fuses) ∧
  (∀ (s : State) (unit : Fin 64), s.testing = false → s.get .cfg F.CFG_STAT_LCS = 3 ∨ s.get .cfg F.CFG_STAT_LCS = 1 → unit.val
    < 59 → s.present = true → (s.softMap unit.val) ≠ [] → fuseRoom < (s.fuseBank unit.val).length + (s.softMap unit.val).length
    → Answers (.fuse unit .secure) s fun t => t.get .stest F.ST_STAT_RESULT = 0x11 ∧ t.on .stest F.ST_EVT_DONE = true ∧ t.st =
    s.st) ∧
  (∀ (s : State) (unit : Fin 64), s.testing = false → s.get .cfg F.CFG_STAT_LCS = 3 ∨ s.get .cfg F.CFG_STAT_LCS = 1 → unit.val
    < 59 → s.present = true → s.softMap unit.val = [] → Answers (.fuse unit .secure) s fun t => t.get .stest F.ST_STAT_RESULT =
    0x12 ∧ t.on .stest F.ST_EVT_DONE = true ∧ t.st = s.st) ∧
  (∀ (s : State) (unit : Fin 64), s.testing = false → s.get .cfg F.CFG_STAT_LCS = 3 ∨ s.get .cfg F.CFG_STAT_LCS = 1 → unit.val
    < 59 → s.present = true → Answers (.clearSoft unit .secure) s fun t => t.softMap unit.val = [] ∧ t.get .stest
    F.ST_STAT_RESULT = 0 ∧ t.on .stest F.ST_EVT_DONE = true ∧ t.st.fuses = s.st.fuses) ∧
  (∀ (s : State) (unit : Fin 64), s.testing = false → s.get .cfg F.CFG_STAT_LCS = 3 ∨ s.get .cfg F.CFG_STAT_LCS = 1 → unit.val
    < 59 → s.present = false → Answers (.fuse unit .secure) s fun t => t.get .stest F.ST_STAT_RESULT = 0x0B ∧ t.on .stest
    F.ST_EVT_DONE = true ∧ t.st = s.st) ∧
  (∀ (s : State) (unit : Fin 64), s.testing = false → s.get .cfg F.CFG_STAT_LCS = 3 ∨ s.get .cfg F.CFG_STAT_LCS = 1 → unit.val
    < 59 → s.present = false → Answers (.clearSoft unit .secure) s fun t => t.get .stest F.ST_STAT_RESULT = 0x0B ∧ t.on .stest
    F.ST_EVT_DONE = true ∧ t.st = s.st) ∧
  (∀ (s : State) (unit : Fin 64) (classes : Fin 16), s.testing = false → s.get .cfg F.CFG_STAT_LCS ≠ 3 → s.get .cfg
    F.CFG_STAT_LCS ≠ 1 → Answers (.test unit classes .secure) s fun t => t.get .stest F.ST_STAT_RESULT = 2 ∧ t.on .stest
    F.ST_EVT_DONE = true ∧ t.st = s.st) ∧
  (∀ (s : State) (unit : Fin 64) (classes : Fin 16), Answers (.test unit classes .normal) s fun t => t.on .stest
    F.UNIT_ERR_DENIED = true ∧ t.st = s.st) ∧
  (∀ (s : State) (unit : Fin 64), s.testing = false → s.get .cfg F.CFG_STAT_LCS ≠ 3 → s.get .cfg F.CFG_STAT_LCS ≠ 1 → Answers
    (.fuse unit .secure) s fun t => t.get .stest F.ST_STAT_RESULT = 2 ∧ t.on .stest F.ST_EVT_DONE = true ∧ t.st = s.st) ∧
  (∀ (s : State) (unit : Fin 64), Answers (.fuse unit .normal) s fun t => t.on .stest F.UNIT_ERR_DENIED = true ∧ t.st = s.st) ∧
  (∀ (s : State) (unit : Fin 64), s.testing = false → s.get .cfg F.CFG_STAT_LCS ≠ 3 → s.get .cfg F.CFG_STAT_LCS ≠ 1 → Answers
    (.clearSoft unit .secure) s fun t => t.get .stest F.ST_STAT_RESULT = 2 ∧ t.on .stest F.ST_EVT_DONE = true ∧ t.st = s.st) ∧
  (∀ (s : State) (unit : Fin 64), Answers (.clearSoft unit .normal) s fun t => t.on .stest F.UNIT_ERR_DENIED = true ∧ t.st =
    s.st) ∧
  (∀ (s : State) (op : Fin 16), s.testing = false → op.val = 0 ∨ 4 ≤ op.val → Answers (.stCmdReserved op .secure) s fun t =>
    t.get .stest F.ST_STAT_RESULT = 2 ∧ t.on .stest F.ST_EVT_DONE = true ∧ t.st = s.st) ∧
  (∀ (s : State) (u : Nat), s.st.fuse = some u → s.pwrNext = none → Answers (.stCmdDone) s fun t => t.st.fuse = none ∧
    t.fuseBank u = s.fuseBank u ++ s.softMap u ∧ t.softMap u = [] ∧ t.on .stest F.ST_STAT_BUSY = false ∧ t.get .stest
    F.ST_STAT_RESULT = 0 ∧ t.on .stest F.ST_EVT_DONE = true) ∧
  (∀ (s : State) (run : Nat), s.st.fuse = none → s.st.active = some ⟨none, run, []⟩ → s.pwrNext = none → Answers (.stCmdDone) s
    fun t => t.st.active = none ∧ t.st.run = run ∧ t.on .stest F.ST_STAT_BUSY = false ∧ t.get .stest F.ST_STAT_RESULT = 0 ∧
    t.on .stest F.ST_EVT_DONE = true)

/-- Package-fatal errors, counters, trace marks and debug (spec/18_errors_counters_trace.md: Package-fatal errors,
spec/18_errors_counters_trace.md: Package counters, spec/18_errors_counters_trace.md: Event trace,
spec/18_errors_counters_trace.md: Debug, spec/18_errors_counters_trace.md: Events that meet,
spec/16_configuration_and_lifecycle.md: Lifecycle, spec/15_power_modes_and_wake.md: Modes and their transitions).
PACKAGE_FATAL of cause 1 to 9, from Waking on, sets FATAL at its source, counts in FATAL_N and stops the package; of
another, in Off, in Keep or before the first rise of PWRON_N (log 11) it does nothing. FORCE from the secure world does the
same for hub/err, nothing there; the normal world is denied. FATAL_WARM_RESET leads to Recovery with RECOVERED set and DRAM
kept; a third within 600 s starts no hart and stays there. Without a fatal error it does nothing. PMU_FREEZE writes FREEZE;
PMU_CLEAR zeroes the counters; COUNTER_WRITE of a frozen or disabled counter, or with no event in that cycle, stores the
value; else the value and the events, where they do not wrap. TRC_MARK with the trace enabled for its source, and not
stopped when full, adds a record of KIND 0x80; stopped and full, it sets FULL; not enabled: nothing. DMI_ACCESS: with power
and debug closed a read or write is answered with op 2 and changes nothing; open, a write of data0 without autoexec stores
it, a read of dmstatus gives it; IDCODE and dtmcs always read. Without power: nothing. -/
def Obligations.ErrorsAndDebug : Prop :=
  (∀ (s : State) (cause : Fin 256) (u : UnitId) (addr : BitVec 52) (info : BitVec 64), 1 ≤ cause.val → cause.val ≤ 9 → s.isOff
    = false → s.mode ≠ .keep → Answers (.packageFatal cause u addr info) s fun t => t.fatal = s.fatal ++ [u] ∧ t.get .err
    F.FATAL_N = (s.get .err F.FATAL_N + 1) % 2 ^ F.FATAL_N.width ∧ t.on u F.UNIT_ERR_FATAL = true ∧ t.fatalStop = true ∧ t.dram
    = s.dram) ∧
  (∀ (s : State) (cause : Fin 256) (u : UnitId) (addr : BitVec 52) (info : BitVec 64), cause.val = 0 ∨ 9 < cause.val ∨ s.isOff
    = true ∨ s.mode = .keep → Answers (.packageFatal cause u addr info) s fun t => t = s.clean) ∧
  (∀ (s : State), s.isOff = false → s.mode ≠ .keep → Answers (.force .secure) s fun t => t.fatal = s.fatal ++ [.err] ∧ t.get
    .err F.FATAL_N = (s.get .err F.FATAL_N + 1) % 2 ^ F.FATAL_N.width ∧ t.fatalStop = true ∧ t.dram = s.dram) ∧
  (∀ (s : State), s.isOff = true ∨ s.mode = .keep → Answers (.force .secure) s fun t => t = s.clean) ∧
  (∀ (s : State), Answers (.force .normal) s fun t => t.fatal = s.fatal ∧ t.get .err F.FATAL_N = s.get .err F.FATAL_N ∧ t.on
    .err F.UNIT_ERR_DENIED = true ∧ t.dram = s.dram) ∧
  (∀ (s : State), s.fatal ≠ [] → s.isOff = false → s.mode ≠ .keep → Answers (.fatalWarmReset) s fun t => t.mode = .recovery ∧
    t.fatal = [] ∧ t.on .err F.ERR_EVT_RECOVERED = true ∧ t.dram = s.dram ∧ t.stayRecovery = s.thirdRecovery ∧ (s.thirdRecovery
    = true → t.boot = none)) ∧
  (∀ (s : State), s.fatal = [] → Answers (.fatalWarmReset) s fun t => t = s.clean) ∧
  (∀ (s : State) (b : Bool), Answers (.pmuFreeze b) s fun t => t.get .pmu F.PMU_CTRL_FREEZE = bit b ∧ ∀ n : Fin 16, t.get .pmu
    F.PMU_COUNT n.val = s.get .pmu F.PMU_COUNT n.val) ∧
  (∀ (s : State), Answers (.pmuClear) s fun t => (∀ n : Fin 16, t.get .pmu F.PMU_COUNT n.val = 0) ∧ t.get .pmu
    F.PMU_CTRL_FREEZE = s.get .pmu F.PMU_CTRL_FREEZE) ∧
  (∀ (s : State) (n : Fin 16) (v : BitVec 32) (events : Fin 16), events.val = 0 ∨ s.on .pmu F.PMU_CTRL_FREEZE = true ∨ s.on
    .pmu F.PMU_EN n.val = false → Answers (.counterWrite n v events) s fun t => t.get .pmu F.PMU_COUNT n.val = v.toNat ∧ ∀ m :
    Fin 16, m ≠ n → t.get .pmu F.PMU_COUNT m.val = s.get .pmu F.PMU_COUNT m.val) ∧
  (∀ (s : State) (n : Fin 16) (v : BitVec 32) (events : Fin 16), s.on .pmu F.PMU_CTRL_FREEZE = false → s.on .pmu F.PMU_EN n.val
    = true → v.toNat + events.val < 2 ^ 32 → Answers (.counterWrite n v events) s fun t => t.get .pmu F.PMU_COUNT n.val =
    v.toNat + events.val ∧ ∀ m : Fin 16, m ≠ n → t.get .pmu F.PMU_COUNT m.val = s.get .pmu F.PMU_COUNT m.val) ∧
  (∀ (s : State) (v : BitVec 32), s.on .trace F.TRC_CTRL_EN = true → s.get .trace F.TRC_CTRL_SRCMASK / 2 ^ 5 % 2 = 1 →
    secureUnit .trace = false ∨ s.on .trace F.TRC_CTRL_SEC = true → s.on .trace F.TRC_CTRL_STOP = false ∨ s.get .trace
    F.TRC_IDX < 4096 → Answers (.trcMark v) s fun t => (tget (0, 0) t.trace (s.get .trace F.TRC_IDX % 4096)).1 % 256 = 0x80 ∧
    (tget (0, 0) t.trace (s.get .trace F.TRC_IDX % 4096)).1 / 2 ^ 32 = v.toNat ∧ t.get .trace F.TRC_IDX = (s.get .trace
    F.TRC_IDX + 1) % 2 ^ F.TRC_IDX.width ∧ t.dram = s.dram) ∧
  (∀ (s : State) (v : BitVec 32), s.on .trace F.TRC_CTRL_EN = true → s.get .trace F.TRC_CTRL_SRCMASK / 2 ^ 5 % 2 = 1 →
    secureUnit .trace = false ∨ s.on .trace F.TRC_CTRL_SEC = true → s.on .trace F.TRC_CTRL_STOP = true → 4096 ≤ s.get .trace
    F.TRC_IDX → Answers (.trcMark v) s fun t => t.trace = s.trace ∧ t.on .trace F.TRC_FULL = true ∧ t.get .trace F.TRC_IDX =
    s.get .trace F.TRC_IDX) ∧
  (∀ (s : State) (v : BitVec 32), s.on .trace F.TRC_CTRL_EN = false ∨ s.get .trace F.TRC_CTRL_SRCMASK / 2 ^ 5 % 2 = 0 → Answers
    (.trcMark v) s fun t => t = s.clean) ∧
  (∀ (s : State) (addr : Fin 128) (v : BitVec 32) (op : DmiOp), s.isOff = false → s.mode ≠ .keep → s.debugOpen = false → op =
    .read ∨ op = .write v → Answers (.dmiAccess addr op) s fun t => t = { s with out := [.dmi 2 0] }) ∧
  (∀ (s : State) (v : BitVec 32), s.isOff = false → s.mode ≠ .keep → s.debugOpen = true → s.dbg.active = true → s.dbg.autoexec
    % 2 = 0 → Answers (.dmiAccess 0x04 (.write v)) s fun t => t.dbg = { s.dbg with data := withHalf s.dbg.data false v.toNat }
    ∧ t.out = [.dmi 0 0] ∧ t.regs = s.regs ∧ t.harts = s.harts) ∧
  (∀ (s : State) (addr : Fin 128), s.isOff = false → s.mode ≠ .keep → s.debugOpen = true → s.dbg.active = true → addr.val =
    0x11 → Answers (.dmiAccess addr .read) s fun t => t = { s with out := [.dmi 0 s.dmstatus] }) ∧
  (∀ (s : State) (addr : Fin 128), s.isOff = false → s.mode ≠ .keep → Answers (.dmiAccess addr .idcode) s fun t => t =
    { s with out := [.value s.idcode] }) ∧
  (∀ (s : State) (addr : Fin 128), s.isOff = false → s.mode ≠ .keep → Answers (.dmiAccess addr .dtmcs) s fun t => t =
    { s with out := [.value dtmcs] }) ∧
  (∀ (s : State) (addr : Fin 128) (op : DmiOp), s.isOff = true ∨ s.mode = .keep → Answers (.dmiAccess addr op) s fun t => t =
    s.clean)

/-- Frames of the disc side's commands (spec/02_head_links.md: Registers, spec/03_channel_engines.md: Registers,
spec/04_servo_engines.md: Registers, spec/05_sluice.md: Registers). In every state the command completes, and what it may
change is listed: every other field of the state, with the bytes of DRAM and MRAM, harts and cached lines those fields
hold, is as it was, and so is every register but those of the page kinds listed. The lanes, bridge messages, reads, motion,
spindles, servos and writes of chapters 02 to 05. -/
def Obligations.FramesDisc : Prop :=
  (∀ (s : State) (u : UnitId) (mask : Fin 16), Answers (.unitErrClear u mask) s fun t => SameButRegs s t ∧ SameRegs [unitKind
    u] s t) ∧
  (∀ (s : State) (a : Fin 96), Answers (.laneEnable a) s fun t => { t with out := s.out, lanes := s.lanes, regs := s.regs } = s
    ∧ SameRegs [.act] s t) ∧
  (∀ (s : State) (a : Fin 96), Answers (.retract a) s fun t => { t with out := s.out, lanes := s.lanes, regs := s.regs } = s ∧
    SameRegs [] s t) ∧
  (∀ (s : State) (a : Fin 96), Answers (.sleepRequest a) s fun t => { t with out := s.out, lanes := s.lanes, regs := s.regs } =
    s ∧ SameRegs [.act] s t) ∧
  (∀ (s : State) (a : Fin 96), Answers (.sleepWake a) s fun t => { t with out := s.out, lanes := s.lanes, regs := s.regs } = s
    ∧ SameRegs [.act] s t) ∧
  (∀ (s : State) (a : Fin 96), Answers (.ylT0Detect a) s fun t => SameButRegs s t ∧ SameRegs [.act] s t) ∧
  (∀ (s : State) (a : Fin 96) (rtt : Nat), Answers (.ylStepExit a rtt) s fun t =>
    { t with out := s.out, freeCount := s.freeCount, lanes := s.lanes, regs := s.regs, trace := s.trace } = s ∧ SameRegs [.act,
    .trace] s t) ∧
  (∀ (s : State) (a : Fin 96), Answers (.ylStepTimeout a) s fun t =>
    { t with out := s.out, freeCount := s.freeCount, lanes := s.lanes, regs := s.regs, trace := s.trace } = s ∧ SameRegs [.act,
    .trace] s t) ∧
  (∀ (s : State) (a : Fin 96), Answers (.ylDetectBurst a) s fun t => SameButRegs s t ∧ SameRegs [] s t) ∧
  (∀ (s : State) (a : Fin 96), Answers (.downlinkFrame a) s fun t =>
    { t with out := s.out, lanes := s.lanes, regs := s.regs, sluices := s.sluices, sweep := s.sweep } = s ∧ SameRegs [] s t) ∧
  (∀ (s : State) (a : Fin 96), Answers (.heartbeatIdleFrame a) s fun t =>
    { t with out := s.out, lanes := s.lanes, regs := s.regs, sluices := s.sluices, sweep := s.sweep } = s ∧ SameRegs [] s t) ∧
  (∀ (s : State) (a : Fin 96) (m : SbIn), Answers (.cap a m) s fun t =>
    { t with out := s.out, lanes := s.lanes, regs := s.regs } = s ∧ SameRegs [.act] s t) ∧
  (∀ (s : State) (a : Fin 96) (m : SbIn), Answers (.id a m) s fun t =>
    { t with out := s.out, lanes := s.lanes, regs := s.regs } = s ∧ SameRegs [.act] s t) ∧
  (∀ (s : State) (a : Fin 96) (m : SbIn), Answers (.echo a m) s fun t =>
    { t with out := s.out, lanes := s.lanes, regs := s.regs } = s ∧ SameRegs [] s t) ∧
  (∀ (s : State) (a : Fin 96) (m : SbIn), Answers (.spinStat a m) s fun t =>
    { t with out := s.out, dies := s.dies, lanes := s.lanes, mram := s.mram, regs := s.regs, servos := s.servos, sweep := s.sweep }
    = s ∧ SameRegs [.act, .err, .sweep, .tile, .vz] s t) ∧
  (∀ (s : State) (a : Fin 96) (m : SbIn), Answers (.preampVal a m) s fun t =>
    { t with out := s.out, lanes := s.lanes, regs := s.regs } = s ∧ SameRegs [.act] s t) ∧
  (∀ (s : State) (a : Fin 96) (m : SbIn), Answers (.env a m) s fun t =>
    { t with out := s.out, lanes := s.lanes, regs := s.regs } = s ∧ SameRegs [.act] s t) ∧
  (∀ (s : State) (a : Fin 96) (m : SbIn), Answers (.fault a m) s fun t =>
    { t with out := s.out, lanes := s.lanes, regs := s.regs } = s ∧ SameRegs [.act] s t) ∧
  (∀ (s : State) (a : Fin 96) (m : SbIn), Answers (.health a m) s fun t =>
    { t with out := s.out, lanes := s.lanes, regs := s.regs } = s ∧ SameRegs [.act] s t) ∧
  (∀ (s : State) (a : Fin 96) (op : Nat) (m : SbIn), Answers (.bridgeMakerMessage a op m) s fun t =>
    { t with out := s.out, lanes := s.lanes, regs := s.regs } = s ∧ SameRegs [.act] s t) ∧
  (∀ (s : State) (a : Fin 96), Answers (.go a) s fun t =>
    { t with out := s.out, errLog := s.errLog, freeCount := s.freeCount, lanes := s.lanes, regs := s.regs, trace := s.trace } =
    s ∧ SameRegs [.act, .err, .trace] s t) ∧
  (∀ (s : State) (a : Fin 96), Answers (.sbRxRelease a) s fun t => SameButRegs s t ∧ SameRegs [.act] s t) ∧
  (∀ (s : State) (a : Fin 96), Answers (.chEnable a) s fun t =>
    { t with out := s.out, chans := s.chans, errLog := s.errLog, freeCount := s.freeCount, regs := s.regs, trace := s.trace } =
    s ∧ SameRegs [.act, .err, .trace] s t) ∧
  (∀ (s : State) (a : Fin 96) (tag : Fin 65536), Answers (.chCancel a tag) s fun t =>
    { t with out := s.out, chans := s.chans, errLog := s.errLog, freeCount := s.freeCount, regs := s.regs, trace := s.trace } =
    s ∧ SameRegs [.act, .err, .trace] s t) ∧
  (∀ (s : State) (a : Fin 96), Answers (.settleTimeout a) s fun t =>
    { t with out := s.out, lanes := s.lanes, mram := s.mram, regs := s.regs, servos := s.servos, sweep := s.sweep } = s ∧
    SameRegs [.act, .err, .sweep, .tile] s t) ∧
  (∀ (s : State) (a : Fin 96), Answers (.shockHoldEnd a) s fun t => { t with out := s.out, servos := s.servos } = s) ∧
  (∀ (s : State) (a : Fin 96), Answers (.coefSwap a) s fun t => SameButRegs s t ∧ SameRegs [.act] s t) ∧
  (∀ (s : State) (a : Fin 96), Answers (.svEnable a) s fun t => SameButRegs s t ∧ SameRegs [.act] s t) ∧
  (∀ (s : State) (a : Fin 96) (args : SvArgs), Answers (.seek a args) s fun t =>
    { t with out := s.out, regs := s.regs, servos := s.servos } = s ∧ SameRegs [.act] s t) ∧
  (∀ (s : State) (a : Fin 96) (args : SvArgs), Answers (.offset a args) s fun t =>
    { t with out := s.out, regs := s.regs, servos := s.servos } = s ∧ SameRegs [.act] s t) ∧
  (∀ (s : State) (a : Fin 96) (args : SvArgs), Answers (.svLoad a args) s fun t =>
    { t with out := s.out, lanes := s.lanes, regs := s.regs, servos := s.servos } = s ∧ SameRegs [.act] s t) ∧
  (∀ (s : State) (a : Fin 96), Answers (.spinUp a) s fun t =>
    { t with out := s.out, dies := s.dies, regs := s.regs, servos := s.servos } = s ∧ SameRegs [.act, .vz] s t) ∧
  (∀ (s : State) (a : Fin 96) (op : Nat), Answers (.svCmdReserved a op) s fun t => SameButRegs s t ∧ SameRegs [.act] s t) ∧
  (∀ (s : State) (a : Fin 96), Answers (.slEnable a) s fun t =>
    { t with out := s.out, errLog := s.errLog, freeCount := s.freeCount, regs := s.regs, trace := s.trace } = s ∧ SameRegs
    [.act, .err, .trace] s t) ∧
  (∀ (s : State) (a : Fin 96), Answers (.fillDone a) s fun t =>
    { t with out := s.out, dies := s.dies, keys := s.keys, regs := s.regs, sluices := s.sluices } = s ∧ SameRegs [.act, .die,
    .vz] s t) ∧
  (∀ (s : State) (a : Fin 96), Answers (.sectorWriteEnd a) s fun t =>
    { t with out := s.out, sluices := s.sluices, sweep := s.sweep } = s) ∧
  (∀ (s : State) (a : Fin 96), Answers (.revolutionVerifyStart a) s fun t =>
    { t with out := s.out, regs := s.regs, sluices := s.sluices, sweep := s.sweep } = s ∧ SameRegs [] s t) ∧
  (∀ (s : State) (a : Fin 96), Answers (.wrateSet a) s fun t => { t with out := s.out, lanes := s.lanes, regs := s.regs } = s ∧
    SameRegs [] s t) ∧
  (∀ (s : State) (m : Fin 4) (v : Fin 4294967296), Answers (.sldJheadWrite m v) s fun t =>
    { t with out := s.out, dies := s.dies, errLog := s.errLog, freeCount := s.freeCount, regs := s.regs, trace := s.trace } = s
    ∧ SameRegs [.act, .err, .die, .trace] s t) ∧
  (∀ (s : State) (m : Fin 4) (v : Fin 4294967296), Answers (.sldJtailWrite m v) s fun t =>
    { t with out := s.out, errLog := s.errLog, freeCount := s.freeCount, regs := s.regs, trace := s.trace } = s ∧ SameRegs
    [.err, .die, .trace] s t)

/-- Frames of the stripes, keys, sweeps and the host side (spec/06_stripes_and_keys.md: Registers,
spec/07_format_and_sanitise.md: Registers, spec/08_host_endpoint.md: Registers, spec/09_command_queues.md: Registers). In
every state the command completes, and what it may change is listed: every other field of the state, with the bytes of DRAM
and MRAM, harts and cached lines those fields hold, is as it was, and so is every register but those of the page kinds
listed. The stripe engines, the key engine, the sweep, the ports, functions, queues and mailboxes. -/
def Obligations.FramesKeysAndHost : Prop :=
  (∀ (s : State) (k : Fin 4), Answers (.strEnable k) s fun t => { t with out := s.out, regs := s.regs, stripes := s.stripes } =
    s ∧ SameRegs [.stripe] s t) ∧
  (∀ (s : State) (mask : Nat), Answers (.strDownClear mask) s fun t => SameButRegs s t ∧ SameRegs [.stripe] s t) ∧
  (∀ (s : State) (w : World) (scope : Fin 3) (slot : Fin 4096), Answers (.keyRestore w scope slot) s fun t =>
    { t with out := s.out, dies := s.dies, errLog := s.errLog, freeCount := s.freeCount, keys := s.keys, mram := s.mram, regs := s.regs, trace := s.trace }
    = s ∧ SameRegs [.err, .hub, .key, .trace] s t) ∧
  (∀ (s : State) (w : World) (scope : Fin 3) (slot : Fin 4096) (fn : Fin 1024), Answers (.keySuspend w scope slot fn) s fun t
    =>
    { t with out := s.out, dies := s.dies, errLog := s.errLog, freeCount := s.freeCount, keys := s.keys, regs := s.regs, trace := s.trace }
    = s ∧ SameRegs [.err, .hub, .key, .trace] s t) ∧
  (∀ (s : State) (w : World) (scope : Fin 3) (slot : Fin 4096) (fn : Fin 1024), Answers (.keyResume w scope slot fn) s fun t =>
    { t with out := s.out, errLog := s.errLog, freeCount := s.freeCount, keys := s.keys, mram := s.mram, regs := s.regs, trace := s.trace }
    = s ∧ SameRegs [.err, .hub, .key, .trace] s t) ∧
  (∀ (s : State) (w : World) (scope : Fin 3) (slot : Fin 4096) (fn : Fin 1024), Answers (.keyErase w scope slot fn) s fun t =>
    { t with out := s.out, dies := s.dies, errLog := s.errLog, freeCount := s.freeCount, keys := s.keys, mram := s.mram, regs := s.regs, trace := s.trace }
    = s ∧ SameRegs [.err, .hub, .key, .trace] s t) ∧
  (∀ (s : State) (w : World) (op : Nat) (scope : Nat), Answers (.keyCmdReserved w op scope) s fun t =>
    { t with out := s.out, errLog := s.errLog, freeCount := s.freeCount, keys := s.keys, regs := s.regs, trace := s.trace } = s
    ∧ SameRegs [.err, .hub, .key, .trace] s t) ∧
  (∀ (s : State), Answers (.keyEraseDrained) s fun t => { t with out := s.out, keys := s.keys, mram := s.mram, regs := s.regs }
    = s ∧ SameRegs [.key] s t) ∧
  (∀ (s : State) (w : World), Answers (.abort w) s fun t =>
    { t with out := s.out, errLog := s.errLog, freeCount := s.freeCount, mode := s.mode, mram := s.mram, regs := s.regs, sweep := s.sweep, trace := s.trace }
    = s ∧ SameRegs [.aon, .err, .sweep, .tile, .trace] s t) ∧
  (∀ (s : State) (w : World) (op : Nat), Answers (.swpCmdReserved w op) s fun t =>
    { t with out := s.out, errLog := s.errLog, freeCount := s.freeCount, regs := s.regs, trace := s.trace } = s ∧ SameRegs
    [.err, .sweep, .trace] s t) ∧
  (∀ (s : State), Answers (.swpQuiesceDone) s fun t =>
    { t with out := s.out, mram := s.mram, regs := s.regs, sweep := s.sweep } = s ∧ SameRegs [.err, .sweep, .tile] s t) ∧
  (∀ (s : State), Answers (.swpCryptoDone) s fun t =>
    { t with out := s.out, keys := s.keys, mram := s.mram, regs := s.regs, sweep := s.sweep } = s ∧ SameRegs [.err, .key,
    .sweep, .tile] s t) ∧
  (∀ (s : State), Answers (.swpMetadataDone) s fun t =>
    { t with out := s.out, mram := s.mram, regs := s.regs, sweep := s.sweep } = s ∧ SameRegs [.err, .sweep, .tile] s t) ∧
  (∀ (s : State), Answers (.swpReport) s fun t =>
    { t with out := s.out, freeCount := s.freeCount, mode := s.mode, mram := s.mram, regs := s.regs, trace := s.trace } = s ∧
    SameRegs [.aon, .err, .sweep, .tile, .trace] s t) ∧
  (∀ (s : State) (k : Fin 2), Answers (.perstDeassert k) s fun t => SameButRegs s t ∧ SameRegs [.pcie] s t) ∧
  (∀ (s : State) (k : Fin 2) (rate : Fin 6) (width : Nat) (flit : Bool), Answers (.pcieLinkUp k rate width flit) s fun t =>
    { t with out := s.out, freeCount := s.freeCount, regs := s.regs, trace := s.trace } = s ∧ SameRegs [.keep, .pcie, .trace] s
    t) ∧
  (∀ (s : State) (k : Fin 2), Answers (.pcieEnable k) s fun t =>
    { t with out := s.out, errLog := s.errLog, freeCount := s.freeCount, regs := s.regs, trace := s.trace } = s ∧ SameRegs
    [.err, .pcie, .trace] s t) ∧
  (∀ (s : State) (k : Fin 2), Answers (.cfgReady k) s fun t => SameButRegs s t ∧ SameRegs [.pcie] s t) ∧
  (∀ (s : State) (f : Fin 1026), Answers (.busMasterEnable f) s fun t =>
    { t with out := s.out, fns := s.fns, pending := s.pending, regs := s.regs } = s ∧ SameRegs [.pcie] s t) ∧
  (∀ (s : State) (k : Fin 2) (n : Nat), Answers (.vfEnableSet k n) s fun t =>
    { t with out := s.out, fns := s.fns, regs := s.regs } = s ∧ SameRegs [.pcie] s t) ∧
  (∀ (s : State) (f : Fin 1024), Answers (.fnCreate f) s fun t => t.diskPart = s.diskPart ∧ t.keyPart = s.keyPart ∧ t.ports =
    s.ports ∧ t.xrings = s.xrings ∧ t.hg = s.hg ∧ t.mbHeld = s.mbHeld ∧ t.mbTmo = s.mbTmo ∧ t.mapPart = s.mapPart ∧ t.dataPart
    = s.dataPart ∧ t.stackPart = s.stackPart ∧ t.cachePart = s.cachePart ∧ t.fabricPart = s.fabricPart ∧ t.powerPart =
    s.powerPart ∧ t.bootPart = s.bootPart ∧ t.lifePart = s.lifePart ∧ t.errLog = s.errLog ∧ t.fatal = s.fatal ∧ t.harts =
    s.harts ∧ t.build = s.build ∧ SameRegs [.fn, .fnmgr, .headgate, .pcie, .trace] s t) ∧
  (∀ (s : State) (f : Fin 1024), Answers (.fnFree f) s fun t => SameButRegs s t ∧ SameRegs [.fnmgr] s t) ∧
  (∀ (s : State) (f : Fin 1024) (field : LiveField) (v : Nat), Answers (.fnLiveFieldWrite f field v) s fun t =>
    { t with out := s.out, fns := s.fns, pending := s.pending, regs := s.regs } = s ∧ SameRegs [.fn, .fnmgr, .pcie] s t) ∧
  (∀ (s : State) (k : Fin 2) (tag : Fin 1024), Answers (.hostReadTimeout k tag) s fun t =>
    { t with out := s.out, fns := s.fns, freeCount := s.freeCount, ports := s.ports, regs := s.regs, reqs := s.reqs, xrings := s.xrings }
    = s ∧ SameRegs [.pcie] s t) ∧
  (∀ (s : State) (k : Fin 2), Answers (.l0pEntry k) s fun t => SameButRegs s t ∧ SameRegs [.pcie] s t) ∧
  (∀ (s : State) (k : Fin 2), Answers (.l1Entry k) s fun t => { t with out := s.out, ports := s.ports, regs := s.regs } = s ∧
    SameRegs [.pcie] s t) ∧
  (∀ (s : State) (k : Fin 2), Answers (.clkreqRelease k) s fun t => SameButRegs s t ∧ SameRegs [.pcie] s t) ∧
  (∀ (s : State) (f : Fin 1026) (v : Fin 256), Answers (.verReqWrite f v) s fun t => SameButRegs s t ∧ SameRegs [.fn] s t) ∧
  (∀ (s : State) (f : Fin 1026) (q : Fin 8), Answers (.queueEnable f q) s fun t => SameButRegs s t ∧ SameRegs [.fn] s t) ∧
  (∀ (s : State) (f : Fin 1026) (q : Fin 8), Answers (.queueDisable f q) s fun t =>
    { t with out := s.out, fwLog := s.fwLog, queues := s.queues, regs := s.regs } = s ∧ SameRegs [.fn, .headgate] s t) ∧
  (∀ (s : State) (f : Fin 1026) (q : Fin 8), Answers (.queueDisableDrained f q) s fun t =>
    { t with out := s.out, queues := s.queues, regs := s.regs } = s ∧ SameRegs [.fn] s t) ∧
  (∀ (s : State) (f : Fin 1026) (q : Fin 8) (v : Fin 65536), Answers (.sqTail f q v) s fun t => t.diskPart = s.diskPart ∧
    t.keyPart = s.keyPart ∧ t.ports = s.ports ∧ t.xrings = s.xrings ∧ t.hg = s.hg ∧ t.mbHeld = s.mbHeld ∧ t.mbTmo = s.mbTmo ∧
    t.mapPart = s.mapPart ∧ t.dataPart = s.dataPart ∧ t.stackPart = s.stackPart ∧ t.cachePart = s.cachePart ∧ t.fabricPart =
    s.fabricPart ∧ t.powerPart = s.powerPart ∧ t.bootPart = s.bootPart ∧ t.lifePart = s.lifePart ∧ t.errLog = s.errLog ∧
    t.fatal = s.fatal ∧ t.harts = s.harts ∧ t.build = s.build ∧ SameRegs [.fn, .headgate, .pcie, .trace] s t) ∧
  (∀ (s : State) (f : Fin 1026) (q : Fin 8) (v : Fin 65536), Answers (.cqHead f q v) s fun t => t.diskPart = s.diskPart ∧
    t.keyPart = s.keyPart ∧ t.ports = s.ports ∧ t.xrings = s.xrings ∧ t.hg = s.hg ∧ t.mbHeld = s.mbHeld ∧ t.mbTmo = s.mbTmo ∧
    t.mapPart = s.mapPart ∧ t.dataPart = s.dataPart ∧ t.stackPart = s.stackPart ∧ t.cachePart = s.cachePart ∧ t.fabricPart =
    s.fabricPart ∧ t.powerPart = s.powerPart ∧ t.bootPart = s.bootPart ∧ t.lifePart = s.lifePart ∧ t.errLog = s.errLog ∧
    t.fatal = s.fatal ∧ t.harts = s.harts ∧ t.build = s.build ∧ SameRegs [.fn, .headgate, .pcie, .trace] s t) ∧
  (∀ (s : State) (f : Fin 1026) (q : Fin 8) (res : FetchRes), Answers (.sqFetch f q res) s fun t => t.diskPart = s.diskPart ∧
    t.keyPart = s.keyPart ∧ t.ports = s.ports ∧ t.xrings = s.xrings ∧ t.hg = s.hg ∧ t.mbHeld = s.mbHeld ∧ t.mbTmo = s.mbTmo ∧
    t.mapPart = s.mapPart ∧ t.dataPart = s.dataPart ∧ t.stackPart = s.stackPart ∧ t.cachePart = s.cachePart ∧ t.fabricPart =
    s.fabricPart ∧ t.powerPart = s.powerPart ∧ t.bootPart = s.bootPart ∧ t.lifePart = s.lifePart ∧ t.errLog = s.errLog ∧
    t.fatal = s.fatal ∧ t.harts = s.harts ∧ t.build = s.build ∧ SameRegs [.fn, .headgate, .pcie, .trace] s t) ∧
  (∀ (s : State) (f : Fin 1026) (q : Fin 8), Answers (.coalesceTimeout f q) s fun t =>
    { t with out := s.out, fns := s.fns, pending := s.pending, queues := s.queues, regs := s.regs } = s ∧ SameRegs [.pcie] s t)
    ∧
  (∀ (s : State) (fn : Fin 1024) (pf : Bool) (port : Fin 2) (mask : Fin 256), Answers (.hgFreeze fn pf port mask) s fun t =>
    t.diskPart = s.diskPart ∧ t.keyPart = s.keyPart ∧ t.ports = s.ports ∧ t.xrings = s.xrings ∧ t.hg = s.hg ∧ t.mbHeld =
    s.mbHeld ∧ t.mbTmo = s.mbTmo ∧ t.mapPart = s.mapPart ∧ t.dataPart = s.dataPart ∧ t.stackPart = s.stackPart ∧ t.cachePart =
    s.cachePart ∧ t.fabricPart = s.fabricPart ∧ t.powerPart = s.powerPart ∧ t.bootPart = s.bootPart ∧ t.lifePart = s.lifePart ∧
    t.errLog = s.errLog ∧ t.fatal = s.fatal ∧ t.harts = s.harts ∧ t.build = s.build ∧ SameRegs [.fn, .headgate, .pcie, .trace]
    s t) ∧
  (∀ (s : State) (fn : Fin 1024) (pf : Bool) (port : Fin 2) (mask : Fin 256) (arise : Option (Fin 11)), Answers (.hgRestart fn
    pf port mask arise) s fun t => t.diskPart = s.diskPart ∧ t.keyPart = s.keyPart ∧ t.ports = s.ports ∧ t.xrings = s.xrings ∧
    t.hg = s.hg ∧ t.mbHeld = s.mbHeld ∧ t.mbTmo = s.mbTmo ∧ t.mapPart = s.mapPart ∧ t.dataPart = s.dataPart ∧ t.stackPart =
    s.stackPart ∧ t.cachePart = s.cachePart ∧ t.fabricPart = s.fabricPart ∧ t.powerPart = s.powerPart ∧ t.bootPart = s.bootPart
    ∧ t.lifePart = s.lifePart ∧ t.errLog = s.errLog ∧ t.fatal = s.fatal ∧ t.harts = s.harts ∧ t.build = s.build ∧ SameRegs
    [.fn, .headgate, .pcie, .trace] s t) ∧
  (∀ (s : State), Answers (.hgEnable) s fun t => { t with out := s.out, hg := s.hg, regs := s.regs } = s ∧ SameRegs [.headgate]
    s t) ∧
  (∀ (s : State) (e : MbEnd) (w3 : Nat), Answers (.mbCommit e w3) s fun t => t.diskPart = s.diskPart ∧ t.keyPart = s.keyPart ∧
    t.ports = s.ports ∧ t.xrings = s.xrings ∧ t.queues = s.queues ∧ t.hg = s.hg ∧ t.hostLog = s.hostLog ∧ t.fwLog = s.fwLog ∧
    t.mapPart = s.mapPart ∧ t.dataPart = s.dataPart ∧ t.stackPart = s.stackPart ∧ t.cachePart = s.cachePart ∧ t.fabricPart =
    s.fabricPart ∧ t.powerPart = s.powerPart ∧ t.bootPart = s.bootPart ∧ t.lifePart = s.lifePart ∧ t.fatal = s.fatal ∧ t.harts
    = s.harts ∧ t.build = s.build ∧ SameRegs [.err, .fn, .headgate, .mbox, .die, .pcie, .tile, .trace] s t) ∧
  (∀ (s : State) (e : MbEnd), Answers (.take e) s fun t =>
    { t with out := s.out, fns := s.fns, mbHeld := s.mbHeld, pending := s.pending, regs := s.regs } = s ∧ SameRegs [.fn, .mbox,
    .pcie] s t) ∧
  (∀ (s : State) (e : MbEnd), Answers (.mbTimeout e) s fun t =>
    { t with out := s.out, fns := s.fns, pending := s.pending, regs := s.regs } = s ∧ SameRegs [.fn, .mbox, .pcie] s t) ∧
  (∀ (s : State) (e : MbEnd), Answers (.mbDeliverHeld e) s fun t =>
    { t with out := s.out, fns := s.fns, mbHeld := s.mbHeld, pending := s.pending, regs := s.regs } = s ∧ SameRegs [.fn, .mbox,
    .die, .pcie, .tile] s t) ∧
  (∀ (s : State), Answers (.smbMbRead) s fun t => SameButRegs s t ∧ SameRegs [] s t) ∧
  (∀ (s : State), Answers (.smbMbStat) s fun t => SameButRegs s t ∧ SameRegs [] s t) ∧
  (∀ (s : State) (data : Byte), Answers (.smbMbFlags data) s fun t =>
    { t with out := s.out, fns := s.fns, mbHeld := s.mbHeld, pending := s.pending, regs := s.regs } = s ∧ SameRegs [.fn, .mbox,
    .pcie] s t) ∧
  (∀ (s : State), Answers (.smbModeRead) s fun t => SameButRegs s t ∧ SameRegs [.keep] s t) ∧
  (∀ (s : State) (a : At) (rs1 : Fin 32) (rd : Fin 32) (funct3 : Fin 8), Answers (.gatemark a rs1 rd funct3) s fun t =>
    { t with out := s.out, harts := s.harts, regs := s.regs } = s ∧ SameRegs [.tile] s t) ∧
  (∀ (s : State) (a : At), Answers (.mret a) s fun t => { t with out := s.out, harts := s.harts, regs := s.regs } = s ∧
    SameRegs [.tile] s t) ∧
  (∀ (s : State) (a : At), Answers (.sret a) s fun t => { t with out := s.out, harts := s.harts, regs := s.regs } = s ∧
    SameRegs [.tile] s t)

/-- Frames of harts, coherence and memory (spec/10_cores_worlds_translation.md: The instruction set,
spec/10_cores_worlds_translation.md: Interrupts, spec/11_caches_and_coherence.md: Registers,
spec/12_memory_and_protection.md: Registers, spec/13_fabric_and_valiez_links.md: Networks and units). In every state the
command completes, and what it may change is listed: every other field of the state, with the bytes of DRAM and MRAM, harts
and cached lines those fields hold, is as it was, and so is every register but those of the page kinds listed. Hart
instructions that touch no memory, interrupts, the world map, the tiles' own messages, the range maintenance engine, the
stack controllers and NC accesses. -/
def Obligations.FramesHartsAndMemory : Prop :=
  (∀ (s : State) (a : At) (e : ExcArg), Answers (.trap a e) s fun t =>
    { t with out := s.out, harts := s.harts, regs := s.regs } = s ∧ SameRegs [.tile] s t) ∧
  (∀ (s : State) (hart : Fin 256) (pc : BitVec 64), Answers (.interruptTaken hart pc) s fun t =>
    { t with out := s.out, harts := s.harts, regs := s.regs } = s ∧ SameRegs [.core] s t) ∧
  (∀ (s : State) (a : At) (pred succ : Fin 16), Answers (.fence a pred succ) s fun t =>
    { t with out := s.out, harts := s.harts, regs := s.regs } = s ∧ SameRegs [.tile] s t) ∧
  (∀ (s : State) (a : At), Answers (.fenceI a) s fun t => { t with out := s.out, harts := s.harts, regs := s.regs } = s ∧
    SameRegs [.tile] s t) ∧
  (∀ (s : State) (a : At) (va : Option (BitVec 64)) (asid : Option (Fin 65536)), Answers (.sfenceVma a va asid) s fun t =>
    { t with out := s.out, harts := s.harts, regs := s.regs } = s ∧ SameRegs [.tile] s t) ∧
  (∀ (s : State) (a : At) (va : Option (BitVec 64)) (asid : Option (Fin 65536)), Answers (.hfenceVvma a va asid) s fun t =>
    { t with out := s.out, harts := s.harts, regs := s.regs } = s ∧ SameRegs [.tile] s t) ∧
  (∀ (s : State) (a : At) (gpa : Option (BitVec 64)) (vmid : Option (Fin 16384)), Answers (.hfenceGvma a gpa vmid) s fun t =>
    { t with out := s.out, harts := s.harts, regs := s.regs } = s ∧ SameRegs [.tile] s t) ∧
  (∀ (s : State) (a : At) (mode : Fin 4), Answers (.jatomctlClear a mode) s fun t =>
    { t with out := s.out, harts := s.harts, regs := s.regs } = s ∧ SameRegs [.tile] s t) ∧
  (∀ (s : State) (a : At) (v : BitVec 64), Answers (.jgatecfgWrite a v) s fun t =>
    { t with out := s.out, harts := s.harts, regs := s.regs } = s ∧ SameRegs [.tile] s t) ∧
  (∀ (s : State) (src : Fin 3136), Answers (.irqSourceChange src) s fun t => SameButRegs s t) ∧
  (∀ (s : State) (hart : Fin 256), Answers (.mtimecmpMatch hart) s fun t => SameButRegs s t ∧ SameRegs [.core, .irq] s t) ∧
  (∀ (s : State) (w : World), Answers (.wmapCommit w) s fun t =>
    { t with out := s.out, errLog := s.errLog, freeCount := s.freeCount, regs := s.regs, trace := s.trace, wmapNext := s.wmapNext }
    = s ∧ SameRegs [.err, .trace, .wmap] s t) ∧
  (∀ (s : State) (master : Fin 14) (secure : Bool) (w : World), Answers (.iowWorldChange master secure w) s fun t =>
    { t with out := s.out, errLog := s.errLog, freeCount := s.freeCount, iowOld := s.iowOld, regs := s.regs, trace := s.trace }
    = s ∧ SameRegs [.err, .iow, .trace] s t) ∧
  (∀ (s : State) (ch : Fin 2) (agent : Fin 64) (w : World), Answers (.clean ch agent w) s fun t =>
    { t with out := s.out, errLog := s.errLog, freeCount := s.freeCount, lanes := s.lanes, regs := s.regs, rme := s.rme, trace := s.trace }
    = s ∧ SameRegs [.act, .err, .rme, .trace] s t) ∧
  (∀ (s : State) (ch : Fin 2) (agent : Fin 64) (w : World), Answers (.cleanInv ch agent w) s fun t =>
    { t with out := s.out, errLog := s.errLog, freeCount := s.freeCount, lanes := s.lanes, regs := s.regs, rme := s.rme, trace := s.trace }
    = s ∧ SameRegs [.act, .err, .rme, .trace] s t) ∧
  (∀ (s : State) (ch : Fin 2) (agent : Fin 64) (w : World), Answers (.inv ch agent w) s fun t =>
    { t with out := s.out, errLog := s.errLog, freeCount := s.freeCount, lanes := s.lanes, regs := s.regs, rme := s.rme, trace := s.trace }
    = s ∧ SameRegs [.act, .err, .rme, .trace] s t) ∧
  (∀ (s : State) (ch : Fin 2) (agent : Fin 64) (w : World), Answers (.recall ch agent w) s fun t =>
    { t with out := s.out, errLog := s.errLog, freeCount := s.freeCount, lanes := s.lanes, regs := s.regs, rme := s.rme, trace := s.trace }
    = s ∧ SameRegs [.act, .err, .rme, .trace] s t) ∧
  (∀ (s : State) (ch : Fin 2) (op : Fin 8) (agent : Fin 64) (w : World), Answers (.rmeCmdReserved ch op agent w) s fun t =>
    { t with out := s.out, errLog := s.errLog, freeCount := s.freeCount, lanes := s.lanes, regs := s.regs, trace := s.trace } =
    s ∧ SameRegs [.act, .err, .rme, .trace] s t) ∧
  (∀ (s : State) (k : Fin 8) (hard : Bool), Answers (.mcCorrectionWriteback k hard) s fun t => t.diskPart = s.diskPart ∧
    t.keyPart = s.keyPart ∧ t.hostPart = s.hostPart ∧ t.mapPart = s.mapPart ∧ t.mram = s.mram ∧ t.lost = s.lost ∧ t.fill =
    s.fill ∧ t.cachePart = s.cachePart ∧ t.fabricPart = s.fabricPart ∧ t.powerPart = s.powerPart ∧ t.bootPart = s.bootPart ∧
    t.lifePart = s.lifePart ∧ t.fatal = s.fatal ∧ t.harts = s.harts ∧ t.build = s.build ∧ t.pending = s.pending ∧ SameRegs
    [.err, .mc, .trace] s t) ∧
  (∀ (s : State) (k : Fin 8) (nth : Fin 64) (bits : BitVec 13), Answers (.scrubRead k nth bits) s fun t => t.diskPart =
    s.diskPart ∧ t.keyPart = s.keyPart ∧ t.hostPart = s.hostPart ∧ t.mapPart = s.mapPart ∧ t.dram = s.dram ∧ t.mram = s.mram ∧
    t.poison = s.poison ∧ t.lost = s.lost ∧ t.fill = s.fill ∧ t.cachePart = s.cachePart ∧ t.fabricPart = s.fabricPart ∧
    t.powerPart = s.powerPart ∧ t.bootPart = s.bootPart ∧ t.lifePart = s.lifePart ∧ t.fatal = s.fatal ∧ t.harts = s.harts ∧
    t.build = s.build ∧ t.pending = s.pending ∧ SameRegs [.err, .mc, .trace] s t) ∧
  (∀ (s : State) (w : World), Answers (.memmapCommit w) s fun t =>
    { t with out := s.out, errLog := s.errLog, freeCount := s.freeCount, mregNext := s.mregNext, regs := s.regs, trace := s.trace }
    = s ∧ SameRegs [.err, .memmap, .trace] s t) ∧
  (∀ (s : State), Answers (.memmapCommitDone) s fun t => t.diskPart = s.diskPart ∧ t.keyPart = s.keyPart ∧ t.hostPart =
    s.hostPart ∧ t.wmapNow = s.wmapNow ∧ t.wmapNext = s.wmapNext ∧ t.iowOld = s.iowOld ∧ t.mram = s.mram ∧ t.stackPart =
    s.stackPart ∧ t.cachePart = s.cachePart ∧ t.fabricPart = s.fabricPart ∧ t.powerPart = s.powerPart ∧ t.bootPart = s.bootPart
    ∧ t.lifePart = s.lifePart ∧ t.logPart = s.logPart ∧ t.harts = s.harts ∧ t.build = s.build ∧ t.pending = s.pending ∧
    SameRegs [.memmap] s t) ∧
  (∀ (s : State) (w : World), Answers (.fillGo w) s fun t =>
    { t with out := s.out, errLog := s.errLog, fill := s.fill, freeCount := s.freeCount, regs := s.regs, trace := s.trace } = s
    ∧ SameRegs [.err, .memmap, .trace] s t) ∧
  (∀ (s : State), Answers (.fillDoneMem) s fun t => t.diskPart = s.diskPart ∧ t.keyPart = s.keyPart ∧ t.hostPart = s.hostPart ∧
    t.mapPart = s.mapPart ∧ t.mram = s.mram ∧ t.mcLog = s.mcLog ∧ t.cachePart = s.cachePart ∧ t.fabricPart = s.fabricPart ∧
    t.powerPart = s.powerPart ∧ t.bootPart = s.bootPart ∧ t.lifePart = s.lifePart ∧ t.logPart = s.logPart ∧ t.harts = s.harts ∧
    t.build = s.build ∧ t.pending = s.pending ∧ SameRegs [.mc, .memmap] s t) ∧
  (∀ (s : State) (port : Fin 50) (txn : Fin 1024) (addr : BitVec 52) (lg : Fin 7) (w : NcBy), Answers (.ncRd port txn addr lg
    w) s fun t =>
    { t with out := s.out, errLog := s.errLog, freeCount := s.freeCount, lanes := s.lanes, net := s.net, regs := s.regs, reqs := s.reqs, trace := s.trace }
    = s) ∧
  (∀ (s : State) (src : Fin 3136) (level : Bool), Answers (.irq src level) s fun t => SameButRegs s t ∧ SameRegs [.irq] s t) ∧
  (∀ (s : State) (port : Fin 60), Answers (.badopUnit port) s fun t =>
    { t with out := s.out, errLog := s.errLog, freeCount := s.freeCount, regs := s.regs, trace := s.trace } = s ∧ SameRegs
    [.err, .headgate, .home, .hub, .keep, .key, .die, .pcie, .rme, .stripe, .sweep, .tile, .trace, .xbar] s t)

/-- Frames of links, power, configuration and errors (spec/13_fabric_and_valiez_links.md: Registers,
spec/15_power_modes_and_wake.md: Registers, spec/16_configuration_and_lifecycle.md: Registers,
spec/17_self_test_and_repair.md: Registers, spec/18_errors_counters_trace.md: Package counters,
spec/18_errors_counters_trace.md: Event trace). In every state the command completes, and what it may change is listed:
every other field of the state, with the bytes of DRAM and MRAM, harts and cached lines those fields hold, is as it was,
and so is every register but those of the page kinds listed. The Valiez links, temperature, supplies, power, Loading,
tiles, lifecycle, self-test, counters and marks. -/
def Obligations.FramesPackage : Prop :=
  (∀ (s : State) (n : Fin 45) (toHub : Bool) (want : List VzUnit) (noise : BitVec 2048), Answers (.flitReceived n toHub want
    noise) s fun t =>
    { t with out := s.out, errLog := s.errLog, freeCount := s.freeCount, lanes := s.lanes, links := s.links, regs := s.regs, trace := s.trace }
    = s ∧ SameRegs [.act, .aon, .core, .err, .headgate, .home, .hub, .keep, .key, .die, .pcie, .rme, .stripe, .sweep, .tile,
    .trace, .vz, .xbar] s t) ∧
  (∀ (s : State) (n : Fin 45) (hubEnd : Bool), Answers (.nak n hubEnd) s fun t => { t with out := s.out, links := s.links } =
    s) ∧
  (∀ (s : State) (n : Fin 45), Answers (.fastRetrainStart n) s fun t =>
    { t with out := s.out, links := s.links, regs := s.regs } = s ∧ SameRegs [.vz] s t) ∧
  (∀ (s : State) (n : Fin 45), Answers (.vzDetect n) s fun t => SameButRegs s t ∧ SameRegs [.vz] s t) ∧
  (∀ (s : State) (n : Fin 45) (full : Bool), Answers (.vzRetrain n full) s fun t =>
    { t with out := s.out, freeCount := s.freeCount, links := s.links, regs := s.regs, trace := s.trace } = s ∧ SameRegs
    [.trace, .vz] s t) ∧
  (∀ (s : State) (n : Fin 45), Answers (.isolateClear n) s fun t => SameButRegs s t ∧ SameRegs [.vz] s t) ∧
  (∀ (s : State) (n : Fin 45), Answers (.halfIdleEnter n) s fun t => SameButRegs s t ∧ SameRegs [.vz] s t) ∧
  (∀ (s : State) (t0 : TmoWhat), Answers (.requestTimeout t0) s fun t => t.lanes = s.lanes ∧ t.chans = s.chans ∧ t.servos =
    s.servos ∧ t.furrow = s.furrow ∧ t.dies = s.dies ∧ t.stripes = s.stripes ∧ t.keyPart = s.keyPart ∧ t.hostPart = s.hostPart
    ∧ t.mapPart = s.mapPart ∧ t.dram = s.dram ∧ t.poison = s.poison ∧ t.lost = s.lost ∧ t.fresh = s.fresh ∧ t.flips = s.flips ∧
    t.stackPart = s.stackPart ∧ t.homes = s.homes ∧ t.copies = s.copies ∧ t.cores = s.cores ∧ t.l1s = s.l1s ∧ t.lockedWays =
    s.lockedWays ∧ t.evbufs = s.evbufs ∧ t.amoHist = s.amoHist ∧ t.rme = s.rme ∧ t.links = s.links ∧ t.powerPart = s.powerPart
    ∧ t.bootPart = s.bootPart ∧ t.lifePart = s.lifePart ∧ t.build = s.build ∧ t.pending = s.pending ∧ SameRegs [.act, .core,
    .err, .headgate, .home, .hub, .keep, .key, .die, .pcie, .pmu, .rme, .stripe, .sweep, .tile, .trace, .vz, .xbar] s t) ∧
  (∀ (s : State) (port : Fin 60) (txn : Fin 1024), Answers (.txnHoldExpiry port txn) s fun t =>
    { t with out := s.out, heldTxn := s.heldTxn } = s) ∧
  (∀ (s : State) (die : DieKind) (temp : BitVec 8), Answers (.thermalWarn die temp) s fun t => SameButRegs s t ∧ SameRegs
    [.hub, .mc, .therm, .tile] s t) ∧
  (∀ (s : State), Answers (.tripClear) s fun t => { t with out := s.out, regs := s.regs, thermTrip := s.thermTrip } = s ∧
    SameRegs [.therm] s t) ∧
  (∀ (s : State), Answers (.presenceWindowEnd) s fun t => { t with out := s.out, presence := s.presence, regs := s.regs } = s ∧
    SameRegs [.cfg] s t) ∧
  (∀ (s : State), Answers (.presenceJumper) s fun t => { t with out := s.out, presence := s.presence, regs := s.regs } = s ∧
    SameRegs [.cfg] s t) ∧
  (∀ (s : State) (w : World), Answers (.serve w) s fun t => t.diskPart = s.diskPart ∧ t.keyPart = s.keyPart ∧ t.hostPart =
    s.hostPart ∧ t.mapPart = s.mapPart ∧ t.dataPart = s.dataPart ∧ t.stackPart = s.stackPart ∧ t.cachePart = s.cachePart ∧
    t.reqs = s.reqs ∧ t.heldTxn = s.heldTxn ∧ t.rme = s.rme ∧ t.vrEn = s.vrEn ∧ t.straps = s.straps ∧ t.thermTrip = s.thermTrip
    ∧ t.wake = s.wake ∧ t.vinAt = s.vinAt ∧ t.wakeBad = s.wakeBad ∧ t.sealGen = s.sealGen ∧ t.presence = s.presence ∧ t.weir =
    s.weir ∧ t.freqTo = s.freqTo ∧ t.domTo = s.domTo ∧ t.pwrNext = s.pwrNext ∧ t.pkgTicks = s.pkgTicks ∧ t.bootPart =
    s.bootPart ∧ t.lifePart = s.lifePart ∧ t.fatal = s.fatal ∧ t.harts = s.harts ∧ t.build = s.build ∧ t.pending = s.pending ∧
    SameRegs [.aon, .err, .headgate, .home, .hub, .keep, .key, .die, .pcie, .pwr, .rme, .stripe, .sweep, .tile, .trace, .vz,
    .xbar] s t) ∧
  (∀ (s : State) (w : World), Answers (.still w) s fun t => t.diskPart = s.diskPart ∧ t.keyPart = s.keyPart ∧ t.hostPart =
    s.hostPart ∧ t.mapPart = s.mapPart ∧ t.dataPart = s.dataPart ∧ t.stackPart = s.stackPart ∧ t.cachePart = s.cachePart ∧
    t.reqs = s.reqs ∧ t.heldTxn = s.heldTxn ∧ t.rme = s.rme ∧ t.links = s.links ∧ t.vrEn = s.vrEn ∧ t.straps = s.straps ∧
    t.thermTrip = s.thermTrip ∧ t.wake = s.wake ∧ t.vinAt = s.vinAt ∧ t.wakeBad = s.wakeBad ∧ t.sealGen = s.sealGen ∧
    t.presence = s.presence ∧ t.clocks = s.clocks ∧ t.deep = s.deep ∧ t.weir = s.weir ∧ t.freqTo = s.freqTo ∧ t.domTo = s.domTo
    ∧ t.pwrNext = s.pwrNext ∧ t.pkgTicks = s.pkgTicks ∧ t.bootPart = s.bootPart ∧ t.lifePart = s.lifePart ∧ t.errLog = s.errLog
    ∧ t.fatal = s.fatal ∧ t.harts = s.harts ∧ t.build = s.build ∧ t.pending = s.pending ∧ SameRegs [.aon, .trace] s t) ∧
  (∀ (s : State) (op : Fin 16) (w : World), Answers (.pwrCmdReserved op w) s fun t =>
    { t with out := s.out, pwrHeld := s.pwrHeld, regs := s.regs } = s ∧ SameRegs [.aon] s t) ∧
  (∀ (s : State) (d : Fin 43) (off : Bool) (w : World), Answers (.domReq d off w) s fun t =>
    { t with out := s.out, domTo := s.domTo, regs := s.regs } = s ∧ SameRegs [.pwr] s t) ∧
  (∀ (s : State) (t0 : Fin 32) (freq : Fin 64), Answers (.tileFreqWrite t0 freq) s fun t =>
    { t with out := s.out, freqTo := s.freqTo, regs := s.regs } = s ∧ SameRegs [.pwr, .tile] s t) ∧
  (∀ (s : State) (t0 : Fin 32), Answers (.freqChangeDone t0) s fun t =>
    { t with out := s.out, freqTo := s.freqTo, regs := s.regs } = s ∧ SameRegs [.pwr, .tile] s t) ∧
  (∀ (s : State) (pg : Bool) (q : Fin 4), Answers (.vinChangeCheck pg q) s fun t => t.lanes = s.lanes ∧ t.chans = s.chans ∧
    t.servos = s.servos ∧ t.furrow = s.furrow ∧ t.dies = s.dies ∧ t.stripes = s.stripes ∧ t.keyPart = s.keyPart ∧ t.hostPart =
    s.hostPart ∧ t.mapPart = s.mapPart ∧ t.dram = s.dram ∧ t.poison = s.poison ∧ t.lost = s.lost ∧ t.fresh = s.fresh ∧ t.flips
    = s.flips ∧ t.stackPart = s.stackPart ∧ t.cachePart = s.cachePart ∧ t.reqs = s.reqs ∧ t.heldTxn = s.heldTxn ∧ t.rme = s.rme
    ∧ t.links = s.links ∧ t.mode = s.mode ∧ t.vrEn = s.vrEn ∧ t.straps = s.straps ∧ t.thermTrip = s.thermTrip ∧ t.wake = s.wake
    ∧ t.vinAt = s.vinAt ∧ t.wakeBad = s.wakeBad ∧ t.sealGen = s.sealGen ∧ t.presence = s.presence ∧ t.clocks = s.clocks ∧
    t.deep = s.deep ∧ t.weir = s.weir ∧ t.freqTo = s.freqTo ∧ t.domTo = s.domTo ∧ t.pwrHeld = s.pwrHeld ∧ t.pwrNext = s.pwrNext
    ∧ t.pkgTicks = s.pkgTicks ∧ t.bootPart = s.bootPart ∧ t.lifePart = s.lifePart ∧ t.errLog = s.errLog ∧ t.harts = s.harts ∧
    t.build = s.build ∧ t.pending = s.pending ∧ SameRegs [.act, .aon, .err, .keep, .trace] s t) ∧
  (∀ (s : State) (amps : Vector Nat 4), Answers (.powerSample amps) s fun t =>
    { t with out := s.out, regs := s.regs, weir := s.weir } = s ∧ SameRegs [.pwr] s t) ∧
  (∀ (s : State) (temps : List Int), Answers (.weirTest temps) s fun t =>
    { t with out := s.out, freqTo := s.freqTo, regs := s.regs, weir := s.weir } = s ∧ SameRegs [.hub, .pwr, .therm, .tile] s t)
    ∧
  (∀ (s : State) (u : ClockUnit) (idle : Bool), Answers (.clockGateEnter u idle) s fun t =>
    { t with out := s.out, clocks := s.clocks, regs := s.regs } = s ∧ SameRegs [.core, .hub, .mbox, .die, .pcie, .pwr, .tile] s
    t) ∧
  (∀ (s : State) (u : ClockUnit), Answers (.deepGateTimer u) s fun t => { t with out := s.out, deep := s.deep, regs := s.regs }
    = s ∧ SameRegs [.core, .hub, .mbox, .die, .pcie, .pwr, .tile] s t) ∧
  (∀ (s : State) (u : ClockUnit), Answers (.clockRestartDone u) s fun t =>
    { t with out := s.out, clocks := s.clocks, deep := s.deep, errLog := s.errLog, freeCount := s.freeCount, links := s.links, regs := s.regs, trace := s.trace }
    = s ∧ SameRegs [.core, .err, .headgate, .home, .hub, .keep, .key, .mbox, .die, .pcie, .pwr, .rme, .stripe, .sweep, .tile,
    .trace, .vz, .xbar] s t) ∧
  (∀ (s : State) (ids : List StackId), Answers (.wakeStepReady ids) s fun t => t.diskPart = s.diskPart ∧ t.keyPart = s.keyPart
    ∧ t.hostPart = s.hostPart ∧ t.mapPart = s.mapPart ∧ t.dram = s.dram ∧ t.poison = s.poison ∧ t.lost = s.lost ∧ t.fresh =
    s.fresh ∧ t.flips = s.flips ∧ t.stackPart = s.stackPart ∧ t.cachePart = s.cachePart ∧ t.reqs = s.reqs ∧ t.heldTxn =
    s.heldTxn ∧ t.rme = s.rme ∧ t.vrEn = s.vrEn ∧ t.straps = s.straps ∧ t.thermTrip = s.thermTrip ∧ t.vin = s.vin ∧ t.vinAt =
    s.vinAt ∧ t.wakeBad = s.wakeBad ∧ t.sealGen = s.sealGen ∧ t.presence = s.presence ∧ t.clocks = s.clocks ∧ t.deep = s.deep ∧
    t.weir = s.weir ∧ t.freqTo = s.freqTo ∧ t.domTo = s.domTo ∧ t.pwrHeld = s.pwrHeld ∧ t.pwrNext = s.pwrNext ∧ t.pkgTicks =
    s.pkgTicks ∧ t.svid = s.svid ∧ t.ssid = s.ssid ∧ t.boot = s.boot ∧ t.powerQ = s.powerQ ∧ t.halves = s.halves ∧ t.tileOp =
    s.tileOp ∧ t.life = s.life ∧ t.recSeg = s.recSeg ∧ t.lc = s.lc ∧ t.stayRecovery = s.stayRecovery ∧ t.recoveries =
    s.recoveries ∧ t.dbg = s.dbg ∧ t.errLog = s.errLog ∧ t.fatal = s.fatal ∧ t.harts = s.harts ∧ t.build = s.build ∧ t.pending
    = s.pending ∧ SameRegs [.aon, .mc, .trace, .vz] s t) ∧
  (∀ (s : State), Answers (.loadingFillDone) s fun t => t.diskPart = s.diskPart ∧ t.keyPart = s.keyPart ∧ t.hostPart =
    s.hostPart ∧ t.mapPart = s.mapPart ∧ t.mram = s.mram ∧ t.mcLog = s.mcLog ∧ t.cachePart = s.cachePart ∧ t.fabricPart =
    s.fabricPart ∧ t.powerPart = s.powerPart ∧ t.svid = s.svid ∧ t.ssid = s.ssid ∧ t.boot = s.boot ∧ t.powerQ = s.powerQ ∧
    t.halves = s.halves ∧ t.tileOp = s.tileOp ∧ t.lifePart = s.lifePart ∧ t.logPart = s.logPart ∧ t.harts = s.harts ∧ t.build =
    s.build ∧ t.pending = s.pending ∧ SameRegs [.mc, .memmap] s t) ∧
  (∀ (s : State) (answered : Bool) (body : List Byte), Answers (.loadingImageEnd answered body) s fun t => t.diskPart =
    s.diskPart ∧ t.keyPart = s.keyPart ∧ t.hostPart = s.hostPart ∧ t.wmapNow = s.wmapNow ∧ t.wmapNext = s.wmapNext ∧ t.mregNext
    = s.mregNext ∧ t.iowOld = s.iowOld ∧ t.mram = s.mram ∧ t.lost = s.lost ∧ t.mcLog = s.mcLog ∧ t.cachePart = s.cachePart ∧
    t.fabricPart = s.fabricPart ∧ t.powerPart = s.powerPart ∧ t.boot = s.boot ∧ t.powerQ = s.powerQ ∧ t.halves = s.halves ∧
    t.tileOp = s.tileOp ∧ t.lifePart = s.lifePart ∧ t.logPart = s.logPart ∧ t.harts = s.harts ∧ t.build = s.build ∧ t.pending =
    s.pending) ∧
  (∀ (s : State) (q : Fin 4), Answers (.tilePowerUp q) s fun t =>
    { t with out := s.out, links := s.links, powerQ := s.powerQ, regs := s.regs } = s ∧ SameRegs [.pwr, .vz] s t) ∧
  (∀ (s : State) (tile : Fin 32) (go : Bool) (w : World), Answers (.cfgStart tile go w) s fun t =>
    { t with out := s.out, errLog := s.errLog, freeCount := s.freeCount, harts := s.harts, lanes := s.lanes, regs := s.regs, trace := s.trace }
    = s ∧ SameRegs [.act, .cfg, .err, .trace] s t) ∧
  (∀ (s : State) (tile : Fin 32) (w : World), Answers (.tileRetire tile w) s fun t => t.chans = s.chans ∧ t.servos = s.servos ∧
    t.sluices = s.sluices ∧ t.furrow = s.furrow ∧ t.dies = s.dies ∧ t.stripes = s.stripes ∧ t.keyPart = s.keyPart ∧ t.hostPart
    = s.hostPart ∧ t.mapPart = s.mapPart ∧ t.dataPart = s.dataPart ∧ t.stackPart = s.stackPart ∧ t.cachePart = s.cachePart ∧
    t.net = s.net ∧ t.reqs = s.reqs ∧ t.heldTxn = s.heldTxn ∧ t.powerPart = s.powerPart ∧ t.load = s.load ∧ t.svid = s.svid ∧
    t.ssid = s.ssid ∧ t.boot = s.boot ∧ t.halves = s.halves ∧ t.lifePart = s.lifePart ∧ t.fatal = s.fatal ∧ t.build = s.build ∧
    t.pending = s.pending ∧ SameRegs [.act, .cfg, .err, .pwr, .rme, .trace, .vz] s t) ∧
  (∀ (s : State) (tile : Fin 32) (w : World), Answers (.tileAdd tile w) s fun t => t.chans = s.chans ∧ t.servos = s.servos ∧
    t.sluices = s.sluices ∧ t.furrow = s.furrow ∧ t.dies = s.dies ∧ t.stripes = s.stripes ∧ t.keyPart = s.keyPart ∧ t.hostPart
    = s.hostPart ∧ t.mapPart = s.mapPart ∧ t.dataPart = s.dataPart ∧ t.stackPart = s.stackPart ∧ t.cachePart = s.cachePart ∧
    t.net = s.net ∧ t.reqs = s.reqs ∧ t.heldTxn = s.heldTxn ∧ t.powerPart = s.powerPart ∧ t.load = s.load ∧ t.svid = s.svid ∧
    t.ssid = s.ssid ∧ t.boot = s.boot ∧ t.halves = s.halves ∧ t.lifePart = s.lifePart ∧ t.fatal = s.fatal ∧ t.build = s.build ∧
    t.pending = s.pending ∧ SameRegs [.act, .cfg, .err, .pwr, .rme, .trace, .vz] s t) ∧
  (∀ (s : State) (tile : Fin 32) (w : World), Answers (.tileSwap tile w) s fun t => t.chans = s.chans ∧ t.servos = s.servos ∧
    t.sluices = s.sluices ∧ t.furrow = s.furrow ∧ t.dies = s.dies ∧ t.stripes = s.stripes ∧ t.keyPart = s.keyPart ∧ t.hostPart
    = s.hostPart ∧ t.mapPart = s.mapPart ∧ t.dataPart = s.dataPart ∧ t.stackPart = s.stackPart ∧ t.cachePart = s.cachePart ∧
    t.net = s.net ∧ t.reqs = s.reqs ∧ t.heldTxn = s.heldTxn ∧ t.powerPart = s.powerPart ∧ t.load = s.load ∧ t.svid = s.svid ∧
    t.ssid = s.ssid ∧ t.boot = s.boot ∧ t.halves = s.halves ∧ t.lifePart = s.lifePart ∧ t.fatal = s.fatal ∧ t.build = s.build ∧
    t.pending = s.pending ∧ SameRegs [.act, .cfg, .err, .pwr, .rme, .trace, .vz] s t) ∧
  (∀ (s : State) (tile : Fin 32) (w : World), Answers (.tileCmdReserved tile w) s fun t => t.chans = s.chans ∧ t.servos =
    s.servos ∧ t.sluices = s.sluices ∧ t.furrow = s.furrow ∧ t.dies = s.dies ∧ t.stripes = s.stripes ∧ t.keyPart = s.keyPart ∧
    t.hostPart = s.hostPart ∧ t.mapPart = s.mapPart ∧ t.dataPart = s.dataPart ∧ t.stackPart = s.stackPart ∧ t.cachePart =
    s.cachePart ∧ t.net = s.net ∧ t.reqs = s.reqs ∧ t.heldTxn = s.heldTxn ∧ t.powerPart = s.powerPart ∧ t.load = s.load ∧
    t.svid = s.svid ∧ t.ssid = s.ssid ∧ t.boot = s.boot ∧ t.halves = s.halves ∧ t.lifePart = s.lifePart ∧ t.fatal = s.fatal ∧
    t.build = s.build ∧ t.pending = s.pending ∧ SameRegs [.act, .cfg, .err, .pwr, .rme, .trace, .vz] s t) ∧
  (∀ (s : State) (w : World), Answers (.provision w) s fun t =>
    { t with out := s.out, errLog := s.errLog, freeCount := s.freeCount, lc := s.lc, regs := s.regs, trace := s.trace } = s ∧
    SameRegs [.cfg, .err, .trace] s t) ∧
  (∀ (s : State) (w : World), Answers (.deploy w) s fun t =>
    { t with out := s.out, errLog := s.errLog, freeCount := s.freeCount, lc := s.lc, regs := s.regs, trace := s.trace } = s ∧
    SameRegs [.cfg, .err, .trace] s t) ∧
  (∀ (s : State) (w : World), Answers (.diag w) s fun t =>
    { t with out := s.out, errLog := s.errLog, freeCount := s.freeCount, lc := s.lc, regs := s.regs, trace := s.trace } = s ∧
    SameRegs [.cfg, .err, .trace] s t) ∧
  (∀ (s : State) (w : World), Answers (.undiag w) s fun t =>
    { t with out := s.out, errLog := s.errLog, freeCount := s.freeCount, lc := s.lc, regs := s.regs, trace := s.trace } = s ∧
    SameRegs [.cfg, .err, .trace] s t) ∧
  (∀ (s : State) (w : World), Answers (.retire w) s fun t =>
    { t with out := s.out, errLog := s.errLog, freeCount := s.freeCount, lc := s.lc, regs := s.regs, trace := s.trace } = s ∧
    SameRegs [.cfg, .err, .trace] s t) ∧
  (∀ (s : State) (w : World), Answers (.diagMode w) s fun t =>
    { t with out := s.out, errLog := s.errLog, freeCount := s.freeCount, lc := s.lc, regs := s.regs, trace := s.trace } = s ∧
    SameRegs [.cfg, .err, .trace] s t) ∧
  (∀ (s : State) (w : World), Answers (.storeRec w) s fun t =>
    { t with out := s.out, errLog := s.errLog, freeCount := s.freeCount, lc := s.lc, regs := s.regs, trace := s.trace } = s ∧
    SameRegs [.cfg, .err, .trace] s t) ∧
  (∀ (s : State) (op : Fin 16) (w : World), Answers (.lcCmdReserved op w) s fun t =>
    { t with out := s.out, errLog := s.errLog, freeCount := s.freeCount, lc := s.lc, regs := s.regs, trace := s.trace } = s ∧
    SameRegs [.cfg, .err, .trace] s t) ∧
  (∀ (s : State) (unit : Fin 64) (w : World), Answers (.fuse unit w) s fun t =>
    { t with out := s.out, errLog := s.errLog, freeCount := s.freeCount, regs := s.regs, st := s.st, trace := s.trace } = s ∧
    SameRegs [.err, .stest, .trace] s t) ∧
  (∀ (s : State) (unit : Fin 64) (w : World), Answers (.clearSoft unit w) s fun t =>
    { t with out := s.out, errLog := s.errLog, freeCount := s.freeCount, mram := s.mram, regs := s.regs, st := s.st, trace := s.trace }
    = s ∧ SameRegs [.err, .stest, .trace] s t) ∧
  (∀ (s : State) (op : Fin 16) (w : World), Answers (.stCmdReserved op w) s fun t =>
    { t with out := s.out, errLog := s.errLog, freeCount := s.freeCount, regs := s.regs, trace := s.trace } = s ∧ SameRegs
    [.err, .stest, .trace] s t) ∧
  (∀ (s : State) (cause : Fin 256) (u : UnitId) (addr : BitVec 52) (info : BitVec 64), Answers (.packageFatal cause u addr
    info) s fun t =>
    { t with out := s.out, fatal := s.fatal, freeCount := s.freeCount, mram := s.mram, regs := s.regs, sluices := s.sluices, trace := s.trace }
    = s ∧ SameRegs [unitKind u, .act, .err, .keep, .trace] s t) ∧
  (∀ (s : State) (w : World), Answers (.force w) s fun t =>
    { t with out := s.out, errLog := s.errLog, fatal := s.fatal, freeCount := s.freeCount, mram := s.mram, regs := s.regs, sluices := s.sluices, trace := s.trace }
    = s ∧ SameRegs [.act, .err, .keep, .trace] s t) ∧
  (∀ (s : State) (hart : Fin 256) (lost : Bool) (own : Own) (level : Fin 8) (addr : BitVec 52), Answers (.asyncMachineCheck
    hart lost own level addr) s fun t => t.lanes = s.lanes ∧ t.chans = s.chans ∧ t.servos = s.servos ∧ t.furrow = s.furrow ∧
    t.dies = s.dies ∧ t.stripes = s.stripes ∧ t.keyPart = s.keyPart ∧ t.hostPart = s.hostPart ∧ t.mapPart = s.mapPart ∧ t.dram
    = s.dram ∧ t.poison = s.poison ∧ t.lost = s.lost ∧ t.fresh = s.fresh ∧ t.flips = s.flips ∧ t.stackPart = s.stackPart ∧
    t.cachePart = s.cachePart ∧ t.fabricPart = s.fabricPart ∧ t.powerPart = s.powerPart ∧ t.bootPart = s.bootPart ∧ t.lifePart
    = s.lifePart ∧ t.build = s.build ∧ t.pending = s.pending ∧ SameRegs [.act, .core, .err, .keep, .trace] s t) ∧
  (∀ (s : State) (hart : Fin 256) (w : World), Answers (.coreMceRelease hart w) s fun t =>
    { t with out := s.out, errLog := s.errLog, freeCount := s.freeCount, harts := s.harts, regs := s.regs, trace := s.trace } =
    s ∧ SameRegs [.core, .err, .trace] s t) ∧
  (∀ (s : State) (freeze : Bool), Answers (.pmuFreeze freeze) s fun t => t.diskPart = s.diskPart ∧ t.keyPart = s.keyPart ∧
    t.ports = s.ports ∧ t.xrings = s.xrings ∧ t.hg = s.hg ∧ t.mbHeld = s.mbHeld ∧ t.mbTmo = s.mbTmo ∧ t.mapPart = s.mapPart ∧
    t.dataPart = s.dataPart ∧ t.stackPart = s.stackPart ∧ t.cachePart = s.cachePart ∧ t.fabricPart = s.fabricPart ∧ t.powerPart
    = s.powerPart ∧ t.bootPart = s.bootPart ∧ t.lifePart = s.lifePart ∧ t.errLog = s.errLog ∧ t.fatal = s.fatal ∧ t.harts =
    s.harts ∧ t.build = s.build ∧ SameRegs [.fn, .headgate, .pcie, .pmu, .trace] s t) ∧
  (∀ (s : State), Answers (.pmuClear) s fun t => SameButRegs s t ∧ SameRegs [.pmu] s t) ∧
  (∀ (s : State) (n : Fin 16) (v : BitVec 32) (events : Fin 16), Answers (.counterWrite n v events) s fun t => SameButRegs s t
    ∧ SameRegs [.pmu] s t) ∧
  (∀ (s : State) (v : BitVec 32), Answers (.trcMark v) s fun t => { t with out := s.out, regs := s.regs, trace := s.trace } = s
    ∧ SameRegs [.trace] s t) ∧
  (∀ (s : State) (k : Fin 8) (temp : BitVec 8), Answers (.stackHot k temp) s fun t => SameButRegs s t ∧ SameRegs [.hub, .mc,
    .therm, .tile] s t) ∧
  (∀ (s : State), Answers (.presenceRelease) s fun t => { t with out := s.out, presence := s.presence, regs := s.regs } = s ∧
    SameRegs [.cfg] s t) ∧
  (∀ (s : State), Answers (.sealClose) s fun t => SameButRegs s t ∧ SameRegs [.cfg] s t) ∧
  (∀ (s : State) (n : Fin 45), Answers (.halfIdleExit n) s fun t => SameButRegs s t ∧ SameRegs [.vz] s t) ∧
  (∀ (s : State) (k : Fin 2), Answers (.l1Exit k) s fun t => SameButRegs s t ∧ SameRegs [.pcie] s t) ∧
  (∀ (s : State) (f : Fin 1026), Answers (.functionResetDone f) s fun t => { t with out := s.out, fns := s.fns } = s)

/-- Frames of the commands that reach far (spec/04_servo_engines.md: Registers, spec/06_stripes_and_keys.md: Registers,
spec/11_caches_and_coherence.md: Order at the home, spec/13_fabric_and_valiez_links.md: Losing a link,
spec/16_configuration_and_lifecycle.md: Retiring and adding tiles at run time). In every state the command completes, and
what it may change is listed: every other field of the state, with the bytes of DRAM and MRAM, harts and cached lines those
fields hold, is as it was, and so is every register but those of the page kinds listed. Commands that read or write memory
through a home, that deliver messages between agents and homes, that lose a lane, a link or a function with all that hangs
on it, or that change the power state. -/
def Obligations.FramesWide : Prop :=
  (∀ (s : State) (a : Fin 96), Answers (.laneDisable a) s fun t => t.furrow = s.furrow ∧ t.stripes = s.stripes ∧ t.hostPart =
    s.hostPart ∧ t.mapPart = s.mapPart ∧ t.lost = s.lost ∧ t.fill = s.fill ∧ t.rme = s.rme ∧ t.links = s.links ∧ t.powerPart =
    s.powerPart ∧ t.bootPart = s.bootPart ∧ t.life = s.life ∧ t.recSeg = s.recSeg ∧ t.lc = s.lc ∧ t.stayRecovery =
    s.stayRecovery ∧ t.recoveries = s.recoveries ∧ t.dbg = s.dbg ∧ t.build = s.build ∧ t.pending = s.pending ∧ SameRegs [.act,
    .core, .err, .headgate, .home, .hub, .keep, .key, .mc, .die, .pcie, .pmu, .rme, .stripe, .sweep, .tile, .trace, .vz, .xbar]
    s t) ∧
  (∀ (s : State) (a : Fin 96), Answers (.retrain a) s fun t => t.furrow = s.furrow ∧ t.stripes = s.stripes ∧ t.hostPart =
    s.hostPart ∧ t.mapPart = s.mapPart ∧ t.lost = s.lost ∧ t.fill = s.fill ∧ t.rme = s.rme ∧ t.links = s.links ∧ t.powerPart =
    s.powerPart ∧ t.bootPart = s.bootPart ∧ t.life = s.life ∧ t.recSeg = s.recSeg ∧ t.lc = s.lc ∧ t.stayRecovery =
    s.stayRecovery ∧ t.recoveries = s.recoveries ∧ t.dbg = s.dbg ∧ t.build = s.build ∧ t.pending = s.pending ∧ SameRegs [.act,
    .core, .err, .headgate, .home, .hub, .keep, .key, .mc, .die, .pcie, .pmu, .rme, .stripe, .sweep, .tile, .trace, .vz, .xbar]
    s t) ∧
  (∀ (s : State) (a : Fin 96) (f : UplinkFrame), Answers (.uplinkFrame a f) s fun t => t.furrow = s.furrow ∧ t.stripes =
    s.stripes ∧ t.hostPart = s.hostPart ∧ t.mapPart = s.mapPart ∧ t.lost = s.lost ∧ t.fill = s.fill ∧ t.rme = s.rme ∧ t.links =
    s.links ∧ t.powerPart = s.powerPart ∧ t.bootPart = s.bootPart ∧ t.life = s.life ∧ t.recSeg = s.recSeg ∧ t.lc = s.lc ∧
    t.stayRecovery = s.stayRecovery ∧ t.recoveries = s.recoveries ∧ t.dbg = s.dbg ∧ t.build = s.build ∧ t.pending = s.pending ∧
    SameRegs [.act, .core, .err, .headgate, .home, .hub, .keep, .key, .mc, .die, .pcie, .pmu, .rme, .stripe, .sweep, .tile,
    .trace, .vz, .xbar] s t) ∧
  (∀ (s : State) (a : Fin 96), Answers (.laneDown a) s fun t => t.furrow = s.furrow ∧ t.stripes = s.stripes ∧ t.hostPart =
    s.hostPart ∧ t.mapPart = s.mapPart ∧ t.lost = s.lost ∧ t.fill = s.fill ∧ t.rme = s.rme ∧ t.links = s.links ∧ t.powerPart =
    s.powerPart ∧ t.bootPart = s.bootPart ∧ t.life = s.life ∧ t.recSeg = s.recSeg ∧ t.lc = s.lc ∧ t.stayRecovery =
    s.stayRecovery ∧ t.recoveries = s.recoveries ∧ t.dbg = s.dbg ∧ t.build = s.build ∧ t.pending = s.pending ∧ SameRegs [.act,
    .core, .err, .headgate, .home, .hub, .keep, .key, .mc, .die, .pcie, .pmu, .rme, .stripe, .sweep, .tile, .trace, .vz, .xbar]
    s t) ∧
  (∀ (s : State) (a : Fin 96) (tag : Nat) (stat : Nat), Answers (.sidebandAcknowledgement a tag stat) s fun t => t.chans =
    s.chans ∧ t.furrow = s.furrow ∧ t.stripes = s.stripes ∧ t.hostPart = s.hostPart ∧ t.mapPart = s.mapPart ∧ t.lost = s.lost ∧
    t.fill = s.fill ∧ t.rme = s.rme ∧ t.links = s.links ∧ t.powerPart = s.powerPart ∧ t.bootPart = s.bootPart ∧ t.life = s.life
    ∧ t.recSeg = s.recSeg ∧ t.lc = s.lc ∧ t.stayRecovery = s.stayRecovery ∧ t.recoveries = s.recoveries ∧ t.dbg = s.dbg ∧
    t.build = s.build ∧ t.pending = s.pending ∧ SameRegs [.act, .core, .err, .headgate, .home, .hub, .keep, .key, .mc, .die,
    .pcie, .pmu, .rme, .stripe, .sweep, .tile, .trace, .vz, .xbar] s t) ∧
  (∀ (s : State) (a : Fin 96) (tag : Nat), Answers (.sbResendTimer a tag) s fun t => t.chans = s.chans ∧ t.furrow = s.furrow ∧
    t.stripes = s.stripes ∧ t.hostPart = s.hostPart ∧ t.mapPart = s.mapPart ∧ t.lost = s.lost ∧ t.fill = s.fill ∧ t.rme = s.rme
    ∧ t.links = s.links ∧ t.powerPart = s.powerPart ∧ t.bootPart = s.bootPart ∧ t.life = s.life ∧ t.recSeg = s.recSeg ∧ t.lc =
    s.lc ∧ t.stayRecovery = s.stayRecovery ∧ t.recoveries = s.recoveries ∧ t.dbg = s.dbg ∧ t.build = s.build ∧ t.pending =
    s.pending ∧ SameRegs [.act, .core, .err, .headgate, .home, .hub, .keep, .key, .mc, .die, .pcie, .pmu, .rme, .stripe,
    .sweep, .tile, .trace, .vz, .xbar] s t) ∧
  (∀ (s : State) (a : Fin 96) (m : SbIn), Answers (.parkStat a m) s fun t => t.furrow = s.furrow ∧ t.stripes = s.stripes ∧
    t.hostPart = s.hostPart ∧ t.mapPart = s.mapPart ∧ t.lost = s.lost ∧ t.fill = s.fill ∧ t.rme = s.rme ∧ t.links = s.links ∧
    t.powerPart = s.powerPart ∧ t.bootPart = s.bootPart ∧ t.life = s.life ∧ t.recSeg = s.recSeg ∧ t.lc = s.lc ∧ t.stayRecovery
    = s.stayRecovery ∧ t.recoveries = s.recoveries ∧ t.dbg = s.dbg ∧ t.build = s.build ∧ t.pending = s.pending ∧ SameRegs
    [.act, .core, .err, .headgate, .home, .hub, .keep, .key, .mc, .die, .pcie, .pmu, .rme, .stripe, .sweep, .tile, .trace, .vz,
    .xbar] s t) ∧
  (∀ (s : State) (a : Fin 96) (m : SbIn), Answers (.writeAbort a m) s fun t => t.chans = s.chans ∧ t.servos = s.servos ∧
    t.furrow = s.furrow ∧ t.stripes = s.stripes ∧ t.hostPart = s.hostPart ∧ t.mapPart = s.mapPart ∧ t.lost = s.lost ∧ t.fill =
    s.fill ∧ t.rme = s.rme ∧ t.links = s.links ∧ t.powerPart = s.powerPart ∧ t.bootPart = s.bootPart ∧ t.life = s.life ∧
    t.recSeg = s.recSeg ∧ t.lc = s.lc ∧ t.stayRecovery = s.stayRecovery ∧ t.recoveries = s.recoveries ∧ t.dbg = s.dbg ∧ t.build
    = s.build ∧ t.pending = s.pending ∧ SameRegs [.act, .core, .err, .headgate, .home, .hub, .keep, .key, .mc, .die, .pcie,
    .pmu, .rme, .stripe, .sweep, .tile, .trace, .vz, .xbar] s t) ∧
  (∀ (s : State) (a : Fin 96) (m : SbIn), Answers (.shock a m) s fun t => t.chans = s.chans ∧ t.furrow = s.furrow ∧ t.stripes =
    s.stripes ∧ t.hostPart = s.hostPart ∧ t.mapPart = s.mapPart ∧ t.lost = s.lost ∧ t.fill = s.fill ∧ t.rme = s.rme ∧ t.links =
    s.links ∧ t.powerPart = s.powerPart ∧ t.bootPart = s.bootPart ∧ t.life = s.life ∧ t.recSeg = s.recSeg ∧ t.lc = s.lc ∧
    t.stayRecovery = s.stayRecovery ∧ t.recoveries = s.recoveries ∧ t.dbg = s.dbg ∧ t.build = s.build ∧ t.pending = s.pending ∧
    SameRegs [.act, .core, .err, .headgate, .home, .hub, .keep, .key, .mc, .die, .pcie, .pmu, .rme, .stripe, .sweep, .tile,
    .trace, .vz, .xbar] s t) ∧
  (∀ (s : State) (a : Fin 96), Answers (.chDisable a) s fun t => t.servos = s.servos ∧ t.furrow = s.furrow ∧ t.stripes =
    s.stripes ∧ t.keyPart = s.keyPart ∧ t.hostPart = s.hostPart ∧ t.mapPart = s.mapPart ∧ t.lost = s.lost ∧ t.fill = s.fill ∧
    t.rme = s.rme ∧ t.links = s.links ∧ t.powerPart = s.powerPart ∧ t.bootPart = s.bootPart ∧ t.life = s.life ∧ t.recSeg =
    s.recSeg ∧ t.lc = s.lc ∧ t.stayRecovery = s.stayRecovery ∧ t.recoveries = s.recoveries ∧ t.dbg = s.dbg ∧ t.build = s.build
    ∧ t.pending = s.pending ∧ SameRegs [.act, .core, .err, .headgate, .home, .hub, .keep, .key, .mc, .die, .pcie, .pmu, .rme,
    .stripe, .sweep, .tile, .trace, .vz, .xbar] s t) ∧
  (∀ (s : State) (a : Fin 96), Answers (.readEntryFetch a) s fun t => t.servos = s.servos ∧ t.furrow = s.furrow ∧ t.stripes =
    s.stripes ∧ t.keyPart = s.keyPart ∧ t.hostPart = s.hostPart ∧ t.mapPart = s.mapPart ∧ t.lost = s.lost ∧ t.fill = s.fill ∧
    t.rme = s.rme ∧ t.links = s.links ∧ t.powerPart = s.powerPart ∧ t.bootPart = s.bootPart ∧ t.life = s.life ∧ t.recSeg =
    s.recSeg ∧ t.lc = s.lc ∧ t.stayRecovery = s.stayRecovery ∧ t.recoveries = s.recoveries ∧ t.dbg = s.dbg ∧ t.build = s.build
    ∧ t.pending = s.pending ∧ SameRegs [.act, .core, .err, .headgate, .home, .hub, .keep, .key, .mc, .die, .pcie, .pmu, .rme,
    .stripe, .sweep, .tile, .trace, .vz, .xbar] s t) ∧
  (∀ (s : State) (a : Fin 96), Answers (.read a) s fun t => t.servos = s.servos ∧ t.furrow = s.furrow ∧ t.stripes = s.stripes ∧
    t.keyPart = s.keyPart ∧ t.hostPart = s.hostPart ∧ t.mapPart = s.mapPart ∧ t.lost = s.lost ∧ t.fill = s.fill ∧ t.rme = s.rme
    ∧ t.links = s.links ∧ t.powerPart = s.powerPart ∧ t.bootPart = s.bootPart ∧ t.life = s.life ∧ t.recSeg = s.recSeg ∧ t.lc =
    s.lc ∧ t.stayRecovery = s.stayRecovery ∧ t.recoveries = s.recoveries ∧ t.dbg = s.dbg ∧ t.build = s.build ∧ t.pending =
    s.pending ∧ SameRegs [.act, .core, .err, .headgate, .home, .hub, .keep, .key, .mc, .die, .pcie, .pmu, .rme, .stripe,
    .sweep, .tile, .trace, .vz, .xbar] s t) ∧
  (∀ (s : State) (a : Fin 96), Answers (.readSoft a) s fun t => t.servos = s.servos ∧ t.furrow = s.furrow ∧ t.stripes =
    s.stripes ∧ t.keyPart = s.keyPart ∧ t.hostPart = s.hostPart ∧ t.mapPart = s.mapPart ∧ t.lost = s.lost ∧ t.fill = s.fill ∧
    t.rme = s.rme ∧ t.links = s.links ∧ t.powerPart = s.powerPart ∧ t.bootPart = s.bootPart ∧ t.life = s.life ∧ t.recSeg =
    s.recSeg ∧ t.lc = s.lc ∧ t.stayRecovery = s.stayRecovery ∧ t.recoveries = s.recoveries ∧ t.dbg = s.dbg ∧ t.build = s.build
    ∧ t.pending = s.pending ∧ SameRegs [.act, .core, .err, .headgate, .home, .hub, .keep, .key, .mc, .die, .pcie, .pmu, .rme,
    .stripe, .sweep, .tile, .trace, .vz, .xbar] s t) ∧
  (∀ (s : State) (a : Fin 96), Answers (.decodeMem a) s fun t => t.servos = s.servos ∧ t.furrow = s.furrow ∧ t.stripes =
    s.stripes ∧ t.keyPart = s.keyPart ∧ t.hostPart = s.hostPart ∧ t.mapPart = s.mapPart ∧ t.lost = s.lost ∧ t.fill = s.fill ∧
    t.rme = s.rme ∧ t.links = s.links ∧ t.powerPart = s.powerPart ∧ t.bootPart = s.bootPart ∧ t.life = s.life ∧ t.recSeg =
    s.recSeg ∧ t.lc = s.lc ∧ t.stayRecovery = s.stayRecovery ∧ t.recoveries = s.recoveries ∧ t.dbg = s.dbg ∧ t.build = s.build
    ∧ t.pending = s.pending ∧ SameRegs [.act, .core, .err, .headgate, .home, .hub, .keep, .key, .mc, .die, .pcie, .pmu, .rme,
    .stripe, .sweep, .tile, .trace, .vz, .xbar] s t) ∧
  (∀ (s : State) (a : Fin 96), Answers (.scan a) s fun t => t.servos = s.servos ∧ t.furrow = s.furrow ∧ t.stripes = s.stripes ∧
    t.keyPart = s.keyPart ∧ t.hostPart = s.hostPart ∧ t.mapPart = s.mapPart ∧ t.lost = s.lost ∧ t.fill = s.fill ∧ t.rme = s.rme
    ∧ t.links = s.links ∧ t.powerPart = s.powerPart ∧ t.bootPart = s.bootPart ∧ t.life = s.life ∧ t.recSeg = s.recSeg ∧ t.lc =
    s.lc ∧ t.stayRecovery = s.stayRecovery ∧ t.recoveries = s.recoveries ∧ t.dbg = s.dbg ∧ t.build = s.build ∧ t.pending =
    s.pending ∧ SameRegs [.act, .core, .err, .headgate, .home, .hub, .keep, .key, .mc, .die, .pcie, .pmu, .rme, .stripe,
    .sweep, .tile, .trace, .vz, .xbar] s t) ∧
  (∀ (s : State) (a : Fin 96) (idx : Nat), Answers (.readPassStart a idx) s fun t => t.servos = s.servos ∧ t.furrow = s.furrow
    ∧ t.stripes = s.stripes ∧ t.keyPart = s.keyPart ∧ t.hostPart = s.hostPart ∧ t.mapPart = s.mapPart ∧ t.lost = s.lost ∧
    t.fill = s.fill ∧ t.rme = s.rme ∧ t.links = s.links ∧ t.powerPart = s.powerPart ∧ t.bootPart = s.bootPart ∧ t.life = s.life
    ∧ t.recSeg = s.recSeg ∧ t.lc = s.lc ∧ t.stayRecovery = s.stayRecovery ∧ t.recoveries = s.recoveries ∧ t.dbg = s.dbg ∧
    t.build = s.build ∧ t.pending = s.pending ∧ SameRegs [.act, .core, .err, .headgate, .home, .hub, .keep, .key, .mc, .die,
    .pcie, .pmu, .rme, .stripe, .sweep, .tile, .trace, .vz, .xbar] s t) ∧
  (∀ (s : State) (a : Fin 96), Answers (.syncWindowExpiry a) s fun t => t.servos = s.servos ∧ t.furrow = s.furrow ∧ t.stripes =
    s.stripes ∧ t.keyPart = s.keyPart ∧ t.hostPart = s.hostPart ∧ t.mapPart = s.mapPart ∧ t.lost = s.lost ∧ t.fill = s.fill ∧
    t.rme = s.rme ∧ t.links = s.links ∧ t.powerPart = s.powerPart ∧ t.bootPart = s.bootPart ∧ t.life = s.life ∧ t.recSeg =
    s.recSeg ∧ t.lc = s.lc ∧ t.stayRecovery = s.stayRecovery ∧ t.dbg = s.dbg ∧ t.build = s.build ∧ t.pending = s.pending ∧
    SameRegs [.act, .core, .err, .headgate, .home, .hub, .keep, .key, .mc, .die, .pcie, .pmu, .rme, .stripe, .sweep, .tile,
    .trace, .vz, .xbar] s t) ∧
  (∀ (s : State) (a : Fin 96) (obs : PassObs), Answers (.readPassEnd a obs) s fun t => t.servos = s.servos ∧ t.furrow =
    s.furrow ∧ t.stripes = s.stripes ∧ t.keyPart = s.keyPart ∧ t.hostPart = s.hostPart ∧ t.mapPart = s.mapPart ∧ t.lost =
    s.lost ∧ t.fill = s.fill ∧ t.rme = s.rme ∧ t.links = s.links ∧ t.powerPart = s.powerPart ∧ t.bootPart = s.bootPart ∧ t.life
    = s.life ∧ t.recSeg = s.recSeg ∧ t.lc = s.lc ∧ t.stayRecovery = s.stayRecovery ∧ t.dbg = s.dbg ∧ t.build = s.build ∧
    t.pending = s.pending ∧ SameRegs [.act, .core, .err, .headgate, .home, .hub, .keep, .key, .mc, .die, .pcie, .pmu, .rme,
    .stripe, .sweep, .tile, .trace, .vz, .xbar] s t) ∧
  (∀ (s : State) (m : Fin 4) (d : Fin 4) (obs : DeepObs), Answers (.deepDecodeDone m d obs) s fun t => t.servos = s.servos ∧
    t.furrow = s.furrow ∧ t.stripes = s.stripes ∧ t.keyPart = s.keyPart ∧ t.hostPart = s.hostPart ∧ t.mapPart = s.mapPart ∧
    t.lost = s.lost ∧ t.fill = s.fill ∧ t.rme = s.rme ∧ t.links = s.links ∧ t.powerPart = s.powerPart ∧ t.bootPart = s.bootPart
    ∧ t.life = s.life ∧ t.recSeg = s.recSeg ∧ t.lc = s.lc ∧ t.stayRecovery = s.stayRecovery ∧ t.dbg = s.dbg ∧ t.build = s.build
    ∧ t.pending = s.pending ∧ SameRegs [.act, .core, .err, .headgate, .home, .hub, .keep, .key, .mc, .die, .pcie, .pmu, .rme,
    .stripe, .sweep, .tile, .trace, .vz, .xbar] s t) ∧
  (∀ (s : State) (a : Fin 96) (obs : WedgeObs), Answers (.servoWedge a obs) s fun t => t.furrow = s.furrow ∧ t.stripes =
    s.stripes ∧ t.hostPart = s.hostPart ∧ t.mapPart = s.mapPart ∧ t.lost = s.lost ∧ t.fill = s.fill ∧ t.rme = s.rme ∧ t.links =
    s.links ∧ t.powerPart = s.powerPart ∧ t.bootPart = s.bootPart ∧ t.life = s.life ∧ t.recSeg = s.recSeg ∧ t.lc = s.lc ∧
    t.stayRecovery = s.stayRecovery ∧ t.recoveries = s.recoveries ∧ t.dbg = s.dbg ∧ t.build = s.build ∧ t.pending = s.pending ∧
    SameRegs [.act, .core, .err, .headgate, .home, .hub, .keep, .key, .mc, .die, .pcie, .pmu, .rme, .stripe, .sweep, .tile,
    .trace, .vz, .xbar] s t) ∧
  (∀ (s : State) (a : Fin 96), Answers (.acquireTimeout a) s fun t => t.furrow = s.furrow ∧ t.stripes = s.stripes ∧ t.hostPart
    = s.hostPart ∧ t.mapPart = s.mapPart ∧ t.lost = s.lost ∧ t.fill = s.fill ∧ t.rme = s.rme ∧ t.links = s.links ∧ t.powerPart
    = s.powerPart ∧ t.bootPart = s.bootPart ∧ t.life = s.life ∧ t.recSeg = s.recSeg ∧ t.lc = s.lc ∧ t.stayRecovery =
    s.stayRecovery ∧ t.recoveries = s.recoveries ∧ t.dbg = s.dbg ∧ t.build = s.build ∧ t.pending = s.pending ∧ SameRegs [.act,
    .core, .err, .headgate, .home, .hub, .keep, .key, .mc, .die, .pcie, .pmu, .rme, .stripe, .sweep, .tile, .trace, .vz, .xbar]
    s t) ∧
  (∀ (s : State) (a : Fin 96), Answers (.servoLost a) s fun t => t.furrow = s.furrow ∧ t.stripes = s.stripes ∧ t.hostPart =
    s.hostPart ∧ t.mapPart = s.mapPart ∧ t.lost = s.lost ∧ t.fill = s.fill ∧ t.rme = s.rme ∧ t.links = s.links ∧ t.powerPart =
    s.powerPart ∧ t.bootPart = s.bootPart ∧ t.life = s.life ∧ t.recSeg = s.recSeg ∧ t.lc = s.lc ∧ t.stayRecovery =
    s.stayRecovery ∧ t.recoveries = s.recoveries ∧ t.dbg = s.dbg ∧ t.build = s.build ∧ t.pending = s.pending ∧ SameRegs [.act,
    .core, .err, .headgate, .home, .hub, .keep, .key, .mc, .die, .pcie, .pmu, .rme, .stripe, .sweep, .tile, .trace, .vz, .xbar]
    s t) ∧
  (∀ (s : State) (a : Fin 96), Answers (.svDisable a) s fun t => t.furrow = s.furrow ∧ t.stripes = s.stripes ∧ t.hostPart =
    s.hostPart ∧ t.mapPart = s.mapPart ∧ t.lost = s.lost ∧ t.fill = s.fill ∧ t.rme = s.rme ∧ t.links = s.links ∧ t.powerPart =
    s.powerPart ∧ t.bootPart = s.bootPart ∧ t.life = s.life ∧ t.recSeg = s.recSeg ∧ t.lc = s.lc ∧ t.stayRecovery =
    s.stayRecovery ∧ t.recoveries = s.recoveries ∧ t.dbg = s.dbg ∧ t.build = s.build ∧ t.pending = s.pending ∧ SameRegs [.act,
    .core, .err, .headgate, .home, .hub, .keep, .key, .mc, .die, .pcie, .pmu, .rme, .stripe, .sweep, .tile, .trace, .vz, .xbar]
    s t) ∧
  (∀ (s : State) (a : Fin 96), Answers (.unload a) s fun t => t.furrow = s.furrow ∧ t.stripes = s.stripes ∧ t.hostPart =
    s.hostPart ∧ t.mapPart = s.mapPart ∧ t.lost = s.lost ∧ t.fill = s.fill ∧ t.rme = s.rme ∧ t.links = s.links ∧ t.powerPart =
    s.powerPart ∧ t.bootPart = s.bootPart ∧ t.life = s.life ∧ t.recSeg = s.recSeg ∧ t.lc = s.lc ∧ t.stayRecovery =
    s.stayRecovery ∧ t.recoveries = s.recoveries ∧ t.dbg = s.dbg ∧ t.build = s.build ∧ t.pending = s.pending ∧ SameRegs [.act,
    .core, .err, .headgate, .home, .hub, .keep, .key, .mc, .die, .pcie, .pmu, .rme, .stripe, .sweep, .tile, .trace, .vz, .xbar]
    s t) ∧
  (∀ (s : State) (a : Fin 96), Answers (.spinDown a) s fun t => t.chans = s.chans ∧ t.furrow = s.furrow ∧ t.stripes = s.stripes
    ∧ t.keyPart = s.keyPart ∧ t.hostPart = s.hostPart ∧ t.mapPart = s.mapPart ∧ t.lost = s.lost ∧ t.fill = s.fill ∧ t.rme =
    s.rme ∧ t.links = s.links ∧ t.powerPart = s.powerPart ∧ t.bootPart = s.bootPart ∧ t.life = s.life ∧ t.recSeg = s.recSeg ∧
    t.lc = s.lc ∧ t.stayRecovery = s.stayRecovery ∧ t.recoveries = s.recoveries ∧ t.dbg = s.dbg ∧ t.build = s.build ∧ t.pending
    = s.pending ∧ SameRegs [.act, .core, .err, .headgate, .home, .hub, .keep, .key, .mc, .die, .pcie, .pmu, .rme, .stripe,
    .sweep, .tile, .trace, .vz, .xbar] s t) ∧
  (∀ (s : State) (a : Fin 96), Answers (.halt a) s fun t => t.furrow = s.furrow ∧ t.stripes = s.stripes ∧ t.hostPart =
    s.hostPart ∧ t.mapPart = s.mapPart ∧ t.lost = s.lost ∧ t.fill = s.fill ∧ t.rme = s.rme ∧ t.links = s.links ∧ t.powerPart =
    s.powerPart ∧ t.bootPart = s.bootPart ∧ t.life = s.life ∧ t.recSeg = s.recSeg ∧ t.lc = s.lc ∧ t.stayRecovery =
    s.stayRecovery ∧ t.recoveries = s.recoveries ∧ t.dbg = s.dbg ∧ t.build = s.build ∧ t.pending = s.pending ∧ SameRegs [.act,
    .core, .err, .headgate, .home, .hub, .keep, .key, .mc, .die, .pcie, .pmu, .rme, .stripe, .sweep, .tile, .trace, .vz, .xbar]
    s t) ∧
  (∀ (s : State) (m : Fin 4), Answers (.spinGrant m) s fun t => t.chans = s.chans ∧ t.furrow = s.furrow ∧ t.stripes = s.stripes
    ∧ t.keyPart = s.keyPart ∧ t.hostPart = s.hostPart ∧ t.mapPart = s.mapPart ∧ t.lost = s.lost ∧ t.fill = s.fill ∧ t.rme =
    s.rme ∧ t.links = s.links ∧ t.powerPart = s.powerPart ∧ t.bootPart = s.bootPart ∧ t.life = s.life ∧ t.recSeg = s.recSeg ∧
    t.lc = s.lc ∧ t.stayRecovery = s.stayRecovery ∧ t.recoveries = s.recoveries ∧ t.dbg = s.dbg ∧ t.build = s.build ∧ t.pending
    = s.pending ∧ SameRegs [.act, .core, .err, .headgate, .home, .hub, .keep, .key, .mc, .die, .pcie, .pmu, .rme, .stripe,
    .sweep, .tile, .trace, .vz, .xbar] s t) ∧
  (∀ (s : State) (m : Fin 4) (asm : Fin 12), Answers (.spinTimeout m asm) s fun t => t.chans = s.chans ∧ t.furrow = s.furrow ∧
    t.stripes = s.stripes ∧ t.keys = s.keys ∧ t.hostPart = s.hostPart ∧ t.mapPart = s.mapPart ∧ t.lost = s.lost ∧ t.fill =
    s.fill ∧ t.rme = s.rme ∧ t.links = s.links ∧ t.powerPart = s.powerPart ∧ t.bootPart = s.bootPart ∧ t.life = s.life ∧
    t.recSeg = s.recSeg ∧ t.lc = s.lc ∧ t.stayRecovery = s.stayRecovery ∧ t.recoveries = s.recoveries ∧ t.dbg = s.dbg ∧ t.build
    = s.build ∧ t.pending = s.pending ∧ SameRegs [.act, .core, .err, .headgate, .home, .hub, .keep, .key, .mc, .die, .pcie,
    .pmu, .rme, .stripe, .sweep, .tile, .trace, .vz, .xbar] s t) ∧
  (∀ (s : State) (a : Fin 96), Answers (.slDisable a) s fun t => t.chans = s.chans ∧ t.servos = s.servos ∧ t.furrow = s.furrow
    ∧ t.stripes = s.stripes ∧ t.sweep = s.sweep ∧ t.hostPart = s.hostPart ∧ t.mapPart = s.mapPart ∧ t.lost = s.lost ∧ t.fill =
    s.fill ∧ t.rme = s.rme ∧ t.links = s.links ∧ t.powerPart = s.powerPart ∧ t.bootPart = s.bootPart ∧ t.life = s.life ∧
    t.recSeg = s.recSeg ∧ t.lc = s.lc ∧ t.stayRecovery = s.stayRecovery ∧ t.recoveries = s.recoveries ∧ t.dbg = s.dbg ∧ t.build
    = s.build ∧ t.pending = s.pending ∧ SameRegs [.act, .core, .err, .headgate, .home, .hub, .keep, .key, .mc, .die, .pcie,
    .pmu, .rme, .stripe, .sweep, .tile, .trace, .vz, .xbar] s t) ∧
  (∀ (s : State) (a : Fin 96), Answers (.write a) s fun t => t.chans = s.chans ∧ t.servos = s.servos ∧ t.furrow = s.furrow ∧
    t.stripes = s.stripes ∧ t.sweep = s.sweep ∧ t.hostPart = s.hostPart ∧ t.mapPart = s.mapPart ∧ t.lost = s.lost ∧ t.fill =
    s.fill ∧ t.rme = s.rme ∧ t.links = s.links ∧ t.powerPart = s.powerPart ∧ t.bootPart = s.bootPart ∧ t.life = s.life ∧
    t.recSeg = s.recSeg ∧ t.lc = s.lc ∧ t.stayRecovery = s.stayRecovery ∧ t.recoveries = s.recoveries ∧ t.dbg = s.dbg ∧ t.build
    = s.build ∧ t.pending = s.pending ∧ SameRegs [.act, .core, .err, .headgate, .home, .hub, .keep, .key, .mc, .die, .pcie,
    .pmu, .rme, .stripe, .sweep, .tile, .trace, .vz, .xbar] s t) ∧
  (∀ (s : State) (a : Fin 96), Answers (.fillStart a) s fun t => t.chans = s.chans ∧ t.servos = s.servos ∧ t.stripes =
    s.stripes ∧ t.sweep = s.sweep ∧ t.hostPart = s.hostPart ∧ t.mapPart = s.mapPart ∧ t.lost = s.lost ∧ t.fill = s.fill ∧ t.rme
    = s.rme ∧ t.links = s.links ∧ t.powerPart = s.powerPart ∧ t.bootPart = s.bootPart ∧ t.life = s.life ∧ t.recSeg = s.recSeg ∧
    t.lc = s.lc ∧ t.stayRecovery = s.stayRecovery ∧ t.recoveries = s.recoveries ∧ t.dbg = s.dbg ∧ t.build = s.build ∧ t.pending
    = s.pending ∧ SameRegs [.act, .core, .err, .headgate, .home, .hub, .keep, .key, .mc, .die, .pcie, .pmu, .rme, .stripe,
    .sweep, .tile, .trace, .vz, .xbar] s t) ∧
  (∀ (s : State) (m : Fin 4), Answers (.journalRecordAck m) s fun t => t.chans = s.chans ∧ t.servos = s.servos ∧ t.furrow =
    s.furrow ∧ t.stripes = s.stripes ∧ t.keyPart = s.keyPart ∧ t.hostPart = s.hostPart ∧ t.mapPart = s.mapPart ∧ t.lost =
    s.lost ∧ t.fill = s.fill ∧ t.rme = s.rme ∧ t.links = s.links ∧ t.powerPart = s.powerPart ∧ t.bootPart = s.bootPart ∧ t.life
    = s.life ∧ t.recSeg = s.recSeg ∧ t.lc = s.lc ∧ t.stayRecovery = s.stayRecovery ∧ t.recoveries = s.recoveries ∧ t.dbg =
    s.dbg ∧ t.build = s.build ∧ t.pending = s.pending ∧ SameRegs [.act, .core, .err, .headgate, .home, .hub, .keep, .key, .mc,
    .die, .pcie, .pmu, .rme, .stripe, .sweep, .tile, .trace, .vz, .xbar] s t) ∧
  (∀ (s : State) (a : Fin 96), Answers (.burstStart a) s fun t => t.chans = s.chans ∧ t.servos = s.servos ∧ t.furrow = s.furrow
    ∧ t.dies = s.dies ∧ t.stripes = s.stripes ∧ t.keys = s.keys ∧ t.hostPart = s.hostPart ∧ t.mapPart = s.mapPart ∧ t.lost =
    s.lost ∧ t.fill = s.fill ∧ t.rme = s.rme ∧ t.links = s.links ∧ t.powerPart = s.powerPart ∧ t.bootPart = s.bootPart ∧ t.life
    = s.life ∧ t.recSeg = s.recSeg ∧ t.lc = s.lc ∧ t.stayRecovery = s.stayRecovery ∧ t.recoveries = s.recoveries ∧ t.dbg =
    s.dbg ∧ t.build = s.build ∧ t.pending = s.pending ∧ SameRegs [.act, .core, .err, .headgate, .home, .hub, .keep, .key, .mc,
    .die, .pcie, .pmu, .rme, .stripe, .sweep, .tile, .trace, .vz, .xbar] s t) ∧
  (∀ (s : State) (a : Fin 96) (obs : VerifyObs), Answers (.verifyResult a obs) s fun t => t.chans = s.chans ∧ t.servos =
    s.servos ∧ t.furrow = s.furrow ∧ t.stripes = s.stripes ∧ t.sweep = s.sweep ∧ t.hostPart = s.hostPart ∧ t.mapPart =
    s.mapPart ∧ t.lost = s.lost ∧ t.fill = s.fill ∧ t.rme = s.rme ∧ t.links = s.links ∧ t.powerPart = s.powerPart ∧ t.bootPart
    = s.bootPart ∧ t.life = s.life ∧ t.recSeg = s.recSeg ∧ t.lc = s.lc ∧ t.stayRecovery = s.stayRecovery ∧ t.recoveries =
    s.recoveries ∧ t.dbg = s.dbg ∧ t.build = s.build ∧ t.pending = s.pending ∧ SameRegs [.act, .core, .err, .headgate, .home,
    .hub, .keep, .key, .mc, .die, .pcie, .pmu, .rme, .stripe, .sweep, .tile, .trace, .vz, .xbar] s t) ∧
  (∀ (s : State) (a : Fin 96) (tag : Fin 65536), Answers (.slCancel a tag) s fun t => t.chans = s.chans ∧ t.servos = s.servos ∧
    t.furrow = s.furrow ∧ t.stripes = s.stripes ∧ t.sweep = s.sweep ∧ t.hostPart = s.hostPart ∧ t.mapPart = s.mapPart ∧ t.lost
    = s.lost ∧ t.fill = s.fill ∧ t.rme = s.rme ∧ t.links = s.links ∧ t.powerPart = s.powerPart ∧ t.bootPart = s.bootPart ∧
    t.life = s.life ∧ t.recSeg = s.recSeg ∧ t.lc = s.lc ∧ t.stayRecovery = s.stayRecovery ∧ t.recoveries = s.recoveries ∧ t.dbg
    = s.dbg ∧ t.build = s.build ∧ t.pending = s.pending ∧ SameRegs [.act, .core, .err, .headgate, .home, .hub, .keep, .key,
    .mc, .die, .pcie, .pmu, .rme, .stripe, .sweep, .tile, .trace, .vz, .xbar] s t) ∧
  (∀ (s : State) (k : Fin 4), Answers (.encode k) s fun t => t.chans = s.chans ∧ t.servos = s.servos ∧ t.furrow = s.furrow ∧
    t.dies = s.dies ∧ t.keyPart = s.keyPart ∧ t.hostPart = s.hostPart ∧ t.mapPart = s.mapPart ∧ t.fill = s.fill ∧ t.rme = s.rme
    ∧ t.links = s.links ∧ t.powerPart = s.powerPart ∧ t.bootPart = s.bootPart ∧ t.life = s.life ∧ t.recSeg = s.recSeg ∧ t.lc =
    s.lc ∧ t.stayRecovery = s.stayRecovery ∧ t.recoveries = s.recoveries ∧ t.dbg = s.dbg ∧ t.build = s.build ∧ t.pending =
    s.pending ∧ SameRegs [.act, .core, .err, .headgate, .home, .hub, .keep, .key, .mc, .die, .pcie, .pmu, .rme, .stripe,
    .sweep, .tile, .trace, .vz, .xbar] s t) ∧
  (∀ (s : State) (k : Fin 4), Answers (.rebuild k) s fun t => t.chans = s.chans ∧ t.servos = s.servos ∧ t.furrow = s.furrow ∧
    t.dies = s.dies ∧ t.keyPart = s.keyPart ∧ t.hostPart = s.hostPart ∧ t.mapPart = s.mapPart ∧ t.fill = s.fill ∧ t.rme = s.rme
    ∧ t.links = s.links ∧ t.powerPart = s.powerPart ∧ t.bootPart = s.bootPart ∧ t.life = s.life ∧ t.recSeg = s.recSeg ∧ t.lc =
    s.lc ∧ t.stayRecovery = s.stayRecovery ∧ t.recoveries = s.recoveries ∧ t.dbg = s.dbg ∧ t.build = s.build ∧ t.pending =
    s.pending ∧ SameRegs [.act, .core, .err, .headgate, .home, .hub, .keep, .key, .mc, .die, .pcie, .pmu, .rme, .stripe,
    .sweep, .tile, .trace, .vz, .xbar] s t) ∧
  (∀ (s : State) (k : Fin 4), Answers (.check k) s fun t => t.chans = s.chans ∧ t.servos = s.servos ∧ t.furrow = s.furrow ∧
    t.dies = s.dies ∧ t.keyPart = s.keyPart ∧ t.hostPart = s.hostPart ∧ t.mapPart = s.mapPart ∧ t.fill = s.fill ∧ t.rme = s.rme
    ∧ t.links = s.links ∧ t.powerPart = s.powerPart ∧ t.bootPart = s.bootPart ∧ t.life = s.life ∧ t.recSeg = s.recSeg ∧ t.lc =
    s.lc ∧ t.stayRecovery = s.stayRecovery ∧ t.recoveries = s.recoveries ∧ t.dbg = s.dbg ∧ t.build = s.build ∧ t.pending =
    s.pending ∧ SameRegs [.act, .core, .err, .headgate, .home, .hub, .keep, .key, .mc, .die, .pcie, .pmu, .rme, .stripe,
    .sweep, .tile, .trace, .vz, .xbar] s t) ∧
  (∀ (s : State) (k : Fin 4) (idx : Nat), Answers (.stripeDescDone k idx) s fun t => t.chans = s.chans ∧ t.servos = s.servos ∧
    t.furrow = s.furrow ∧ t.dies = s.dies ∧ t.keyPart = s.keyPart ∧ t.hostPart = s.hostPart ∧ t.mapPart = s.mapPart ∧ t.lost =
    s.lost ∧ t.fill = s.fill ∧ t.rme = s.rme ∧ t.links = s.links ∧ t.powerPart = s.powerPart ∧ t.bootPart = s.bootPart ∧ t.life
    = s.life ∧ t.recSeg = s.recSeg ∧ t.lc = s.lc ∧ t.stayRecovery = s.stayRecovery ∧ t.recoveries = s.recoveries ∧ t.dbg =
    s.dbg ∧ t.build = s.build ∧ t.pending = s.pending ∧ SameRegs [.act, .core, .err, .headgate, .home, .hub, .keep, .key, .mc,
    .die, .pcie, .pmu, .rme, .stripe, .sweep, .tile, .trace, .vz, .xbar] s t) ∧
  (∀ (s : State) (k : Fin 4), Answers (.strDisable k) s fun t => t.chans = s.chans ∧ t.servos = s.servos ∧ t.furrow = s.furrow
    ∧ t.dies = s.dies ∧ t.keyPart = s.keyPart ∧ t.hostPart = s.hostPart ∧ t.mapPart = s.mapPart ∧ t.lost = s.lost ∧ t.fill =
    s.fill ∧ t.rme = s.rme ∧ t.links = s.links ∧ t.powerPart = s.powerPart ∧ t.bootPart = s.bootPart ∧ t.life = s.life ∧
    t.recSeg = s.recSeg ∧ t.lc = s.lc ∧ t.stayRecovery = s.stayRecovery ∧ t.recoveries = s.recoveries ∧ t.dbg = s.dbg ∧ t.build
    = s.build ∧ t.pending = s.pending ∧ SameRegs [.act, .core, .err, .headgate, .home, .hub, .keep, .key, .mc, .die, .pcie,
    .pmu, .rme, .stripe, .sweep, .tile, .trace, .vz, .xbar] s t) ∧
  (∀ (s : State) (w : World) (slot : Fin 4096) (fn : Fin 1024) (ns : Fin 4), Answers (.keyLoad w slot fn ns) s fun t => t.chans
    = s.chans ∧ t.servos = s.servos ∧ t.furrow = s.furrow ∧ t.dies = s.dies ∧ t.stripes = s.stripes ∧ t.sweep = s.sweep ∧
    t.hostPart = s.hostPart ∧ t.mapPart = s.mapPart ∧ t.lost = s.lost ∧ t.fill = s.fill ∧ t.rme = s.rme ∧ t.links = s.links ∧
    t.powerPart = s.powerPart ∧ t.bootPart = s.bootPart ∧ t.life = s.life ∧ t.recSeg = s.recSeg ∧ t.lc = s.lc ∧ t.stayRecovery
    = s.stayRecovery ∧ t.recoveries = s.recoveries ∧ t.dbg = s.dbg ∧ t.build = s.build ∧ t.pending = s.pending ∧ SameRegs
    [.act, .core, .err, .headgate, .home, .hub, .keep, .key, .mc, .die, .pcie, .pmu, .rme, .stripe, .sweep, .tile, .trace, .vz,
    .xbar] s t) ∧
  (∀ (s : State), Answers (.keyCmdDone) s fun t => t.chans = s.chans ∧ t.servos = s.servos ∧ t.furrow = s.furrow ∧ t.dies =
    s.dies ∧ t.stripes = s.stripes ∧ t.sweep = s.sweep ∧ t.hostPart = s.hostPart ∧ t.mapPart = s.mapPart ∧ t.lost = s.lost ∧
    t.fill = s.fill ∧ t.rme = s.rme ∧ t.links = s.links ∧ t.powerPart = s.powerPart ∧ t.bootPart = s.bootPart ∧ t.life = s.life
    ∧ t.recSeg = s.recSeg ∧ t.lc = s.lc ∧ t.stayRecovery = s.stayRecovery ∧ t.recoveries = s.recoveries ∧ t.dbg = s.dbg ∧
    t.build = s.build ∧ t.pending = s.pending ∧ SameRegs [.act, .core, .err, .headgate, .home, .hub, .keep, .key, .mc, .die,
    .pcie, .pmu, .rme, .stripe, .sweep, .tile, .trace, .vz, .xbar] s t) ∧
  (∀ (s : State) (m : Fin 4) (slot : Fin 4096), Answers (.keyCacheFill m slot) s fun t => t.servos = s.servos ∧ t.furrow =
    s.furrow ∧ t.stripes = s.stripes ∧ t.keyPart = s.keyPart ∧ t.hostPart = s.hostPart ∧ t.mapPart = s.mapPart ∧ t.lost =
    s.lost ∧ t.fill = s.fill ∧ t.rme = s.rme ∧ t.links = s.links ∧ t.powerPart = s.powerPart ∧ t.bootPart = s.bootPart ∧ t.life
    = s.life ∧ t.recSeg = s.recSeg ∧ t.lc = s.lc ∧ t.stayRecovery = s.stayRecovery ∧ t.dbg = s.dbg ∧ t.build = s.build ∧
    t.pending = s.pending ∧ SameRegs [.act, .core, .err, .headgate, .home, .hub, .keep, .key, .mc, .die, .pcie, .pmu, .rme,
    .stripe, .sweep, .tile, .trace, .vz, .xbar] s t) ∧
  (∀ (s : State) (w : World) (verify : Bool) (shelf : Bool) (asm : Nat), Answers (.format w verify shelf asm) s fun t =>
    t.chans = s.chans ∧ t.servos = s.servos ∧ t.furrow = s.furrow ∧ t.dies = s.dies ∧ t.stripes = s.stripes ∧ t.keys = s.keys ∧
    t.hostPart = s.hostPart ∧ t.mapPart = s.mapPart ∧ t.lost = s.lost ∧ t.fill = s.fill ∧ t.rme = s.rme ∧ t.links = s.links ∧
    t.vrEn = s.vrEn ∧ t.straps = s.straps ∧ t.thermTrip = s.thermTrip ∧ t.wake = s.wake ∧ t.pmb = s.pmb ∧ t.vin = s.vin ∧
    t.vinAt = s.vinAt ∧ t.wakeBad = s.wakeBad ∧ t.sealGen = s.sealGen ∧ t.presence = s.presence ∧ t.clocks = s.clocks ∧ t.deep
    = s.deep ∧ t.weir = s.weir ∧ t.freqTo = s.freqTo ∧ t.domTo = s.domTo ∧ t.pwrHeld = s.pwrHeld ∧ t.pwrNext = s.pwrNext ∧
    t.pkgTicks = s.pkgTicks ∧ t.bootPart = s.bootPart ∧ t.life = s.life ∧ t.recSeg = s.recSeg ∧ t.lc = s.lc ∧ t.stayRecovery =
    s.stayRecovery ∧ t.recoveries = s.recoveries ∧ t.dbg = s.dbg ∧ t.build = s.build ∧ t.pending = s.pending ∧ SameRegs [.act,
    .aon, .core, .err, .headgate, .home, .hub, .keep, .key, .mc, .die, .pcie, .pmu, .rme, .stripe, .sweep, .tile, .trace, .vz,
    .xbar] s t) ∧
  (∀ (s : State) (w : World) (method : Fin 4) (passes : Fin 4) (verify : Bool) (shelf : Bool) (asm : Nat), Answers (.sanitise w
    method passes verify shelf asm) s fun t => t.chans = s.chans ∧ t.servos = s.servos ∧ t.furrow = s.furrow ∧ t.dies = s.dies
    ∧ t.stripes = s.stripes ∧ t.keys = s.keys ∧ t.hostPart = s.hostPart ∧ t.mapPart = s.mapPart ∧ t.lost = s.lost ∧ t.fill =
    s.fill ∧ t.rme = s.rme ∧ t.links = s.links ∧ t.vrEn = s.vrEn ∧ t.straps = s.straps ∧ t.thermTrip = s.thermTrip ∧ t.wake =
    s.wake ∧ t.pmb = s.pmb ∧ t.vin = s.vin ∧ t.vinAt = s.vinAt ∧ t.wakeBad = s.wakeBad ∧ t.sealGen = s.sealGen ∧ t.presence =
    s.presence ∧ t.clocks = s.clocks ∧ t.deep = s.deep ∧ t.weir = s.weir ∧ t.freqTo = s.freqTo ∧ t.domTo = s.domTo ∧ t.pwrHeld
    = s.pwrHeld ∧ t.pwrNext = s.pwrNext ∧ t.pkgTicks = s.pkgTicks ∧ t.bootPart = s.bootPart ∧ t.life = s.life ∧ t.recSeg =
    s.recSeg ∧ t.lc = s.lc ∧ t.stayRecovery = s.stayRecovery ∧ t.recoveries = s.recoveries ∧ t.dbg = s.dbg ∧ t.build = s.build
    ∧ t.pending = s.pending ∧ SameRegs [.act, .aon, .core, .err, .headgate, .home, .hub, .keep, .key, .mc, .die, .pcie, .pmu,
    .rme, .stripe, .sweep, .tile, .trace, .vz, .xbar] s t) ∧
  (∀ (s : State) (w : World), Answers (.resume w) s fun t => t.chans = s.chans ∧ t.servos = s.servos ∧ t.furrow = s.furrow ∧
    t.dies = s.dies ∧ t.stripes = s.stripes ∧ t.keys = s.keys ∧ t.ports = s.ports ∧ t.xrings = s.xrings ∧ t.hg = s.hg ∧
    t.mbHeld = s.mbHeld ∧ t.mbTmo = s.mbTmo ∧ t.mapPart = s.mapPart ∧ t.lost = s.lost ∧ t.fill = s.fill ∧ t.rme = s.rme ∧
    t.links = s.links ∧ t.vrEn = s.vrEn ∧ t.straps = s.straps ∧ t.thermTrip = s.thermTrip ∧ t.wake = s.wake ∧ t.pmb = s.pmb ∧
    t.vin = s.vin ∧ t.vinAt = s.vinAt ∧ t.wakeBad = s.wakeBad ∧ t.sealGen = s.sealGen ∧ t.presence = s.presence ∧ t.clocks =
    s.clocks ∧ t.deep = s.deep ∧ t.weir = s.weir ∧ t.freqTo = s.freqTo ∧ t.domTo = s.domTo ∧ t.pwrHeld = s.pwrHeld ∧ t.pwrNext
    = s.pwrNext ∧ t.pkgTicks = s.pkgTicks ∧ t.load = s.load ∧ t.svid = s.svid ∧ t.ssid = s.ssid ∧ t.powerQ = s.powerQ ∧
    t.halves = s.halves ∧ t.tileOp = s.tileOp ∧ t.life = s.life ∧ t.recSeg = s.recSeg ∧ t.lc = s.lc ∧ t.stayRecovery =
    s.stayRecovery ∧ t.recoveries = s.recoveries ∧ t.dbg = s.dbg ∧ t.build = s.build ∧ SameRegs [.act, .aon, .core, .err, .fn,
    .headgate, .home, .hub, .keep, .key, .mc, .die, .pcie, .pmu, .rme, .stripe, .sweep, .tile, .trace, .vz, .xbar] s t) ∧
  (∀ (s : State), Answers (.swpPhaseBegin) s fun t => t.furrow = s.furrow ∧ t.stripes = s.stripes ∧ t.ports = s.ports ∧
    t.xrings = s.xrings ∧ t.hg = s.hg ∧ t.mbHeld = s.mbHeld ∧ t.mbTmo = s.mbTmo ∧ t.mapPart = s.mapPart ∧ t.lost = s.lost ∧
    t.fill = s.fill ∧ t.rme = s.rme ∧ t.links = s.links ∧ t.powerPart = s.powerPart ∧ t.bootPart = s.bootPart ∧ t.life = s.life
    ∧ t.recSeg = s.recSeg ∧ t.lc = s.lc ∧ t.stayRecovery = s.stayRecovery ∧ t.recoveries = s.recoveries ∧ t.dbg = s.dbg ∧
    t.build = s.build ∧ SameRegs [.act, .core, .err, .fn, .headgate, .home, .hub, .keep, .key, .mc, .die, .pcie, .pmu, .rme,
    .stripe, .sweep, .tile, .trace, .vz, .xbar] s t) ∧
  (∀ (s : State) (a : Fin 96) (obs : VerifyObs), Answers (.swpFillSectorResult a obs) s fun t => t.chans = s.chans ∧ t.servos =
    s.servos ∧ t.furrow = s.furrow ∧ t.dies = s.dies ∧ t.stripes = s.stripes ∧ t.keys = s.keys ∧ t.hostPart = s.hostPart ∧
    t.mapPart = s.mapPart ∧ t.lost = s.lost ∧ t.fill = s.fill ∧ t.rme = s.rme ∧ t.links = s.links ∧ t.powerPart = s.powerPart ∧
    t.bootPart = s.bootPart ∧ t.life = s.life ∧ t.recSeg = s.recSeg ∧ t.lc = s.lc ∧ t.stayRecovery = s.stayRecovery ∧
    t.recoveries = s.recoveries ∧ t.dbg = s.dbg ∧ t.build = s.build ∧ t.pending = s.pending ∧ SameRegs [.act, .core, .err,
    .headgate, .home, .hub, .keep, .key, .mc, .die, .pcie, .pmu, .rme, .stripe, .sweep, .tile, .trace, .vz, .xbar] s t) ∧
  (∀ (s : State) (a : Fin 96), Answers (.swpTrackDone a) s fun t => t.chans = s.chans ∧ t.furrow = s.furrow ∧ t.dies = s.dies ∧
    t.stripes = s.stripes ∧ t.keys = s.keys ∧ t.hostPart = s.hostPart ∧ t.mapPart = s.mapPart ∧ t.lost = s.lost ∧ t.fill =
    s.fill ∧ t.rme = s.rme ∧ t.links = s.links ∧ t.powerPart = s.powerPart ∧ t.bootPart = s.bootPart ∧ t.life = s.life ∧
    t.recSeg = s.recSeg ∧ t.lc = s.lc ∧ t.stayRecovery = s.stayRecovery ∧ t.recoveries = s.recoveries ∧ t.dbg = s.dbg ∧ t.build
    = s.build ∧ t.pending = s.pending ∧ SameRegs [.act, .core, .err, .headgate, .home, .hub, .keep, .key, .mc, .die, .pcie,
    .pmu, .rme, .stripe, .sweep, .tile, .trace, .vz, .xbar] s t) ∧
  (∀ (s : State) (k : Fin 2), Answers (.perstAssert k) s fun t => t.chans = s.chans ∧ t.servos = s.servos ∧ t.furrow = s.furrow
    ∧ t.dies = s.dies ∧ t.stripes = s.stripes ∧ t.keyPart = s.keyPart ∧ t.hg = s.hg ∧ t.mbHeld = s.mbHeld ∧ t.mbTmo = s.mbTmo ∧
    t.mapPart = s.mapPart ∧ t.lost = s.lost ∧ t.fill = s.fill ∧ t.rme = s.rme ∧ t.links = s.links ∧ t.powerPart = s.powerPart ∧
    t.bootPart = s.bootPart ∧ t.life = s.life ∧ t.recSeg = s.recSeg ∧ t.lc = s.lc ∧ t.stayRecovery = s.stayRecovery ∧
    t.recoveries = s.recoveries ∧ t.dbg = s.dbg ∧ t.build = s.build ∧ SameRegs [.act, .core, .err, .fn, .headgate, .home, .hub,
    .keep, .key, .mc, .die, .pcie, .pmu, .rme, .stripe, .sweep, .tile, .trace, .vz, .xbar] s t) ∧
  (∀ (s : State) (k : Fin 2), Answers (.pcieLinkDown k) s fun t => t.chans = s.chans ∧ t.servos = s.servos ∧ t.furrow =
    s.furrow ∧ t.dies = s.dies ∧ t.stripes = s.stripes ∧ t.keyPart = s.keyPart ∧ t.hg = s.hg ∧ t.mbHeld = s.mbHeld ∧ t.mbTmo =
    s.mbTmo ∧ t.mapPart = s.mapPart ∧ t.lost = s.lost ∧ t.fill = s.fill ∧ t.rme = s.rme ∧ t.links = s.links ∧ t.powerPart =
    s.powerPart ∧ t.bootPart = s.bootPart ∧ t.life = s.life ∧ t.recSeg = s.recSeg ∧ t.lc = s.lc ∧ t.stayRecovery =
    s.stayRecovery ∧ t.recoveries = s.recoveries ∧ t.dbg = s.dbg ∧ t.build = s.build ∧ SameRegs [.act, .core, .err, .fn,
    .headgate, .home, .hub, .keep, .key, .mc, .die, .pcie, .pmu, .rme, .stripe, .sweep, .tile, .trace, .vz, .xbar] s t) ∧
  (∀ (s : State) (f : Fin 1026) (r : CfgReq), Answers (.configRequest f r) s fun t => t.chans = s.chans ∧ t.servos = s.servos ∧
    t.furrow = s.furrow ∧ t.dies = s.dies ∧ t.stripes = s.stripes ∧ t.keyPart = s.keyPart ∧ t.hg = s.hg ∧ t.mbHeld = s.mbHeld ∧
    t.mbTmo = s.mbTmo ∧ t.mapPart = s.mapPart ∧ t.lost = s.lost ∧ t.fill = s.fill ∧ t.rme = s.rme ∧ t.links = s.links ∧
    t.powerPart = s.powerPart ∧ t.bootPart = s.bootPart ∧ t.life = s.life ∧ t.recSeg = s.recSeg ∧ t.lc = s.lc ∧ t.stayRecovery
    = s.stayRecovery ∧ t.recoveries = s.recoveries ∧ t.dbg = s.dbg ∧ t.build = s.build ∧ SameRegs [.act, .core, .err, .fn,
    .headgate, .home, .hub, .keep, .key, .mc, .die, .pcie, .pmu, .rme, .stripe, .sweep, .tile, .trace, .vz, .xbar] s t) ∧
  (∀ (s : State) (f : Fin 1026), Answers (.busMasterDisable f) s fun t => t.chans = s.chans ∧ t.servos = s.servos ∧ t.furrow =
    s.furrow ∧ t.dies = s.dies ∧ t.stripes = s.stripes ∧ t.keyPart = s.keyPart ∧ t.ports = s.ports ∧ t.hg = s.hg ∧ t.mbHeld =
    s.mbHeld ∧ t.mbTmo = s.mbTmo ∧ t.mapPart = s.mapPart ∧ t.lost = s.lost ∧ t.fill = s.fill ∧ t.rme = s.rme ∧ t.links =
    s.links ∧ t.powerPart = s.powerPart ∧ t.bootPart = s.bootPart ∧ t.life = s.life ∧ t.recSeg = s.recSeg ∧ t.lc = s.lc ∧
    t.stayRecovery = s.stayRecovery ∧ t.recoveries = s.recoveries ∧ t.dbg = s.dbg ∧ t.build = s.build ∧ SameRegs [.act, .core,
    .err, .fn, .headgate, .home, .hub, .keep, .key, .mc, .die, .pcie, .pmu, .rme, .stripe, .sweep, .tile, .trace, .vz, .xbar] s
    t) ∧
  (∀ (s : State) (f : Fin 1026), Answers (.functionLevelReset f) s fun t => t.chans = s.chans ∧ t.servos = s.servos ∧ t.furrow
    = s.furrow ∧ t.dies = s.dies ∧ t.stripes = s.stripes ∧ t.keyPart = s.keyPart ∧ t.hg = s.hg ∧ t.mbHeld = s.mbHeld ∧ t.mbTmo
    = s.mbTmo ∧ t.mapPart = s.mapPart ∧ t.lost = s.lost ∧ t.fill = s.fill ∧ t.rme = s.rme ∧ t.links = s.links ∧ t.powerPart =
    s.powerPart ∧ t.bootPart = s.bootPart ∧ t.life = s.life ∧ t.recSeg = s.recSeg ∧ t.lc = s.lc ∧ t.stayRecovery =
    s.stayRecovery ∧ t.recoveries = s.recoveries ∧ t.dbg = s.dbg ∧ t.build = s.build ∧ SameRegs [.act, .core, .err, .fn,
    .headgate, .home, .hub, .keep, .key, .mc, .die, .pcie, .pmu, .rme, .stripe, .sweep, .tile, .trace, .vz, .xbar] s t) ∧
  (∀ (s : State) (k : Fin 2), Answers (.vfEnableClear k) s fun t => t.chans = s.chans ∧ t.servos = s.servos ∧ t.furrow =
    s.furrow ∧ t.dies = s.dies ∧ t.stripes = s.stripes ∧ t.keyPart = s.keyPart ∧ t.hg = s.hg ∧ t.mbHeld = s.mbHeld ∧ t.mbTmo =
    s.mbTmo ∧ t.mapPart = s.mapPart ∧ t.lost = s.lost ∧ t.fill = s.fill ∧ t.rme = s.rme ∧ t.links = s.links ∧ t.powerPart =
    s.powerPart ∧ t.bootPart = s.bootPart ∧ t.life = s.life ∧ t.recSeg = s.recSeg ∧ t.lc = s.lc ∧ t.stayRecovery =
    s.stayRecovery ∧ t.recoveries = s.recoveries ∧ t.dbg = s.dbg ∧ t.build = s.build ∧ SameRegs [.act, .core, .err, .fn,
    .headgate, .home, .hub, .keep, .key, .mc, .die, .pcie, .pmu, .rme, .stripe, .sweep, .tile, .trace, .vz, .xbar] s t) ∧
  (∀ (s : State) (f : Fin 1026), Answers (.d3hotEntry f) s fun t => t.chans = s.chans ∧ t.servos = s.servos ∧ t.furrow =
    s.furrow ∧ t.dies = s.dies ∧ t.stripes = s.stripes ∧ t.keyPart = s.keyPart ∧ t.ports = s.ports ∧ t.queues = s.queues ∧ t.hg
    = s.hg ∧ t.hostLog = s.hostLog ∧ t.fwLog = s.fwLog ∧ t.mbHeld = s.mbHeld ∧ t.mbTmo = s.mbTmo ∧ t.mapPart = s.mapPart ∧
    t.lost = s.lost ∧ t.fill = s.fill ∧ t.rme = s.rme ∧ t.links = s.links ∧ t.powerPart = s.powerPart ∧ t.bootPart = s.bootPart
    ∧ t.life = s.life ∧ t.recSeg = s.recSeg ∧ t.lc = s.lc ∧ t.stayRecovery = s.stayRecovery ∧ t.recoveries = s.recoveries ∧
    t.dbg = s.dbg ∧ t.build = s.build ∧ t.pending = s.pending ∧ SameRegs [.act, .core, .err, .headgate, .home, .hub, .keep,
    .key, .mc, .die, .pcie, .pmu, .rme, .stripe, .sweep, .tile, .trace, .vz, .xbar] s t) ∧
  (∀ (s : State) (k : Fin 2) (r : Fin 16) (en : Bool), Answers (.xferRingEnable k r en) s fun t => t.chans = s.chans ∧ t.servos
    = s.servos ∧ t.furrow = s.furrow ∧ t.dies = s.dies ∧ t.stripes = s.stripes ∧ t.keyPart = s.keyPart ∧ t.fns = s.fns ∧
    t.ports = s.ports ∧ t.queues = s.queues ∧ t.hg = s.hg ∧ t.hostLog = s.hostLog ∧ t.fwLog = s.fwLog ∧ t.mbHeld = s.mbHeld ∧
    t.mbTmo = s.mbTmo ∧ t.mapPart = s.mapPart ∧ t.lost = s.lost ∧ t.fill = s.fill ∧ t.rme = s.rme ∧ t.links = s.links ∧
    t.powerPart = s.powerPart ∧ t.bootPart = s.bootPart ∧ t.life = s.life ∧ t.recSeg = s.recSeg ∧ t.lc = s.lc ∧ t.stayRecovery
    = s.stayRecovery ∧ t.recoveries = s.recoveries ∧ t.dbg = s.dbg ∧ t.build = s.build ∧ t.pending = s.pending ∧ SameRegs
    [.act, .core, .err, .headgate, .home, .hub, .keep, .key, .mc, .die, .pcie, .pmu, .rme, .stripe, .sweep, .tile, .trace, .vz,
    .xbar] s t) ∧
  (∀ (s : State) (k : Fin 2) (r : Fin 16), Answers (.hostRead k r) s fun t => t.chans = s.chans ∧ t.servos = s.servos ∧
    t.furrow = s.furrow ∧ t.dies = s.dies ∧ t.stripes = s.stripes ∧ t.keyPart = s.keyPart ∧ t.fns = s.fns ∧ t.queues = s.queues
    ∧ t.hg = s.hg ∧ t.hostLog = s.hostLog ∧ t.fwLog = s.fwLog ∧ t.mbHeld = s.mbHeld ∧ t.mbTmo = s.mbTmo ∧ t.mapPart = s.mapPart
    ∧ t.lost = s.lost ∧ t.fill = s.fill ∧ t.rme = s.rme ∧ t.links = s.links ∧ t.powerPart = s.powerPart ∧ t.bootPart =
    s.bootPart ∧ t.life = s.life ∧ t.recSeg = s.recSeg ∧ t.lc = s.lc ∧ t.stayRecovery = s.stayRecovery ∧ t.recoveries =
    s.recoveries ∧ t.dbg = s.dbg ∧ t.build = s.build ∧ t.pending = s.pending ∧ SameRegs [.act, .core, .err, .headgate, .home,
    .hub, .keep, .key, .mc, .die, .pcie, .pmu, .rme, .stripe, .sweep, .tile, .trace, .vz, .xbar] s t) ∧
  (∀ (s : State) (k : Fin 2) (r : Fin 16), Answers (.hostWrite k r) s fun t => t.chans = s.chans ∧ t.servos = s.servos ∧
    t.furrow = s.furrow ∧ t.dies = s.dies ∧ t.stripes = s.stripes ∧ t.keyPart = s.keyPart ∧ t.fns = s.fns ∧ t.queues = s.queues
    ∧ t.hg = s.hg ∧ t.hostLog = s.hostLog ∧ t.fwLog = s.fwLog ∧ t.mbHeld = s.mbHeld ∧ t.mbTmo = s.mbTmo ∧ t.mapPart = s.mapPart
    ∧ t.lost = s.lost ∧ t.fill = s.fill ∧ t.rme = s.rme ∧ t.links = s.links ∧ t.powerPart = s.powerPart ∧ t.bootPart =
    s.bootPart ∧ t.life = s.life ∧ t.recSeg = s.recSeg ∧ t.lc = s.lc ∧ t.stayRecovery = s.stayRecovery ∧ t.recoveries =
    s.recoveries ∧ t.dbg = s.dbg ∧ t.build = s.build ∧ t.pending = s.pending ∧ SameRegs [.act, .core, .err, .headgate, .home,
    .hub, .keep, .key, .mc, .die, .pcie, .pmu, .rme, .stripe, .sweep, .tile, .trace, .vz, .xbar] s t) ∧
  (∀ (s : State) (k : Fin 2) (tag : Fin 1024) (st : CplStatus) (ep : Bool) (data : List Byte), Answers (.hostCompletion k tag
    st ep data) s fun t => t.chans = s.chans ∧ t.servos = s.servos ∧ t.furrow = s.furrow ∧ t.dies = s.dies ∧ t.stripes =
    s.stripes ∧ t.keyPart = s.keyPart ∧ t.queues = s.queues ∧ t.hg = s.hg ∧ t.hostLog = s.hostLog ∧ t.fwLog = s.fwLog ∧
    t.mbHeld = s.mbHeld ∧ t.mbTmo = s.mbTmo ∧ t.mapPart = s.mapPart ∧ t.lost = s.lost ∧ t.fill = s.fill ∧ t.rme = s.rme ∧
    t.links = s.links ∧ t.powerPart = s.powerPart ∧ t.bootPart = s.bootPart ∧ t.life = s.life ∧ t.recSeg = s.recSeg ∧ t.lc =
    s.lc ∧ t.stayRecovery = s.stayRecovery ∧ t.recoveries = s.recoveries ∧ t.dbg = s.dbg ∧ t.build = s.build ∧ t.pending =
    s.pending ∧ SameRegs [.act, .core, .err, .headgate, .home, .hub, .keep, .key, .mc, .die, .pcie, .pmu, .rme, .stripe,
    .sweep, .tile, .trace, .vz, .xbar] s t) ∧
  (∀ (s : State) (k : Fin 2) (r : Fin 16) (idx : Nat), Answers (.xferDone k r idx) s fun t => t.chans = s.chans ∧ t.servos =
    s.servos ∧ t.furrow = s.furrow ∧ t.dies = s.dies ∧ t.stripes = s.stripes ∧ t.keyPart = s.keyPart ∧ t.fns = s.fns ∧ t.queues
    = s.queues ∧ t.hg = s.hg ∧ t.hostLog = s.hostLog ∧ t.fwLog = s.fwLog ∧ t.mbHeld = s.mbHeld ∧ t.mbTmo = s.mbTmo ∧ t.mapPart
    = s.mapPart ∧ t.lost = s.lost ∧ t.fill = s.fill ∧ t.rme = s.rme ∧ t.links = s.links ∧ t.powerPart = s.powerPart ∧
    t.bootPart = s.bootPart ∧ t.life = s.life ∧ t.recSeg = s.recSeg ∧ t.lc = s.lc ∧ t.stayRecovery = s.stayRecovery ∧
    t.recoveries = s.recoveries ∧ t.dbg = s.dbg ∧ t.build = s.build ∧ t.pending = s.pending ∧ SameRegs [.act, .core, .err,
    .headgate, .home, .hub, .keep, .key, .mc, .die, .pcie, .pmu, .rme, .stripe, .sweep, .tile, .trace, .vz, .xbar] s t) ∧
  (∀ (s : State) (k : Fin 2) (tag : Fin 1024), Answers (.tagHoldExpiry k tag) s fun t => t.chans = s.chans ∧ t.servos =
    s.servos ∧ t.furrow = s.furrow ∧ t.dies = s.dies ∧ t.stripes = s.stripes ∧ t.keyPart = s.keyPart ∧ t.fns = s.fns ∧ t.queues
    = s.queues ∧ t.hg = s.hg ∧ t.hostLog = s.hostLog ∧ t.fwLog = s.fwLog ∧ t.mbHeld = s.mbHeld ∧ t.mbTmo = s.mbTmo ∧ t.mapPart
    = s.mapPart ∧ t.lost = s.lost ∧ t.fill = s.fill ∧ t.rme = s.rme ∧ t.links = s.links ∧ t.powerPart = s.powerPart ∧
    t.bootPart = s.bootPart ∧ t.life = s.life ∧ t.recSeg = s.recSeg ∧ t.lc = s.lc ∧ t.stayRecovery = s.stayRecovery ∧
    t.recoveries = s.recoveries ∧ t.dbg = s.dbg ∧ t.build = s.build ∧ t.pending = s.pending ∧ SameRegs [.act, .core, .err,
    .headgate, .home, .hub, .keep, .key, .mc, .die, .pcie, .pmu, .rme, .stripe, .sweep, .tile, .trace, .vz, .xbar] s t) ∧
  (∀ (s : State), Answers (.hgAdmission) s fun t => t.chans = s.chans ∧ t.servos = s.servos ∧ t.furrow = s.furrow ∧ t.dies =
    s.dies ∧ t.stripes = s.stripes ∧ t.keyPart = s.keyPart ∧ t.fns = s.fns ∧ t.ports = s.ports ∧ t.xrings = s.xrings ∧
    t.hostLog = s.hostLog ∧ t.fwLog = s.fwLog ∧ t.mbHeld = s.mbHeld ∧ t.mbTmo = s.mbTmo ∧ t.mapPart = s.mapPart ∧ t.lost =
    s.lost ∧ t.fill = s.fill ∧ t.rme = s.rme ∧ t.links = s.links ∧ t.powerPart = s.powerPart ∧ t.bootPart = s.bootPart ∧ t.life
    = s.life ∧ t.recSeg = s.recSeg ∧ t.lc = s.lc ∧ t.stayRecovery = s.stayRecovery ∧ t.recoveries = s.recoveries ∧ t.dbg =
    s.dbg ∧ t.build = s.build ∧ t.pending = s.pending ∧ SameRegs [.act, .core, .err, .fn, .headgate, .home, .hub, .keep, .key,
    .mc, .die, .pcie, .pmu, .rme, .stripe, .sweep, .tile, .trace, .vz, .xbar] s t) ∧
  (∀ (s : State) (p : Fin 4), Answers (.postConsume p) s fun t => t.chans = s.chans ∧ t.servos = s.servos ∧ t.furrow = s.furrow
    ∧ t.dies = s.dies ∧ t.stripes = s.stripes ∧ t.keyPart = s.keyPart ∧ t.ports = s.ports ∧ t.xrings = s.xrings ∧ t.hg = s.hg ∧
    t.hostLog = s.hostLog ∧ t.mbHeld = s.mbHeld ∧ t.mbTmo = s.mbTmo ∧ t.mapPart = s.mapPart ∧ t.lost = s.lost ∧ t.fill = s.fill
    ∧ t.rme = s.rme ∧ t.links = s.links ∧ t.powerPart = s.powerPart ∧ t.bootPart = s.bootPart ∧ t.life = s.life ∧ t.recSeg =
    s.recSeg ∧ t.lc = s.lc ∧ t.stayRecovery = s.stayRecovery ∧ t.recoveries = s.recoveries ∧ t.dbg = s.dbg ∧ t.build = s.build
    ∧ SameRegs [.act, .core, .err, .fn, .headgate, .home, .hub, .keep, .key, .mc, .die, .pcie, .pmu, .rme, .stripe, .sweep,
    .tile, .trace, .vz, .xbar] s t) ∧
  (∀ (s : State) (a : At) (rd : Fin 32) (rs1 : BitVec 64) (tag : Fin 4096), Answers (.gateCall a rd rs1 tag) s fun t => t.chans
    = s.chans ∧ t.servos = s.servos ∧ t.furrow = s.furrow ∧ t.dies = s.dies ∧ t.stripes = s.stripes ∧ t.keyPart = s.keyPart ∧
    t.hostPart = s.hostPart ∧ t.mapPart = s.mapPart ∧ t.lost = s.lost ∧ t.fill = s.fill ∧ t.rme = s.rme ∧ t.links = s.links ∧
    t.powerPart = s.powerPart ∧ t.bootPart = s.bootPart ∧ t.life = s.life ∧ t.recSeg = s.recSeg ∧ t.lc = s.lc ∧ t.stayRecovery
    = s.stayRecovery ∧ t.recoveries = s.recoveries ∧ t.dbg = s.dbg ∧ t.build = s.build ∧ t.pending = s.pending ∧ SameRegs
    [.act, .core, .err, .headgate, .home, .hub, .keep, .key, .mc, .die, .pcie, .pmu, .rme, .stripe, .sweep, .tile, .trace, .vz,
    .xbar] s t) ∧
  (∀ (s : State) (a : At) (rd : Fin 32) (rs1 : BitVec 64) (tag : Fin 4096), Answers (.gateReturn a rd rs1 tag) s fun t =>
    t.chans = s.chans ∧ t.servos = s.servos ∧ t.furrow = s.furrow ∧ t.dies = s.dies ∧ t.stripes = s.stripes ∧ t.keyPart =
    s.keyPart ∧ t.hostPart = s.hostPart ∧ t.mapPart = s.mapPart ∧ t.lost = s.lost ∧ t.fill = s.fill ∧ t.rme = s.rme ∧ t.links =
    s.links ∧ t.powerPart = s.powerPart ∧ t.bootPart = s.bootPart ∧ t.life = s.life ∧ t.recSeg = s.recSeg ∧ t.lc = s.lc ∧
    t.stayRecovery = s.stayRecovery ∧ t.recoveries = s.recoveries ∧ t.dbg = s.dbg ∧ t.build = s.build ∧ t.pending = s.pending ∧
    SameRegs [.act, .core, .err, .headgate, .home, .hub, .keep, .key, .mc, .die, .pcie, .pmu, .rme, .stripe, .sweep, .tile,
    .trace, .vz, .xbar] s t) ∧
  (∀ (s : State) (a : At) (m : MemArg) (d : Dest) (par : Parity), Answers (.hartLoad a m d par) s fun t => t.chans = s.chans ∧
    t.servos = s.servos ∧ t.furrow = s.furrow ∧ t.dies = s.dies ∧ t.stripes = s.stripes ∧ t.keyPart = s.keyPart ∧ t.hostPart =
    s.hostPart ∧ t.mapPart = s.mapPart ∧ t.lost = s.lost ∧ t.fill = s.fill ∧ t.rme = s.rme ∧ t.links = s.links ∧ t.powerPart =
    s.powerPart ∧ t.bootPart = s.bootPart ∧ t.life = s.life ∧ t.recSeg = s.recSeg ∧ t.lc = s.lc ∧ t.stayRecovery =
    s.stayRecovery ∧ t.recoveries = s.recoveries ∧ t.dbg = s.dbg ∧ t.build = s.build ∧ t.pending = s.pending) ∧
  (∀ (s : State) (a : At) (m : MemArg) (op : HartAmo) (rd : Fin 32) (rs2 : Fin 32) (par : Parity), Answers (.hartAmo a m op rd
    rs2 par) s fun t => t.chans = s.chans ∧ t.servos = s.servos ∧ t.furrow = s.furrow ∧ t.dies = s.dies ∧ t.stripes = s.stripes
    ∧ t.keyPart = s.keyPart ∧ t.hostPart = s.hostPart ∧ t.mapPart = s.mapPart ∧ t.lost = s.lost ∧ t.fill = s.fill ∧ t.rme =
    s.rme ∧ t.links = s.links ∧ t.powerPart = s.powerPart ∧ t.bootPart = s.bootPart ∧ t.life = s.life ∧ t.recSeg = s.recSeg ∧
    t.lc = s.lc ∧ t.stayRecovery = s.stayRecovery ∧ t.recoveries = s.recoveries ∧ t.dbg = s.dbg ∧ t.build = s.build ∧ t.pending
    = s.pending ∧ SameRegs [.act, .core, .err, .headgate, .home, .hub, .keep, .key, .mc, .die, .pcie, .pmu, .rme, .stripe,
    .sweep, .tile, .trace, .vz, .xbar] s t) ∧
  (∀ (s : State) (a : At) (m : MemArg) (rd : Fin 32) (par : Parity), Answers (.lr a m rd par) s fun t => t.chans = s.chans ∧
    t.servos = s.servos ∧ t.furrow = s.furrow ∧ t.dies = s.dies ∧ t.stripes = s.stripes ∧ t.keyPart = s.keyPart ∧ t.hostPart =
    s.hostPart ∧ t.mapPart = s.mapPart ∧ t.lost = s.lost ∧ t.fill = s.fill ∧ t.rme = s.rme ∧ t.links = s.links ∧ t.powerPart =
    s.powerPart ∧ t.bootPart = s.bootPart ∧ t.life = s.life ∧ t.recSeg = s.recSeg ∧ t.lc = s.lc ∧ t.stayRecovery =
    s.stayRecovery ∧ t.recoveries = s.recoveries ∧ t.dbg = s.dbg ∧ t.build = s.build ∧ t.pending = s.pending ∧ SameRegs [.act,
    .core, .err, .headgate, .home, .hub, .keep, .key, .mc, .die, .pcie, .pmu, .rme, .stripe, .sweep, .tile, .trace, .vz, .xbar]
    s t) ∧
  (∀ (s : State) (a : At) (m : MemArg) (rd : Fin 32) (rs2 : Fin 32) (par : Parity), Answers (.sc a m rd rs2 par) s fun t =>
    t.chans = s.chans ∧ t.servos = s.servos ∧ t.furrow = s.furrow ∧ t.dies = s.dies ∧ t.stripes = s.stripes ∧ t.keyPart =
    s.keyPart ∧ t.hostPart = s.hostPart ∧ t.mapPart = s.mapPart ∧ t.lost = s.lost ∧ t.fill = s.fill ∧ t.rme = s.rme ∧ t.links =
    s.links ∧ t.powerPart = s.powerPart ∧ t.bootPart = s.bootPart ∧ t.life = s.life ∧ t.recSeg = s.recSeg ∧ t.lc = s.lc ∧
    t.stayRecovery = s.stayRecovery ∧ t.recoveries = s.recoveries ∧ t.dbg = s.dbg ∧ t.build = s.build ∧ t.pending = s.pending ∧
    SameRegs [.act, .core, .err, .headgate, .home, .hub, .keep, .key, .mc, .die, .pcie, .pmu, .rme, .stripe, .sweep, .tile,
    .trace, .vz, .xbar] s t) ∧
  (∀ (s : State), Answers (.wmapCommitDone) s fun t => t.lanes = s.lanes ∧ t.chans = s.chans ∧ t.servos = s.servos ∧ t.furrow =
    s.furrow ∧ t.dies = s.dies ∧ t.stripes = s.stripes ∧ t.keyPart = s.keyPart ∧ t.hostPart = s.hostPart ∧ t.mregNow =
    s.mregNow ∧ t.mregNext = s.mregNext ∧ t.memTop = s.memTop ∧ t.iowOld = s.iowOld ∧ t.lost = s.lost ∧ t.fill = s.fill ∧
    t.copies = s.copies ∧ t.cores = s.cores ∧ t.l1s = s.l1s ∧ t.tiles = s.tiles ∧ t.evbufs = s.evbufs ∧ t.reqs = s.reqs ∧
    t.heldTxn = s.heldTxn ∧ t.links = s.links ∧ t.powerPart = s.powerPart ∧ t.bootPart = s.bootPart ∧ t.life = s.life ∧
    t.recSeg = s.recSeg ∧ t.lc = s.lc ∧ t.stayRecovery = s.stayRecovery ∧ t.recoveries = s.recoveries ∧ t.dbg = s.dbg ∧ t.build
    = s.build ∧ t.pending = s.pending ∧ SameRegs [.act, .err, .home, .hub, .keep, .mc, .pmu, .rme, .trace, .vz, .wmap] s t) ∧
  (∀ (s : State) (agent : Fin 42) (line : BitVec 46) (victim : Option Nat) (par : Parity), Answers (.rdS agent line victim par)
    s fun t => t.chans = s.chans ∧ t.servos = s.servos ∧ t.furrow = s.furrow ∧ t.dies = s.dies ∧ t.stripes = s.stripes ∧
    t.keyPart = s.keyPart ∧ t.hostPart = s.hostPart ∧ t.mapPart = s.mapPart ∧ t.lost = s.lost ∧ t.fill = s.fill ∧ t.rme = s.rme
    ∧ t.links = s.links ∧ t.powerPart = s.powerPart ∧ t.bootPart = s.bootPart ∧ t.life = s.life ∧ t.recSeg = s.recSeg ∧ t.lc =
    s.lc ∧ t.stayRecovery = s.stayRecovery ∧ t.recoveries = s.recoveries ∧ t.dbg = s.dbg ∧ t.build = s.build ∧ t.pending =
    s.pending ∧ SameRegs [.act, .core, .err, .headgate, .home, .hub, .keep, .key, .mc, .die, .pcie, .pmu, .rme, .stripe,
    .sweep, .tile, .trace, .vz, .xbar] s t) ∧
  (∀ (s : State) (agent : Fin 42) (line : BitVec 46) (victim : Option Nat) (par : Parity), Answers (.rdU agent line victim par)
    s fun t => t.chans = s.chans ∧ t.servos = s.servos ∧ t.furrow = s.furrow ∧ t.dies = s.dies ∧ t.stripes = s.stripes ∧
    t.keyPart = s.keyPart ∧ t.hostPart = s.hostPart ∧ t.mapPart = s.mapPart ∧ t.lost = s.lost ∧ t.fill = s.fill ∧ t.rme = s.rme
    ∧ t.links = s.links ∧ t.powerPart = s.powerPart ∧ t.bootPart = s.bootPart ∧ t.life = s.life ∧ t.recSeg = s.recSeg ∧ t.lc =
    s.lc ∧ t.stayRecovery = s.stayRecovery ∧ t.recoveries = s.recoveries ∧ t.dbg = s.dbg ∧ t.build = s.build ∧ t.pending =
    s.pending ∧ SameRegs [.act, .core, .err, .headgate, .home, .hub, .keep, .key, .mc, .die, .pcie, .pmu, .rme, .stripe,
    .sweep, .tile, .trace, .vz, .xbar] s t) ∧
  (∀ (s : State) (agent : Fin 42) (line : BitVec 46) (victim : Option Nat) (par : Parity), Answers (.upg agent line victim par)
    s fun t => t.chans = s.chans ∧ t.servos = s.servos ∧ t.furrow = s.furrow ∧ t.dies = s.dies ∧ t.stripes = s.stripes ∧
    t.keyPart = s.keyPart ∧ t.hostPart = s.hostPart ∧ t.mapPart = s.mapPart ∧ t.lost = s.lost ∧ t.fill = s.fill ∧ t.rme = s.rme
    ∧ t.links = s.links ∧ t.powerPart = s.powerPart ∧ t.bootPart = s.bootPart ∧ t.life = s.life ∧ t.recSeg = s.recSeg ∧ t.lc =
    s.lc ∧ t.stayRecovery = s.stayRecovery ∧ t.recoveries = s.recoveries ∧ t.dbg = s.dbg ∧ t.build = s.build ∧ t.pending =
    s.pending ∧ SameRegs [.act, .core, .err, .headgate, .home, .hub, .keep, .key, .mc, .die, .pcie, .pmu, .rme, .stripe,
    .sweep, .tile, .trace, .vz, .xbar] s t) ∧
  (∀ (s : State) (master : Fin 13) (line : BitVec 46) (par : Parity), Answers (.rdOnce master line par) s fun t => t.chans =
    s.chans ∧ t.servos = s.servos ∧ t.furrow = s.furrow ∧ t.dies = s.dies ∧ t.stripes = s.stripes ∧ t.keyPart = s.keyPart ∧
    t.hostPart = s.hostPart ∧ t.mapPart = s.mapPart ∧ t.lost = s.lost ∧ t.fill = s.fill ∧ t.rme = s.rme ∧ t.links = s.links ∧
    t.powerPart = s.powerPart ∧ t.bootPart = s.bootPart ∧ t.life = s.life ∧ t.recSeg = s.recSeg ∧ t.lc = s.lc ∧ t.stayRecovery
    = s.stayRecovery ∧ t.recoveries = s.recoveries ∧ t.dbg = s.dbg ∧ t.build = s.build ∧ t.pending = s.pending ∧ SameRegs
    [.act, .core, .err, .headgate, .home, .hub, .keep, .key, .mc, .die, .pcie, .pmu, .rme, .stripe, .sweep, .tile, .trace, .vz,
    .xbar] s t) ∧
  (∀ (s : State) (master : Fin 13) (line : BitVec 46) (data : Vector Byte 64), Answers (.wrFull master line data) s fun t =>
    t.chans = s.chans ∧ t.servos = s.servos ∧ t.furrow = s.furrow ∧ t.dies = s.dies ∧ t.stripes = s.stripes ∧ t.keyPart =
    s.keyPart ∧ t.hostPart = s.hostPart ∧ t.mapPart = s.mapPart ∧ t.lost = s.lost ∧ t.fill = s.fill ∧ t.rme = s.rme ∧ t.links =
    s.links ∧ t.powerPart = s.powerPart ∧ t.bootPart = s.bootPart ∧ t.life = s.life ∧ t.recSeg = s.recSeg ∧ t.lc = s.lc ∧
    t.stayRecovery = s.stayRecovery ∧ t.recoveries = s.recoveries ∧ t.dbg = s.dbg ∧ t.build = s.build ∧ t.pending = s.pending ∧
    SameRegs [.act, .core, .err, .headgate, .home, .hub, .keep, .key, .mc, .die, .pcie, .pmu, .rme, .stripe, .sweep, .tile,
    .trace, .vz, .xbar] s t) ∧
  (∀ (s : State) (master : Fin 13) (line : BitVec 46) (data : Vector Byte 64) (mask : BitVec 64), Answers (.wrPtl master line
    data mask) s fun t => t.chans = s.chans ∧ t.servos = s.servos ∧ t.furrow = s.furrow ∧ t.dies = s.dies ∧ t.stripes =
    s.stripes ∧ t.keyPart = s.keyPart ∧ t.hostPart = s.hostPart ∧ t.mapPart = s.mapPart ∧ t.lost = s.lost ∧ t.fill = s.fill ∧
    t.rme = s.rme ∧ t.links = s.links ∧ t.powerPart = s.powerPart ∧ t.bootPart = s.bootPart ∧ t.life = s.life ∧ t.recSeg =
    s.recSeg ∧ t.lc = s.lc ∧ t.stayRecovery = s.stayRecovery ∧ t.recoveries = s.recoveries ∧ t.dbg = s.dbg ∧ t.build = s.build
    ∧ t.pending = s.pending ∧ SameRegs [.act, .core, .err, .headgate, .home, .hub, .keep, .key, .mc, .die, .pcie, .pmu, .rme,
    .stripe, .sweep, .tile, .trace, .vz, .xbar] s t) ∧
  (∀ (s : State) (hart : Fin 256) (line : BitVec 46) (word : Fin 16) (wide : Bool) (op : AmoOp) (operand : Word), Answers (.amo
    hart line word wide op operand) s fun t => t.chans = s.chans ∧ t.servos = s.servos ∧ t.furrow = s.furrow ∧ t.dies = s.dies
    ∧ t.stripes = s.stripes ∧ t.keyPart = s.keyPart ∧ t.hostPart = s.hostPart ∧ t.mapPart = s.mapPart ∧ t.lost = s.lost ∧
    t.fill = s.fill ∧ t.rme = s.rme ∧ t.links = s.links ∧ t.powerPart = s.powerPart ∧ t.bootPart = s.bootPart ∧ t.life = s.life
    ∧ t.recSeg = s.recSeg ∧ t.lc = s.lc ∧ t.stayRecovery = s.stayRecovery ∧ t.recoveries = s.recoveries ∧ t.dbg = s.dbg ∧
    t.build = s.build ∧ t.pending = s.pending ∧ SameRegs [.act, .core, .err, .headgate, .home, .hub, .keep, .key, .mc, .die,
    .pcie, .pmu, .rme, .stripe, .sweep, .tile, .trace, .vz, .xbar] s t) ∧
  (∀ (s : State) (agent : Fin 42) (line : BitVec 46), Answers (.evict agent line) s fun t => t.chans = s.chans ∧ t.servos =
    s.servos ∧ t.furrow = s.furrow ∧ t.dies = s.dies ∧ t.stripes = s.stripes ∧ t.keyPart = s.keyPart ∧ t.hostPart = s.hostPart
    ∧ t.mapPart = s.mapPart ∧ t.lost = s.lost ∧ t.fill = s.fill ∧ t.rme = s.rme ∧ t.links = s.links ∧ t.powerPart = s.powerPart
    ∧ t.bootPart = s.bootPart ∧ t.life = s.life ∧ t.recSeg = s.recSeg ∧ t.lc = s.lc ∧ t.stayRecovery = s.stayRecovery ∧
    t.recoveries = s.recoveries ∧ t.dbg = s.dbg ∧ t.build = s.build ∧ t.pending = s.pending ∧ SameRegs [.act, .core, .err,
    .headgate, .home, .hub, .keep, .key, .mc, .die, .pcie, .pmu, .rme, .stripe, .sweep, .tile, .trace, .vz, .xbar] s t) ∧
  (∀ (s : State) (agent : Fin 42) (line : BitVec 46), Answers (.wb agent line) s fun t => t.chans = s.chans ∧ t.servos =
    s.servos ∧ t.furrow = s.furrow ∧ t.dies = s.dies ∧ t.stripes = s.stripes ∧ t.keyPart = s.keyPart ∧ t.hostPart = s.hostPart
    ∧ t.mapPart = s.mapPart ∧ t.lost = s.lost ∧ t.fill = s.fill ∧ t.rme = s.rme ∧ t.links = s.links ∧ t.powerPart = s.powerPart
    ∧ t.bootPart = s.bootPart ∧ t.life = s.life ∧ t.recSeg = s.recSeg ∧ t.lc = s.lc ∧ t.stayRecovery = s.stayRecovery ∧
    t.recoveries = s.recoveries ∧ t.dbg = s.dbg ∧ t.build = s.build ∧ t.pending = s.pending ∧ SameRegs [.act, .core, .err,
    .headgate, .home, .hub, .keep, .key, .mc, .die, .pcie, .pmu, .rme, .stripe, .sweep, .tile, .trace, .vz, .xbar] s t) ∧
  (∀ (s : State) (agent : Fin 42) (line : BitVec 46), Answers (.odata agent line) s fun t => t.chans = s.chans ∧ t.servos =
    s.servos ∧ t.furrow = s.furrow ∧ t.dies = s.dies ∧ t.stripes = s.stripes ∧ t.keyPart = s.keyPart ∧ t.hostPart = s.hostPart
    ∧ t.mapPart = s.mapPart ∧ t.lost = s.lost ∧ t.fill = s.fill ∧ t.rme = s.rme ∧ t.links = s.links ∧ t.powerPart = s.powerPart
    ∧ t.bootPart = s.bootPart ∧ t.life = s.life ∧ t.recSeg = s.recSeg ∧ t.lc = s.lc ∧ t.stayRecovery = s.stayRecovery ∧
    t.recoveries = s.recoveries ∧ t.dbg = s.dbg ∧ t.build = s.build ∧ t.pending = s.pending ∧ SameRegs [.act, .core, .err,
    .headgate, .home, .hub, .keep, .key, .mc, .die, .pcie, .pmu, .rme, .stripe, .sweep, .tile, .trace, .vz, .xbar] s t) ∧
  (∀ (s : State) (agent : Fin 42) (line : BitVec 46), Answers (.ack agent line) s fun t => t.chans = s.chans ∧ t.servos =
    s.servos ∧ t.furrow = s.furrow ∧ t.dies = s.dies ∧ t.stripes = s.stripes ∧ t.keyPart = s.keyPart ∧ t.hostPart = s.hostPart
    ∧ t.mapPart = s.mapPart ∧ t.lost = s.lost ∧ t.fill = s.fill ∧ t.rme = s.rme ∧ t.links = s.links ∧ t.powerPart = s.powerPart
    ∧ t.bootPart = s.bootPart ∧ t.life = s.life ∧ t.recSeg = s.recSeg ∧ t.lc = s.lc ∧ t.stayRecovery = s.stayRecovery ∧
    t.recoveries = s.recoveries ∧ t.dbg = s.dbg ∧ t.build = s.build ∧ t.pending = s.pending ∧ SameRegs [.act, .core, .err,
    .headgate, .home, .hub, .keep, .key, .mc, .die, .pcie, .pmu, .rme, .stripe, .sweep, .tile, .trace, .vz, .xbar] s t) ∧
  (∀ (s : State) (agent : Fin 42) (line : BitVec 46), Answers (.compAck agent line) s fun t => t.chans = s.chans ∧ t.servos =
    s.servos ∧ t.furrow = s.furrow ∧ t.dies = s.dies ∧ t.stripes = s.stripes ∧ t.keyPart = s.keyPart ∧ t.hostPart = s.hostPart
    ∧ t.mapPart = s.mapPart ∧ t.lost = s.lost ∧ t.fill = s.fill ∧ t.rme = s.rme ∧ t.links = s.links ∧ t.powerPart = s.powerPart
    ∧ t.bootPart = s.bootPart ∧ t.life = s.life ∧ t.recSeg = s.recSeg ∧ t.lc = s.lc ∧ t.stayRecovery = s.stayRecovery ∧
    t.recoveries = s.recoveries ∧ t.dbg = s.dbg ∧ t.build = s.build ∧ t.pending = s.pending ∧ SameRegs [.act, .core, .err,
    .headgate, .home, .hub, .keep, .key, .mc, .die, .pcie, .pmu, .rme, .stripe, .sweep, .tile, .trace, .vz, .xbar] s t) ∧
  (∀ (s : State) (agent : Fin 42) (line : BitVec 46) (par : Parity), Answers (.snpS agent line par) s fun t => t.chans =
    s.chans ∧ t.servos = s.servos ∧ t.furrow = s.furrow ∧ t.dies = s.dies ∧ t.stripes = s.stripes ∧ t.keyPart = s.keyPart ∧
    t.hostPart = s.hostPart ∧ t.mapPart = s.mapPart ∧ t.lost = s.lost ∧ t.fill = s.fill ∧ t.rme = s.rme ∧ t.links = s.links ∧
    t.powerPart = s.powerPart ∧ t.bootPart = s.bootPart ∧ t.life = s.life ∧ t.recSeg = s.recSeg ∧ t.lc = s.lc ∧ t.stayRecovery
    = s.stayRecovery ∧ t.recoveries = s.recoveries ∧ t.dbg = s.dbg ∧ t.build = s.build ∧ t.pending = s.pending ∧ SameRegs
    [.act, .core, .err, .headgate, .home, .hub, .keep, .key, .mc, .die, .pcie, .pmu, .rme, .stripe, .sweep, .tile, .trace, .vz,
    .xbar] s t) ∧
  (∀ (s : State) (agent : Fin 42) (line : BitVec 46) (par : Parity), Answers (.snpU agent line par) s fun t => t.chans =
    s.chans ∧ t.servos = s.servos ∧ t.furrow = s.furrow ∧ t.dies = s.dies ∧ t.stripes = s.stripes ∧ t.keyPart = s.keyPart ∧
    t.hostPart = s.hostPart ∧ t.mapPart = s.mapPart ∧ t.lost = s.lost ∧ t.fill = s.fill ∧ t.rme = s.rme ∧ t.links = s.links ∧
    t.powerPart = s.powerPart ∧ t.bootPart = s.bootPart ∧ t.life = s.life ∧ t.recSeg = s.recSeg ∧ t.lc = s.lc ∧ t.stayRecovery
    = s.stayRecovery ∧ t.recoveries = s.recoveries ∧ t.dbg = s.dbg ∧ t.build = s.build ∧ t.pending = s.pending ∧ SameRegs
    [.act, .core, .err, .headgate, .home, .hub, .keep, .key, .mc, .die, .pcie, .pmu, .rme, .stripe, .sweep, .tile, .trace, .vz,
    .xbar] s t) ∧
  (∀ (s : State) (agent : Fin 42) (line : BitVec 46) (par : Parity), Answers (.snpInv agent line par) s fun t => t.chans =
    s.chans ∧ t.servos = s.servos ∧ t.furrow = s.furrow ∧ t.dies = s.dies ∧ t.stripes = s.stripes ∧ t.keyPart = s.keyPart ∧
    t.hostPart = s.hostPart ∧ t.mapPart = s.mapPart ∧ t.lost = s.lost ∧ t.fill = s.fill ∧ t.rme = s.rme ∧ t.links = s.links ∧
    t.powerPart = s.powerPart ∧ t.bootPart = s.bootPart ∧ t.life = s.life ∧ t.recSeg = s.recSeg ∧ t.lc = s.lc ∧ t.stayRecovery
    = s.stayRecovery ∧ t.recoveries = s.recoveries ∧ t.dbg = s.dbg ∧ t.build = s.build ∧ t.pending = s.pending ∧ SameRegs
    [.act, .core, .err, .headgate, .home, .hub, .keep, .key, .mc, .die, .pcie, .pmu, .rme, .stripe, .sweep, .tile, .trace, .vz,
    .xbar] s t) ∧
  (∀ (s : State) (agent : Fin 42) (line : BitVec 46) (par : Parity), Answers (.snpOnce agent line par) s fun t => t.chans =
    s.chans ∧ t.servos = s.servos ∧ t.furrow = s.furrow ∧ t.dies = s.dies ∧ t.stripes = s.stripes ∧ t.keyPart = s.keyPart ∧
    t.hostPart = s.hostPart ∧ t.mapPart = s.mapPart ∧ t.lost = s.lost ∧ t.fill = s.fill ∧ t.rme = s.rme ∧ t.links = s.links ∧
    t.powerPart = s.powerPart ∧ t.bootPart = s.bootPart ∧ t.life = s.life ∧ t.recSeg = s.recSeg ∧ t.lc = s.lc ∧ t.stayRecovery
    = s.stayRecovery ∧ t.recoveries = s.recoveries ∧ t.dbg = s.dbg ∧ t.build = s.build ∧ t.pending = s.pending ∧ SameRegs
    [.act, .core, .err, .headgate, .home, .hub, .keep, .key, .mc, .die, .pcie, .pmu, .rme, .stripe, .sweep, .tile, .trace, .vz,
    .xbar] s t) ∧
  (∀ (s : State) (agent : Fin 42) (line : BitVec 46) (par : Parity), Answers (.snpClean agent line par) s fun t => t.chans =
    s.chans ∧ t.servos = s.servos ∧ t.furrow = s.furrow ∧ t.dies = s.dies ∧ t.stripes = s.stripes ∧ t.keyPart = s.keyPart ∧
    t.hostPart = s.hostPart ∧ t.mapPart = s.mapPart ∧ t.lost = s.lost ∧ t.fill = s.fill ∧ t.rme = s.rme ∧ t.links = s.links ∧
    t.powerPart = s.powerPart ∧ t.bootPart = s.bootPart ∧ t.life = s.life ∧ t.recSeg = s.recSeg ∧ t.lc = s.lc ∧ t.stayRecovery
    = s.stayRecovery ∧ t.recoveries = s.recoveries ∧ t.dbg = s.dbg ∧ t.build = s.build ∧ t.pending = s.pending ∧ SameRegs
    [.act, .core, .err, .headgate, .home, .hub, .keep, .key, .mc, .die, .pcie, .pmu, .rme, .stripe, .sweep, .tile, .trace, .vz,
    .xbar] s t) ∧
  (∀ (s : State) (port : Fin 50) (txn : Fin 1024), Answers (.data port txn) s fun t => t.chans = s.chans ∧ t.servos = s.servos
    ∧ t.furrow = s.furrow ∧ t.dies = s.dies ∧ t.stripes = s.stripes ∧ t.keyPart = s.keyPart ∧ t.hostPart = s.hostPart ∧
    t.mapPart = s.mapPart ∧ t.lost = s.lost ∧ t.fill = s.fill ∧ t.rme = s.rme ∧ t.links = s.links ∧ t.powerPart = s.powerPart ∧
    t.bootPart = s.bootPart ∧ t.life = s.life ∧ t.recSeg = s.recSeg ∧ t.lc = s.lc ∧ t.stayRecovery = s.stayRecovery ∧
    t.recoveries = s.recoveries ∧ t.dbg = s.dbg ∧ t.build = s.build ∧ t.pending = s.pending ∧ SameRegs [.act, .core, .err,
    .headgate, .home, .hub, .keep, .key, .mc, .die, .pcie, .pmu, .rme, .stripe, .sweep, .tile, .trace, .vz, .xbar] s t) ∧
  (∀ (s : State) (port : Fin 50) (txn : Fin 1024), Answers (.comp port txn) s fun t => t.chans = s.chans ∧ t.servos = s.servos
    ∧ t.furrow = s.furrow ∧ t.dies = s.dies ∧ t.stripes = s.stripes ∧ t.keyPart = s.keyPart ∧ t.hostPart = s.hostPart ∧
    t.mapPart = s.mapPart ∧ t.lost = s.lost ∧ t.fill = s.fill ∧ t.rme = s.rme ∧ t.links = s.links ∧ t.powerPart = s.powerPart ∧
    t.bootPart = s.bootPart ∧ t.life = s.life ∧ t.recSeg = s.recSeg ∧ t.lc = s.lc ∧ t.stayRecovery = s.stayRecovery ∧
    t.recoveries = s.recoveries ∧ t.dbg = s.dbg ∧ t.build = s.build ∧ t.pending = s.pending ∧ SameRegs [.act, .core, .err,
    .headgate, .home, .hub, .keep, .key, .mc, .die, .pcie, .pmu, .rme, .stripe, .sweep, .tile, .trace, .vz, .xbar] s t) ∧
  (∀ (s : State) (agent : Fin 42) (line : BitVec 46), Answers (.wbAck agent line) s fun t => t.chans = s.chans ∧ t.servos =
    s.servos ∧ t.furrow = s.furrow ∧ t.dies = s.dies ∧ t.stripes = s.stripes ∧ t.keyPart = s.keyPart ∧ t.hostPart = s.hostPart
    ∧ t.mapPart = s.mapPart ∧ t.lost = s.lost ∧ t.fill = s.fill ∧ t.rme = s.rme ∧ t.links = s.links ∧ t.powerPart = s.powerPart
    ∧ t.bootPart = s.bootPart ∧ t.life = s.life ∧ t.recSeg = s.recSeg ∧ t.lc = s.lc ∧ t.stayRecovery = s.stayRecovery ∧
    t.recoveries = s.recoveries ∧ t.dbg = s.dbg ∧ t.build = s.build ∧ t.pending = s.pending ∧ SameRegs [.act, .core, .err,
    .headgate, .home, .hub, .keep, .key, .mc, .die, .pcie, .pmu, .rme, .stripe, .sweep, .tile, .trace, .vz, .xbar] s t) ∧
  (∀ (s : State) (agent : Fin 42) (line : BitVec 46), Answers (.evictAck agent line) s fun t => t.chans = s.chans ∧ t.servos =
    s.servos ∧ t.furrow = s.furrow ∧ t.dies = s.dies ∧ t.stripes = s.stripes ∧ t.keyPart = s.keyPart ∧ t.hostPart = s.hostPart
    ∧ t.mapPart = s.mapPart ∧ t.lost = s.lost ∧ t.fill = s.fill ∧ t.rme = s.rme ∧ t.links = s.links ∧ t.powerPart = s.powerPart
    ∧ t.bootPart = s.bootPart ∧ t.life = s.life ∧ t.recSeg = s.recSeg ∧ t.lc = s.lc ∧ t.stayRecovery = s.stayRecovery ∧
    t.recoveries = s.recoveries ∧ t.dbg = s.dbg ∧ t.build = s.build ∧ t.pending = s.pending ∧ SameRegs [.act, .core, .err,
    .headgate, .home, .hub, .keep, .key, .mc, .die, .pcie, .pmu, .rme, .stripe, .sweep, .tile, .trace, .vz, .xbar] s t) ∧
  (∀ (s : State) (port : Fin 50) (txn : Fin 1024), Answers (.err port txn) s fun t => t.chans = s.chans ∧ t.servos = s.servos ∧
    t.furrow = s.furrow ∧ t.dies = s.dies ∧ t.stripes = s.stripes ∧ t.keyPart = s.keyPart ∧ t.hostPart = s.hostPart ∧ t.mapPart
    = s.mapPart ∧ t.lost = s.lost ∧ t.fill = s.fill ∧ t.rme = s.rme ∧ t.links = s.links ∧ t.powerPart = s.powerPart ∧
    t.bootPart = s.bootPart ∧ t.life = s.life ∧ t.recSeg = s.recSeg ∧ t.lc = s.lc ∧ t.stayRecovery = s.stayRecovery ∧
    t.recoveries = s.recoveries ∧ t.dbg = s.dbg ∧ t.build = s.build ∧ t.pending = s.pending ∧ SameRegs [.act, .core, .err,
    .headgate, .home, .hub, .keep, .key, .mc, .die, .pcie, .pmu, .rme, .stripe, .sweep, .tile, .trace, .vz, .xbar] s t) ∧
  (∀ (s : State) (tile : Fin 36) (core : Fin 8) (line : BitVec 46), Answers (.getS tile core line) s fun t => t.lanes = s.lanes
    ∧ t.chans = s.chans ∧ t.servos = s.servos ∧ t.furrow = s.furrow ∧ t.dies = s.dies ∧ t.stripes = s.stripes ∧ t.keyPart =
    s.keyPart ∧ t.hostPart = s.hostPart ∧ t.mapPart = s.mapPart ∧ t.dram = s.dram ∧ t.poison = s.poison ∧ t.lost = s.lost ∧
    t.fresh = s.fresh ∧ t.flips = s.flips ∧ t.stackPart = s.stackPart ∧ t.homes = s.homes ∧ t.amoHist = s.amoHist ∧ t.heldTxn =
    s.heldTxn ∧ t.rme = s.rme ∧ t.links = s.links ∧ t.powerPart = s.powerPart ∧ t.bootPart = s.bootPart ∧ t.life = s.life ∧
    t.recSeg = s.recSeg ∧ t.lc = s.lc ∧ t.stayRecovery = s.stayRecovery ∧ t.recoveries = s.recoveries ∧ t.dbg = s.dbg ∧ t.build
    = s.build ∧ t.pending = s.pending ∧ SameRegs [.act, .core, .err, .keep, .die, .pcie, .tile, .trace] s t) ∧
  (∀ (s : State) (tile : Fin 36) (core : Fin 8) (line : BitVec 46), Answers (.getU tile core line) s fun t => t.lanes = s.lanes
    ∧ t.chans = s.chans ∧ t.servos = s.servos ∧ t.furrow = s.furrow ∧ t.dies = s.dies ∧ t.stripes = s.stripes ∧ t.keyPart =
    s.keyPart ∧ t.hostPart = s.hostPart ∧ t.mapPart = s.mapPart ∧ t.dram = s.dram ∧ t.poison = s.poison ∧ t.lost = s.lost ∧
    t.fresh = s.fresh ∧ t.flips = s.flips ∧ t.stackPart = s.stackPart ∧ t.homes = s.homes ∧ t.amoHist = s.amoHist ∧ t.heldTxn =
    s.heldTxn ∧ t.rme = s.rme ∧ t.links = s.links ∧ t.powerPart = s.powerPart ∧ t.bootPart = s.bootPart ∧ t.life = s.life ∧
    t.recSeg = s.recSeg ∧ t.lc = s.lc ∧ t.stayRecovery = s.stayRecovery ∧ t.recoveries = s.recoveries ∧ t.dbg = s.dbg ∧ t.build
    = s.build ∧ t.pending = s.pending ∧ SameRegs [.act, .core, .err, .keep, .die, .pcie, .tile, .trace] s t) ∧
  (∀ (s : State) (tile : Fin 36) (core : Fin 8) (line : BitVec 46), Answers (.tileUpg tile core line) s fun t => t.lanes =
    s.lanes ∧ t.chans = s.chans ∧ t.servos = s.servos ∧ t.furrow = s.furrow ∧ t.dies = s.dies ∧ t.stripes = s.stripes ∧
    t.keyPart = s.keyPart ∧ t.hostPart = s.hostPart ∧ t.mapPart = s.mapPart ∧ t.dram = s.dram ∧ t.poison = s.poison ∧ t.lost =
    s.lost ∧ t.fresh = s.fresh ∧ t.flips = s.flips ∧ t.stackPart = s.stackPart ∧ t.homes = s.homes ∧ t.amoHist = s.amoHist ∧
    t.heldTxn = s.heldTxn ∧ t.rme = s.rme ∧ t.links = s.links ∧ t.powerPart = s.powerPart ∧ t.bootPart = s.bootPart ∧ t.life =
    s.life ∧ t.recSeg = s.recSeg ∧ t.lc = s.lc ∧ t.stayRecovery = s.stayRecovery ∧ t.recoveries = s.recoveries ∧ t.dbg = s.dbg
    ∧ t.build = s.build ∧ t.pending = s.pending ∧ SameRegs [.act, .core, .err, .keep, .die, .pcie, .tile, .trace] s t) ∧
  (∀ (s : State) (tile : Fin 36) (core : Fin 8) (line : BitVec 46), Answers (.put tile core line) s fun t => t.lanes = s.lanes
    ∧ t.chans = s.chans ∧ t.servos = s.servos ∧ t.furrow = s.furrow ∧ t.dies = s.dies ∧ t.stripes = s.stripes ∧ t.keyPart =
    s.keyPart ∧ t.hostPart = s.hostPart ∧ t.mapPart = s.mapPart ∧ t.dram = s.dram ∧ t.poison = s.poison ∧ t.lost = s.lost ∧
    t.fresh = s.fresh ∧ t.flips = s.flips ∧ t.stackPart = s.stackPart ∧ t.homes = s.homes ∧ t.tiles = s.tiles ∧ t.amoHist =
    s.amoHist ∧ t.heldTxn = s.heldTxn ∧ t.rme = s.rme ∧ t.links = s.links ∧ t.powerPart = s.powerPart ∧ t.bootPart = s.bootPart
    ∧ t.life = s.life ∧ t.recSeg = s.recSeg ∧ t.lc = s.lc ∧ t.stayRecovery = s.stayRecovery ∧ t.recoveries = s.recoveries ∧
    t.dbg = s.dbg ∧ t.build = s.build ∧ t.pending = s.pending ∧ SameRegs [.act, .core, .err, .keep, .die, .pcie, .tile, .trace]
    s t) ∧
  (∀ (s : State) (tile : Fin 36) (core : CoreAsk) (line : BitVec 46), Answers (.tInv tile core line) s fun t => t.chans =
    s.chans ∧ t.servos = s.servos ∧ t.furrow = s.furrow ∧ t.dies = s.dies ∧ t.stripes = s.stripes ∧ t.keyPart = s.keyPart ∧
    t.hostPart = s.hostPart ∧ t.mapPart = s.mapPart ∧ t.lost = s.lost ∧ t.fill = s.fill ∧ t.rme = s.rme ∧ t.links = s.links ∧
    t.powerPart = s.powerPart ∧ t.bootPart = s.bootPart ∧ t.life = s.life ∧ t.recSeg = s.recSeg ∧ t.lc = s.lc ∧ t.stayRecovery
    = s.stayRecovery ∧ t.recoveries = s.recoveries ∧ t.dbg = s.dbg ∧ t.build = s.build ∧ t.pending = s.pending ∧ SameRegs
    [.act, .core, .err, .headgate, .home, .hub, .keep, .key, .mc, .die, .pcie, .pmu, .rme, .stripe, .sweep, .tile, .trace, .vz,
    .xbar] s t) ∧
  (∀ (s : State) (tile : Fin 36) (core : CoreAsk) (line : BitVec 46), Answers (.tDown tile core line) s fun t => t.chans =
    s.chans ∧ t.servos = s.servos ∧ t.furrow = s.furrow ∧ t.dies = s.dies ∧ t.stripes = s.stripes ∧ t.keyPart = s.keyPart ∧
    t.hostPart = s.hostPart ∧ t.mapPart = s.mapPart ∧ t.lost = s.lost ∧ t.fill = s.fill ∧ t.rme = s.rme ∧ t.links = s.links ∧
    t.powerPart = s.powerPart ∧ t.bootPart = s.bootPart ∧ t.life = s.life ∧ t.recSeg = s.recSeg ∧ t.lc = s.lc ∧ t.stayRecovery
    = s.stayRecovery ∧ t.recoveries = s.recoveries ∧ t.dbg = s.dbg ∧ t.build = s.build ∧ t.pending = s.pending ∧ SameRegs
    [.act, .core, .err, .headgate, .home, .hub, .keep, .key, .mc, .die, .pcie, .pmu, .rme, .stripe, .sweep, .tile, .trace, .vz,
    .xbar] s t) ∧
  (∀ (s : State) (tile : Fin 36) (core : CoreAsk) (line : BitVec 46), Answers (.tFetch tile core line) s fun t => t.chans =
    s.chans ∧ t.servos = s.servos ∧ t.furrow = s.furrow ∧ t.dies = s.dies ∧ t.stripes = s.stripes ∧ t.keyPart = s.keyPart ∧
    t.hostPart = s.hostPart ∧ t.mapPart = s.mapPart ∧ t.lost = s.lost ∧ t.fill = s.fill ∧ t.rme = s.rme ∧ t.links = s.links ∧
    t.powerPart = s.powerPart ∧ t.bootPart = s.bootPart ∧ t.life = s.life ∧ t.recSeg = s.recSeg ∧ t.lc = s.lc ∧ t.stayRecovery
    = s.stayRecovery ∧ t.recoveries = s.recoveries ∧ t.dbg = s.dbg ∧ t.build = s.build ∧ t.pending = s.pending ∧ SameRegs
    [.act, .core, .err, .headgate, .home, .hub, .keep, .key, .mc, .die, .pcie, .pmu, .rme, .stripe, .sweep, .tile, .trace, .vz,
    .xbar] s t) ∧
  (∀ (s : State) (tile : Fin 36) (core : Fin 8) (line : BitVec 46), Answers (.tData tile core line) s fun t => t.chans =
    s.chans ∧ t.servos = s.servos ∧ t.furrow = s.furrow ∧ t.dies = s.dies ∧ t.stripes = s.stripes ∧ t.keyPart = s.keyPart ∧
    t.hostPart = s.hostPart ∧ t.mapPart = s.mapPart ∧ t.lost = s.lost ∧ t.fill = s.fill ∧ t.rme = s.rme ∧ t.links = s.links ∧
    t.powerPart = s.powerPart ∧ t.bootPart = s.bootPart ∧ t.life = s.life ∧ t.recSeg = s.recSeg ∧ t.lc = s.lc ∧ t.stayRecovery
    = s.stayRecovery ∧ t.recoveries = s.recoveries ∧ t.dbg = s.dbg ∧ t.build = s.build ∧ t.pending = s.pending ∧ SameRegs
    [.act, .core, .err, .headgate, .home, .hub, .keep, .key, .mc, .die, .pcie, .pmu, .rme, .stripe, .sweep, .tile, .trace, .vz,
    .xbar] s t) ∧
  (∀ (s : State) (ch : Fin 2), Answers (.rmeDone ch) s fun t => t.lanes = s.lanes ∧ t.chans = s.chans ∧ t.servos = s.servos ∧
    t.furrow = s.furrow ∧ t.dies = s.dies ∧ t.stripes = s.stripes ∧ t.keyPart = s.keyPart ∧ t.hostPart = s.hostPart ∧ t.mapPart
    = s.mapPart ∧ t.lost = s.lost ∧ t.fill = s.fill ∧ t.copies = s.copies ∧ t.cores = s.cores ∧ t.l1s = s.l1s ∧ t.tiles =
    s.tiles ∧ t.evbufs = s.evbufs ∧ t.reqs = s.reqs ∧ t.heldTxn = s.heldTxn ∧ t.links = s.links ∧ t.powerPart = s.powerPart ∧
    t.bootPart = s.bootPart ∧ t.life = s.life ∧ t.recSeg = s.recSeg ∧ t.lc = s.lc ∧ t.stayRecovery = s.stayRecovery ∧
    t.recoveries = s.recoveries ∧ t.dbg = s.dbg ∧ t.build = s.build ∧ t.pending = s.pending ∧ SameRegs [.act, .err, .home,
    .hub, .keep, .mc, .pmu, .rme, .trace, .vz] s t) ∧
  (∀ (s : State) (port : Fin 50) (txn : Fin 1024), Answers (.ncData port txn) s fun t => t.chans = s.chans ∧ t.servos =
    s.servos ∧ t.furrow = s.furrow ∧ t.dies = s.dies ∧ t.stripes = s.stripes ∧ t.keyPart = s.keyPart ∧ t.hostPart = s.hostPart
    ∧ t.mapPart = s.mapPart ∧ t.lost = s.lost ∧ t.fill = s.fill ∧ t.rme = s.rme ∧ t.links = s.links ∧ t.powerPart = s.powerPart
    ∧ t.bootPart = s.bootPart ∧ t.life = s.life ∧ t.recSeg = s.recSeg ∧ t.lc = s.lc ∧ t.stayRecovery = s.stayRecovery ∧
    t.recoveries = s.recoveries ∧ t.dbg = s.dbg ∧ t.build = s.build ∧ t.pending = s.pending ∧ SameRegs [.act, .core, .err,
    .headgate, .home, .hub, .keep, .key, .mc, .die, .pcie, .pmu, .rme, .stripe, .sweep, .tile, .trace, .vz, .xbar] s t) ∧
  (∀ (s : State) (port : Fin 50) (txn : Fin 1024), Answers (.ncAck port txn) s fun t => t.chans = s.chans ∧ t.servos = s.servos
    ∧ t.furrow = s.furrow ∧ t.dies = s.dies ∧ t.stripes = s.stripes ∧ t.keyPart = s.keyPart ∧ t.hostPart = s.hostPart ∧
    t.mapPart = s.mapPart ∧ t.lost = s.lost ∧ t.fill = s.fill ∧ t.rme = s.rme ∧ t.links = s.links ∧ t.powerPart = s.powerPart ∧
    t.bootPart = s.bootPart ∧ t.life = s.life ∧ t.recSeg = s.recSeg ∧ t.lc = s.lc ∧ t.stayRecovery = s.stayRecovery ∧
    t.recoveries = s.recoveries ∧ t.dbg = s.dbg ∧ t.build = s.build ∧ t.pending = s.pending ∧ SameRegs [.act, .core, .err,
    .headgate, .home, .hub, .keep, .key, .mc, .die, .pcie, .pmu, .rme, .stripe, .sweep, .tile, .trace, .vz, .xbar] s t) ∧
  (∀ (s : State) (n : Fin 45) (o : VzObs), Answers (.vzStepDone n o) s fun t => t.lanes = s.lanes ∧ t.chans = s.chans ∧
    t.servos = s.servos ∧ t.furrow = s.furrow ∧ t.dies = s.dies ∧ t.stripes = s.stripes ∧ t.keyPart = s.keyPart ∧ t.hostPart =
    s.hostPart ∧ t.mapPart = s.mapPart ∧ t.lost = s.lost ∧ t.fill = s.fill ∧ t.copies = s.copies ∧ t.cores = s.cores ∧ t.l1s =
    s.l1s ∧ t.tiles = s.tiles ∧ t.evbufs = s.evbufs ∧ t.heldTxn = s.heldTxn ∧ t.rme = s.rme ∧ t.powerPart = s.powerPart ∧
    t.bootPart = s.bootPart ∧ t.life = s.life ∧ t.recSeg = s.recSeg ∧ t.lc = s.lc ∧ t.stayRecovery = s.stayRecovery ∧
    t.recoveries = s.recoveries ∧ t.dbg = s.dbg ∧ t.build = s.build ∧ t.pending = s.pending) ∧
  (∀ (s : State) (n : Fin 45), Answers (.vzMismatchHoldEnd n) s fun t => t.lanes = s.lanes ∧ t.chans = s.chans ∧ t.servos =
    s.servos ∧ t.furrow = s.furrow ∧ t.dies = s.dies ∧ t.stripes = s.stripes ∧ t.keyPart = s.keyPart ∧ t.hostPart = s.hostPart
    ∧ t.mapPart = s.mapPart ∧ t.lost = s.lost ∧ t.fill = s.fill ∧ t.copies = s.copies ∧ t.cores = s.cores ∧ t.l1s = s.l1s ∧
    t.tiles = s.tiles ∧ t.evbufs = s.evbufs ∧ t.heldTxn = s.heldTxn ∧ t.rme = s.rme ∧ t.powerPart = s.powerPart ∧ t.bootPart =
    s.bootPart ∧ t.life = s.life ∧ t.recSeg = s.recSeg ∧ t.lc = s.lc ∧ t.stayRecovery = s.stayRecovery ∧ t.recoveries =
    s.recoveries ∧ t.dbg = s.dbg ∧ t.build = s.build ∧ t.pending = s.pending ∧ SameRegs [.act, .err, .home, .keep, .mc, .pmu,
    .rme, .trace, .vz] s t) ∧
  (∀ (s : State) (n : Fin 45), Answers (.vzStepTimeout n) s fun t => t.lanes = s.lanes ∧ t.chans = s.chans ∧ t.servos =
    s.servos ∧ t.furrow = s.furrow ∧ t.dies = s.dies ∧ t.stripes = s.stripes ∧ t.keyPart = s.keyPart ∧ t.hostPart = s.hostPart
    ∧ t.mapPart = s.mapPart ∧ t.lost = s.lost ∧ t.fill = s.fill ∧ t.copies = s.copies ∧ t.cores = s.cores ∧ t.l1s = s.l1s ∧
    t.tiles = s.tiles ∧ t.evbufs = s.evbufs ∧ t.heldTxn = s.heldTxn ∧ t.rme = s.rme ∧ t.powerPart = s.powerPart ∧ t.bootPart =
    s.bootPart ∧ t.life = s.life ∧ t.recSeg = s.recSeg ∧ t.lc = s.lc ∧ t.stayRecovery = s.stayRecovery ∧ t.recoveries =
    s.recoveries ∧ t.dbg = s.dbg ∧ t.build = s.build ∧ t.pending = s.pending ∧ SameRegs [.act, .err, .home, .keep, .mc, .pmu,
    .rme, .trace, .vz] s t) ∧
  (∀ (s : State) (n : Fin 45) (en : Bool), Answers (.vzEnable n en) s fun t => t.lanes = s.lanes ∧ t.chans = s.chans ∧ t.servos
    = s.servos ∧ t.furrow = s.furrow ∧ t.dies = s.dies ∧ t.stripes = s.stripes ∧ t.keyPart = s.keyPart ∧ t.hostPart =
    s.hostPart ∧ t.mapPart = s.mapPart ∧ t.lost = s.lost ∧ t.fill = s.fill ∧ t.copies = s.copies ∧ t.cores = s.cores ∧ t.l1s =
    s.l1s ∧ t.tiles = s.tiles ∧ t.evbufs = s.evbufs ∧ t.heldTxn = s.heldTxn ∧ t.rme = s.rme ∧ t.powerPart = s.powerPart ∧
    t.bootPart = s.bootPart ∧ t.life = s.life ∧ t.recSeg = s.recSeg ∧ t.lc = s.lc ∧ t.stayRecovery = s.stayRecovery ∧
    t.recoveries = s.recoveries ∧ t.dbg = s.dbg ∧ t.build = s.build ∧ t.pending = s.pending ∧ SameRegs [.act, .err, .home,
    .keep, .mc, .pmu, .rme, .trace, .vz] s t) ∧
  (∀ (s : State) (n : Fin 45) (loss : Bool), Answers (.isolateSet n loss) s fun t => t.lanes = s.lanes ∧ t.chans = s.chans ∧
    t.servos = s.servos ∧ t.furrow = s.furrow ∧ t.dies = s.dies ∧ t.stripes = s.stripes ∧ t.keyPart = s.keyPart ∧ t.hostPart =
    s.hostPart ∧ t.mapPart = s.mapPart ∧ t.lost = s.lost ∧ t.fill = s.fill ∧ t.copies = s.copies ∧ t.cores = s.cores ∧ t.l1s =
    s.l1s ∧ t.tiles = s.tiles ∧ t.evbufs = s.evbufs ∧ t.heldTxn = s.heldTxn ∧ t.rme = s.rme ∧ t.powerPart = s.powerPart ∧
    t.bootPart = s.bootPart ∧ t.life = s.life ∧ t.recSeg = s.recSeg ∧ t.lc = s.lc ∧ t.stayRecovery = s.stayRecovery ∧
    t.recoveries = s.recoveries ∧ t.dbg = s.dbg ∧ t.build = s.build ∧ t.pending = s.pending ∧ SameRegs [.act, .err, .home,
    .keep, .mc, .pmu, .rme, .trace, .vz] s t) ∧
  (∀ (s : State) (d : Fin 43), Answers (.domainChangeDone d) s fun t => t.sweep = s.sweep ∧ t.hg = s.hg ∧ t.fwLog = s.fwLog ∧
    t.mbHeld = s.mbHeld ∧ t.mbTmo = s.mbTmo ∧ t.mapPart = s.mapPart ∧ t.lost = s.lost ∧ t.fill = s.fill ∧ t.heldTxn = s.heldTxn
    ∧ t.rme = s.rme ∧ t.mode = s.mode ∧ t.vrEn = s.vrEn ∧ t.straps = s.straps ∧ t.thermTrip = s.thermTrip ∧ t.wake = s.wake ∧
    t.pmb = s.pmb ∧ t.vin = s.vin ∧ t.vinAt = s.vinAt ∧ t.wakeBad = s.wakeBad ∧ t.sealGen = s.sealGen ∧ t.presence = s.presence
    ∧ t.weir = s.weir ∧ t.freqTo = s.freqTo ∧ t.pwrHeld = s.pwrHeld ∧ t.pwrNext = s.pwrNext ∧ t.pkgTicks = s.pkgTicks ∧
    t.bootPart = s.bootPart ∧ t.life = s.life ∧ t.recSeg = s.recSeg ∧ t.lc = s.lc ∧ t.stayRecovery = s.stayRecovery ∧
    t.recoveries = s.recoveries ∧ t.dbg = s.dbg ∧ t.build = s.build ∧ t.pending = s.pending) ∧
  (∀ (s : State) (head : FlashHead), Answers (.loadingBegin head) s fun t => t.lanes = s.lanes ∧ t.chans = s.chans ∧ t.servos =
    s.servos ∧ t.furrow = s.furrow ∧ t.dies = s.dies ∧ t.stripes = s.stripes ∧ t.keyPart = s.keyPart ∧ t.hostPart = s.hostPart
    ∧ t.wmapNow = s.wmapNow ∧ t.wmapNext = s.wmapNext ∧ t.mregNext = s.mregNext ∧ t.iowOld = s.iowOld ∧ t.lost = s.lost ∧
    t.copies = s.copies ∧ t.cores = s.cores ∧ t.l1s = s.l1s ∧ t.tiles = s.tiles ∧ t.evbufs = s.evbufs ∧ t.heldTxn = s.heldTxn ∧
    t.rme = s.rme ∧ t.powerPart = s.powerPart ∧ t.boot = s.boot ∧ t.tileOp = s.tileOp ∧ t.life = s.life ∧ t.recSeg = s.recSeg ∧
    t.lc = s.lc ∧ t.stayRecovery = s.stayRecovery ∧ t.recoveries = s.recoveries ∧ t.dbg = s.dbg ∧ t.build = s.build ∧ t.pending
    = s.pending) ∧
  (∀ (s : State), Answers (.loadingEnd) s fun t => t.lanes = s.lanes ∧ t.chans = s.chans ∧ t.servos = s.servos ∧ t.sluices =
    s.sluices ∧ t.furrow = s.furrow ∧ t.stripes = s.stripes ∧ t.ports = s.ports ∧ t.xrings = s.xrings ∧ t.hg = s.hg ∧ t.mbHeld
    = s.mbHeld ∧ t.mbTmo = s.mbTmo ∧ t.mapPart = s.mapPart ∧ t.lost = s.lost ∧ t.mcLog = s.mcLog ∧ t.fill = s.fill ∧
    t.cachePart = s.cachePart ∧ t.fabricPart = s.fabricPart ∧ t.vrEn = s.vrEn ∧ t.straps = s.straps ∧ t.thermTrip = s.thermTrip
    ∧ t.wake = s.wake ∧ t.pmb = s.pmb ∧ t.vin = s.vin ∧ t.vinAt = s.vinAt ∧ t.wakeBad = s.wakeBad ∧ t.sealGen = s.sealGen ∧
    t.presence = s.presence ∧ t.clocks = s.clocks ∧ t.deep = s.deep ∧ t.weir = s.weir ∧ t.freqTo = s.freqTo ∧ t.domTo = s.domTo
    ∧ t.pwrHeld = s.pwrHeld ∧ t.pwrNext = s.pwrNext ∧ t.pkgTicks = s.pkgTicks ∧ t.svid = s.svid ∧ t.ssid = s.ssid ∧ t.powerQ =
    s.powerQ ∧ t.halves = s.halves ∧ t.tileOp = s.tileOp ∧ t.life = s.life ∧ t.recSeg = s.recSeg ∧ t.lc = s.lc ∧ t.st = s.st ∧
    t.stayRecovery = s.stayRecovery ∧ t.dbg = s.dbg ∧ t.errLog = s.errLog ∧ t.fatal = s.fatal ∧ t.build = s.build ∧ SameRegs
    [.aon, .cfg, .err, .fn, .headgate, .key, .mc, .die, .pcie, .pmu, .sweep, .tile, .trace] s t) ∧
  (∀ (s : State) (u : UnitId), Answers (.unitReadyRise u) s fun t => t.lanes = s.lanes ∧ t.chans = s.chans ∧ t.servos =
    s.servos ∧ t.furrow = s.furrow ∧ t.dies = s.dies ∧ t.stripes = s.stripes ∧ t.keyPart = s.keyPart ∧ t.hostPart = s.hostPart
    ∧ t.mapPart = s.mapPart ∧ t.lost = s.lost ∧ t.fill = s.fill ∧ t.heldTxn = s.heldTxn ∧ t.rme = s.rme ∧ t.powerPart =
    s.powerPart ∧ t.load = s.load ∧ t.svid = s.svid ∧ t.ssid = s.ssid ∧ t.boot = s.boot ∧ t.tileOp = s.tileOp ∧ t.life = s.life
    ∧ t.recSeg = s.recSeg ∧ t.lc = s.lc ∧ t.stayRecovery = s.stayRecovery ∧ t.recoveries = s.recoveries ∧ t.dbg = s.dbg ∧
    t.build = s.build ∧ t.pending = s.pending) ∧
  (∀ (s : State), Answers (.lcCmdDone) s fun t => t.chans = s.chans ∧ t.servos = s.servos ∧ t.furrow = s.furrow ∧ t.dies =
    s.dies ∧ t.stripes = s.stripes ∧ t.sweep = s.sweep ∧ t.hg = s.hg ∧ t.mbHeld = s.mbHeld ∧ t.mbTmo = s.mbTmo ∧ t.mapPart =
    s.mapPart ∧ t.lost = s.lost ∧ t.fill = s.fill ∧ t.rme = s.rme ∧ t.links = s.links ∧ t.vrEn = s.vrEn ∧ t.straps = s.straps ∧
    t.thermTrip = s.thermTrip ∧ t.wake = s.wake ∧ t.pmb = s.pmb ∧ t.vin = s.vin ∧ t.vinAt = s.vinAt ∧ t.wakeBad = s.wakeBad ∧
    t.sealGen = s.sealGen ∧ t.presence = s.presence ∧ t.clocks = s.clocks ∧ t.deep = s.deep ∧ t.weir = s.weir ∧ t.freqTo =
    s.freqTo ∧ t.domTo = s.domTo ∧ t.pwrHeld = s.pwrHeld ∧ t.pwrNext = s.pwrNext ∧ t.pkgTicks = s.pkgTicks ∧ t.bootPart =
    s.bootPart ∧ t.stayRecovery = s.stayRecovery ∧ t.recoveries = s.recoveries ∧ t.dbg = s.dbg ∧ t.build = s.build ∧ SameRegs
    [.act, .aon, .cfg, .core, .err, .fn, .headgate, .home, .hub, .keep, .key, .mc, .die, .pcie, .pmu, .rme, .stripe, .sweep,
    .tile, .trace, .vz, .xbar] s t) ∧
  (∀ (s : State) (unit : Fin 64) (obs : ClassObs), Answers (.stClassDone unit obs) s fun t => t.hg = s.hg ∧ t.fwLog = s.fwLog ∧
    t.mbHeld = s.mbHeld ∧ t.mbTmo = s.mbTmo ∧ t.mapPart = s.mapPart ∧ t.lost = s.lost ∧ t.fill = s.fill ∧ t.rme = s.rme ∧
    t.mode = s.mode ∧ t.vrEn = s.vrEn ∧ t.straps = s.straps ∧ t.thermTrip = s.thermTrip ∧ t.wake = s.wake ∧ t.pmb = s.pmb ∧
    t.vin = s.vin ∧ t.vinAt = s.vinAt ∧ t.wakeBad = s.wakeBad ∧ t.sealGen = s.sealGen ∧ t.presence = s.presence ∧ t.weir =
    s.weir ∧ t.freqTo = s.freqTo ∧ t.domTo = s.domTo ∧ t.pwrHeld = s.pwrHeld ∧ t.pwrNext = s.pwrNext ∧ t.pkgTicks = s.pkgTicks
    ∧ t.bootPart = s.bootPart ∧ t.life = s.life ∧ t.recSeg = s.recSeg ∧ t.lc = s.lc ∧ t.stayRecovery = s.stayRecovery ∧
    t.recoveries = s.recoveries ∧ t.dbg = s.dbg ∧ t.build = s.build ∧ t.pending = s.pending) ∧
  (∀ (s : State) (unit : Fin 64) (classes : Fin 16) (w : World), Answers (.test unit classes w) s fun t => t.furrow = s.furrow
    ∧ t.stripes = s.stripes ∧ t.hostPart = s.hostPart ∧ t.mapPart = s.mapPart ∧ t.lost = s.lost ∧ t.fill = s.fill ∧ t.rme =
    s.rme ∧ t.links = s.links ∧ t.powerPart = s.powerPart ∧ t.bootPart = s.bootPart ∧ t.life = s.life ∧ t.recSeg = s.recSeg ∧
    t.lc = s.lc ∧ t.stayRecovery = s.stayRecovery ∧ t.recoveries = s.recoveries ∧ t.dbg = s.dbg ∧ t.build = s.build ∧ t.pending
    = s.pending ∧ SameRegs [.act, .core, .err, .headgate, .home, .hub, .keep, .key, .mc, .die, .pcie, .pmu, .rme, .stest,
    .stripe, .sweep, .tile, .trace, .vz, .xbar] s t)

/-- A step runs the command at the front of the queue (spec/01_shelf_processor.md: One shape for every unit,
spec/15_power_modes_and_wake.md: Clocks, spec/10_cores_worlds_translation.md: Interrupts). A step with a command at the
front of the queue is that command executed with the queue's rest; with an empty queue one cycle of PKGCLK passes, in which
no command runs and no byte of memory and no hart changes. The queue is the model's (log 1), and so is the cycle on an
empty one (log 5). -/
def Obligations.StepRunsFront : Prop :=
  (∀ (s : State) (c : Instr) (rest : List Instr), step { s with pending := c :: rest } = exec c { s with pending := rest }) ∧
  (∀ s : State, s.pending = [] → ∃ t, step s = .next t ∧ t = s.tick ∧ t.pending = [] ∧ t.dataPart = s.dataPart ∧ t.harts = s.harts)

/-- The invariant holds at reset (spec/12_memory_and_protection.md: Write before read, spec/15_power_modes_and_wake.md: Modes
and their transitions). After reset the memories and the register table are in their canonical form: no byte of DRAM or
MRAM is listed, no entry repeats or equals what an unlisted address reads as, and no command waits. What an unlisted byte
reads as is the model's choice (log 14). -/
def Obligations.ResetInv : Prop :=
  State.reset.Inv ∧ State.reset.dram = [] ∧ State.reset.mram = [] ∧ State.reset.pending = []

/-- Every step keeps the canonical form of memory and registers (spec/00_scope.md: Register tables and access codes,
spec/12_memory_and_protection.md: Regions and the annex, spec/12_memory_and_protection.md: Write before read,
spec/18_errors_counters_trace.md: Poison). From every state in which DRAM, MRAM, poison and wrong bits are listed in rising
order without an entry equal to the default, and every register is listed at most once, every step leads to such a state.
-/
def Obligations.StepKeepsInv : Prop :=
  ∀ s t : State, s.Inv → step s = .next t → t.Inv

/-- Every command completes and leaves the queue and the build alone (spec/00_scope.md: What the manual covers,
spec/00_scope.md: Register tables and access codes). In every state every command answers a next state, never a fault or a
refusal, and changes neither the commands that wait nor the build of the package. -/
def Obligations.EveryCommandCompletes : Prop :=
  ∀ (c : Instr) (s : State), Answers c s fun t => t.pending = s.pending ∧ t.build = s.build

/-- Commands denied to the normal world (spec/00_scope.md: Register tables and access codes, spec/06_stripes_and_keys.md:
Registers, spec/07_format_and_sanitise.md: Registers, spec/10_cores_worlds_translation.md: The world map,
spec/10_cores_worlds_translation.md: Internal masters, spec/11_caches_and_coherence.md: The range maintenance engine,
spec/12_memory_and_protection.md: Registers, spec/15_power_modes_and_wake.md: Power domains and secure holds,
spec/16_configuration_and_lifecycle.md: Registers, spec/17_self_test_and_repair.md: Registers,
spec/18_errors_counters_trace.md: Package-fatal errors). Of the commands that only the secure world may give, each one
given from the normal world changes nothing but the record of a denied access in its unit: key commands, sweeps, commits of
the maps, worlds of masters, the fill, power holds, tile and lifecycle commands, direct tests and repair, FORCE, and
channel 1 of the range maintenance engine. -/
def Obligations.NormalWorldDenied : Prop :=
  (∀ (s : State) (slot : Fin 4096) (fn : Fin 1024) (ns : Fin 4), exec (.keyLoad .normal slot fn ns) s = .next (s.clean.denied .key)) ∧
  (∀ (s : State) (scope : Fin 3) (slot : Fin 4096), exec (.keyRestore .normal scope slot) s = .next (s.clean.denied .key)) ∧
  (∀ (s : State) (scope : Fin 3) (slot : Fin 4096) (fn : Fin 1024), exec (.keySuspend .normal scope slot fn) s = .next (s.clean.denied .key)) ∧
  (∀ (s : State) (scope : Fin 3) (slot : Fin 4096) (fn : Fin 1024), exec (.keyResume .normal scope slot fn) s = .next (s.clean.denied .key)) ∧
  (∀ (s : State) (scope : Fin 3) (slot : Fin 4096) (fn : Fin 1024), exec (.keyErase .normal scope slot fn) s = .next (s.clean.denied .key)) ∧
  (∀ (s : State) (op : Nat) (scope : Nat), exec (.keyCmdReserved .normal op scope) s = .next (s.clean.denied .key)) ∧
  (∀ (s : State) (verify : Bool) (shelf : Bool) (asm : Nat), exec (.format .normal verify shelf asm) s = .next (s.clean.denied .sweep)) ∧
  (∀ (s : State) (method : Fin 4) (passes : Fin 4) (verify : Bool) (shelf : Bool) (asm : Nat), exec (.sanitise .normal method passes verify shelf asm) s = .next (s.clean.denied .sweep)) ∧
  (∀ (s : State), exec (.resume .normal) s = .next (s.clean.denied .sweep)) ∧
  (∀ (s : State), exec (.abort .normal) s = .next (s.clean.denied .sweep)) ∧
  (∀ (s : State) (op : Nat), exec (.swpCmdReserved .normal op) s = .next (s.clean.denied .sweep)) ∧
  (∀ (s : State), exec (.wmapCommit .normal) s = .next (s.clean.denied .wmap)) ∧
  (∀ (s : State) (master : Fin 14) (secure : Bool), exec (.iowWorldChange master secure .normal) s = .next (s.clean.denied .iow)) ∧
  (∀ (s : State), exec (.memmapCommit .normal) s = .next (s.clean.denied .memmap)) ∧
  (∀ (s : State), exec (.fillGo .normal) s = .next (s.clean.denied .memmap)) ∧
  (∀ (s : State) (mask : BitVec 43), exec (.pwrHoldWrite mask .normal) s = .next (s.clean.denied .pwr)) ∧
  (∀ (s : State) (tile : Fin 32) (go : Bool), exec (.cfgStart tile go .normal) s = .next (s.clean.denied .cfg)) ∧
  (∀ (s : State) (tile : Fin 32), exec (.tileRetire tile .normal) s = .next (s.clean.denied .cfg)) ∧
  (∀ (s : State) (tile : Fin 32), exec (.tileAdd tile .normal) s = .next (s.clean.denied .cfg)) ∧
  (∀ (s : State) (tile : Fin 32), exec (.tileSwap tile .normal) s = .next (s.clean.denied .cfg)) ∧
  (∀ (s : State) (tile : Fin 32), exec (.tileCmdReserved tile .normal) s = .next (s.clean.denied .cfg)) ∧
  (∀ (s : State), exec (.provision .normal) s = .next (s.clean.denied .cfg)) ∧
  (∀ (s : State), exec (.deploy .normal) s = .next (s.clean.denied .cfg)) ∧
  (∀ (s : State), exec (.diag .normal) s = .next (s.clean.denied .cfg)) ∧
  (∀ (s : State), exec (.undiag .normal) s = .next (s.clean.denied .cfg)) ∧
  (∀ (s : State), exec (.retire .normal) s = .next (s.clean.denied .cfg)) ∧
  (∀ (s : State), exec (.diagMode .normal) s = .next (s.clean.denied .cfg)) ∧
  (∀ (s : State), exec (.storeRec .normal) s = .next (s.clean.denied .cfg)) ∧
  (∀ (s : State) (unit : Fin 64) (classes : Fin 16), exec (.test unit classes .normal) s = .next (s.clean.denied .stest)) ∧
  (∀ (s : State) (unit : Fin 64), exec (.fuse unit .normal) s = .next (s.clean.denied .stest)) ∧
  (∀ (s : State) (unit : Fin 64), exec (.clearSoft unit .normal) s = .next (s.clean.denied .stest)) ∧
  (∀ (s : State), exec (.force .normal) s = .next (s.clean.denied .err)) ∧
  (∀ (s : State) (agent : Fin 64), exec (.clean 1 agent .normal) s = .next (s.clean.denied .rme)) ∧
  (∀ (s : State) (agent : Fin 64), exec (.cleanInv 1 agent .normal) s = .next (s.clean.denied .rme)) ∧
  (∀ (s : State) (agent : Fin 64), exec (.inv 1 agent .normal) s = .next (s.clean.denied .rme)) ∧
  (∀ (s : State) (agent : Fin 64), exec (.recall 1 agent .normal) s = .next (s.clean.denied .rme))

/-- The stack and the local offset of a DRAM address (R363). Below 192 GiB the stack is the exclusive or of the nine groups
of address bits and the local offset joins bits 37 to 15 and bits 11 to 0; every 32 KiB block has one page in each stack; a
range whose base and size are multiples of 32 KiB occupies in every stack exactly the local offsets from base / 8 to (base
+ size) / 8. -/
def Obligations.StackMapping : Prop :=
  (∀ a : Nat, a < 192 * 2 ^ 30 →
    (stackOf a).val = bitsOf a 12 3 ^^^ bitsOf a 15 3 ^^^ bitsOf a 18 3 ^^^ bitsOf a 21 3 ^^^ bitsOf a 24 3 ^^^ bitsOf a 27 3 ^^^
      bitsOf a 30 3 ^^^ bitsOf a 33 3 ^^^ bitsOf a 36 2 ∧
    localOf a = bitsOf a 15 23 * 4096 + bitsOf a 0 12) ∧
  (∀ (b : Nat) (k : Fin 8), b * 2 ^ 15 < 192 * 2 ^ 30 →
    ∃ p : Fin 8, ∀ q : Fin 8, ∀ x : Fin 4096, stackOf (b * 2 ^ 15 + q.val * 4096 + x.val) = k ↔ q = p) ∧
  (∀ (b n o : Nat) (k : Fin 8), (b + n) * 2 ^ 15 ≤ 192 * 2 ^ 30 →
    ((b * 2 ^ 15 / 8 ≤ o ∧ o < (b * 2 ^ 15 + n * 2 ^ 15) / 8) ↔
      ∃ a, b * 2 ^ 15 ≤ a ∧ a < b * 2 ^ 15 + n * 2 ^ 15 ∧ stackOf a = k ∧ localOf a = o))

/-- The strong code of a byte (R367). Each data bit has the weight-3 column of the table, and the two weight-3 syndromes c0
c3 c4 and c2 c3 c4 match no bit; a syndrome of 0 is good, one of weight 1 leaves the data as it is and corrects the check
bit, a column corrects its data bit, and any other but 0x03 is an uncorrectable error. The check bits are those of the
equations, and the syndrome is the stored check bits exclusive or the recomputed ones. -/
def Obligations.StrongCode : Prop :=
  ((List.range 8).map (fun k => syndromeOf (2 ^ k)) = [0x07, 0x0B, 0x13, 0x0D, 0x15, 0x0E, 0x16, 0x1A]) ∧
  (∀ k : Fin 8, ((List.range 5).filter fun i => (syndromeOf (2 ^ k.val)).testBit i).length = 3) ∧
  (∀ k : Fin 13, syndromeOf (2 ^ k.val) ≠ 0x19 ∧ syndromeOf (2 ^ k.val) ≠ 0x1C) ∧
  (∀ v : Nat, judgeByte true v 0 = .good) ∧
  (∀ (v : Nat) (k : Fin 5), judgeByte true v (2 ^ k.val) = .corrected v) ∧
  (∀ (v : Nat) (k : Fin 8), judgeByte true v (syndromeOf (2 ^ k.val)) = .corrected (v ^^^ 2 ^ k.val)) ∧
  (∀ (v : Nat) (y : Fin 32), y.val ≠ 3 → y.val ≠ 0 → (∀ k : Fin 13, y.val ≠ syndromeOf (2 ^ k.val)) → judgeByte true v y.val = .bad) ∧
  (∀ b : Fin 256, checkBits b.val =
    (bitsOf b.val 0 1 ^^^ bitsOf b.val 1 1 ^^^ bitsOf b.val 2 1 ^^^ bitsOf b.val 3 1 ^^^ bitsOf b.val 4 1) +
    2 * (bitsOf b.val 0 1 ^^^ bitsOf b.val 1 1 ^^^ bitsOf b.val 2 1 ^^^ bitsOf b.val 5 1 ^^^ bitsOf b.val 6 1 ^^^ bitsOf b.val 7 1) +
    4 * (bitsOf b.val 0 1 ^^^ bitsOf b.val 3 1 ^^^ bitsOf b.val 4 1 ^^^ bitsOf b.val 5 1 ^^^ bitsOf b.val 6 1) +
    8 * (bitsOf b.val 1 1 ^^^ bitsOf b.val 3 1 ^^^ bitsOf b.val 5 1 ^^^ bitsOf b.val 7 1) +
    16 * (bitsOf b.val 2 1 ^^^ bitsOf b.val 4 1 ^^^ bitsOf b.val 6 1 ^^^ bitsOf b.val 7 1)) ∧
  (∀ (b : Fin 256) (f : Fin 8192), syndromeOf f.val = (checkBits b.val ^^^ f.val / 256) ^^^ checkBits (b.val ^^^ f.val % 256))

/-- A port is not enabled before the function table is locked (R226). A write of EN = 1 to a port while LOCK is 0 leaves EN
as it was and is recorded as a denied access in the port's error summary. -/
def Obligations.PortNeedsLock : Prop :=
  (∀ (s : State) (k : Fin 2), s.on .fnmgr F.FNM_CTRL_LOCK = false → Answers (.pcieEnable k) s fun t => t = s.clean.denied
    (.pcie k) ∧ t.get (.pcie k) F.PCIE_CTRL_EN = s.get (.pcie k) F.PCIE_CTRL_EN ∧ t.on (.pcie k) F.UNIT_ERR_DENIED = true)
end

