-- ==== Sys2Proof/Laws/Tab.lean ====
section
/-! SUPPORT. Laws of sparse tables: read after write, and the canonical form. They hold of every table, sorted or not, but
those of the canonical form itself. -/

namespace Sys2Proof.Machine

variable {α : Type}

/-- A dropped key reads the default. -/
theorem tget_tdrop_same (d : α) (t : Tab α) (k : Nat) : tget d (tdrop t k) k = d := by
  induction t with
  | nil => rfl
  | cons e t ih =>
    obtain ⟨k', v⟩ := e
    by_cases h : k' = k
    · simpa [tdrop, h] using ih
    · simpa [tdrop, tget, h] using ih

/-- Dropping a key leaves every other key. -/
theorem tget_tdrop_ne (d : α) (t : Tab α) {k k₂ : Nat} (h : k₂ ≠ k) : tget d (tdrop t k) k₂ = tget d t k₂ := by
  induction t with
  | nil => rfl
  | cons e t ih =>
    obtain ⟨k', v⟩ := e
    by_cases h' : k' = k
    · subst h'
      have : ¬ k' = k₂ := fun e => h e.symm
      simpa [tdrop, tget, this] using ih
    · by_cases h₂ : k' = k₂
      · subst h₂; simp [tdrop, tget, h']
      · have : tget d (tdrop t k) k₂ = tget d t k₂ := ih
        simpa [tdrop, tget, h', h₂] using this

/-- Every key of a table sorted above `lo` is above `lo`. -/
theorem tsortedAbove_lt : ∀ (t : Tab α) (lo : Nat), tsortedAbove (some lo) t = true → ∀ e ∈ t, lo < e.1
  | [], _, _ => by simp
  | (k, v) :: t, lo, h => by
    simp [tsortedAbove] at h
    intro e he
    rcases List.mem_cons.1 he with rfl | he
    · exact h.1
    · exact Nat.lt_trans h.1 (tsortedAbove_lt t k h.2 e he)

/-- A table sorted above a key is sorted above every smaller one. -/
theorem tsortedAbove_mono (t : Tab α) {lo hi : Nat} (h : tsortedAbove (some hi) t = true) (hl : lo ≤ hi) :
    tsortedAbove (some lo) t = true := by
  cases t with
  | nil => rfl
  | cons e t =>
    obtain ⟨k, v⟩ := e
    simp [tsortedAbove] at h ⊢
    exact ⟨by omega, h.2⟩

/-- A table sorted above some key is sorted. -/
theorem tsorted_of_above (t : Tab α) {lo : Nat} (h : tsortedAbove (some lo) t = true) : tsorted t = true := by
  cases t with
  | nil => rfl
  | cons e t =>
    obtain ⟨k, v⟩ := e
    simp [tsortedAbove] at h
    simpa [tsorted, tsortedAbove] using h.2

/-- Leaving entries out keeps the order. -/
theorem tsortedAbove_filter (p : Nat × α → Bool) : ∀ (t : Tab α) (lo : Nat), tsortedAbove (some lo) t = true →
    tsortedAbove (some lo) (t.filter p) = true
  | [], _, _ => rfl
  | (k, v) :: t, lo, h => by
    simp [tsortedAbove] at h
    have ih := tsortedAbove_filter p t k h.2
    by_cases hp : p (k, v) = true
    · simp [List.filter, hp, tsortedAbove, h.1, ih]
    · simp [List.filter, hp]
      exact tsortedAbove_mono _ ih (Nat.le_of_lt h.1)

/-- Leaving entries out keeps a table sorted. -/
theorem tsorted_filter (p : Nat × α → Bool) (t : Tab α) (h : tsorted t = true) : tsorted (t.filter p) = true := by
  cases t with
  | nil => rfl
  | cons e t =>
    obtain ⟨k, v⟩ := e
    have h' : tsortedAbove (some k) t = true := by simpa [tsorted, tsortedAbove] using h
    have ih := tsortedAbove_filter p t k h'
    by_cases hp : p (k, v) = true
    · simpa [List.filter, hp, tsorted, tsortedAbove] using ih
    · simp only [List.filter, hp]
      exact tsorted_of_above _ ih

variable [DecidableEq α]

/-- A key reads what was written at it. -/
@[simp] theorem tget_tset_same (d : α) (t : Tab α) (k : Nat) (v : α) : tget d (tset d t k v) k = v := by
  induction t with
  | nil => by_cases h : v = d <;> simp [tset, tget, h]
  | cons e t ih =>
    obtain ⟨k', v'⟩ := e
    unfold tset
    split
    · split
      · rename_i h; rw [tget_tdrop_same, h]
      · simp [tget]
    · rename_i hk
      split
      · split
        · rename_i h; simp [tget, hk, tget_tdrop_same, h]
        · simp [tget]
      · simpa [tget, hk] using ih

/-- A write leaves every other key, whatever the reader's default. -/
theorem tget_tset_ne (d d' : α) (t : Tab α) {k k₂ : Nat} (v : α) (h : k₂ ≠ k) : tget d' (tset d t k v) k₂ = tget d' t k₂ := by
  have hs : ¬ k = k₂ := fun e => h e.symm
  induction t with
  | nil => by_cases hv : v = d <;> simp [tset, tget, hv, hs]
  | cons e t ih =>
    obtain ⟨k', v'⟩ := e
    unfold tset
    split
    · rename_i hk; subst hk
      split <;> simp [tget, hs, tget_tdrop_ne d' t h]
    · split
      · split
        · by_cases h₂ : k' = k₂ <;> simp [tget, h₂, tget_tdrop_ne d' t h]
        · simp [tget, hs]
      · by_cases h₂ : k' = k₂ <;> simp [tget, h₂, ih]

/-- A write keeps the order above a smaller key. -/
theorem tsortedAbove_tset (d : α) : ∀ (t : Tab α) (lo k : Nat) (v : α), tsortedAbove (some lo) t = true → lo < k →
    tsortedAbove (some lo) (tset d t k v) = true
  | [], lo, k, v, _, hk => by by_cases h : v = d <;> simp [tset, tsortedAbove, h, hk]
  | (k', v') :: t, lo, k, v, h, hk => by
    simp [tsortedAbove] at h
    unfold tset
    split
    · rename_i e; subst e
      split
      · exact tsortedAbove_mono _ (tsortedAbove_filter _ t k' h.2) (Nat.le_of_lt h.1)
      · simp [tsortedAbove, hk, h.2]
    · split
      · split
        · simp [tsortedAbove, h.1]; exact tsortedAbove_filter _ t k' h.2
        · rename_i h₂ _; simp [tsortedAbove, hk, h₂, h.2]
      · have : k' < k := by omega
        simp [tsortedAbove, h.1, tsortedAbove_tset d t k' k v h.2 this]

/-- A write keeps a table sorted. -/
theorem tsorted_tset (d : α) (t : Tab α) (k : Nat) (v : α) (h : tsorted t = true) : tsorted (tset d t k v) = true := by
  cases t with
  | nil => by_cases hv : v = d <;> simp [tset, tsorted, tsortedAbove, hv]
  | cons e t =>
    obtain ⟨k', v'⟩ := e
    have h' : tsortedAbove (some k') t = true := by simpa [tsorted, tsortedAbove] using h
    unfold tset
    split
    · rename_i e; subst e
      split
      · exact tsorted_of_above _ (tsortedAbove_filter _ t k' h')
      · simpa [tsorted, tsortedAbove] using h'
    · split
      · split
        · simp only [tsorted, tsortedAbove]
          exact tsortedAbove_filter _ t k' h'
        · rename_i h₂ _; simp [tsorted, tsortedAbove, h₂, h']
      · have : k' < k := by omega
        simpa [tsorted, tsortedAbove] using tsortedAbove_tset d t k' k v h' this

/-- Leaving entries out keeps a table free of defaults. -/
theorem tlean_filter (d : α) (p : Nat × α → Bool) (t : Tab α) (h : tlean d t = true) : tlean d (t.filter p) = true := by
  simp [tlean] at h ⊢
  exact fun a b hab => .inr (h a b hab)

/-- A write keeps a table free of defaults. -/
theorem tlean_tset (d : α) (t : Tab α) (k : Nat) (v : α) (h : tlean d t = true) : tlean d (tset d t k v) = true := by
  induction t with
  | nil => by_cases hv : v = d <;> simp [tset, tlean, hv]
  | cons e t ih =>
    obtain ⟨k', v'⟩ := e
    have h₁ : v' ≠ d := by simpa using (List.all_eq_true.1 h) (k', v') (List.mem_cons_self ..)
    have h₂ : tlean d t = true := by
      simp only [tlean, List.all_cons, Bool.and_eq_true] at h ⊢
      exact h.2
    unfold tset
    split
    · split
      · exact tlean_filter d _ t h₂
      · rename_i hv; simpa [tlean, hv] using h₂
    · split
      · split
        · have := tlean_filter d (fun e => decide (e.1 ≠ k)) t h₂
          simpa [tlean, tdrop, h₁] using this
        · rename_i hv; simpa [tlean, hv, h₁] using h₂
      · have := ih h₂
        simpa [tlean, h₁] using this

/-- A write keeps the canonical form. -/
theorem twf_tset (d : α) (t : Tab α) (k : Nat) (v : α) (h : twf d t = true) : twf d (tset d t k v) = true := by
  simp [twf] at h ⊢
  exact ⟨tsorted_tset d t k v h.1, tlean_tset d t k v h.2⟩

/-- Leaving keys out keeps the canonical form. -/
theorem twf_tkeep (d : α) (p : Nat → Bool) (t : Tab α) (h : twf d t = true) : twf d (tkeep p t) = true := by
  simp [twf] at h ⊢
  exact ⟨tsorted_filter _ t h.1, tlean_filter d _ t h.2⟩

end Sys2Proof.Machine
end

