-- ==== Sys2Proof/Laws/State.lean ====
section
/-! SUPPORT. What each update of the state leaves in each field: one lemma per field per update, by rfl, so that no proof
unfolds an update. A field that an update writes has no lemma here. -/

namespace Sys2Proof.Machine

open Sys2Proof

variable (s : State)

section

variable (u : UnitId) (f : Fld) (v i j : Nat)

@[simp] theorem State.put_pending : (s.put u f v i j).pending = s.pending := rfl
@[simp] theorem State.put_out : (s.put u f v i j).out = s.out := rfl
@[simp] theorem State.put_build : (s.put u f v i j).build = s.build := rfl
@[simp] theorem State.put_mode : (s.put u f v i j).mode = s.mode := rfl
@[simp] theorem State.put_dram : (s.put u f v i j).dram = s.dram := rfl
@[simp] theorem State.put_mram : (s.put u f v i j).mram = s.mram := rfl
@[simp] theorem State.put_poison : (s.put u f v i j).poison = s.poison := rfl
@[simp] theorem State.put_lanes : (s.put u f v i j).lanes = s.lanes := rfl
@[simp] theorem State.put_chans : (s.put u f v i j).chans = s.chans := rfl
@[simp] theorem State.put_servos : (s.put u f v i j).servos = s.servos := rfl
@[simp] theorem State.put_sluices : (s.put u f v i j).sluices = s.sluices := rfl
@[simp] theorem State.put_furrow : (s.put u f v i j).furrow = s.furrow := rfl
@[simp] theorem State.put_dies : (s.put u f v i j).dies = s.dies := rfl
@[simp] theorem State.put_stripes : (s.put u f v i j).stripes = s.stripes := rfl
@[simp] theorem State.put_keys : (s.put u f v i j).keys = s.keys := rfl
@[simp] theorem State.put_sweep : (s.put u f v i j).sweep = s.sweep := rfl
@[simp] theorem State.put_fns : (s.put u f v i j).fns = s.fns := rfl
@[simp] theorem State.put_ports : (s.put u f v i j).ports = s.ports := rfl
@[simp] theorem State.put_xrings : (s.put u f v i j).xrings = s.xrings := rfl
@[simp] theorem State.put_queues : (s.put u f v i j).queues = s.queues := rfl
@[simp] theorem State.put_hg : (s.put u f v i j).hg = s.hg := rfl
@[simp] theorem State.put_hostLog : (s.put u f v i j).hostLog = s.hostLog := rfl
@[simp] theorem State.put_fwLog : (s.put u f v i j).fwLog = s.fwLog := rfl
@[simp] theorem State.put_mbHeld : (s.put u f v i j).mbHeld = s.mbHeld := rfl
@[simp] theorem State.put_mbTmo : (s.put u f v i j).mbTmo = s.mbTmo := rfl
@[simp] theorem State.put_errLog : (s.put u f v i j).errLog = s.errLog := rfl
@[simp] theorem State.put_wmapNow : (s.put u f v i j).wmapNow = s.wmapNow := rfl
@[simp] theorem State.put_mregNow : (s.put u f v i j).mregNow = s.mregNow := rfl
@[simp] theorem State.put_iowOld : (s.put u f v i j).iowOld = s.iowOld := rfl
@[simp] theorem State.put_wmapNext : (s.put u f v i j).wmapNext = s.wmapNext := rfl
@[simp] theorem State.put_mregNext : (s.put u f v i j).mregNext = s.mregNext := rfl
@[simp] theorem State.put_lost : (s.put u f v i j).lost = s.lost := rfl
@[simp] theorem State.put_fresh : (s.put u f v i j).fresh = s.fresh := rfl
@[simp] theorem State.put_flips : (s.put u f v i j).flips = s.flips := rfl
@[simp] theorem State.put_wbqs : (s.put u f v i j).wbqs = s.wbqs := rfl
@[simp] theorem State.put_mcLog : (s.put u f v i j).mcLog = s.mcLog := rfl
@[simp] theorem State.put_fill : (s.put u f v i j).fill = s.fill := rfl
@[simp] theorem State.put_homes : (s.put u f v i j).homes = s.homes := rfl
@[simp] theorem State.put_copies : (s.put u f v i j).copies = s.copies := rfl
@[simp] theorem State.put_cores : (s.put u f v i j).cores = s.cores := rfl
@[simp] theorem State.put_l1s : (s.put u f v i j).l1s = s.l1s := rfl
@[simp] theorem State.put_lockedWays : (s.put u f v i j).lockedWays = s.lockedWays := rfl
@[simp] theorem State.put_tiles : (s.put u f v i j).tiles = s.tiles := rfl
@[simp] theorem State.put_evbufs : (s.put u f v i j).evbufs = s.evbufs := rfl
@[simp] theorem State.put_amoHist : (s.put u f v i j).amoHist = s.amoHist := rfl
@[simp] theorem State.put_net : (s.put u f v i j).net = s.net := rfl
@[simp] theorem State.put_reqs : (s.put u f v i j).reqs = s.reqs := rfl
@[simp] theorem State.put_heldTxn : (s.put u f v i j).heldTxn = s.heldTxn := rfl
@[simp] theorem State.put_rme : (s.put u f v i j).rme = s.rme := rfl
@[simp] theorem State.put_links : (s.put u f v i j).links = s.links := rfl
@[simp] theorem State.put_harts : (s.put u f v i j).harts = s.harts := rfl
@[simp] theorem State.put_trace : (s.put u f v i j).trace = s.trace := rfl
@[simp] theorem State.put_fatal : (s.put u f v i j).fatal = s.fatal := rfl
@[simp] theorem State.put_vrEn : (s.put u f v i j).vrEn = s.vrEn := rfl
@[simp] theorem State.put_straps : (s.put u f v i j).straps = s.straps := rfl
@[simp] theorem State.put_thermTrip : (s.put u f v i j).thermTrip = s.thermTrip := rfl
@[simp] theorem State.put_wake : (s.put u f v i j).wake = s.wake := rfl
@[simp] theorem State.put_pmb : (s.put u f v i j).pmb = s.pmb := rfl
@[simp] theorem State.put_vin : (s.put u f v i j).vin = s.vin := rfl
@[simp] theorem State.put_vinAt : (s.put u f v i j).vinAt = s.vinAt := rfl
@[simp] theorem State.put_wakeBad : (s.put u f v i j).wakeBad = s.wakeBad := rfl
@[simp] theorem State.put_sealGen : (s.put u f v i j).sealGen = s.sealGen := rfl
@[simp] theorem State.put_presence : (s.put u f v i j).presence = s.presence := rfl
@[simp] theorem State.put_clocks : (s.put u f v i j).clocks = s.clocks := rfl
@[simp] theorem State.put_deep : (s.put u f v i j).deep = s.deep := rfl
@[simp] theorem State.put_weir : (s.put u f v i j).weir = s.weir := rfl
@[simp] theorem State.put_freqTo : (s.put u f v i j).freqTo = s.freqTo := rfl
@[simp] theorem State.put_domTo : (s.put u f v i j).domTo = s.domTo := rfl
@[simp] theorem State.put_pwrHeld : (s.put u f v i j).pwrHeld = s.pwrHeld := rfl
@[simp] theorem State.put_pwrNext : (s.put u f v i j).pwrNext = s.pwrNext := rfl
@[simp] theorem State.put_load : (s.put u f v i j).load = s.load := rfl
@[simp] theorem State.put_svid : (s.put u f v i j).svid = s.svid := rfl
@[simp] theorem State.put_ssid : (s.put u f v i j).ssid = s.ssid := rfl
@[simp] theorem State.put_boot : (s.put u f v i j).boot = s.boot := rfl
@[simp] theorem State.put_powerQ : (s.put u f v i j).powerQ = s.powerQ := rfl
@[simp] theorem State.put_halves : (s.put u f v i j).halves = s.halves := rfl
@[simp] theorem State.put_tileOp : (s.put u f v i j).tileOp = s.tileOp := rfl
@[simp] theorem State.put_life : (s.put u f v i j).life = s.life := rfl
@[simp] theorem State.put_recSeg : (s.put u f v i j).recSeg = s.recSeg := rfl
@[simp] theorem State.put_lc : (s.put u f v i j).lc = s.lc := rfl
@[simp] theorem State.put_st : (s.put u f v i j).st = s.st := rfl
@[simp] theorem State.put_stayRecovery : (s.put u f v i j).stayRecovery = s.stayRecovery := rfl
@[simp] theorem State.put_recoveries : (s.put u f v i j).recoveries = s.recoveries := rfl
@[simp] theorem State.put_dbg : (s.put u f v i j).dbg = s.dbg := rfl
@[simp] theorem State.put_pkgTicks : (s.put u f v i j).pkgTicks = s.pkgTicks := rfl
@[simp] theorem State.put_memTop : (s.put u f v i j).memTop = s.memTop := rfl
@[simp] theorem State.put_freeCount : (s.put u f v i j).freeCount = s.freeCount := rfl

end

section

variable (o : Out)

@[simp] theorem State.emit_pending : (s.emit o).pending = s.pending := rfl
@[simp] theorem State.emit_build : (s.emit o).build = s.build := rfl
@[simp] theorem State.emit_mode : (s.emit o).mode = s.mode := rfl
@[simp] theorem State.emit_regs : (s.emit o).regs = s.regs := rfl
@[simp] theorem State.emit_dram : (s.emit o).dram = s.dram := rfl
@[simp] theorem State.emit_mram : (s.emit o).mram = s.mram := rfl
@[simp] theorem State.emit_poison : (s.emit o).poison = s.poison := rfl
@[simp] theorem State.emit_lanes : (s.emit o).lanes = s.lanes := rfl
@[simp] theorem State.emit_chans : (s.emit o).chans = s.chans := rfl
@[simp] theorem State.emit_servos : (s.emit o).servos = s.servos := rfl
@[simp] theorem State.emit_sluices : (s.emit o).sluices = s.sluices := rfl
@[simp] theorem State.emit_furrow : (s.emit o).furrow = s.furrow := rfl
@[simp] theorem State.emit_dies : (s.emit o).dies = s.dies := rfl
@[simp] theorem State.emit_stripes : (s.emit o).stripes = s.stripes := rfl
@[simp] theorem State.emit_keys : (s.emit o).keys = s.keys := rfl
@[simp] theorem State.emit_sweep : (s.emit o).sweep = s.sweep := rfl
@[simp] theorem State.emit_fns : (s.emit o).fns = s.fns := rfl
@[simp] theorem State.emit_ports : (s.emit o).ports = s.ports := rfl
@[simp] theorem State.emit_xrings : (s.emit o).xrings = s.xrings := rfl
@[simp] theorem State.emit_queues : (s.emit o).queues = s.queues := rfl
@[simp] theorem State.emit_hg : (s.emit o).hg = s.hg := rfl
@[simp] theorem State.emit_hostLog : (s.emit o).hostLog = s.hostLog := rfl
@[simp] theorem State.emit_fwLog : (s.emit o).fwLog = s.fwLog := rfl
@[simp] theorem State.emit_mbHeld : (s.emit o).mbHeld = s.mbHeld := rfl
@[simp] theorem State.emit_mbTmo : (s.emit o).mbTmo = s.mbTmo := rfl
@[simp] theorem State.emit_errLog : (s.emit o).errLog = s.errLog := rfl
@[simp] theorem State.emit_wmapNow : (s.emit o).wmapNow = s.wmapNow := rfl
@[simp] theorem State.emit_mregNow : (s.emit o).mregNow = s.mregNow := rfl
@[simp] theorem State.emit_iowOld : (s.emit o).iowOld = s.iowOld := rfl
@[simp] theorem State.emit_wmapNext : (s.emit o).wmapNext = s.wmapNext := rfl
@[simp] theorem State.emit_mregNext : (s.emit o).mregNext = s.mregNext := rfl
@[simp] theorem State.emit_lost : (s.emit o).lost = s.lost := rfl
@[simp] theorem State.emit_fresh : (s.emit o).fresh = s.fresh := rfl
@[simp] theorem State.emit_flips : (s.emit o).flips = s.flips := rfl
@[simp] theorem State.emit_wbqs : (s.emit o).wbqs = s.wbqs := rfl
@[simp] theorem State.emit_mcLog : (s.emit o).mcLog = s.mcLog := rfl
@[simp] theorem State.emit_fill : (s.emit o).fill = s.fill := rfl
@[simp] theorem State.emit_homes : (s.emit o).homes = s.homes := rfl
@[simp] theorem State.emit_copies : (s.emit o).copies = s.copies := rfl
@[simp] theorem State.emit_cores : (s.emit o).cores = s.cores := rfl
@[simp] theorem State.emit_l1s : (s.emit o).l1s = s.l1s := rfl
@[simp] theorem State.emit_lockedWays : (s.emit o).lockedWays = s.lockedWays := rfl
@[simp] theorem State.emit_tiles : (s.emit o).tiles = s.tiles := rfl
@[simp] theorem State.emit_evbufs : (s.emit o).evbufs = s.evbufs := rfl
@[simp] theorem State.emit_amoHist : (s.emit o).amoHist = s.amoHist := rfl
@[simp] theorem State.emit_net : (s.emit o).net = s.net := rfl
@[simp] theorem State.emit_reqs : (s.emit o).reqs = s.reqs := rfl
@[simp] theorem State.emit_heldTxn : (s.emit o).heldTxn = s.heldTxn := rfl
@[simp] theorem State.emit_rme : (s.emit o).rme = s.rme := rfl
@[simp] theorem State.emit_links : (s.emit o).links = s.links := rfl
@[simp] theorem State.emit_harts : (s.emit o).harts = s.harts := rfl
@[simp] theorem State.emit_trace : (s.emit o).trace = s.trace := rfl
@[simp] theorem State.emit_fatal : (s.emit o).fatal = s.fatal := rfl
@[simp] theorem State.emit_vrEn : (s.emit o).vrEn = s.vrEn := rfl
@[simp] theorem State.emit_straps : (s.emit o).straps = s.straps := rfl
@[simp] theorem State.emit_thermTrip : (s.emit o).thermTrip = s.thermTrip := rfl
@[simp] theorem State.emit_wake : (s.emit o).wake = s.wake := rfl
@[simp] theorem State.emit_pmb : (s.emit o).pmb = s.pmb := rfl
@[simp] theorem State.emit_vin : (s.emit o).vin = s.vin := rfl
@[simp] theorem State.emit_vinAt : (s.emit o).vinAt = s.vinAt := rfl
@[simp] theorem State.emit_wakeBad : (s.emit o).wakeBad = s.wakeBad := rfl
@[simp] theorem State.emit_sealGen : (s.emit o).sealGen = s.sealGen := rfl
@[simp] theorem State.emit_presence : (s.emit o).presence = s.presence := rfl
@[simp] theorem State.emit_clocks : (s.emit o).clocks = s.clocks := rfl
@[simp] theorem State.emit_deep : (s.emit o).deep = s.deep := rfl
@[simp] theorem State.emit_weir : (s.emit o).weir = s.weir := rfl
@[simp] theorem State.emit_freqTo : (s.emit o).freqTo = s.freqTo := rfl
@[simp] theorem State.emit_domTo : (s.emit o).domTo = s.domTo := rfl
@[simp] theorem State.emit_pwrHeld : (s.emit o).pwrHeld = s.pwrHeld := rfl
@[simp] theorem State.emit_pwrNext : (s.emit o).pwrNext = s.pwrNext := rfl
@[simp] theorem State.emit_load : (s.emit o).load = s.load := rfl
@[simp] theorem State.emit_svid : (s.emit o).svid = s.svid := rfl
@[simp] theorem State.emit_ssid : (s.emit o).ssid = s.ssid := rfl
@[simp] theorem State.emit_boot : (s.emit o).boot = s.boot := rfl
@[simp] theorem State.emit_powerQ : (s.emit o).powerQ = s.powerQ := rfl
@[simp] theorem State.emit_halves : (s.emit o).halves = s.halves := rfl
@[simp] theorem State.emit_tileOp : (s.emit o).tileOp = s.tileOp := rfl
@[simp] theorem State.emit_life : (s.emit o).life = s.life := rfl
@[simp] theorem State.emit_recSeg : (s.emit o).recSeg = s.recSeg := rfl
@[simp] theorem State.emit_lc : (s.emit o).lc = s.lc := rfl
@[simp] theorem State.emit_st : (s.emit o).st = s.st := rfl
@[simp] theorem State.emit_stayRecovery : (s.emit o).stayRecovery = s.stayRecovery := rfl
@[simp] theorem State.emit_recoveries : (s.emit o).recoveries = s.recoveries := rfl
@[simp] theorem State.emit_dbg : (s.emit o).dbg = s.dbg := rfl
@[simp] theorem State.emit_pkgTicks : (s.emit o).pkgTicks = s.pkgTicks := rfl
@[simp] theorem State.emit_memTop : (s.emit o).memTop = s.memTop := rfl
@[simp] theorem State.emit_freeCount : (s.emit o).freeCount = s.freeCount := rfl

end

section

@[simp] theorem State.clean_pending : (s.clean).pending = s.pending := rfl
@[simp] theorem State.clean_build : (s.clean).build = s.build := rfl
@[simp] theorem State.clean_mode : (s.clean).mode = s.mode := rfl
@[simp] theorem State.clean_regs : (s.clean).regs = s.regs := rfl
@[simp] theorem State.clean_dram : (s.clean).dram = s.dram := rfl
@[simp] theorem State.clean_mram : (s.clean).mram = s.mram := rfl
@[simp] theorem State.clean_poison : (s.clean).poison = s.poison := rfl
@[simp] theorem State.clean_lanes : (s.clean).lanes = s.lanes := rfl
@[simp] theorem State.clean_chans : (s.clean).chans = s.chans := rfl
@[simp] theorem State.clean_servos : (s.clean).servos = s.servos := rfl
@[simp] theorem State.clean_sluices : (s.clean).sluices = s.sluices := rfl
@[simp] theorem State.clean_furrow : (s.clean).furrow = s.furrow := rfl
@[simp] theorem State.clean_dies : (s.clean).dies = s.dies := rfl
@[simp] theorem State.clean_stripes : (s.clean).stripes = s.stripes := rfl
@[simp] theorem State.clean_keys : (s.clean).keys = s.keys := rfl
@[simp] theorem State.clean_sweep : (s.clean).sweep = s.sweep := rfl
@[simp] theorem State.clean_fns : (s.clean).fns = s.fns := rfl
@[simp] theorem State.clean_ports : (s.clean).ports = s.ports := rfl
@[simp] theorem State.clean_xrings : (s.clean).xrings = s.xrings := rfl
@[simp] theorem State.clean_queues : (s.clean).queues = s.queues := rfl
@[simp] theorem State.clean_hg : (s.clean).hg = s.hg := rfl
@[simp] theorem State.clean_hostLog : (s.clean).hostLog = s.hostLog := rfl
@[simp] theorem State.clean_fwLog : (s.clean).fwLog = s.fwLog := rfl
@[simp] theorem State.clean_mbHeld : (s.clean).mbHeld = s.mbHeld := rfl
@[simp] theorem State.clean_mbTmo : (s.clean).mbTmo = s.mbTmo := rfl
@[simp] theorem State.clean_errLog : (s.clean).errLog = s.errLog := rfl
@[simp] theorem State.clean_wmapNow : (s.clean).wmapNow = s.wmapNow := rfl
@[simp] theorem State.clean_mregNow : (s.clean).mregNow = s.mregNow := rfl
@[simp] theorem State.clean_iowOld : (s.clean).iowOld = s.iowOld := rfl
@[simp] theorem State.clean_wmapNext : (s.clean).wmapNext = s.wmapNext := rfl
@[simp] theorem State.clean_mregNext : (s.clean).mregNext = s.mregNext := rfl
@[simp] theorem State.clean_lost : (s.clean).lost = s.lost := rfl
@[simp] theorem State.clean_fresh : (s.clean).fresh = s.fresh := rfl
@[simp] theorem State.clean_flips : (s.clean).flips = s.flips := rfl
@[simp] theorem State.clean_wbqs : (s.clean).wbqs = s.wbqs := rfl
@[simp] theorem State.clean_mcLog : (s.clean).mcLog = s.mcLog := rfl
@[simp] theorem State.clean_fill : (s.clean).fill = s.fill := rfl
@[simp] theorem State.clean_homes : (s.clean).homes = s.homes := rfl
@[simp] theorem State.clean_copies : (s.clean).copies = s.copies := rfl
@[simp] theorem State.clean_cores : (s.clean).cores = s.cores := rfl
@[simp] theorem State.clean_l1s : (s.clean).l1s = s.l1s := rfl
@[simp] theorem State.clean_lockedWays : (s.clean).lockedWays = s.lockedWays := rfl
@[simp] theorem State.clean_tiles : (s.clean).tiles = s.tiles := rfl
@[simp] theorem State.clean_evbufs : (s.clean).evbufs = s.evbufs := rfl
@[simp] theorem State.clean_amoHist : (s.clean).amoHist = s.amoHist := rfl
@[simp] theorem State.clean_net : (s.clean).net = s.net := rfl
@[simp] theorem State.clean_reqs : (s.clean).reqs = s.reqs := rfl
@[simp] theorem State.clean_heldTxn : (s.clean).heldTxn = s.heldTxn := rfl
@[simp] theorem State.clean_rme : (s.clean).rme = s.rme := rfl
@[simp] theorem State.clean_links : (s.clean).links = s.links := rfl
@[simp] theorem State.clean_harts : (s.clean).harts = s.harts := rfl
@[simp] theorem State.clean_trace : (s.clean).trace = s.trace := rfl
@[simp] theorem State.clean_fatal : (s.clean).fatal = s.fatal := rfl
@[simp] theorem State.clean_vrEn : (s.clean).vrEn = s.vrEn := rfl
@[simp] theorem State.clean_straps : (s.clean).straps = s.straps := rfl
@[simp] theorem State.clean_thermTrip : (s.clean).thermTrip = s.thermTrip := rfl
@[simp] theorem State.clean_wake : (s.clean).wake = s.wake := rfl
@[simp] theorem State.clean_pmb : (s.clean).pmb = s.pmb := rfl
@[simp] theorem State.clean_vin : (s.clean).vin = s.vin := rfl
@[simp] theorem State.clean_vinAt : (s.clean).vinAt = s.vinAt := rfl
@[simp] theorem State.clean_wakeBad : (s.clean).wakeBad = s.wakeBad := rfl
@[simp] theorem State.clean_sealGen : (s.clean).sealGen = s.sealGen := rfl
@[simp] theorem State.clean_presence : (s.clean).presence = s.presence := rfl
@[simp] theorem State.clean_clocks : (s.clean).clocks = s.clocks := rfl
@[simp] theorem State.clean_deep : (s.clean).deep = s.deep := rfl
@[simp] theorem State.clean_weir : (s.clean).weir = s.weir := rfl
@[simp] theorem State.clean_freqTo : (s.clean).freqTo = s.freqTo := rfl
@[simp] theorem State.clean_domTo : (s.clean).domTo = s.domTo := rfl
@[simp] theorem State.clean_pwrHeld : (s.clean).pwrHeld = s.pwrHeld := rfl
@[simp] theorem State.clean_pwrNext : (s.clean).pwrNext = s.pwrNext := rfl
@[simp] theorem State.clean_load : (s.clean).load = s.load := rfl
@[simp] theorem State.clean_svid : (s.clean).svid = s.svid := rfl
@[simp] theorem State.clean_ssid : (s.clean).ssid = s.ssid := rfl
@[simp] theorem State.clean_boot : (s.clean).boot = s.boot := rfl
@[simp] theorem State.clean_powerQ : (s.clean).powerQ = s.powerQ := rfl
@[simp] theorem State.clean_halves : (s.clean).halves = s.halves := rfl
@[simp] theorem State.clean_tileOp : (s.clean).tileOp = s.tileOp := rfl
@[simp] theorem State.clean_life : (s.clean).life = s.life := rfl
@[simp] theorem State.clean_recSeg : (s.clean).recSeg = s.recSeg := rfl
@[simp] theorem State.clean_lc : (s.clean).lc = s.lc := rfl
@[simp] theorem State.clean_st : (s.clean).st = s.st := rfl
@[simp] theorem State.clean_stayRecovery : (s.clean).stayRecovery = s.stayRecovery := rfl
@[simp] theorem State.clean_recoveries : (s.clean).recoveries = s.recoveries := rfl
@[simp] theorem State.clean_dbg : (s.clean).dbg = s.dbg := rfl
@[simp] theorem State.clean_pkgTicks : (s.clean).pkgTicks = s.pkgTicks := rfl
@[simp] theorem State.clean_memTop : (s.clean).memTop = s.memTop := rfl
@[simp] theorem State.clean_freeCount : (s.clean).freeCount = s.freeCount := rfl

end

section

variable (a : Nat) (x : Lane)

@[simp] theorem State.setLane_pending : (s.setLane a x).pending = s.pending := rfl
@[simp] theorem State.setLane_out : (s.setLane a x).out = s.out := rfl
@[simp] theorem State.setLane_build : (s.setLane a x).build = s.build := rfl
@[simp] theorem State.setLane_mode : (s.setLane a x).mode = s.mode := rfl
@[simp] theorem State.setLane_regs : (s.setLane a x).regs = s.regs := rfl
@[simp] theorem State.setLane_dram : (s.setLane a x).dram = s.dram := rfl
@[simp] theorem State.setLane_mram : (s.setLane a x).mram = s.mram := rfl
@[simp] theorem State.setLane_poison : (s.setLane a x).poison = s.poison := rfl
@[simp] theorem State.setLane_chans : (s.setLane a x).chans = s.chans := rfl
@[simp] theorem State.setLane_servos : (s.setLane a x).servos = s.servos := rfl
@[simp] theorem State.setLane_sluices : (s.setLane a x).sluices = s.sluices := rfl
@[simp] theorem State.setLane_furrow : (s.setLane a x).furrow = s.furrow := rfl
@[simp] theorem State.setLane_dies : (s.setLane a x).dies = s.dies := rfl
@[simp] theorem State.setLane_stripes : (s.setLane a x).stripes = s.stripes := rfl
@[simp] theorem State.setLane_keys : (s.setLane a x).keys = s.keys := rfl
@[simp] theorem State.setLane_sweep : (s.setLane a x).sweep = s.sweep := rfl
@[simp] theorem State.setLane_fns : (s.setLane a x).fns = s.fns := rfl
@[simp] theorem State.setLane_ports : (s.setLane a x).ports = s.ports := rfl
@[simp] theorem State.setLane_xrings : (s.setLane a x).xrings = s.xrings := rfl
@[simp] theorem State.setLane_queues : (s.setLane a x).queues = s.queues := rfl
@[simp] theorem State.setLane_hg : (s.setLane a x).hg = s.hg := rfl
@[simp] theorem State.setLane_hostLog : (s.setLane a x).hostLog = s.hostLog := rfl
@[simp] theorem State.setLane_fwLog : (s.setLane a x).fwLog = s.fwLog := rfl
@[simp] theorem State.setLane_mbHeld : (s.setLane a x).mbHeld = s.mbHeld := rfl
@[simp] theorem State.setLane_mbTmo : (s.setLane a x).mbTmo = s.mbTmo := rfl
@[simp] theorem State.setLane_errLog : (s.setLane a x).errLog = s.errLog := rfl
@[simp] theorem State.setLane_wmapNow : (s.setLane a x).wmapNow = s.wmapNow := rfl
@[simp] theorem State.setLane_mregNow : (s.setLane a x).mregNow = s.mregNow := rfl
@[simp] theorem State.setLane_iowOld : (s.setLane a x).iowOld = s.iowOld := rfl
@[simp] theorem State.setLane_wmapNext : (s.setLane a x).wmapNext = s.wmapNext := rfl
@[simp] theorem State.setLane_mregNext : (s.setLane a x).mregNext = s.mregNext := rfl
@[simp] theorem State.setLane_lost : (s.setLane a x).lost = s.lost := rfl
@[simp] theorem State.setLane_fresh : (s.setLane a x).fresh = s.fresh := rfl
@[simp] theorem State.setLane_flips : (s.setLane a x).flips = s.flips := rfl
@[simp] theorem State.setLane_wbqs : (s.setLane a x).wbqs = s.wbqs := rfl
@[simp] theorem State.setLane_mcLog : (s.setLane a x).mcLog = s.mcLog := rfl
@[simp] theorem State.setLane_fill : (s.setLane a x).fill = s.fill := rfl
@[simp] theorem State.setLane_homes : (s.setLane a x).homes = s.homes := rfl
@[simp] theorem State.setLane_copies : (s.setLane a x).copies = s.copies := rfl
@[simp] theorem State.setLane_cores : (s.setLane a x).cores = s.cores := rfl
@[simp] theorem State.setLane_l1s : (s.setLane a x).l1s = s.l1s := rfl
@[simp] theorem State.setLane_lockedWays : (s.setLane a x).lockedWays = s.lockedWays := rfl
@[simp] theorem State.setLane_tiles : (s.setLane a x).tiles = s.tiles := rfl
@[simp] theorem State.setLane_evbufs : (s.setLane a x).evbufs = s.evbufs := rfl
@[simp] theorem State.setLane_amoHist : (s.setLane a x).amoHist = s.amoHist := rfl
@[simp] theorem State.setLane_net : (s.setLane a x).net = s.net := rfl
@[simp] theorem State.setLane_reqs : (s.setLane a x).reqs = s.reqs := rfl
@[simp] theorem State.setLane_heldTxn : (s.setLane a x).heldTxn = s.heldTxn := rfl
@[simp] theorem State.setLane_rme : (s.setLane a x).rme = s.rme := rfl
@[simp] theorem State.setLane_links : (s.setLane a x).links = s.links := rfl
@[simp] theorem State.setLane_harts : (s.setLane a x).harts = s.harts := rfl
@[simp] theorem State.setLane_trace : (s.setLane a x).trace = s.trace := rfl
@[simp] theorem State.setLane_fatal : (s.setLane a x).fatal = s.fatal := rfl
@[simp] theorem State.setLane_vrEn : (s.setLane a x).vrEn = s.vrEn := rfl
@[simp] theorem State.setLane_straps : (s.setLane a x).straps = s.straps := rfl
@[simp] theorem State.setLane_thermTrip : (s.setLane a x).thermTrip = s.thermTrip := rfl
@[simp] theorem State.setLane_wake : (s.setLane a x).wake = s.wake := rfl
@[simp] theorem State.setLane_pmb : (s.setLane a x).pmb = s.pmb := rfl
@[simp] theorem State.setLane_vin : (s.setLane a x).vin = s.vin := rfl
@[simp] theorem State.setLane_vinAt : (s.setLane a x).vinAt = s.vinAt := rfl
@[simp] theorem State.setLane_wakeBad : (s.setLane a x).wakeBad = s.wakeBad := rfl
@[simp] theorem State.setLane_sealGen : (s.setLane a x).sealGen = s.sealGen := rfl
@[simp] theorem State.setLane_presence : (s.setLane a x).presence = s.presence := rfl
@[simp] theorem State.setLane_clocks : (s.setLane a x).clocks = s.clocks := rfl
@[simp] theorem State.setLane_deep : (s.setLane a x).deep = s.deep := rfl
@[simp] theorem State.setLane_weir : (s.setLane a x).weir = s.weir := rfl
@[simp] theorem State.setLane_freqTo : (s.setLane a x).freqTo = s.freqTo := rfl
@[simp] theorem State.setLane_domTo : (s.setLane a x).domTo = s.domTo := rfl
@[simp] theorem State.setLane_pwrHeld : (s.setLane a x).pwrHeld = s.pwrHeld := rfl
@[simp] theorem State.setLane_pwrNext : (s.setLane a x).pwrNext = s.pwrNext := rfl
@[simp] theorem State.setLane_load : (s.setLane a x).load = s.load := rfl
@[simp] theorem State.setLane_svid : (s.setLane a x).svid = s.svid := rfl
@[simp] theorem State.setLane_ssid : (s.setLane a x).ssid = s.ssid := rfl
@[simp] theorem State.setLane_boot : (s.setLane a x).boot = s.boot := rfl
@[simp] theorem State.setLane_powerQ : (s.setLane a x).powerQ = s.powerQ := rfl
@[simp] theorem State.setLane_halves : (s.setLane a x).halves = s.halves := rfl
@[simp] theorem State.setLane_tileOp : (s.setLane a x).tileOp = s.tileOp := rfl
@[simp] theorem State.setLane_life : (s.setLane a x).life = s.life := rfl
@[simp] theorem State.setLane_recSeg : (s.setLane a x).recSeg = s.recSeg := rfl
@[simp] theorem State.setLane_lc : (s.setLane a x).lc = s.lc := rfl
@[simp] theorem State.setLane_st : (s.setLane a x).st = s.st := rfl
@[simp] theorem State.setLane_stayRecovery : (s.setLane a x).stayRecovery = s.stayRecovery := rfl
@[simp] theorem State.setLane_recoveries : (s.setLane a x).recoveries = s.recoveries := rfl
@[simp] theorem State.setLane_dbg : (s.setLane a x).dbg = s.dbg := rfl
@[simp] theorem State.setLane_pkgTicks : (s.setLane a x).pkgTicks = s.pkgTicks := rfl
@[simp] theorem State.setLane_memTop : (s.setLane a x).memTop = s.memTop := rfl
@[simp] theorem State.setLane_freeCount : (s.setLane a x).freeCount = s.freeCount := rfl

end

section

variable (a : Nat) (x : Chan)

@[simp] theorem State.setChan_pending : (s.setChan a x).pending = s.pending := rfl
@[simp] theorem State.setChan_out : (s.setChan a x).out = s.out := rfl
@[simp] theorem State.setChan_build : (s.setChan a x).build = s.build := rfl
@[simp] theorem State.setChan_mode : (s.setChan a x).mode = s.mode := rfl
@[simp] theorem State.setChan_regs : (s.setChan a x).regs = s.regs := rfl
@[simp] theorem State.setChan_dram : (s.setChan a x).dram = s.dram := rfl
@[simp] theorem State.setChan_mram : (s.setChan a x).mram = s.mram := rfl
@[simp] theorem State.setChan_poison : (s.setChan a x).poison = s.poison := rfl
@[simp] theorem State.setChan_lanes : (s.setChan a x).lanes = s.lanes := rfl
@[simp] theorem State.setChan_servos : (s.setChan a x).servos = s.servos := rfl
@[simp] theorem State.setChan_sluices : (s.setChan a x).sluices = s.sluices := rfl
@[simp] theorem State.setChan_furrow : (s.setChan a x).furrow = s.furrow := rfl
@[simp] theorem State.setChan_dies : (s.setChan a x).dies = s.dies := rfl
@[simp] theorem State.setChan_stripes : (s.setChan a x).stripes = s.stripes := rfl
@[simp] theorem State.setChan_keys : (s.setChan a x).keys = s.keys := rfl
@[simp] theorem State.setChan_sweep : (s.setChan a x).sweep = s.sweep := rfl
@[simp] theorem State.setChan_fns : (s.setChan a x).fns = s.fns := rfl
@[simp] theorem State.setChan_ports : (s.setChan a x).ports = s.ports := rfl
@[simp] theorem State.setChan_xrings : (s.setChan a x).xrings = s.xrings := rfl
@[simp] theorem State.setChan_queues : (s.setChan a x).queues = s.queues := rfl
@[simp] theorem State.setChan_hg : (s.setChan a x).hg = s.hg := rfl
@[simp] theorem State.setChan_hostLog : (s.setChan a x).hostLog = s.hostLog := rfl
@[simp] theorem State.setChan_fwLog : (s.setChan a x).fwLog = s.fwLog := rfl
@[simp] theorem State.setChan_mbHeld : (s.setChan a x).mbHeld = s.mbHeld := rfl
@[simp] theorem State.setChan_mbTmo : (s.setChan a x).mbTmo = s.mbTmo := rfl
@[simp] theorem State.setChan_errLog : (s.setChan a x).errLog = s.errLog := rfl
@[simp] theorem State.setChan_wmapNow : (s.setChan a x).wmapNow = s.wmapNow := rfl
@[simp] theorem State.setChan_mregNow : (s.setChan a x).mregNow = s.mregNow := rfl
@[simp] theorem State.setChan_iowOld : (s.setChan a x).iowOld = s.iowOld := rfl
@[simp] theorem State.setChan_wmapNext : (s.setChan a x).wmapNext = s.wmapNext := rfl
@[simp] theorem State.setChan_mregNext : (s.setChan a x).mregNext = s.mregNext := rfl
@[simp] theorem State.setChan_lost : (s.setChan a x).lost = s.lost := rfl
@[simp] theorem State.setChan_fresh : (s.setChan a x).fresh = s.fresh := rfl
@[simp] theorem State.setChan_flips : (s.setChan a x).flips = s.flips := rfl
@[simp] theorem State.setChan_wbqs : (s.setChan a x).wbqs = s.wbqs := rfl
@[simp] theorem State.setChan_mcLog : (s.setChan a x).mcLog = s.mcLog := rfl
@[simp] theorem State.setChan_fill : (s.setChan a x).fill = s.fill := rfl
@[simp] theorem State.setChan_homes : (s.setChan a x).homes = s.homes := rfl
@[simp] theorem State.setChan_copies : (s.setChan a x).copies = s.copies := rfl
@[simp] theorem State.setChan_cores : (s.setChan a x).cores = s.cores := rfl
@[simp] theorem State.setChan_l1s : (s.setChan a x).l1s = s.l1s := rfl
@[simp] theorem State.setChan_lockedWays : (s.setChan a x).lockedWays = s.lockedWays := rfl
@[simp] theorem State.setChan_tiles : (s.setChan a x).tiles = s.tiles := rfl
@[simp] theorem State.setChan_evbufs : (s.setChan a x).evbufs = s.evbufs := rfl
@[simp] theorem State.setChan_amoHist : (s.setChan a x).amoHist = s.amoHist := rfl
@[simp] theorem State.setChan_net : (s.setChan a x).net = s.net := rfl
@[simp] theorem State.setChan_reqs : (s.setChan a x).reqs = s.reqs := rfl
@[simp] theorem State.setChan_heldTxn : (s.setChan a x).heldTxn = s.heldTxn := rfl
@[simp] theorem State.setChan_rme : (s.setChan a x).rme = s.rme := rfl
@[simp] theorem State.setChan_links : (s.setChan a x).links = s.links := rfl
@[simp] theorem State.setChan_harts : (s.setChan a x).harts = s.harts := rfl
@[simp] theorem State.setChan_trace : (s.setChan a x).trace = s.trace := rfl
@[simp] theorem State.setChan_fatal : (s.setChan a x).fatal = s.fatal := rfl
@[simp] theorem State.setChan_vrEn : (s.setChan a x).vrEn = s.vrEn := rfl
@[simp] theorem State.setChan_straps : (s.setChan a x).straps = s.straps := rfl
@[simp] theorem State.setChan_thermTrip : (s.setChan a x).thermTrip = s.thermTrip := rfl
@[simp] theorem State.setChan_wake : (s.setChan a x).wake = s.wake := rfl
@[simp] theorem State.setChan_pmb : (s.setChan a x).pmb = s.pmb := rfl
@[simp] theorem State.setChan_vin : (s.setChan a x).vin = s.vin := rfl
@[simp] theorem State.setChan_vinAt : (s.setChan a x).vinAt = s.vinAt := rfl
@[simp] theorem State.setChan_wakeBad : (s.setChan a x).wakeBad = s.wakeBad := rfl
@[simp] theorem State.setChan_sealGen : (s.setChan a x).sealGen = s.sealGen := rfl
@[simp] theorem State.setChan_presence : (s.setChan a x).presence = s.presence := rfl
@[simp] theorem State.setChan_clocks : (s.setChan a x).clocks = s.clocks := rfl
@[simp] theorem State.setChan_deep : (s.setChan a x).deep = s.deep := rfl
@[simp] theorem State.setChan_weir : (s.setChan a x).weir = s.weir := rfl
@[simp] theorem State.setChan_freqTo : (s.setChan a x).freqTo = s.freqTo := rfl
@[simp] theorem State.setChan_domTo : (s.setChan a x).domTo = s.domTo := rfl
@[simp] theorem State.setChan_pwrHeld : (s.setChan a x).pwrHeld = s.pwrHeld := rfl
@[simp] theorem State.setChan_pwrNext : (s.setChan a x).pwrNext = s.pwrNext := rfl
@[simp] theorem State.setChan_load : (s.setChan a x).load = s.load := rfl
@[simp] theorem State.setChan_svid : (s.setChan a x).svid = s.svid := rfl
@[simp] theorem State.setChan_ssid : (s.setChan a x).ssid = s.ssid := rfl
@[simp] theorem State.setChan_boot : (s.setChan a x).boot = s.boot := rfl
@[simp] theorem State.setChan_powerQ : (s.setChan a x).powerQ = s.powerQ := rfl
@[simp] theorem State.setChan_halves : (s.setChan a x).halves = s.halves := rfl
@[simp] theorem State.setChan_tileOp : (s.setChan a x).tileOp = s.tileOp := rfl
@[simp] theorem State.setChan_life : (s.setChan a x).life = s.life := rfl
@[simp] theorem State.setChan_recSeg : (s.setChan a x).recSeg = s.recSeg := rfl
@[simp] theorem State.setChan_lc : (s.setChan a x).lc = s.lc := rfl
@[simp] theorem State.setChan_st : (s.setChan a x).st = s.st := rfl
@[simp] theorem State.setChan_stayRecovery : (s.setChan a x).stayRecovery = s.stayRecovery := rfl
@[simp] theorem State.setChan_recoveries : (s.setChan a x).recoveries = s.recoveries := rfl
@[simp] theorem State.setChan_dbg : (s.setChan a x).dbg = s.dbg := rfl
@[simp] theorem State.setChan_pkgTicks : (s.setChan a x).pkgTicks = s.pkgTicks := rfl
@[simp] theorem State.setChan_memTop : (s.setChan a x).memTop = s.memTop := rfl
@[simp] theorem State.setChan_freeCount : (s.setChan a x).freeCount = s.freeCount := rfl

end

section

variable (a : Nat) (x : Servo)

@[simp] theorem State.setServo_pending : (s.setServo a x).pending = s.pending := rfl
@[simp] theorem State.setServo_out : (s.setServo a x).out = s.out := rfl
@[simp] theorem State.setServo_build : (s.setServo a x).build = s.build := rfl
@[simp] theorem State.setServo_mode : (s.setServo a x).mode = s.mode := rfl
@[simp] theorem State.setServo_regs : (s.setServo a x).regs = s.regs := rfl
@[simp] theorem State.setServo_dram : (s.setServo a x).dram = s.dram := rfl
@[simp] theorem State.setServo_mram : (s.setServo a x).mram = s.mram := rfl
@[simp] theorem State.setServo_poison : (s.setServo a x).poison = s.poison := rfl
@[simp] theorem State.setServo_lanes : (s.setServo a x).lanes = s.lanes := rfl
@[simp] theorem State.setServo_chans : (s.setServo a x).chans = s.chans := rfl
@[simp] theorem State.setServo_sluices : (s.setServo a x).sluices = s.sluices := rfl
@[simp] theorem State.setServo_furrow : (s.setServo a x).furrow = s.furrow := rfl
@[simp] theorem State.setServo_dies : (s.setServo a x).dies = s.dies := rfl
@[simp] theorem State.setServo_stripes : (s.setServo a x).stripes = s.stripes := rfl
@[simp] theorem State.setServo_keys : (s.setServo a x).keys = s.keys := rfl
@[simp] theorem State.setServo_sweep : (s.setServo a x).sweep = s.sweep := rfl
@[simp] theorem State.setServo_fns : (s.setServo a x).fns = s.fns := rfl
@[simp] theorem State.setServo_ports : (s.setServo a x).ports = s.ports := rfl
@[simp] theorem State.setServo_xrings : (s.setServo a x).xrings = s.xrings := rfl
@[simp] theorem State.setServo_queues : (s.setServo a x).queues = s.queues := rfl
@[simp] theorem State.setServo_hg : (s.setServo a x).hg = s.hg := rfl
@[simp] theorem State.setServo_hostLog : (s.setServo a x).hostLog = s.hostLog := rfl
@[simp] theorem State.setServo_fwLog : (s.setServo a x).fwLog = s.fwLog := rfl
@[simp] theorem State.setServo_mbHeld : (s.setServo a x).mbHeld = s.mbHeld := rfl
@[simp] theorem State.setServo_mbTmo : (s.setServo a x).mbTmo = s.mbTmo := rfl
@[simp] theorem State.setServo_errLog : (s.setServo a x).errLog = s.errLog := rfl
@[simp] theorem State.setServo_wmapNow : (s.setServo a x).wmapNow = s.wmapNow := rfl
@[simp] theorem State.setServo_mregNow : (s.setServo a x).mregNow = s.mregNow := rfl
@[simp] theorem State.setServo_iowOld : (s.setServo a x).iowOld = s.iowOld := rfl
@[simp] theorem State.setServo_wmapNext : (s.setServo a x).wmapNext = s.wmapNext := rfl
@[simp] theorem State.setServo_mregNext : (s.setServo a x).mregNext = s.mregNext := rfl
@[simp] theorem State.setServo_lost : (s.setServo a x).lost = s.lost := rfl
@[simp] theorem State.setServo_fresh : (s.setServo a x).fresh = s.fresh := rfl
@[simp] theorem State.setServo_flips : (s.setServo a x).flips = s.flips := rfl
@[simp] theorem State.setServo_wbqs : (s.setServo a x).wbqs = s.wbqs := rfl
@[simp] theorem State.setServo_mcLog : (s.setServo a x).mcLog = s.mcLog := rfl
@[simp] theorem State.setServo_fill : (s.setServo a x).fill = s.fill := rfl
@[simp] theorem State.setServo_homes : (s.setServo a x).homes = s.homes := rfl
@[simp] theorem State.setServo_copies : (s.setServo a x).copies = s.copies := rfl
@[simp] theorem State.setServo_cores : (s.setServo a x).cores = s.cores := rfl
@[simp] theorem State.setServo_l1s : (s.setServo a x).l1s = s.l1s := rfl
@[simp] theorem State.setServo_lockedWays : (s.setServo a x).lockedWays = s.lockedWays := rfl
@[simp] theorem State.setServo_tiles : (s.setServo a x).tiles = s.tiles := rfl
@[simp] theorem State.setServo_evbufs : (s.setServo a x).evbufs = s.evbufs := rfl
@[simp] theorem State.setServo_amoHist : (s.setServo a x).amoHist = s.amoHist := rfl
@[simp] theorem State.setServo_net : (s.setServo a x).net = s.net := rfl
@[simp] theorem State.setServo_reqs : (s.setServo a x).reqs = s.reqs := rfl
@[simp] theorem State.setServo_heldTxn : (s.setServo a x).heldTxn = s.heldTxn := rfl
@[simp] theorem State.setServo_rme : (s.setServo a x).rme = s.rme := rfl
@[simp] theorem State.setServo_links : (s.setServo a x).links = s.links := rfl
@[simp] theorem State.setServo_harts : (s.setServo a x).harts = s.harts := rfl
@[simp] theorem State.setServo_trace : (s.setServo a x).trace = s.trace := rfl
@[simp] theorem State.setServo_fatal : (s.setServo a x).fatal = s.fatal := rfl
@[simp] theorem State.setServo_vrEn : (s.setServo a x).vrEn = s.vrEn := rfl
@[simp] theorem State.setServo_straps : (s.setServo a x).straps = s.straps := rfl
@[simp] theorem State.setServo_thermTrip : (s.setServo a x).thermTrip = s.thermTrip := rfl
@[simp] theorem State.setServo_wake : (s.setServo a x).wake = s.wake := rfl
@[simp] theorem State.setServo_pmb : (s.setServo a x).pmb = s.pmb := rfl
@[simp] theorem State.setServo_vin : (s.setServo a x).vin = s.vin := rfl
@[simp] theorem State.setServo_vinAt : (s.setServo a x).vinAt = s.vinAt := rfl
@[simp] theorem State.setServo_wakeBad : (s.setServo a x).wakeBad = s.wakeBad := rfl
@[simp] theorem State.setServo_sealGen : (s.setServo a x).sealGen = s.sealGen := rfl
@[simp] theorem State.setServo_presence : (s.setServo a x).presence = s.presence := rfl
@[simp] theorem State.setServo_clocks : (s.setServo a x).clocks = s.clocks := rfl
@[simp] theorem State.setServo_deep : (s.setServo a x).deep = s.deep := rfl
@[simp] theorem State.setServo_weir : (s.setServo a x).weir = s.weir := rfl
@[simp] theorem State.setServo_freqTo : (s.setServo a x).freqTo = s.freqTo := rfl
@[simp] theorem State.setServo_domTo : (s.setServo a x).domTo = s.domTo := rfl
@[simp] theorem State.setServo_pwrHeld : (s.setServo a x).pwrHeld = s.pwrHeld := rfl
@[simp] theorem State.setServo_pwrNext : (s.setServo a x).pwrNext = s.pwrNext := rfl
@[simp] theorem State.setServo_load : (s.setServo a x).load = s.load := rfl
@[simp] theorem State.setServo_svid : (s.setServo a x).svid = s.svid := rfl
@[simp] theorem State.setServo_ssid : (s.setServo a x).ssid = s.ssid := rfl
@[simp] theorem State.setServo_boot : (s.setServo a x).boot = s.boot := rfl
@[simp] theorem State.setServo_powerQ : (s.setServo a x).powerQ = s.powerQ := rfl
@[simp] theorem State.setServo_halves : (s.setServo a x).halves = s.halves := rfl
@[simp] theorem State.setServo_tileOp : (s.setServo a x).tileOp = s.tileOp := rfl
@[simp] theorem State.setServo_life : (s.setServo a x).life = s.life := rfl
@[simp] theorem State.setServo_recSeg : (s.setServo a x).recSeg = s.recSeg := rfl
@[simp] theorem State.setServo_lc : (s.setServo a x).lc = s.lc := rfl
@[simp] theorem State.setServo_st : (s.setServo a x).st = s.st := rfl
@[simp] theorem State.setServo_stayRecovery : (s.setServo a x).stayRecovery = s.stayRecovery := rfl
@[simp] theorem State.setServo_recoveries : (s.setServo a x).recoveries = s.recoveries := rfl
@[simp] theorem State.setServo_dbg : (s.setServo a x).dbg = s.dbg := rfl
@[simp] theorem State.setServo_pkgTicks : (s.setServo a x).pkgTicks = s.pkgTicks := rfl
@[simp] theorem State.setServo_memTop : (s.setServo a x).memTop = s.memTop := rfl
@[simp] theorem State.setServo_freeCount : (s.setServo a x).freeCount = s.freeCount := rfl

end

section

variable (a : Nat) (x : Sluice)

@[simp] theorem State.setSluice_pending : (s.setSluice a x).pending = s.pending := rfl
@[simp] theorem State.setSluice_out : (s.setSluice a x).out = s.out := rfl
@[simp] theorem State.setSluice_build : (s.setSluice a x).build = s.build := rfl
@[simp] theorem State.setSluice_mode : (s.setSluice a x).mode = s.mode := rfl
@[simp] theorem State.setSluice_regs : (s.setSluice a x).regs = s.regs := rfl
@[simp] theorem State.setSluice_dram : (s.setSluice a x).dram = s.dram := rfl
@[simp] theorem State.setSluice_mram : (s.setSluice a x).mram = s.mram := rfl
@[simp] theorem State.setSluice_poison : (s.setSluice a x).poison = s.poison := rfl
@[simp] theorem State.setSluice_lanes : (s.setSluice a x).lanes = s.lanes := rfl
@[simp] theorem State.setSluice_chans : (s.setSluice a x).chans = s.chans := rfl
@[simp] theorem State.setSluice_servos : (s.setSluice a x).servos = s.servos := rfl
@[simp] theorem State.setSluice_furrow : (s.setSluice a x).furrow = s.furrow := rfl
@[simp] theorem State.setSluice_dies : (s.setSluice a x).dies = s.dies := rfl
@[simp] theorem State.setSluice_stripes : (s.setSluice a x).stripes = s.stripes := rfl
@[simp] theorem State.setSluice_keys : (s.setSluice a x).keys = s.keys := rfl
@[simp] theorem State.setSluice_sweep : (s.setSluice a x).sweep = s.sweep := rfl
@[simp] theorem State.setSluice_fns : (s.setSluice a x).fns = s.fns := rfl
@[simp] theorem State.setSluice_ports : (s.setSluice a x).ports = s.ports := rfl
@[simp] theorem State.setSluice_xrings : (s.setSluice a x).xrings = s.xrings := rfl
@[simp] theorem State.setSluice_queues : (s.setSluice a x).queues = s.queues := rfl
@[simp] theorem State.setSluice_hg : (s.setSluice a x).hg = s.hg := rfl
@[simp] theorem State.setSluice_hostLog : (s.setSluice a x).hostLog = s.hostLog := rfl
@[simp] theorem State.setSluice_fwLog : (s.setSluice a x).fwLog = s.fwLog := rfl
@[simp] theorem State.setSluice_mbHeld : (s.setSluice a x).mbHeld = s.mbHeld := rfl
@[simp] theorem State.setSluice_mbTmo : (s.setSluice a x).mbTmo = s.mbTmo := rfl
@[simp] theorem State.setSluice_errLog : (s.setSluice a x).errLog = s.errLog := rfl
@[simp] theorem State.setSluice_wmapNow : (s.setSluice a x).wmapNow = s.wmapNow := rfl
@[simp] theorem State.setSluice_mregNow : (s.setSluice a x).mregNow = s.mregNow := rfl
@[simp] theorem State.setSluice_iowOld : (s.setSluice a x).iowOld = s.iowOld := rfl
@[simp] theorem State.setSluice_wmapNext : (s.setSluice a x).wmapNext = s.wmapNext := rfl
@[simp] theorem State.setSluice_mregNext : (s.setSluice a x).mregNext = s.mregNext := rfl
@[simp] theorem State.setSluice_lost : (s.setSluice a x).lost = s.lost := rfl
@[simp] theorem State.setSluice_fresh : (s.setSluice a x).fresh = s.fresh := rfl
@[simp] theorem State.setSluice_flips : (s.setSluice a x).flips = s.flips := rfl
@[simp] theorem State.setSluice_wbqs : (s.setSluice a x).wbqs = s.wbqs := rfl
@[simp] theorem State.setSluice_mcLog : (s.setSluice a x).mcLog = s.mcLog := rfl
@[simp] theorem State.setSluice_fill : (s.setSluice a x).fill = s.fill := rfl
@[simp] theorem State.setSluice_homes : (s.setSluice a x).homes = s.homes := rfl
@[simp] theorem State.setSluice_copies : (s.setSluice a x).copies = s.copies := rfl
@[simp] theorem State.setSluice_cores : (s.setSluice a x).cores = s.cores := rfl
@[simp] theorem State.setSluice_l1s : (s.setSluice a x).l1s = s.l1s := rfl
@[simp] theorem State.setSluice_lockedWays : (s.setSluice a x).lockedWays = s.lockedWays := rfl
@[simp] theorem State.setSluice_tiles : (s.setSluice a x).tiles = s.tiles := rfl
@[simp] theorem State.setSluice_evbufs : (s.setSluice a x).evbufs = s.evbufs := rfl
@[simp] theorem State.setSluice_amoHist : (s.setSluice a x).amoHist = s.amoHist := rfl
@[simp] theorem State.setSluice_net : (s.setSluice a x).net = s.net := rfl
@[simp] theorem State.setSluice_reqs : (s.setSluice a x).reqs = s.reqs := rfl
@[simp] theorem State.setSluice_heldTxn : (s.setSluice a x).heldTxn = s.heldTxn := rfl
@[simp] theorem State.setSluice_rme : (s.setSluice a x).rme = s.rme := rfl
@[simp] theorem State.setSluice_links : (s.setSluice a x).links = s.links := rfl
@[simp] theorem State.setSluice_harts : (s.setSluice a x).harts = s.harts := rfl
@[simp] theorem State.setSluice_trace : (s.setSluice a x).trace = s.trace := rfl
@[simp] theorem State.setSluice_fatal : (s.setSluice a x).fatal = s.fatal := rfl
@[simp] theorem State.setSluice_vrEn : (s.setSluice a x).vrEn = s.vrEn := rfl
@[simp] theorem State.setSluice_straps : (s.setSluice a x).straps = s.straps := rfl
@[simp] theorem State.setSluice_thermTrip : (s.setSluice a x).thermTrip = s.thermTrip := rfl
@[simp] theorem State.setSluice_wake : (s.setSluice a x).wake = s.wake := rfl
@[simp] theorem State.setSluice_pmb : (s.setSluice a x).pmb = s.pmb := rfl
@[simp] theorem State.setSluice_vin : (s.setSluice a x).vin = s.vin := rfl
@[simp] theorem State.setSluice_vinAt : (s.setSluice a x).vinAt = s.vinAt := rfl
@[simp] theorem State.setSluice_wakeBad : (s.setSluice a x).wakeBad = s.wakeBad := rfl
@[simp] theorem State.setSluice_sealGen : (s.setSluice a x).sealGen = s.sealGen := rfl
@[simp] theorem State.setSluice_presence : (s.setSluice a x).presence = s.presence := rfl
@[simp] theorem State.setSluice_clocks : (s.setSluice a x).clocks = s.clocks := rfl
@[simp] theorem State.setSluice_deep : (s.setSluice a x).deep = s.deep := rfl
@[simp] theorem State.setSluice_weir : (s.setSluice a x).weir = s.weir := rfl
@[simp] theorem State.setSluice_freqTo : (s.setSluice a x).freqTo = s.freqTo := rfl
@[simp] theorem State.setSluice_domTo : (s.setSluice a x).domTo = s.domTo := rfl
@[simp] theorem State.setSluice_pwrHeld : (s.setSluice a x).pwrHeld = s.pwrHeld := rfl
@[simp] theorem State.setSluice_pwrNext : (s.setSluice a x).pwrNext = s.pwrNext := rfl
@[simp] theorem State.setSluice_load : (s.setSluice a x).load = s.load := rfl
@[simp] theorem State.setSluice_svid : (s.setSluice a x).svid = s.svid := rfl
@[simp] theorem State.setSluice_ssid : (s.setSluice a x).ssid = s.ssid := rfl
@[simp] theorem State.setSluice_boot : (s.setSluice a x).boot = s.boot := rfl
@[simp] theorem State.setSluice_powerQ : (s.setSluice a x).powerQ = s.powerQ := rfl
@[simp] theorem State.setSluice_halves : (s.setSluice a x).halves = s.halves := rfl
@[simp] theorem State.setSluice_tileOp : (s.setSluice a x).tileOp = s.tileOp := rfl
@[simp] theorem State.setSluice_life : (s.setSluice a x).life = s.life := rfl
@[simp] theorem State.setSluice_recSeg : (s.setSluice a x).recSeg = s.recSeg := rfl
@[simp] theorem State.setSluice_lc : (s.setSluice a x).lc = s.lc := rfl
@[simp] theorem State.setSluice_st : (s.setSluice a x).st = s.st := rfl
@[simp] theorem State.setSluice_stayRecovery : (s.setSluice a x).stayRecovery = s.stayRecovery := rfl
@[simp] theorem State.setSluice_recoveries : (s.setSluice a x).recoveries = s.recoveries := rfl
@[simp] theorem State.setSluice_dbg : (s.setSluice a x).dbg = s.dbg := rfl
@[simp] theorem State.setSluice_pkgTicks : (s.setSluice a x).pkgTicks = s.pkgTicks := rfl
@[simp] theorem State.setSluice_memTop : (s.setSluice a x).memTop = s.memTop := rfl
@[simp] theorem State.setSluice_freeCount : (s.setSluice a x).freeCount = s.freeCount := rfl

end

section

variable (m : Nat) (x : Die)

@[simp] theorem State.setDie_pending : (s.setDie m x).pending = s.pending := rfl
@[simp] theorem State.setDie_out : (s.setDie m x).out = s.out := rfl
@[simp] theorem State.setDie_build : (s.setDie m x).build = s.build := rfl
@[simp] theorem State.setDie_mode : (s.setDie m x).mode = s.mode := rfl
@[simp] theorem State.setDie_regs : (s.setDie m x).regs = s.regs := rfl
@[simp] theorem State.setDie_dram : (s.setDie m x).dram = s.dram := rfl
@[simp] theorem State.setDie_mram : (s.setDie m x).mram = s.mram := rfl
@[simp] theorem State.setDie_poison : (s.setDie m x).poison = s.poison := rfl
@[simp] theorem State.setDie_lanes : (s.setDie m x).lanes = s.lanes := rfl
@[simp] theorem State.setDie_chans : (s.setDie m x).chans = s.chans := rfl
@[simp] theorem State.setDie_servos : (s.setDie m x).servos = s.servos := rfl
@[simp] theorem State.setDie_sluices : (s.setDie m x).sluices = s.sluices := rfl
@[simp] theorem State.setDie_furrow : (s.setDie m x).furrow = s.furrow := rfl
@[simp] theorem State.setDie_stripes : (s.setDie m x).stripes = s.stripes := rfl
@[simp] theorem State.setDie_keys : (s.setDie m x).keys = s.keys := rfl
@[simp] theorem State.setDie_sweep : (s.setDie m x).sweep = s.sweep := rfl
@[simp] theorem State.setDie_fns : (s.setDie m x).fns = s.fns := rfl
@[simp] theorem State.setDie_ports : (s.setDie m x).ports = s.ports := rfl
@[simp] theorem State.setDie_xrings : (s.setDie m x).xrings = s.xrings := rfl
@[simp] theorem State.setDie_queues : (s.setDie m x).queues = s.queues := rfl
@[simp] theorem State.setDie_hg : (s.setDie m x).hg = s.hg := rfl
@[simp] theorem State.setDie_hostLog : (s.setDie m x).hostLog = s.hostLog := rfl
@[simp] theorem State.setDie_fwLog : (s.setDie m x).fwLog = s.fwLog := rfl
@[simp] theorem State.setDie_mbHeld : (s.setDie m x).mbHeld = s.mbHeld := rfl
@[simp] theorem State.setDie_mbTmo : (s.setDie m x).mbTmo = s.mbTmo := rfl
@[simp] theorem State.setDie_errLog : (s.setDie m x).errLog = s.errLog := rfl
@[simp] theorem State.setDie_wmapNow : (s.setDie m x).wmapNow = s.wmapNow := rfl
@[simp] theorem State.setDie_mregNow : (s.setDie m x).mregNow = s.mregNow := rfl
@[simp] theorem State.setDie_iowOld : (s.setDie m x).iowOld = s.iowOld := rfl
@[simp] theorem State.setDie_wmapNext : (s.setDie m x).wmapNext = s.wmapNext := rfl
@[simp] theorem State.setDie_mregNext : (s.setDie m x).mregNext = s.mregNext := rfl
@[simp] theorem State.setDie_lost : (s.setDie m x).lost = s.lost := rfl
@[simp] theorem State.setDie_fresh : (s.setDie m x).fresh = s.fresh := rfl
@[simp] theorem State.setDie_flips : (s.setDie m x).flips = s.flips := rfl
@[simp] theorem State.setDie_wbqs : (s.setDie m x).wbqs = s.wbqs := rfl
@[simp] theorem State.setDie_mcLog : (s.setDie m x).mcLog = s.mcLog := rfl
@[simp] theorem State.setDie_fill : (s.setDie m x).fill = s.fill := rfl
@[simp] theorem State.setDie_homes : (s.setDie m x).homes = s.homes := rfl
@[simp] theorem State.setDie_copies : (s.setDie m x).copies = s.copies := rfl
@[simp] theorem State.setDie_cores : (s.setDie m x).cores = s.cores := rfl
@[simp] theorem State.setDie_l1s : (s.setDie m x).l1s = s.l1s := rfl
@[simp] theorem State.setDie_lockedWays : (s.setDie m x).lockedWays = s.lockedWays := rfl
@[simp] theorem State.setDie_tiles : (s.setDie m x).tiles = s.tiles := rfl
@[simp] theorem State.setDie_evbufs : (s.setDie m x).evbufs = s.evbufs := rfl
@[simp] theorem State.setDie_amoHist : (s.setDie m x).amoHist = s.amoHist := rfl
@[simp] theorem State.setDie_net : (s.setDie m x).net = s.net := rfl
@[simp] theorem State.setDie_reqs : (s.setDie m x).reqs = s.reqs := rfl
@[simp] theorem State.setDie_heldTxn : (s.setDie m x).heldTxn = s.heldTxn := rfl
@[simp] theorem State.setDie_rme : (s.setDie m x).rme = s.rme := rfl
@[simp] theorem State.setDie_links : (s.setDie m x).links = s.links := rfl
@[simp] theorem State.setDie_harts : (s.setDie m x).harts = s.harts := rfl
@[simp] theorem State.setDie_trace : (s.setDie m x).trace = s.trace := rfl
@[simp] theorem State.setDie_fatal : (s.setDie m x).fatal = s.fatal := rfl
@[simp] theorem State.setDie_vrEn : (s.setDie m x).vrEn = s.vrEn := rfl
@[simp] theorem State.setDie_straps : (s.setDie m x).straps = s.straps := rfl
@[simp] theorem State.setDie_thermTrip : (s.setDie m x).thermTrip = s.thermTrip := rfl
@[simp] theorem State.setDie_wake : (s.setDie m x).wake = s.wake := rfl
@[simp] theorem State.setDie_pmb : (s.setDie m x).pmb = s.pmb := rfl
@[simp] theorem State.setDie_vin : (s.setDie m x).vin = s.vin := rfl
@[simp] theorem State.setDie_vinAt : (s.setDie m x).vinAt = s.vinAt := rfl
@[simp] theorem State.setDie_wakeBad : (s.setDie m x).wakeBad = s.wakeBad := rfl
@[simp] theorem State.setDie_sealGen : (s.setDie m x).sealGen = s.sealGen := rfl
@[simp] theorem State.setDie_presence : (s.setDie m x).presence = s.presence := rfl
@[simp] theorem State.setDie_clocks : (s.setDie m x).clocks = s.clocks := rfl
@[simp] theorem State.setDie_deep : (s.setDie m x).deep = s.deep := rfl
@[simp] theorem State.setDie_weir : (s.setDie m x).weir = s.weir := rfl
@[simp] theorem State.setDie_freqTo : (s.setDie m x).freqTo = s.freqTo := rfl
@[simp] theorem State.setDie_domTo : (s.setDie m x).domTo = s.domTo := rfl
@[simp] theorem State.setDie_pwrHeld : (s.setDie m x).pwrHeld = s.pwrHeld := rfl
@[simp] theorem State.setDie_pwrNext : (s.setDie m x).pwrNext = s.pwrNext := rfl
@[simp] theorem State.setDie_load : (s.setDie m x).load = s.load := rfl
@[simp] theorem State.setDie_svid : (s.setDie m x).svid = s.svid := rfl
@[simp] theorem State.setDie_ssid : (s.setDie m x).ssid = s.ssid := rfl
@[simp] theorem State.setDie_boot : (s.setDie m x).boot = s.boot := rfl
@[simp] theorem State.setDie_powerQ : (s.setDie m x).powerQ = s.powerQ := rfl
@[simp] theorem State.setDie_halves : (s.setDie m x).halves = s.halves := rfl
@[simp] theorem State.setDie_tileOp : (s.setDie m x).tileOp = s.tileOp := rfl
@[simp] theorem State.setDie_life : (s.setDie m x).life = s.life := rfl
@[simp] theorem State.setDie_recSeg : (s.setDie m x).recSeg = s.recSeg := rfl
@[simp] theorem State.setDie_lc : (s.setDie m x).lc = s.lc := rfl
@[simp] theorem State.setDie_st : (s.setDie m x).st = s.st := rfl
@[simp] theorem State.setDie_stayRecovery : (s.setDie m x).stayRecovery = s.stayRecovery := rfl
@[simp] theorem State.setDie_recoveries : (s.setDie m x).recoveries = s.recoveries := rfl
@[simp] theorem State.setDie_dbg : (s.setDie m x).dbg = s.dbg := rfl
@[simp] theorem State.setDie_pkgTicks : (s.setDie m x).pkgTicks = s.pkgTicks := rfl
@[simp] theorem State.setDie_memTop : (s.setDie m x).memTop = s.memTop := rfl
@[simp] theorem State.setDie_freeCount : (s.setDie m x).freeCount = s.freeCount := rfl

end

section

variable (k : Nat) (x : StripeEng)

@[simp] theorem State.setStripe_pending : (s.setStripe k x).pending = s.pending := rfl
@[simp] theorem State.setStripe_out : (s.setStripe k x).out = s.out := rfl
@[simp] theorem State.setStripe_build : (s.setStripe k x).build = s.build := rfl
@[simp] theorem State.setStripe_mode : (s.setStripe k x).mode = s.mode := rfl
@[simp] theorem State.setStripe_regs : (s.setStripe k x).regs = s.regs := rfl
@[simp] theorem State.setStripe_dram : (s.setStripe k x).dram = s.dram := rfl
@[simp] theorem State.setStripe_mram : (s.setStripe k x).mram = s.mram := rfl
@[simp] theorem State.setStripe_poison : (s.setStripe k x).poison = s.poison := rfl
@[simp] theorem State.setStripe_lanes : (s.setStripe k x).lanes = s.lanes := rfl
@[simp] theorem State.setStripe_chans : (s.setStripe k x).chans = s.chans := rfl
@[simp] theorem State.setStripe_servos : (s.setStripe k x).servos = s.servos := rfl
@[simp] theorem State.setStripe_sluices : (s.setStripe k x).sluices = s.sluices := rfl
@[simp] theorem State.setStripe_furrow : (s.setStripe k x).furrow = s.furrow := rfl
@[simp] theorem State.setStripe_dies : (s.setStripe k x).dies = s.dies := rfl
@[simp] theorem State.setStripe_keys : (s.setStripe k x).keys = s.keys := rfl
@[simp] theorem State.setStripe_sweep : (s.setStripe k x).sweep = s.sweep := rfl
@[simp] theorem State.setStripe_fns : (s.setStripe k x).fns = s.fns := rfl
@[simp] theorem State.setStripe_ports : (s.setStripe k x).ports = s.ports := rfl
@[simp] theorem State.setStripe_xrings : (s.setStripe k x).xrings = s.xrings := rfl
@[simp] theorem State.setStripe_queues : (s.setStripe k x).queues = s.queues := rfl
@[simp] theorem State.setStripe_hg : (s.setStripe k x).hg = s.hg := rfl
@[simp] theorem State.setStripe_hostLog : (s.setStripe k x).hostLog = s.hostLog := rfl
@[simp] theorem State.setStripe_fwLog : (s.setStripe k x).fwLog = s.fwLog := rfl
@[simp] theorem State.setStripe_mbHeld : (s.setStripe k x).mbHeld = s.mbHeld := rfl
@[simp] theorem State.setStripe_mbTmo : (s.setStripe k x).mbTmo = s.mbTmo := rfl
@[simp] theorem State.setStripe_errLog : (s.setStripe k x).errLog = s.errLog := rfl
@[simp] theorem State.setStripe_wmapNow : (s.setStripe k x).wmapNow = s.wmapNow := rfl
@[simp] theorem State.setStripe_mregNow : (s.setStripe k x).mregNow = s.mregNow := rfl
@[simp] theorem State.setStripe_iowOld : (s.setStripe k x).iowOld = s.iowOld := rfl
@[simp] theorem State.setStripe_wmapNext : (s.setStripe k x).wmapNext = s.wmapNext := rfl
@[simp] theorem State.setStripe_mregNext : (s.setStripe k x).mregNext = s.mregNext := rfl
@[simp] theorem State.setStripe_lost : (s.setStripe k x).lost = s.lost := rfl
@[simp] theorem State.setStripe_fresh : (s.setStripe k x).fresh = s.fresh := rfl
@[simp] theorem State.setStripe_flips : (s.setStripe k x).flips = s.flips := rfl
@[simp] theorem State.setStripe_wbqs : (s.setStripe k x).wbqs = s.wbqs := rfl
@[simp] theorem State.setStripe_mcLog : (s.setStripe k x).mcLog = s.mcLog := rfl
@[simp] theorem State.setStripe_fill : (s.setStripe k x).fill = s.fill := rfl
@[simp] theorem State.setStripe_homes : (s.setStripe k x).homes = s.homes := rfl
@[simp] theorem State.setStripe_copies : (s.setStripe k x).copies = s.copies := rfl
@[simp] theorem State.setStripe_cores : (s.setStripe k x).cores = s.cores := rfl
@[simp] theorem State.setStripe_l1s : (s.setStripe k x).l1s = s.l1s := rfl
@[simp] theorem State.setStripe_lockedWays : (s.setStripe k x).lockedWays = s.lockedWays := rfl
@[simp] theorem State.setStripe_tiles : (s.setStripe k x).tiles = s.tiles := rfl
@[simp] theorem State.setStripe_evbufs : (s.setStripe k x).evbufs = s.evbufs := rfl
@[simp] theorem State.setStripe_amoHist : (s.setStripe k x).amoHist = s.amoHist := rfl
@[simp] theorem State.setStripe_net : (s.setStripe k x).net = s.net := rfl
@[simp] theorem State.setStripe_reqs : (s.setStripe k x).reqs = s.reqs := rfl
@[simp] theorem State.setStripe_heldTxn : (s.setStripe k x).heldTxn = s.heldTxn := rfl
@[simp] theorem State.setStripe_rme : (s.setStripe k x).rme = s.rme := rfl
@[simp] theorem State.setStripe_links : (s.setStripe k x).links = s.links := rfl
@[simp] theorem State.setStripe_harts : (s.setStripe k x).harts = s.harts := rfl
@[simp] theorem State.setStripe_trace : (s.setStripe k x).trace = s.trace := rfl
@[simp] theorem State.setStripe_fatal : (s.setStripe k x).fatal = s.fatal := rfl
@[simp] theorem State.setStripe_vrEn : (s.setStripe k x).vrEn = s.vrEn := rfl
@[simp] theorem State.setStripe_straps : (s.setStripe k x).straps = s.straps := rfl
@[simp] theorem State.setStripe_thermTrip : (s.setStripe k x).thermTrip = s.thermTrip := rfl
@[simp] theorem State.setStripe_wake : (s.setStripe k x).wake = s.wake := rfl
@[simp] theorem State.setStripe_pmb : (s.setStripe k x).pmb = s.pmb := rfl
@[simp] theorem State.setStripe_vin : (s.setStripe k x).vin = s.vin := rfl
@[simp] theorem State.setStripe_vinAt : (s.setStripe k x).vinAt = s.vinAt := rfl
@[simp] theorem State.setStripe_wakeBad : (s.setStripe k x).wakeBad = s.wakeBad := rfl
@[simp] theorem State.setStripe_sealGen : (s.setStripe k x).sealGen = s.sealGen := rfl
@[simp] theorem State.setStripe_presence : (s.setStripe k x).presence = s.presence := rfl
@[simp] theorem State.setStripe_clocks : (s.setStripe k x).clocks = s.clocks := rfl
@[simp] theorem State.setStripe_deep : (s.setStripe k x).deep = s.deep := rfl
@[simp] theorem State.setStripe_weir : (s.setStripe k x).weir = s.weir := rfl
@[simp] theorem State.setStripe_freqTo : (s.setStripe k x).freqTo = s.freqTo := rfl
@[simp] theorem State.setStripe_domTo : (s.setStripe k x).domTo = s.domTo := rfl
@[simp] theorem State.setStripe_pwrHeld : (s.setStripe k x).pwrHeld = s.pwrHeld := rfl
@[simp] theorem State.setStripe_pwrNext : (s.setStripe k x).pwrNext = s.pwrNext := rfl
@[simp] theorem State.setStripe_load : (s.setStripe k x).load = s.load := rfl
@[simp] theorem State.setStripe_svid : (s.setStripe k x).svid = s.svid := rfl
@[simp] theorem State.setStripe_ssid : (s.setStripe k x).ssid = s.ssid := rfl
@[simp] theorem State.setStripe_boot : (s.setStripe k x).boot = s.boot := rfl
@[simp] theorem State.setStripe_powerQ : (s.setStripe k x).powerQ = s.powerQ := rfl
@[simp] theorem State.setStripe_halves : (s.setStripe k x).halves = s.halves := rfl
@[simp] theorem State.setStripe_tileOp : (s.setStripe k x).tileOp = s.tileOp := rfl
@[simp] theorem State.setStripe_life : (s.setStripe k x).life = s.life := rfl
@[simp] theorem State.setStripe_recSeg : (s.setStripe k x).recSeg = s.recSeg := rfl
@[simp] theorem State.setStripe_lc : (s.setStripe k x).lc = s.lc := rfl
@[simp] theorem State.setStripe_st : (s.setStripe k x).st = s.st := rfl
@[simp] theorem State.setStripe_stayRecovery : (s.setStripe k x).stayRecovery = s.stayRecovery := rfl
@[simp] theorem State.setStripe_recoveries : (s.setStripe k x).recoveries = s.recoveries := rfl
@[simp] theorem State.setStripe_dbg : (s.setStripe k x).dbg = s.dbg := rfl
@[simp] theorem State.setStripe_pkgTicks : (s.setStripe k x).pkgTicks = s.pkgTicks := rfl
@[simp] theorem State.setStripe_memTop : (s.setStripe k x).memTop = s.memTop := rfl
@[simp] theorem State.setStripe_freeCount : (s.setStripe k x).freeCount = s.freeCount := rfl

end

section

variable (a : Nat) (b : Byte)

@[simp] theorem State.setMram_pending : (s.setMram a b).pending = s.pending := rfl
@[simp] theorem State.setMram_out : (s.setMram a b).out = s.out := rfl
@[simp] theorem State.setMram_build : (s.setMram a b).build = s.build := rfl
@[simp] theorem State.setMram_mode : (s.setMram a b).mode = s.mode := rfl
@[simp] theorem State.setMram_regs : (s.setMram a b).regs = s.regs := rfl
@[simp] theorem State.setMram_dram : (s.setMram a b).dram = s.dram := rfl
@[simp] theorem State.setMram_poison : (s.setMram a b).poison = s.poison := rfl
@[simp] theorem State.setMram_lanes : (s.setMram a b).lanes = s.lanes := rfl
@[simp] theorem State.setMram_chans : (s.setMram a b).chans = s.chans := rfl
@[simp] theorem State.setMram_servos : (s.setMram a b).servos = s.servos := rfl
@[simp] theorem State.setMram_sluices : (s.setMram a b).sluices = s.sluices := rfl
@[simp] theorem State.setMram_furrow : (s.setMram a b).furrow = s.furrow := rfl
@[simp] theorem State.setMram_dies : (s.setMram a b).dies = s.dies := rfl
@[simp] theorem State.setMram_stripes : (s.setMram a b).stripes = s.stripes := rfl
@[simp] theorem State.setMram_keys : (s.setMram a b).keys = s.keys := rfl
@[simp] theorem State.setMram_sweep : (s.setMram a b).sweep = s.sweep := rfl
@[simp] theorem State.setMram_fns : (s.setMram a b).fns = s.fns := rfl
@[simp] theorem State.setMram_ports : (s.setMram a b).ports = s.ports := rfl
@[simp] theorem State.setMram_xrings : (s.setMram a b).xrings = s.xrings := rfl
@[simp] theorem State.setMram_queues : (s.setMram a b).queues = s.queues := rfl
@[simp] theorem State.setMram_hg : (s.setMram a b).hg = s.hg := rfl
@[simp] theorem State.setMram_hostLog : (s.setMram a b).hostLog = s.hostLog := rfl
@[simp] theorem State.setMram_fwLog : (s.setMram a b).fwLog = s.fwLog := rfl
@[simp] theorem State.setMram_mbHeld : (s.setMram a b).mbHeld = s.mbHeld := rfl
@[simp] theorem State.setMram_mbTmo : (s.setMram a b).mbTmo = s.mbTmo := rfl
@[simp] theorem State.setMram_errLog : (s.setMram a b).errLog = s.errLog := rfl
@[simp] theorem State.setMram_wmapNow : (s.setMram a b).wmapNow = s.wmapNow := rfl
@[simp] theorem State.setMram_mregNow : (s.setMram a b).mregNow = s.mregNow := rfl
@[simp] theorem State.setMram_iowOld : (s.setMram a b).iowOld = s.iowOld := rfl
@[simp] theorem State.setMram_wmapNext : (s.setMram a b).wmapNext = s.wmapNext := rfl
@[simp] theorem State.setMram_mregNext : (s.setMram a b).mregNext = s.mregNext := rfl
@[simp] theorem State.setMram_lost : (s.setMram a b).lost = s.lost := rfl
@[simp] theorem State.setMram_fresh : (s.setMram a b).fresh = s.fresh := rfl
@[simp] theorem State.setMram_flips : (s.setMram a b).flips = s.flips := rfl
@[simp] theorem State.setMram_wbqs : (s.setMram a b).wbqs = s.wbqs := rfl
@[simp] theorem State.setMram_mcLog : (s.setMram a b).mcLog = s.mcLog := rfl
@[simp] theorem State.setMram_fill : (s.setMram a b).fill = s.fill := rfl
@[simp] theorem State.setMram_homes : (s.setMram a b).homes = s.homes := rfl
@[simp] theorem State.setMram_copies : (s.setMram a b).copies = s.copies := rfl
@[simp] theorem State.setMram_cores : (s.setMram a b).cores = s.cores := rfl
@[simp] theorem State.setMram_l1s : (s.setMram a b).l1s = s.l1s := rfl
@[simp] theorem State.setMram_lockedWays : (s.setMram a b).lockedWays = s.lockedWays := rfl
@[simp] theorem State.setMram_tiles : (s.setMram a b).tiles = s.tiles := rfl
@[simp] theorem State.setMram_evbufs : (s.setMram a b).evbufs = s.evbufs := rfl
@[simp] theorem State.setMram_amoHist : (s.setMram a b).amoHist = s.amoHist := rfl
@[simp] theorem State.setMram_net : (s.setMram a b).net = s.net := rfl
@[simp] theorem State.setMram_reqs : (s.setMram a b).reqs = s.reqs := rfl
@[simp] theorem State.setMram_heldTxn : (s.setMram a b).heldTxn = s.heldTxn := rfl
@[simp] theorem State.setMram_rme : (s.setMram a b).rme = s.rme := rfl
@[simp] theorem State.setMram_links : (s.setMram a b).links = s.links := rfl
@[simp] theorem State.setMram_harts : (s.setMram a b).harts = s.harts := rfl
@[simp] theorem State.setMram_trace : (s.setMram a b).trace = s.trace := rfl
@[simp] theorem State.setMram_fatal : (s.setMram a b).fatal = s.fatal := rfl
@[simp] theorem State.setMram_vrEn : (s.setMram a b).vrEn = s.vrEn := rfl
@[simp] theorem State.setMram_straps : (s.setMram a b).straps = s.straps := rfl
@[simp] theorem State.setMram_thermTrip : (s.setMram a b).thermTrip = s.thermTrip := rfl
@[simp] theorem State.setMram_wake : (s.setMram a b).wake = s.wake := rfl
@[simp] theorem State.setMram_pmb : (s.setMram a b).pmb = s.pmb := rfl
@[simp] theorem State.setMram_vin : (s.setMram a b).vin = s.vin := rfl
@[simp] theorem State.setMram_vinAt : (s.setMram a b).vinAt = s.vinAt := rfl
@[simp] theorem State.setMram_wakeBad : (s.setMram a b).wakeBad = s.wakeBad := rfl
@[simp] theorem State.setMram_sealGen : (s.setMram a b).sealGen = s.sealGen := rfl
@[simp] theorem State.setMram_presence : (s.setMram a b).presence = s.presence := rfl
@[simp] theorem State.setMram_clocks : (s.setMram a b).clocks = s.clocks := rfl
@[simp] theorem State.setMram_deep : (s.setMram a b).deep = s.deep := rfl
@[simp] theorem State.setMram_weir : (s.setMram a b).weir = s.weir := rfl
@[simp] theorem State.setMram_freqTo : (s.setMram a b).freqTo = s.freqTo := rfl
@[simp] theorem State.setMram_domTo : (s.setMram a b).domTo = s.domTo := rfl
@[simp] theorem State.setMram_pwrHeld : (s.setMram a b).pwrHeld = s.pwrHeld := rfl
@[simp] theorem State.setMram_pwrNext : (s.setMram a b).pwrNext = s.pwrNext := rfl
@[simp] theorem State.setMram_load : (s.setMram a b).load = s.load := rfl
@[simp] theorem State.setMram_svid : (s.setMram a b).svid = s.svid := rfl
@[simp] theorem State.setMram_ssid : (s.setMram a b).ssid = s.ssid := rfl
@[simp] theorem State.setMram_boot : (s.setMram a b).boot = s.boot := rfl
@[simp] theorem State.setMram_powerQ : (s.setMram a b).powerQ = s.powerQ := rfl
@[simp] theorem State.setMram_halves : (s.setMram a b).halves = s.halves := rfl
@[simp] theorem State.setMram_tileOp : (s.setMram a b).tileOp = s.tileOp := rfl
@[simp] theorem State.setMram_life : (s.setMram a b).life = s.life := rfl
@[simp] theorem State.setMram_recSeg : (s.setMram a b).recSeg = s.recSeg := rfl
@[simp] theorem State.setMram_lc : (s.setMram a b).lc = s.lc := rfl
@[simp] theorem State.setMram_st : (s.setMram a b).st = s.st := rfl
@[simp] theorem State.setMram_stayRecovery : (s.setMram a b).stayRecovery = s.stayRecovery := rfl
@[simp] theorem State.setMram_recoveries : (s.setMram a b).recoveries = s.recoveries := rfl
@[simp] theorem State.setMram_dbg : (s.setMram a b).dbg = s.dbg := rfl
@[simp] theorem State.setMram_pkgTicks : (s.setMram a b).pkgTicks = s.pkgTicks := rfl
@[simp] theorem State.setMram_memTop : (s.setMram a b).memTop = s.memTop := rfl
@[simp] theorem State.setMram_freeCount : (s.setMram a b).freeCount = s.freeCount := rfl

end

section

variable (a : Nat) (b : Byte)

/-- A byte written to DRAM: the byte, the wrong bits stored and the bytes that are defined change, and nothing else. -/
theorem State.setDram_cases : ∃ x y, s.setDram a b = { s with dram := tset 0 s.dram a b, flips := x, fresh := y } ∧
    (twf 0 s.flips = true → twf 0 x = true) := by
  have h₀ : twf 0 s.flips = true → twf 0 (if s.flips.isEmpty then s.flips else tset 0 s.flips a 0) = true := fun h => by
    split
    · exact h
    · exact twf_tset _ _ _ _ h
  unfold State.setDram
  dsimp only
  split
  · exact ⟨_, _, rfl, h₀⟩
  · split
    · exact ⟨_, _, rfl, fun h => twf_tset _ _ _ _ (h₀ h)⟩
    · exact ⟨_, _, rfl, h₀⟩

@[simp] theorem State.setDram_pending : (s.setDram a b).pending = s.pending := by obtain ⟨_, _, h, _⟩ := s.setDram_cases a b; rw [h]
@[simp] theorem State.setDram_out : (s.setDram a b).out = s.out := by obtain ⟨_, _, h, _⟩ := s.setDram_cases a b; rw [h]
@[simp] theorem State.setDram_build : (s.setDram a b).build = s.build := by obtain ⟨_, _, h, _⟩ := s.setDram_cases a b; rw [h]
@[simp] theorem State.setDram_mode : (s.setDram a b).mode = s.mode := by obtain ⟨_, _, h, _⟩ := s.setDram_cases a b; rw [h]
@[simp] theorem State.setDram_regs : (s.setDram a b).regs = s.regs := by obtain ⟨_, _, h, _⟩ := s.setDram_cases a b; rw [h]
@[simp] theorem State.setDram_mram : (s.setDram a b).mram = s.mram := by obtain ⟨_, _, h, _⟩ := s.setDram_cases a b; rw [h]
@[simp] theorem State.setDram_poison : (s.setDram a b).poison = s.poison := by obtain ⟨_, _, h, _⟩ := s.setDram_cases a b; rw [h]
@[simp] theorem State.setDram_lanes : (s.setDram a b).lanes = s.lanes := by obtain ⟨_, _, h, _⟩ := s.setDram_cases a b; rw [h]
@[simp] theorem State.setDram_chans : (s.setDram a b).chans = s.chans := by obtain ⟨_, _, h, _⟩ := s.setDram_cases a b; rw [h]
@[simp] theorem State.setDram_servos : (s.setDram a b).servos = s.servos := by obtain ⟨_, _, h, _⟩ := s.setDram_cases a b; rw [h]
@[simp] theorem State.setDram_sluices : (s.setDram a b).sluices = s.sluices := by obtain ⟨_, _, h, _⟩ := s.setDram_cases a b; rw [h]
@[simp] theorem State.setDram_furrow : (s.setDram a b).furrow = s.furrow := by obtain ⟨_, _, h, _⟩ := s.setDram_cases a b; rw [h]
@[simp] theorem State.setDram_dies : (s.setDram a b).dies = s.dies := by obtain ⟨_, _, h, _⟩ := s.setDram_cases a b; rw [h]
@[simp] theorem State.setDram_stripes : (s.setDram a b).stripes = s.stripes := by obtain ⟨_, _, h, _⟩ := s.setDram_cases a b; rw [h]
@[simp] theorem State.setDram_keys : (s.setDram a b).keys = s.keys := by obtain ⟨_, _, h, _⟩ := s.setDram_cases a b; rw [h]
@[simp] theorem State.setDram_sweep : (s.setDram a b).sweep = s.sweep := by obtain ⟨_, _, h, _⟩ := s.setDram_cases a b; rw [h]
@[simp] theorem State.setDram_fns : (s.setDram a b).fns = s.fns := by obtain ⟨_, _, h, _⟩ := s.setDram_cases a b; rw [h]
@[simp] theorem State.setDram_ports : (s.setDram a b).ports = s.ports := by obtain ⟨_, _, h, _⟩ := s.setDram_cases a b; rw [h]
@[simp] theorem State.setDram_xrings : (s.setDram a b).xrings = s.xrings := by obtain ⟨_, _, h, _⟩ := s.setDram_cases a b; rw [h]
@[simp] theorem State.setDram_queues : (s.setDram a b).queues = s.queues := by obtain ⟨_, _, h, _⟩ := s.setDram_cases a b; rw [h]
@[simp] theorem State.setDram_hg : (s.setDram a b).hg = s.hg := by obtain ⟨_, _, h, _⟩ := s.setDram_cases a b; rw [h]
@[simp] theorem State.setDram_hostLog : (s.setDram a b).hostLog = s.hostLog := by obtain ⟨_, _, h, _⟩ := s.setDram_cases a b; rw [h]
@[simp] theorem State.setDram_fwLog : (s.setDram a b).fwLog = s.fwLog := by obtain ⟨_, _, h, _⟩ := s.setDram_cases a b; rw [h]
@[simp] theorem State.setDram_mbHeld : (s.setDram a b).mbHeld = s.mbHeld := by obtain ⟨_, _, h, _⟩ := s.setDram_cases a b; rw [h]
@[simp] theorem State.setDram_mbTmo : (s.setDram a b).mbTmo = s.mbTmo := by obtain ⟨_, _, h, _⟩ := s.setDram_cases a b; rw [h]
@[simp] theorem State.setDram_errLog : (s.setDram a b).errLog = s.errLog := by obtain ⟨_, _, h, _⟩ := s.setDram_cases a b; rw [h]
@[simp] theorem State.setDram_wmapNow : (s.setDram a b).wmapNow = s.wmapNow := by obtain ⟨_, _, h, _⟩ := s.setDram_cases a b; rw [h]
@[simp] theorem State.setDram_mregNow : (s.setDram a b).mregNow = s.mregNow := by obtain ⟨_, _, h, _⟩ := s.setDram_cases a b; rw [h]
@[simp] theorem State.setDram_iowOld : (s.setDram a b).iowOld = s.iowOld := by obtain ⟨_, _, h, _⟩ := s.setDram_cases a b; rw [h]
@[simp] theorem State.setDram_wmapNext : (s.setDram a b).wmapNext = s.wmapNext := by obtain ⟨_, _, h, _⟩ := s.setDram_cases a b; rw [h]
@[simp] theorem State.setDram_mregNext : (s.setDram a b).mregNext = s.mregNext := by obtain ⟨_, _, h, _⟩ := s.setDram_cases a b; rw [h]
@[simp] theorem State.setDram_lost : (s.setDram a b).lost = s.lost := by obtain ⟨_, _, h, _⟩ := s.setDram_cases a b; rw [h]
@[simp] theorem State.setDram_wbqs : (s.setDram a b).wbqs = s.wbqs := by obtain ⟨_, _, h, _⟩ := s.setDram_cases a b; rw [h]
@[simp] theorem State.setDram_mcLog : (s.setDram a b).mcLog = s.mcLog := by obtain ⟨_, _, h, _⟩ := s.setDram_cases a b; rw [h]
@[simp] theorem State.setDram_fill : (s.setDram a b).fill = s.fill := by obtain ⟨_, _, h, _⟩ := s.setDram_cases a b; rw [h]
@[simp] theorem State.setDram_homes : (s.setDram a b).homes = s.homes := by obtain ⟨_, _, h, _⟩ := s.setDram_cases a b; rw [h]
@[simp] theorem State.setDram_copies : (s.setDram a b).copies = s.copies := by obtain ⟨_, _, h, _⟩ := s.setDram_cases a b; rw [h]
@[simp] theorem State.setDram_cores : (s.setDram a b).cores = s.cores := by obtain ⟨_, _, h, _⟩ := s.setDram_cases a b; rw [h]
@[simp] theorem State.setDram_l1s : (s.setDram a b).l1s = s.l1s := by obtain ⟨_, _, h, _⟩ := s.setDram_cases a b; rw [h]
@[simp] theorem State.setDram_lockedWays : (s.setDram a b).lockedWays = s.lockedWays := by obtain ⟨_, _, h, _⟩ := s.setDram_cases a b; rw [h]
@[simp] theorem State.setDram_tiles : (s.setDram a b).tiles = s.tiles := by obtain ⟨_, _, h, _⟩ := s.setDram_cases a b; rw [h]
@[simp] theorem State.setDram_evbufs : (s.setDram a b).evbufs = s.evbufs := by obtain ⟨_, _, h, _⟩ := s.setDram_cases a b; rw [h]
@[simp] theorem State.setDram_amoHist : (s.setDram a b).amoHist = s.amoHist := by obtain ⟨_, _, h, _⟩ := s.setDram_cases a b; rw [h]
@[simp] theorem State.setDram_net : (s.setDram a b).net = s.net := by obtain ⟨_, _, h, _⟩ := s.setDram_cases a b; rw [h]
@[simp] theorem State.setDram_reqs : (s.setDram a b).reqs = s.reqs := by obtain ⟨_, _, h, _⟩ := s.setDram_cases a b; rw [h]
@[simp] theorem State.setDram_heldTxn : (s.setDram a b).heldTxn = s.heldTxn := by obtain ⟨_, _, h, _⟩ := s.setDram_cases a b; rw [h]
@[simp] theorem State.setDram_rme : (s.setDram a b).rme = s.rme := by obtain ⟨_, _, h, _⟩ := s.setDram_cases a b; rw [h]
@[simp] theorem State.setDram_links : (s.setDram a b).links = s.links := by obtain ⟨_, _, h, _⟩ := s.setDram_cases a b; rw [h]
@[simp] theorem State.setDram_harts : (s.setDram a b).harts = s.harts := by obtain ⟨_, _, h, _⟩ := s.setDram_cases a b; rw [h]
@[simp] theorem State.setDram_trace : (s.setDram a b).trace = s.trace := by obtain ⟨_, _, h, _⟩ := s.setDram_cases a b; rw [h]
@[simp] theorem State.setDram_fatal : (s.setDram a b).fatal = s.fatal := by obtain ⟨_, _, h, _⟩ := s.setDram_cases a b; rw [h]
@[simp] theorem State.setDram_vrEn : (s.setDram a b).vrEn = s.vrEn := by obtain ⟨_, _, h, _⟩ := s.setDram_cases a b; rw [h]
@[simp] theorem State.setDram_straps : (s.setDram a b).straps = s.straps := by obtain ⟨_, _, h, _⟩ := s.setDram_cases a b; rw [h]
@[simp] theorem State.setDram_thermTrip : (s.setDram a b).thermTrip = s.thermTrip := by obtain ⟨_, _, h, _⟩ := s.setDram_cases a b; rw [h]
@[simp] theorem State.setDram_wake : (s.setDram a b).wake = s.wake := by obtain ⟨_, _, h, _⟩ := s.setDram_cases a b; rw [h]
@[simp] theorem State.setDram_pmb : (s.setDram a b).pmb = s.pmb := by obtain ⟨_, _, h, _⟩ := s.setDram_cases a b; rw [h]
@[simp] theorem State.setDram_vin : (s.setDram a b).vin = s.vin := by obtain ⟨_, _, h, _⟩ := s.setDram_cases a b; rw [h]
@[simp] theorem State.setDram_vinAt : (s.setDram a b).vinAt = s.vinAt := by obtain ⟨_, _, h, _⟩ := s.setDram_cases a b; rw [h]
@[simp] theorem State.setDram_wakeBad : (s.setDram a b).wakeBad = s.wakeBad := by obtain ⟨_, _, h, _⟩ := s.setDram_cases a b; rw [h]
@[simp] theorem State.setDram_sealGen : (s.setDram a b).sealGen = s.sealGen := by obtain ⟨_, _, h, _⟩ := s.setDram_cases a b; rw [h]
@[simp] theorem State.setDram_presence : (s.setDram a b).presence = s.presence := by obtain ⟨_, _, h, _⟩ := s.setDram_cases a b; rw [h]
@[simp] theorem State.setDram_clocks : (s.setDram a b).clocks = s.clocks := by obtain ⟨_, _, h, _⟩ := s.setDram_cases a b; rw [h]
@[simp] theorem State.setDram_deep : (s.setDram a b).deep = s.deep := by obtain ⟨_, _, h, _⟩ := s.setDram_cases a b; rw [h]
@[simp] theorem State.setDram_weir : (s.setDram a b).weir = s.weir := by obtain ⟨_, _, h, _⟩ := s.setDram_cases a b; rw [h]
@[simp] theorem State.setDram_freqTo : (s.setDram a b).freqTo = s.freqTo := by obtain ⟨_, _, h, _⟩ := s.setDram_cases a b; rw [h]
@[simp] theorem State.setDram_domTo : (s.setDram a b).domTo = s.domTo := by obtain ⟨_, _, h, _⟩ := s.setDram_cases a b; rw [h]
@[simp] theorem State.setDram_pwrHeld : (s.setDram a b).pwrHeld = s.pwrHeld := by obtain ⟨_, _, h, _⟩ := s.setDram_cases a b; rw [h]
@[simp] theorem State.setDram_pwrNext : (s.setDram a b).pwrNext = s.pwrNext := by obtain ⟨_, _, h, _⟩ := s.setDram_cases a b; rw [h]
@[simp] theorem State.setDram_load : (s.setDram a b).load = s.load := by obtain ⟨_, _, h, _⟩ := s.setDram_cases a b; rw [h]
@[simp] theorem State.setDram_svid : (s.setDram a b).svid = s.svid := by obtain ⟨_, _, h, _⟩ := s.setDram_cases a b; rw [h]
@[simp] theorem State.setDram_ssid : (s.setDram a b).ssid = s.ssid := by obtain ⟨_, _, h, _⟩ := s.setDram_cases a b; rw [h]
@[simp] theorem State.setDram_boot : (s.setDram a b).boot = s.boot := by obtain ⟨_, _, h, _⟩ := s.setDram_cases a b; rw [h]
@[simp] theorem State.setDram_powerQ : (s.setDram a b).powerQ = s.powerQ := by obtain ⟨_, _, h, _⟩ := s.setDram_cases a b; rw [h]
@[simp] theorem State.setDram_halves : (s.setDram a b).halves = s.halves := by obtain ⟨_, _, h, _⟩ := s.setDram_cases a b; rw [h]
@[simp] theorem State.setDram_tileOp : (s.setDram a b).tileOp = s.tileOp := by obtain ⟨_, _, h, _⟩ := s.setDram_cases a b; rw [h]
@[simp] theorem State.setDram_life : (s.setDram a b).life = s.life := by obtain ⟨_, _, h, _⟩ := s.setDram_cases a b; rw [h]
@[simp] theorem State.setDram_recSeg : (s.setDram a b).recSeg = s.recSeg := by obtain ⟨_, _, h, _⟩ := s.setDram_cases a b; rw [h]
@[simp] theorem State.setDram_lc : (s.setDram a b).lc = s.lc := by obtain ⟨_, _, h, _⟩ := s.setDram_cases a b; rw [h]
@[simp] theorem State.setDram_st : (s.setDram a b).st = s.st := by obtain ⟨_, _, h, _⟩ := s.setDram_cases a b; rw [h]
@[simp] theorem State.setDram_stayRecovery : (s.setDram a b).stayRecovery = s.stayRecovery := by obtain ⟨_, _, h, _⟩ := s.setDram_cases a b; rw [h]
@[simp] theorem State.setDram_recoveries : (s.setDram a b).recoveries = s.recoveries := by obtain ⟨_, _, h, _⟩ := s.setDram_cases a b; rw [h]
@[simp] theorem State.setDram_dbg : (s.setDram a b).dbg = s.dbg := by obtain ⟨_, _, h, _⟩ := s.setDram_cases a b; rw [h]
@[simp] theorem State.setDram_pkgTicks : (s.setDram a b).pkgTicks = s.pkgTicks := by obtain ⟨_, _, h, _⟩ := s.setDram_cases a b; rw [h]
@[simp] theorem State.setDram_memTop : (s.setDram a b).memTop = s.memTop := by obtain ⟨_, _, h, _⟩ := s.setDram_cases a b; rw [h]
@[simp] theorem State.setDram_freeCount : (s.setDram a b).freeCount = s.freeCount := by obtain ⟨_, _, h, _⟩ := s.setDram_cases a b; rw [h]

end

section

variable (n : Nat) (x : Hart)

@[simp] theorem State.setHart_pending : (s.setHart n x).pending = s.pending := rfl
@[simp] theorem State.setHart_out : (s.setHart n x).out = s.out := rfl
@[simp] theorem State.setHart_build : (s.setHart n x).build = s.build := rfl
@[simp] theorem State.setHart_mode : (s.setHart n x).mode = s.mode := rfl
@[simp] theorem State.setHart_regs : (s.setHart n x).regs = s.regs := rfl
@[simp] theorem State.setHart_dram : (s.setHart n x).dram = s.dram := rfl
@[simp] theorem State.setHart_mram : (s.setHart n x).mram = s.mram := rfl
@[simp] theorem State.setHart_poison : (s.setHart n x).poison = s.poison := rfl
@[simp] theorem State.setHart_lanes : (s.setHart n x).lanes = s.lanes := rfl
@[simp] theorem State.setHart_chans : (s.setHart n x).chans = s.chans := rfl
@[simp] theorem State.setHart_servos : (s.setHart n x).servos = s.servos := rfl
@[simp] theorem State.setHart_sluices : (s.setHart n x).sluices = s.sluices := rfl
@[simp] theorem State.setHart_furrow : (s.setHart n x).furrow = s.furrow := rfl
@[simp] theorem State.setHart_dies : (s.setHart n x).dies = s.dies := rfl
@[simp] theorem State.setHart_stripes : (s.setHart n x).stripes = s.stripes := rfl
@[simp] theorem State.setHart_keys : (s.setHart n x).keys = s.keys := rfl
@[simp] theorem State.setHart_sweep : (s.setHart n x).sweep = s.sweep := rfl
@[simp] theorem State.setHart_fns : (s.setHart n x).fns = s.fns := rfl
@[simp] theorem State.setHart_ports : (s.setHart n x).ports = s.ports := rfl
@[simp] theorem State.setHart_xrings : (s.setHart n x).xrings = s.xrings := rfl
@[simp] theorem State.setHart_queues : (s.setHart n x).queues = s.queues := rfl
@[simp] theorem State.setHart_hg : (s.setHart n x).hg = s.hg := rfl
@[simp] theorem State.setHart_hostLog : (s.setHart n x).hostLog = s.hostLog := rfl
@[simp] theorem State.setHart_fwLog : (s.setHart n x).fwLog = s.fwLog := rfl
@[simp] theorem State.setHart_mbHeld : (s.setHart n x).mbHeld = s.mbHeld := rfl
@[simp] theorem State.setHart_mbTmo : (s.setHart n x).mbTmo = s.mbTmo := rfl
@[simp] theorem State.setHart_errLog : (s.setHart n x).errLog = s.errLog := rfl
@[simp] theorem State.setHart_wmapNow : (s.setHart n x).wmapNow = s.wmapNow := rfl
@[simp] theorem State.setHart_mregNow : (s.setHart n x).mregNow = s.mregNow := rfl
@[simp] theorem State.setHart_iowOld : (s.setHart n x).iowOld = s.iowOld := rfl
@[simp] theorem State.setHart_wmapNext : (s.setHart n x).wmapNext = s.wmapNext := rfl
@[simp] theorem State.setHart_mregNext : (s.setHart n x).mregNext = s.mregNext := rfl
@[simp] theorem State.setHart_lost : (s.setHart n x).lost = s.lost := rfl
@[simp] theorem State.setHart_fresh : (s.setHart n x).fresh = s.fresh := rfl
@[simp] theorem State.setHart_flips : (s.setHart n x).flips = s.flips := rfl
@[simp] theorem State.setHart_wbqs : (s.setHart n x).wbqs = s.wbqs := rfl
@[simp] theorem State.setHart_mcLog : (s.setHart n x).mcLog = s.mcLog := rfl
@[simp] theorem State.setHart_fill : (s.setHart n x).fill = s.fill := rfl
@[simp] theorem State.setHart_homes : (s.setHart n x).homes = s.homes := rfl
@[simp] theorem State.setHart_copies : (s.setHart n x).copies = s.copies := rfl
@[simp] theorem State.setHart_cores : (s.setHart n x).cores = s.cores := rfl
@[simp] theorem State.setHart_l1s : (s.setHart n x).l1s = s.l1s := rfl
@[simp] theorem State.setHart_lockedWays : (s.setHart n x).lockedWays = s.lockedWays := rfl
@[simp] theorem State.setHart_tiles : (s.setHart n x).tiles = s.tiles := rfl
@[simp] theorem State.setHart_evbufs : (s.setHart n x).evbufs = s.evbufs := rfl
@[simp] theorem State.setHart_amoHist : (s.setHart n x).amoHist = s.amoHist := rfl
@[simp] theorem State.setHart_net : (s.setHart n x).net = s.net := rfl
@[simp] theorem State.setHart_reqs : (s.setHart n x).reqs = s.reqs := rfl
@[simp] theorem State.setHart_heldTxn : (s.setHart n x).heldTxn = s.heldTxn := rfl
@[simp] theorem State.setHart_rme : (s.setHart n x).rme = s.rme := rfl
@[simp] theorem State.setHart_links : (s.setHart n x).links = s.links := rfl
@[simp] theorem State.setHart_trace : (s.setHart n x).trace = s.trace := rfl
@[simp] theorem State.setHart_fatal : (s.setHart n x).fatal = s.fatal := rfl
@[simp] theorem State.setHart_vrEn : (s.setHart n x).vrEn = s.vrEn := rfl
@[simp] theorem State.setHart_straps : (s.setHart n x).straps = s.straps := rfl
@[simp] theorem State.setHart_thermTrip : (s.setHart n x).thermTrip = s.thermTrip := rfl
@[simp] theorem State.setHart_wake : (s.setHart n x).wake = s.wake := rfl
@[simp] theorem State.setHart_pmb : (s.setHart n x).pmb = s.pmb := rfl
@[simp] theorem State.setHart_vin : (s.setHart n x).vin = s.vin := rfl
@[simp] theorem State.setHart_vinAt : (s.setHart n x).vinAt = s.vinAt := rfl
@[simp] theorem State.setHart_wakeBad : (s.setHart n x).wakeBad = s.wakeBad := rfl
@[simp] theorem State.setHart_sealGen : (s.setHart n x).sealGen = s.sealGen := rfl
@[simp] theorem State.setHart_presence : (s.setHart n x).presence = s.presence := rfl
@[simp] theorem State.setHart_clocks : (s.setHart n x).clocks = s.clocks := rfl
@[simp] theorem State.setHart_deep : (s.setHart n x).deep = s.deep := rfl
@[simp] theorem State.setHart_weir : (s.setHart n x).weir = s.weir := rfl
@[simp] theorem State.setHart_freqTo : (s.setHart n x).freqTo = s.freqTo := rfl
@[simp] theorem State.setHart_domTo : (s.setHart n x).domTo = s.domTo := rfl
@[simp] theorem State.setHart_pwrHeld : (s.setHart n x).pwrHeld = s.pwrHeld := rfl
@[simp] theorem State.setHart_pwrNext : (s.setHart n x).pwrNext = s.pwrNext := rfl
@[simp] theorem State.setHart_load : (s.setHart n x).load = s.load := rfl
@[simp] theorem State.setHart_svid : (s.setHart n x).svid = s.svid := rfl
@[simp] theorem State.setHart_ssid : (s.setHart n x).ssid = s.ssid := rfl
@[simp] theorem State.setHart_boot : (s.setHart n x).boot = s.boot := rfl
@[simp] theorem State.setHart_powerQ : (s.setHart n x).powerQ = s.powerQ := rfl
@[simp] theorem State.setHart_halves : (s.setHart n x).halves = s.halves := rfl
@[simp] theorem State.setHart_tileOp : (s.setHart n x).tileOp = s.tileOp := rfl
@[simp] theorem State.setHart_life : (s.setHart n x).life = s.life := rfl
@[simp] theorem State.setHart_recSeg : (s.setHart n x).recSeg = s.recSeg := rfl
@[simp] theorem State.setHart_lc : (s.setHart n x).lc = s.lc := rfl
@[simp] theorem State.setHart_st : (s.setHart n x).st = s.st := rfl
@[simp] theorem State.setHart_stayRecovery : (s.setHart n x).stayRecovery = s.stayRecovery := rfl
@[simp] theorem State.setHart_recoveries : (s.setHart n x).recoveries = s.recoveries := rfl
@[simp] theorem State.setHart_dbg : (s.setHart n x).dbg = s.dbg := rfl
@[simp] theorem State.setHart_pkgTicks : (s.setHart n x).pkgTicks = s.pkgTicks := rfl
@[simp] theorem State.setHart_memTop : (s.setHart n x).memTop = s.memTop := rfl
@[simp] theorem State.setHart_freeCount : (s.setHart n x).freeCount = s.freeCount := rfl

end

section

variable (n : Nat) (x : HLine)

@[simp] theorem State.setHline_pending : (s.setHline n x).pending = s.pending := rfl
@[simp] theorem State.setHline_out : (s.setHline n x).out = s.out := rfl
@[simp] theorem State.setHline_build : (s.setHline n x).build = s.build := rfl
@[simp] theorem State.setHline_mode : (s.setHline n x).mode = s.mode := rfl
@[simp] theorem State.setHline_regs : (s.setHline n x).regs = s.regs := rfl
@[simp] theorem State.setHline_dram : (s.setHline n x).dram = s.dram := rfl
@[simp] theorem State.setHline_mram : (s.setHline n x).mram = s.mram := rfl
@[simp] theorem State.setHline_poison : (s.setHline n x).poison = s.poison := rfl
@[simp] theorem State.setHline_lanes : (s.setHline n x).lanes = s.lanes := rfl
@[simp] theorem State.setHline_chans : (s.setHline n x).chans = s.chans := rfl
@[simp] theorem State.setHline_servos : (s.setHline n x).servos = s.servos := rfl
@[simp] theorem State.setHline_sluices : (s.setHline n x).sluices = s.sluices := rfl
@[simp] theorem State.setHline_furrow : (s.setHline n x).furrow = s.furrow := rfl
@[simp] theorem State.setHline_dies : (s.setHline n x).dies = s.dies := rfl
@[simp] theorem State.setHline_stripes : (s.setHline n x).stripes = s.stripes := rfl
@[simp] theorem State.setHline_keys : (s.setHline n x).keys = s.keys := rfl
@[simp] theorem State.setHline_sweep : (s.setHline n x).sweep = s.sweep := rfl
@[simp] theorem State.setHline_fns : (s.setHline n x).fns = s.fns := rfl
@[simp] theorem State.setHline_ports : (s.setHline n x).ports = s.ports := rfl
@[simp] theorem State.setHline_xrings : (s.setHline n x).xrings = s.xrings := rfl
@[simp] theorem State.setHline_queues : (s.setHline n x).queues = s.queues := rfl
@[simp] theorem State.setHline_hg : (s.setHline n x).hg = s.hg := rfl
@[simp] theorem State.setHline_hostLog : (s.setHline n x).hostLog = s.hostLog := rfl
@[simp] theorem State.setHline_fwLog : (s.setHline n x).fwLog = s.fwLog := rfl
@[simp] theorem State.setHline_mbHeld : (s.setHline n x).mbHeld = s.mbHeld := rfl
@[simp] theorem State.setHline_mbTmo : (s.setHline n x).mbTmo = s.mbTmo := rfl
@[simp] theorem State.setHline_errLog : (s.setHline n x).errLog = s.errLog := rfl
@[simp] theorem State.setHline_wmapNow : (s.setHline n x).wmapNow = s.wmapNow := rfl
@[simp] theorem State.setHline_mregNow : (s.setHline n x).mregNow = s.mregNow := rfl
@[simp] theorem State.setHline_iowOld : (s.setHline n x).iowOld = s.iowOld := rfl
@[simp] theorem State.setHline_wmapNext : (s.setHline n x).wmapNext = s.wmapNext := rfl
@[simp] theorem State.setHline_mregNext : (s.setHline n x).mregNext = s.mregNext := rfl
@[simp] theorem State.setHline_lost : (s.setHline n x).lost = s.lost := rfl
@[simp] theorem State.setHline_fresh : (s.setHline n x).fresh = s.fresh := rfl
@[simp] theorem State.setHline_flips : (s.setHline n x).flips = s.flips := rfl
@[simp] theorem State.setHline_wbqs : (s.setHline n x).wbqs = s.wbqs := rfl
@[simp] theorem State.setHline_mcLog : (s.setHline n x).mcLog = s.mcLog := rfl
@[simp] theorem State.setHline_fill : (s.setHline n x).fill = s.fill := rfl
@[simp] theorem State.setHline_copies : (s.setHline n x).copies = s.copies := rfl
@[simp] theorem State.setHline_cores : (s.setHline n x).cores = s.cores := rfl
@[simp] theorem State.setHline_l1s : (s.setHline n x).l1s = s.l1s := rfl
@[simp] theorem State.setHline_lockedWays : (s.setHline n x).lockedWays = s.lockedWays := rfl
@[simp] theorem State.setHline_tiles : (s.setHline n x).tiles = s.tiles := rfl
@[simp] theorem State.setHline_evbufs : (s.setHline n x).evbufs = s.evbufs := rfl
@[simp] theorem State.setHline_amoHist : (s.setHline n x).amoHist = s.amoHist := rfl
@[simp] theorem State.setHline_net : (s.setHline n x).net = s.net := rfl
@[simp] theorem State.setHline_reqs : (s.setHline n x).reqs = s.reqs := rfl
@[simp] theorem State.setHline_heldTxn : (s.setHline n x).heldTxn = s.heldTxn := rfl
@[simp] theorem State.setHline_rme : (s.setHline n x).rme = s.rme := rfl
@[simp] theorem State.setHline_links : (s.setHline n x).links = s.links := rfl
@[simp] theorem State.setHline_harts : (s.setHline n x).harts = s.harts := rfl
@[simp] theorem State.setHline_trace : (s.setHline n x).trace = s.trace := rfl
@[simp] theorem State.setHline_fatal : (s.setHline n x).fatal = s.fatal := rfl
@[simp] theorem State.setHline_vrEn : (s.setHline n x).vrEn = s.vrEn := rfl
@[simp] theorem State.setHline_straps : (s.setHline n x).straps = s.straps := rfl
@[simp] theorem State.setHline_thermTrip : (s.setHline n x).thermTrip = s.thermTrip := rfl
@[simp] theorem State.setHline_wake : (s.setHline n x).wake = s.wake := rfl
@[simp] theorem State.setHline_pmb : (s.setHline n x).pmb = s.pmb := rfl
@[simp] theorem State.setHline_vin : (s.setHline n x).vin = s.vin := rfl
@[simp] theorem State.setHline_vinAt : (s.setHline n x).vinAt = s.vinAt := rfl
@[simp] theorem State.setHline_wakeBad : (s.setHline n x).wakeBad = s.wakeBad := rfl
@[simp] theorem State.setHline_sealGen : (s.setHline n x).sealGen = s.sealGen := rfl
@[simp] theorem State.setHline_presence : (s.setHline n x).presence = s.presence := rfl
@[simp] theorem State.setHline_clocks : (s.setHline n x).clocks = s.clocks := rfl
@[simp] theorem State.setHline_deep : (s.setHline n x).deep = s.deep := rfl
@[simp] theorem State.setHline_weir : (s.setHline n x).weir = s.weir := rfl
@[simp] theorem State.setHline_freqTo : (s.setHline n x).freqTo = s.freqTo := rfl
@[simp] theorem State.setHline_domTo : (s.setHline n x).domTo = s.domTo := rfl
@[simp] theorem State.setHline_pwrHeld : (s.setHline n x).pwrHeld = s.pwrHeld := rfl
@[simp] theorem State.setHline_pwrNext : (s.setHline n x).pwrNext = s.pwrNext := rfl
@[simp] theorem State.setHline_load : (s.setHline n x).load = s.load := rfl
@[simp] theorem State.setHline_svid : (s.setHline n x).svid = s.svid := rfl
@[simp] theorem State.setHline_ssid : (s.setHline n x).ssid = s.ssid := rfl
@[simp] theorem State.setHline_boot : (s.setHline n x).boot = s.boot := rfl
@[simp] theorem State.setHline_powerQ : (s.setHline n x).powerQ = s.powerQ := rfl
@[simp] theorem State.setHline_halves : (s.setHline n x).halves = s.halves := rfl
@[simp] theorem State.setHline_tileOp : (s.setHline n x).tileOp = s.tileOp := rfl
@[simp] theorem State.setHline_life : (s.setHline n x).life = s.life := rfl
@[simp] theorem State.setHline_recSeg : (s.setHline n x).recSeg = s.recSeg := rfl
@[simp] theorem State.setHline_lc : (s.setHline n x).lc = s.lc := rfl
@[simp] theorem State.setHline_st : (s.setHline n x).st = s.st := rfl
@[simp] theorem State.setHline_stayRecovery : (s.setHline n x).stayRecovery = s.stayRecovery := rfl
@[simp] theorem State.setHline_recoveries : (s.setHline n x).recoveries = s.recoveries := rfl
@[simp] theorem State.setHline_dbg : (s.setHline n x).dbg = s.dbg := rfl
@[simp] theorem State.setHline_pkgTicks : (s.setHline n x).pkgTicks = s.pkgTicks := rfl
@[simp] theorem State.setHline_memTop : (s.setHline n x).memTop = s.memTop := rfl
@[simp] theorem State.setHline_freeCount : (s.setHline n x).freeCount = s.freeCount := rfl

end

section

variable (m : Msg)

@[simp] theorem State.send_pending : (s.send m).pending = s.pending := rfl
@[simp] theorem State.send_out : (s.send m).out = s.out := rfl
@[simp] theorem State.send_build : (s.send m).build = s.build := rfl
@[simp] theorem State.send_mode : (s.send m).mode = s.mode := rfl
@[simp] theorem State.send_regs : (s.send m).regs = s.regs := rfl
@[simp] theorem State.send_dram : (s.send m).dram = s.dram := rfl
@[simp] theorem State.send_mram : (s.send m).mram = s.mram := rfl
@[simp] theorem State.send_poison : (s.send m).poison = s.poison := rfl
@[simp] theorem State.send_lanes : (s.send m).lanes = s.lanes := rfl
@[simp] theorem State.send_chans : (s.send m).chans = s.chans := rfl
@[simp] theorem State.send_servos : (s.send m).servos = s.servos := rfl
@[simp] theorem State.send_sluices : (s.send m).sluices = s.sluices := rfl
@[simp] theorem State.send_furrow : (s.send m).furrow = s.furrow := rfl
@[simp] theorem State.send_dies : (s.send m).dies = s.dies := rfl
@[simp] theorem State.send_stripes : (s.send m).stripes = s.stripes := rfl
@[simp] theorem State.send_keys : (s.send m).keys = s.keys := rfl
@[simp] theorem State.send_sweep : (s.send m).sweep = s.sweep := rfl
@[simp] theorem State.send_fns : (s.send m).fns = s.fns := rfl
@[simp] theorem State.send_ports : (s.send m).ports = s.ports := rfl
@[simp] theorem State.send_xrings : (s.send m).xrings = s.xrings := rfl
@[simp] theorem State.send_queues : (s.send m).queues = s.queues := rfl
@[simp] theorem State.send_hg : (s.send m).hg = s.hg := rfl
@[simp] theorem State.send_hostLog : (s.send m).hostLog = s.hostLog := rfl
@[simp] theorem State.send_fwLog : (s.send m).fwLog = s.fwLog := rfl
@[simp] theorem State.send_mbHeld : (s.send m).mbHeld = s.mbHeld := rfl
@[simp] theorem State.send_mbTmo : (s.send m).mbTmo = s.mbTmo := rfl
@[simp] theorem State.send_errLog : (s.send m).errLog = s.errLog := rfl
@[simp] theorem State.send_wmapNow : (s.send m).wmapNow = s.wmapNow := rfl
@[simp] theorem State.send_mregNow : (s.send m).mregNow = s.mregNow := rfl
@[simp] theorem State.send_iowOld : (s.send m).iowOld = s.iowOld := rfl
@[simp] theorem State.send_wmapNext : (s.send m).wmapNext = s.wmapNext := rfl
@[simp] theorem State.send_mregNext : (s.send m).mregNext = s.mregNext := rfl
@[simp] theorem State.send_lost : (s.send m).lost = s.lost := rfl
@[simp] theorem State.send_fresh : (s.send m).fresh = s.fresh := rfl
@[simp] theorem State.send_flips : (s.send m).flips = s.flips := rfl
@[simp] theorem State.send_wbqs : (s.send m).wbqs = s.wbqs := rfl
@[simp] theorem State.send_mcLog : (s.send m).mcLog = s.mcLog := rfl
@[simp] theorem State.send_fill : (s.send m).fill = s.fill := rfl
@[simp] theorem State.send_homes : (s.send m).homes = s.homes := rfl
@[simp] theorem State.send_copies : (s.send m).copies = s.copies := rfl
@[simp] theorem State.send_cores : (s.send m).cores = s.cores := rfl
@[simp] theorem State.send_l1s : (s.send m).l1s = s.l1s := rfl
@[simp] theorem State.send_lockedWays : (s.send m).lockedWays = s.lockedWays := rfl
@[simp] theorem State.send_tiles : (s.send m).tiles = s.tiles := rfl
@[simp] theorem State.send_evbufs : (s.send m).evbufs = s.evbufs := rfl
@[simp] theorem State.send_amoHist : (s.send m).amoHist = s.amoHist := rfl
@[simp] theorem State.send_reqs : (s.send m).reqs = s.reqs := rfl
@[simp] theorem State.send_heldTxn : (s.send m).heldTxn = s.heldTxn := rfl
@[simp] theorem State.send_rme : (s.send m).rme = s.rme := rfl
@[simp] theorem State.send_links : (s.send m).links = s.links := rfl
@[simp] theorem State.send_harts : (s.send m).harts = s.harts := rfl
@[simp] theorem State.send_trace : (s.send m).trace = s.trace := rfl
@[simp] theorem State.send_fatal : (s.send m).fatal = s.fatal := rfl
@[simp] theorem State.send_vrEn : (s.send m).vrEn = s.vrEn := rfl
@[simp] theorem State.send_straps : (s.send m).straps = s.straps := rfl
@[simp] theorem State.send_thermTrip : (s.send m).thermTrip = s.thermTrip := rfl
@[simp] theorem State.send_wake : (s.send m).wake = s.wake := rfl
@[simp] theorem State.send_pmb : (s.send m).pmb = s.pmb := rfl
@[simp] theorem State.send_vin : (s.send m).vin = s.vin := rfl
@[simp] theorem State.send_vinAt : (s.send m).vinAt = s.vinAt := rfl
@[simp] theorem State.send_wakeBad : (s.send m).wakeBad = s.wakeBad := rfl
@[simp] theorem State.send_sealGen : (s.send m).sealGen = s.sealGen := rfl
@[simp] theorem State.send_presence : (s.send m).presence = s.presence := rfl
@[simp] theorem State.send_clocks : (s.send m).clocks = s.clocks := rfl
@[simp] theorem State.send_deep : (s.send m).deep = s.deep := rfl
@[simp] theorem State.send_weir : (s.send m).weir = s.weir := rfl
@[simp] theorem State.send_freqTo : (s.send m).freqTo = s.freqTo := rfl
@[simp] theorem State.send_domTo : (s.send m).domTo = s.domTo := rfl
@[simp] theorem State.send_pwrHeld : (s.send m).pwrHeld = s.pwrHeld := rfl
@[simp] theorem State.send_pwrNext : (s.send m).pwrNext = s.pwrNext := rfl
@[simp] theorem State.send_load : (s.send m).load = s.load := rfl
@[simp] theorem State.send_svid : (s.send m).svid = s.svid := rfl
@[simp] theorem State.send_ssid : (s.send m).ssid = s.ssid := rfl
@[simp] theorem State.send_boot : (s.send m).boot = s.boot := rfl
@[simp] theorem State.send_powerQ : (s.send m).powerQ = s.powerQ := rfl
@[simp] theorem State.send_halves : (s.send m).halves = s.halves := rfl
@[simp] theorem State.send_tileOp : (s.send m).tileOp = s.tileOp := rfl
@[simp] theorem State.send_life : (s.send m).life = s.life := rfl
@[simp] theorem State.send_recSeg : (s.send m).recSeg = s.recSeg := rfl
@[simp] theorem State.send_lc : (s.send m).lc = s.lc := rfl
@[simp] theorem State.send_st : (s.send m).st = s.st := rfl
@[simp] theorem State.send_stayRecovery : (s.send m).stayRecovery = s.stayRecovery := rfl
@[simp] theorem State.send_recoveries : (s.send m).recoveries = s.recoveries := rfl
@[simp] theorem State.send_dbg : (s.send m).dbg = s.dbg := rfl
@[simp] theorem State.send_pkgTicks : (s.send m).pkgTicks = s.pkgTicks := rfl
@[simp] theorem State.send_memTop : (s.send m).memTop = s.memTop := rfl
@[simp] theorem State.send_freeCount : (s.send m).freeCount = s.freeCount := rfl

end

section

variable (k n : Nat) (x : TileTxn)

@[simp] theorem State.setTileTxn_pending : (s.setTileTxn k n x).pending = s.pending := rfl
@[simp] theorem State.setTileTxn_out : (s.setTileTxn k n x).out = s.out := rfl
@[simp] theorem State.setTileTxn_build : (s.setTileTxn k n x).build = s.build := rfl
@[simp] theorem State.setTileTxn_mode : (s.setTileTxn k n x).mode = s.mode := rfl
@[simp] theorem State.setTileTxn_regs : (s.setTileTxn k n x).regs = s.regs := rfl
@[simp] theorem State.setTileTxn_dram : (s.setTileTxn k n x).dram = s.dram := rfl
@[simp] theorem State.setTileTxn_mram : (s.setTileTxn k n x).mram = s.mram := rfl
@[simp] theorem State.setTileTxn_poison : (s.setTileTxn k n x).poison = s.poison := rfl
@[simp] theorem State.setTileTxn_lanes : (s.setTileTxn k n x).lanes = s.lanes := rfl
@[simp] theorem State.setTileTxn_chans : (s.setTileTxn k n x).chans = s.chans := rfl
@[simp] theorem State.setTileTxn_servos : (s.setTileTxn k n x).servos = s.servos := rfl
@[simp] theorem State.setTileTxn_sluices : (s.setTileTxn k n x).sluices = s.sluices := rfl
@[simp] theorem State.setTileTxn_furrow : (s.setTileTxn k n x).furrow = s.furrow := rfl
@[simp] theorem State.setTileTxn_dies : (s.setTileTxn k n x).dies = s.dies := rfl
@[simp] theorem State.setTileTxn_stripes : (s.setTileTxn k n x).stripes = s.stripes := rfl
@[simp] theorem State.setTileTxn_keys : (s.setTileTxn k n x).keys = s.keys := rfl
@[simp] theorem State.setTileTxn_sweep : (s.setTileTxn k n x).sweep = s.sweep := rfl
@[simp] theorem State.setTileTxn_fns : (s.setTileTxn k n x).fns = s.fns := rfl
@[simp] theorem State.setTileTxn_ports : (s.setTileTxn k n x).ports = s.ports := rfl
@[simp] theorem State.setTileTxn_xrings : (s.setTileTxn k n x).xrings = s.xrings := rfl
@[simp] theorem State.setTileTxn_queues : (s.setTileTxn k n x).queues = s.queues := rfl
@[simp] theorem State.setTileTxn_hg : (s.setTileTxn k n x).hg = s.hg := rfl
@[simp] theorem State.setTileTxn_hostLog : (s.setTileTxn k n x).hostLog = s.hostLog := rfl
@[simp] theorem State.setTileTxn_fwLog : (s.setTileTxn k n x).fwLog = s.fwLog := rfl
@[simp] theorem State.setTileTxn_mbHeld : (s.setTileTxn k n x).mbHeld = s.mbHeld := rfl
@[simp] theorem State.setTileTxn_mbTmo : (s.setTileTxn k n x).mbTmo = s.mbTmo := rfl
@[simp] theorem State.setTileTxn_errLog : (s.setTileTxn k n x).errLog = s.errLog := rfl
@[simp] theorem State.setTileTxn_wmapNow : (s.setTileTxn k n x).wmapNow = s.wmapNow := rfl
@[simp] theorem State.setTileTxn_mregNow : (s.setTileTxn k n x).mregNow = s.mregNow := rfl
@[simp] theorem State.setTileTxn_iowOld : (s.setTileTxn k n x).iowOld = s.iowOld := rfl
@[simp] theorem State.setTileTxn_wmapNext : (s.setTileTxn k n x).wmapNext = s.wmapNext := rfl
@[simp] theorem State.setTileTxn_mregNext : (s.setTileTxn k n x).mregNext = s.mregNext := rfl
@[simp] theorem State.setTileTxn_lost : (s.setTileTxn k n x).lost = s.lost := rfl
@[simp] theorem State.setTileTxn_fresh : (s.setTileTxn k n x).fresh = s.fresh := rfl
@[simp] theorem State.setTileTxn_flips : (s.setTileTxn k n x).flips = s.flips := rfl
@[simp] theorem State.setTileTxn_wbqs : (s.setTileTxn k n x).wbqs = s.wbqs := rfl
@[simp] theorem State.setTileTxn_mcLog : (s.setTileTxn k n x).mcLog = s.mcLog := rfl
@[simp] theorem State.setTileTxn_fill : (s.setTileTxn k n x).fill = s.fill := rfl
@[simp] theorem State.setTileTxn_homes : (s.setTileTxn k n x).homes = s.homes := rfl
@[simp] theorem State.setTileTxn_copies : (s.setTileTxn k n x).copies = s.copies := rfl
@[simp] theorem State.setTileTxn_cores : (s.setTileTxn k n x).cores = s.cores := rfl
@[simp] theorem State.setTileTxn_l1s : (s.setTileTxn k n x).l1s = s.l1s := rfl
@[simp] theorem State.setTileTxn_lockedWays : (s.setTileTxn k n x).lockedWays = s.lockedWays := rfl
@[simp] theorem State.setTileTxn_evbufs : (s.setTileTxn k n x).evbufs = s.evbufs := rfl
@[simp] theorem State.setTileTxn_amoHist : (s.setTileTxn k n x).amoHist = s.amoHist := rfl
@[simp] theorem State.setTileTxn_net : (s.setTileTxn k n x).net = s.net := rfl
@[simp] theorem State.setTileTxn_reqs : (s.setTileTxn k n x).reqs = s.reqs := rfl
@[simp] theorem State.setTileTxn_heldTxn : (s.setTileTxn k n x).heldTxn = s.heldTxn := rfl
@[simp] theorem State.setTileTxn_rme : (s.setTileTxn k n x).rme = s.rme := rfl
@[simp] theorem State.setTileTxn_links : (s.setTileTxn k n x).links = s.links := rfl
@[simp] theorem State.setTileTxn_harts : (s.setTileTxn k n x).harts = s.harts := rfl
@[simp] theorem State.setTileTxn_trace : (s.setTileTxn k n x).trace = s.trace := rfl
@[simp] theorem State.setTileTxn_fatal : (s.setTileTxn k n x).fatal = s.fatal := rfl
@[simp] theorem State.setTileTxn_vrEn : (s.setTileTxn k n x).vrEn = s.vrEn := rfl
@[simp] theorem State.setTileTxn_straps : (s.setTileTxn k n x).straps = s.straps := rfl
@[simp] theorem State.setTileTxn_thermTrip : (s.setTileTxn k n x).thermTrip = s.thermTrip := rfl
@[simp] theorem State.setTileTxn_wake : (s.setTileTxn k n x).wake = s.wake := rfl
@[simp] theorem State.setTileTxn_pmb : (s.setTileTxn k n x).pmb = s.pmb := rfl
@[simp] theorem State.setTileTxn_vin : (s.setTileTxn k n x).vin = s.vin := rfl
@[simp] theorem State.setTileTxn_vinAt : (s.setTileTxn k n x).vinAt = s.vinAt := rfl
@[simp] theorem State.setTileTxn_wakeBad : (s.setTileTxn k n x).wakeBad = s.wakeBad := rfl
@[simp] theorem State.setTileTxn_sealGen : (s.setTileTxn k n x).sealGen = s.sealGen := rfl
@[simp] theorem State.setTileTxn_presence : (s.setTileTxn k n x).presence = s.presence := rfl
@[simp] theorem State.setTileTxn_clocks : (s.setTileTxn k n x).clocks = s.clocks := rfl
@[simp] theorem State.setTileTxn_deep : (s.setTileTxn k n x).deep = s.deep := rfl
@[simp] theorem State.setTileTxn_weir : (s.setTileTxn k n x).weir = s.weir := rfl
@[simp] theorem State.setTileTxn_freqTo : (s.setTileTxn k n x).freqTo = s.freqTo := rfl
@[simp] theorem State.setTileTxn_domTo : (s.setTileTxn k n x).domTo = s.domTo := rfl
@[simp] theorem State.setTileTxn_pwrHeld : (s.setTileTxn k n x).pwrHeld = s.pwrHeld := rfl
@[simp] theorem State.setTileTxn_pwrNext : (s.setTileTxn k n x).pwrNext = s.pwrNext := rfl
@[simp] theorem State.setTileTxn_load : (s.setTileTxn k n x).load = s.load := rfl
@[simp] theorem State.setTileTxn_svid : (s.setTileTxn k n x).svid = s.svid := rfl
@[simp] theorem State.setTileTxn_ssid : (s.setTileTxn k n x).ssid = s.ssid := rfl
@[simp] theorem State.setTileTxn_boot : (s.setTileTxn k n x).boot = s.boot := rfl
@[simp] theorem State.setTileTxn_powerQ : (s.setTileTxn k n x).powerQ = s.powerQ := rfl
@[simp] theorem State.setTileTxn_halves : (s.setTileTxn k n x).halves = s.halves := rfl
@[simp] theorem State.setTileTxn_tileOp : (s.setTileTxn k n x).tileOp = s.tileOp := rfl
@[simp] theorem State.setTileTxn_life : (s.setTileTxn k n x).life = s.life := rfl
@[simp] theorem State.setTileTxn_recSeg : (s.setTileTxn k n x).recSeg = s.recSeg := rfl
@[simp] theorem State.setTileTxn_lc : (s.setTileTxn k n x).lc = s.lc := rfl
@[simp] theorem State.setTileTxn_st : (s.setTileTxn k n x).st = s.st := rfl
@[simp] theorem State.setTileTxn_stayRecovery : (s.setTileTxn k n x).stayRecovery = s.stayRecovery := rfl
@[simp] theorem State.setTileTxn_recoveries : (s.setTileTxn k n x).recoveries = s.recoveries := rfl
@[simp] theorem State.setTileTxn_dbg : (s.setTileTxn k n x).dbg = s.dbg := rfl
@[simp] theorem State.setTileTxn_pkgTicks : (s.setTileTxn k n x).pkgTicks = s.pkgTicks := rfl
@[simp] theorem State.setTileTxn_memTop : (s.setTileTxn k n x).memTop = s.memTop := rfl
@[simp] theorem State.setTileTxn_freeCount : (s.setTileTxn k n x).freeCount = s.freeCount := rfl

end

section

variable (n : Fin 45) (x : VzLink)

@[simp] theorem State.setLink_pending : (s.setLink n x).pending = s.pending := rfl
@[simp] theorem State.setLink_out : (s.setLink n x).out = s.out := rfl
@[simp] theorem State.setLink_build : (s.setLink n x).build = s.build := rfl
@[simp] theorem State.setLink_mode : (s.setLink n x).mode = s.mode := rfl
@[simp] theorem State.setLink_regs : (s.setLink n x).regs = s.regs := rfl
@[simp] theorem State.setLink_dram : (s.setLink n x).dram = s.dram := rfl
@[simp] theorem State.setLink_mram : (s.setLink n x).mram = s.mram := rfl
@[simp] theorem State.setLink_poison : (s.setLink n x).poison = s.poison := rfl
@[simp] theorem State.setLink_lanes : (s.setLink n x).lanes = s.lanes := rfl
@[simp] theorem State.setLink_chans : (s.setLink n x).chans = s.chans := rfl
@[simp] theorem State.setLink_servos : (s.setLink n x).servos = s.servos := rfl
@[simp] theorem State.setLink_sluices : (s.setLink n x).sluices = s.sluices := rfl
@[simp] theorem State.setLink_furrow : (s.setLink n x).furrow = s.furrow := rfl
@[simp] theorem State.setLink_dies : (s.setLink n x).dies = s.dies := rfl
@[simp] theorem State.setLink_stripes : (s.setLink n x).stripes = s.stripes := rfl
@[simp] theorem State.setLink_keys : (s.setLink n x).keys = s.keys := rfl
@[simp] theorem State.setLink_sweep : (s.setLink n x).sweep = s.sweep := rfl
@[simp] theorem State.setLink_fns : (s.setLink n x).fns = s.fns := rfl
@[simp] theorem State.setLink_ports : (s.setLink n x).ports = s.ports := rfl
@[simp] theorem State.setLink_xrings : (s.setLink n x).xrings = s.xrings := rfl
@[simp] theorem State.setLink_queues : (s.setLink n x).queues = s.queues := rfl
@[simp] theorem State.setLink_hg : (s.setLink n x).hg = s.hg := rfl
@[simp] theorem State.setLink_hostLog : (s.setLink n x).hostLog = s.hostLog := rfl
@[simp] theorem State.setLink_fwLog : (s.setLink n x).fwLog = s.fwLog := rfl
@[simp] theorem State.setLink_mbHeld : (s.setLink n x).mbHeld = s.mbHeld := rfl
@[simp] theorem State.setLink_mbTmo : (s.setLink n x).mbTmo = s.mbTmo := rfl
@[simp] theorem State.setLink_errLog : (s.setLink n x).errLog = s.errLog := rfl
@[simp] theorem State.setLink_wmapNow : (s.setLink n x).wmapNow = s.wmapNow := rfl
@[simp] theorem State.setLink_mregNow : (s.setLink n x).mregNow = s.mregNow := rfl
@[simp] theorem State.setLink_iowOld : (s.setLink n x).iowOld = s.iowOld := rfl
@[simp] theorem State.setLink_wmapNext : (s.setLink n x).wmapNext = s.wmapNext := rfl
@[simp] theorem State.setLink_mregNext : (s.setLink n x).mregNext = s.mregNext := rfl
@[simp] theorem State.setLink_lost : (s.setLink n x).lost = s.lost := rfl
@[simp] theorem State.setLink_fresh : (s.setLink n x).fresh = s.fresh := rfl
@[simp] theorem State.setLink_flips : (s.setLink n x).flips = s.flips := rfl
@[simp] theorem State.setLink_wbqs : (s.setLink n x).wbqs = s.wbqs := rfl
@[simp] theorem State.setLink_mcLog : (s.setLink n x).mcLog = s.mcLog := rfl
@[simp] theorem State.setLink_fill : (s.setLink n x).fill = s.fill := rfl
@[simp] theorem State.setLink_homes : (s.setLink n x).homes = s.homes := rfl
@[simp] theorem State.setLink_copies : (s.setLink n x).copies = s.copies := rfl
@[simp] theorem State.setLink_cores : (s.setLink n x).cores = s.cores := rfl
@[simp] theorem State.setLink_l1s : (s.setLink n x).l1s = s.l1s := rfl
@[simp] theorem State.setLink_lockedWays : (s.setLink n x).lockedWays = s.lockedWays := rfl
@[simp] theorem State.setLink_tiles : (s.setLink n x).tiles = s.tiles := rfl
@[simp] theorem State.setLink_evbufs : (s.setLink n x).evbufs = s.evbufs := rfl
@[simp] theorem State.setLink_amoHist : (s.setLink n x).amoHist = s.amoHist := rfl
@[simp] theorem State.setLink_net : (s.setLink n x).net = s.net := rfl
@[simp] theorem State.setLink_reqs : (s.setLink n x).reqs = s.reqs := rfl
@[simp] theorem State.setLink_heldTxn : (s.setLink n x).heldTxn = s.heldTxn := rfl
@[simp] theorem State.setLink_rme : (s.setLink n x).rme = s.rme := rfl
@[simp] theorem State.setLink_harts : (s.setLink n x).harts = s.harts := rfl
@[simp] theorem State.setLink_trace : (s.setLink n x).trace = s.trace := rfl
@[simp] theorem State.setLink_fatal : (s.setLink n x).fatal = s.fatal := rfl
@[simp] theorem State.setLink_vrEn : (s.setLink n x).vrEn = s.vrEn := rfl
@[simp] theorem State.setLink_straps : (s.setLink n x).straps = s.straps := rfl
@[simp] theorem State.setLink_thermTrip : (s.setLink n x).thermTrip = s.thermTrip := rfl
@[simp] theorem State.setLink_wake : (s.setLink n x).wake = s.wake := rfl
@[simp] theorem State.setLink_pmb : (s.setLink n x).pmb = s.pmb := rfl
@[simp] theorem State.setLink_vin : (s.setLink n x).vin = s.vin := rfl
@[simp] theorem State.setLink_vinAt : (s.setLink n x).vinAt = s.vinAt := rfl
@[simp] theorem State.setLink_wakeBad : (s.setLink n x).wakeBad = s.wakeBad := rfl
@[simp] theorem State.setLink_sealGen : (s.setLink n x).sealGen = s.sealGen := rfl
@[simp] theorem State.setLink_presence : (s.setLink n x).presence = s.presence := rfl
@[simp] theorem State.setLink_clocks : (s.setLink n x).clocks = s.clocks := rfl
@[simp] theorem State.setLink_deep : (s.setLink n x).deep = s.deep := rfl
@[simp] theorem State.setLink_weir : (s.setLink n x).weir = s.weir := rfl
@[simp] theorem State.setLink_freqTo : (s.setLink n x).freqTo = s.freqTo := rfl
@[simp] theorem State.setLink_domTo : (s.setLink n x).domTo = s.domTo := rfl
@[simp] theorem State.setLink_pwrHeld : (s.setLink n x).pwrHeld = s.pwrHeld := rfl
@[simp] theorem State.setLink_pwrNext : (s.setLink n x).pwrNext = s.pwrNext := rfl
@[simp] theorem State.setLink_load : (s.setLink n x).load = s.load := rfl
@[simp] theorem State.setLink_svid : (s.setLink n x).svid = s.svid := rfl
@[simp] theorem State.setLink_ssid : (s.setLink n x).ssid = s.ssid := rfl
@[simp] theorem State.setLink_boot : (s.setLink n x).boot = s.boot := rfl
@[simp] theorem State.setLink_powerQ : (s.setLink n x).powerQ = s.powerQ := rfl
@[simp] theorem State.setLink_halves : (s.setLink n x).halves = s.halves := rfl
@[simp] theorem State.setLink_tileOp : (s.setLink n x).tileOp = s.tileOp := rfl
@[simp] theorem State.setLink_life : (s.setLink n x).life = s.life := rfl
@[simp] theorem State.setLink_recSeg : (s.setLink n x).recSeg = s.recSeg := rfl
@[simp] theorem State.setLink_lc : (s.setLink n x).lc = s.lc := rfl
@[simp] theorem State.setLink_st : (s.setLink n x).st = s.st := rfl
@[simp] theorem State.setLink_stayRecovery : (s.setLink n x).stayRecovery = s.stayRecovery := rfl
@[simp] theorem State.setLink_recoveries : (s.setLink n x).recoveries = s.recoveries := rfl
@[simp] theorem State.setLink_dbg : (s.setLink n x).dbg = s.dbg := rfl
@[simp] theorem State.setLink_pkgTicks : (s.setLink n x).pkgTicks = s.pkgTicks := rfl
@[simp] theorem State.setLink_memTop : (s.setLink n x).memTop = s.memTop := rfl
@[simp] theorem State.setLink_freeCount : (s.setLink n x).freeCount = s.freeCount := rfl

end

section

variable (g : DebugS → DebugS)

@[simp] theorem State.setDebug_pending : (s.setDebug g).pending = s.pending := rfl
@[simp] theorem State.setDebug_out : (s.setDebug g).out = s.out := rfl
@[simp] theorem State.setDebug_build : (s.setDebug g).build = s.build := rfl
@[simp] theorem State.setDebug_mode : (s.setDebug g).mode = s.mode := rfl
@[simp] theorem State.setDebug_regs : (s.setDebug g).regs = s.regs := rfl
@[simp] theorem State.setDebug_dram : (s.setDebug g).dram = s.dram := rfl
@[simp] theorem State.setDebug_mram : (s.setDebug g).mram = s.mram := rfl
@[simp] theorem State.setDebug_poison : (s.setDebug g).poison = s.poison := rfl
@[simp] theorem State.setDebug_lanes : (s.setDebug g).lanes = s.lanes := rfl
@[simp] theorem State.setDebug_chans : (s.setDebug g).chans = s.chans := rfl
@[simp] theorem State.setDebug_servos : (s.setDebug g).servos = s.servos := rfl
@[simp] theorem State.setDebug_sluices : (s.setDebug g).sluices = s.sluices := rfl
@[simp] theorem State.setDebug_furrow : (s.setDebug g).furrow = s.furrow := rfl
@[simp] theorem State.setDebug_dies : (s.setDebug g).dies = s.dies := rfl
@[simp] theorem State.setDebug_stripes : (s.setDebug g).stripes = s.stripes := rfl
@[simp] theorem State.setDebug_keys : (s.setDebug g).keys = s.keys := rfl
@[simp] theorem State.setDebug_sweep : (s.setDebug g).sweep = s.sweep := rfl
@[simp] theorem State.setDebug_fns : (s.setDebug g).fns = s.fns := rfl
@[simp] theorem State.setDebug_ports : (s.setDebug g).ports = s.ports := rfl
@[simp] theorem State.setDebug_xrings : (s.setDebug g).xrings = s.xrings := rfl
@[simp] theorem State.setDebug_queues : (s.setDebug g).queues = s.queues := rfl
@[simp] theorem State.setDebug_hg : (s.setDebug g).hg = s.hg := rfl
@[simp] theorem State.setDebug_hostLog : (s.setDebug g).hostLog = s.hostLog := rfl
@[simp] theorem State.setDebug_fwLog : (s.setDebug g).fwLog = s.fwLog := rfl
@[simp] theorem State.setDebug_mbHeld : (s.setDebug g).mbHeld = s.mbHeld := rfl
@[simp] theorem State.setDebug_mbTmo : (s.setDebug g).mbTmo = s.mbTmo := rfl
@[simp] theorem State.setDebug_errLog : (s.setDebug g).errLog = s.errLog := rfl
@[simp] theorem State.setDebug_wmapNow : (s.setDebug g).wmapNow = s.wmapNow := rfl
@[simp] theorem State.setDebug_mregNow : (s.setDebug g).mregNow = s.mregNow := rfl
@[simp] theorem State.setDebug_iowOld : (s.setDebug g).iowOld = s.iowOld := rfl
@[simp] theorem State.setDebug_wmapNext : (s.setDebug g).wmapNext = s.wmapNext := rfl
@[simp] theorem State.setDebug_mregNext : (s.setDebug g).mregNext = s.mregNext := rfl
@[simp] theorem State.setDebug_lost : (s.setDebug g).lost = s.lost := rfl
@[simp] theorem State.setDebug_fresh : (s.setDebug g).fresh = s.fresh := rfl
@[simp] theorem State.setDebug_flips : (s.setDebug g).flips = s.flips := rfl
@[simp] theorem State.setDebug_wbqs : (s.setDebug g).wbqs = s.wbqs := rfl
@[simp] theorem State.setDebug_mcLog : (s.setDebug g).mcLog = s.mcLog := rfl
@[simp] theorem State.setDebug_fill : (s.setDebug g).fill = s.fill := rfl
@[simp] theorem State.setDebug_homes : (s.setDebug g).homes = s.homes := rfl
@[simp] theorem State.setDebug_copies : (s.setDebug g).copies = s.copies := rfl
@[simp] theorem State.setDebug_cores : (s.setDebug g).cores = s.cores := rfl
@[simp] theorem State.setDebug_l1s : (s.setDebug g).l1s = s.l1s := rfl
@[simp] theorem State.setDebug_lockedWays : (s.setDebug g).lockedWays = s.lockedWays := rfl
@[simp] theorem State.setDebug_tiles : (s.setDebug g).tiles = s.tiles := rfl
@[simp] theorem State.setDebug_evbufs : (s.setDebug g).evbufs = s.evbufs := rfl
@[simp] theorem State.setDebug_amoHist : (s.setDebug g).amoHist = s.amoHist := rfl
@[simp] theorem State.setDebug_net : (s.setDebug g).net = s.net := rfl
@[simp] theorem State.setDebug_reqs : (s.setDebug g).reqs = s.reqs := rfl
@[simp] theorem State.setDebug_heldTxn : (s.setDebug g).heldTxn = s.heldTxn := rfl
@[simp] theorem State.setDebug_rme : (s.setDebug g).rme = s.rme := rfl
@[simp] theorem State.setDebug_links : (s.setDebug g).links = s.links := rfl
@[simp] theorem State.setDebug_harts : (s.setDebug g).harts = s.harts := rfl
@[simp] theorem State.setDebug_trace : (s.setDebug g).trace = s.trace := rfl
@[simp] theorem State.setDebug_fatal : (s.setDebug g).fatal = s.fatal := rfl
@[simp] theorem State.setDebug_vrEn : (s.setDebug g).vrEn = s.vrEn := rfl
@[simp] theorem State.setDebug_straps : (s.setDebug g).straps = s.straps := rfl
@[simp] theorem State.setDebug_thermTrip : (s.setDebug g).thermTrip = s.thermTrip := rfl
@[simp] theorem State.setDebug_wake : (s.setDebug g).wake = s.wake := rfl
@[simp] theorem State.setDebug_pmb : (s.setDebug g).pmb = s.pmb := rfl
@[simp] theorem State.setDebug_vin : (s.setDebug g).vin = s.vin := rfl
@[simp] theorem State.setDebug_vinAt : (s.setDebug g).vinAt = s.vinAt := rfl
@[simp] theorem State.setDebug_wakeBad : (s.setDebug g).wakeBad = s.wakeBad := rfl
@[simp] theorem State.setDebug_sealGen : (s.setDebug g).sealGen = s.sealGen := rfl
@[simp] theorem State.setDebug_presence : (s.setDebug g).presence = s.presence := rfl
@[simp] theorem State.setDebug_clocks : (s.setDebug g).clocks = s.clocks := rfl
@[simp] theorem State.setDebug_deep : (s.setDebug g).deep = s.deep := rfl
@[simp] theorem State.setDebug_weir : (s.setDebug g).weir = s.weir := rfl
@[simp] theorem State.setDebug_freqTo : (s.setDebug g).freqTo = s.freqTo := rfl
@[simp] theorem State.setDebug_domTo : (s.setDebug g).domTo = s.domTo := rfl
@[simp] theorem State.setDebug_pwrHeld : (s.setDebug g).pwrHeld = s.pwrHeld := rfl
@[simp] theorem State.setDebug_pwrNext : (s.setDebug g).pwrNext = s.pwrNext := rfl
@[simp] theorem State.setDebug_load : (s.setDebug g).load = s.load := rfl
@[simp] theorem State.setDebug_svid : (s.setDebug g).svid = s.svid := rfl
@[simp] theorem State.setDebug_ssid : (s.setDebug g).ssid = s.ssid := rfl
@[simp] theorem State.setDebug_boot : (s.setDebug g).boot = s.boot := rfl
@[simp] theorem State.setDebug_powerQ : (s.setDebug g).powerQ = s.powerQ := rfl
@[simp] theorem State.setDebug_halves : (s.setDebug g).halves = s.halves := rfl
@[simp] theorem State.setDebug_tileOp : (s.setDebug g).tileOp = s.tileOp := rfl
@[simp] theorem State.setDebug_life : (s.setDebug g).life = s.life := rfl
@[simp] theorem State.setDebug_recSeg : (s.setDebug g).recSeg = s.recSeg := rfl
@[simp] theorem State.setDebug_lc : (s.setDebug g).lc = s.lc := rfl
@[simp] theorem State.setDebug_st : (s.setDebug g).st = s.st := rfl
@[simp] theorem State.setDebug_stayRecovery : (s.setDebug g).stayRecovery = s.stayRecovery := rfl
@[simp] theorem State.setDebug_recoveries : (s.setDebug g).recoveries = s.recoveries := rfl
@[simp] theorem State.setDebug_pkgTicks : (s.setDebug g).pkgTicks = s.pkgTicks := rfl
@[simp] theorem State.setDebug_memTop : (s.setDebug g).memTop = s.memTop := rfl
@[simp] theorem State.setDebug_freeCount : (s.setDebug g).freeCount = s.freeCount := rfl

end

section

variable (n : Nat) (x : FnS)

@[simp] theorem State.setFn_pending : (s.setFn n x).pending = s.pending := rfl
@[simp] theorem State.setFn_out : (s.setFn n x).out = s.out := rfl
@[simp] theorem State.setFn_build : (s.setFn n x).build = s.build := rfl
@[simp] theorem State.setFn_mode : (s.setFn n x).mode = s.mode := rfl
@[simp] theorem State.setFn_regs : (s.setFn n x).regs = s.regs := rfl
@[simp] theorem State.setFn_dram : (s.setFn n x).dram = s.dram := rfl
@[simp] theorem State.setFn_mram : (s.setFn n x).mram = s.mram := rfl
@[simp] theorem State.setFn_poison : (s.setFn n x).poison = s.poison := rfl
@[simp] theorem State.setFn_lanes : (s.setFn n x).lanes = s.lanes := rfl
@[simp] theorem State.setFn_chans : (s.setFn n x).chans = s.chans := rfl
@[simp] theorem State.setFn_servos : (s.setFn n x).servos = s.servos := rfl
@[simp] theorem State.setFn_sluices : (s.setFn n x).sluices = s.sluices := rfl
@[simp] theorem State.setFn_furrow : (s.setFn n x).furrow = s.furrow := rfl
@[simp] theorem State.setFn_dies : (s.setFn n x).dies = s.dies := rfl
@[simp] theorem State.setFn_stripes : (s.setFn n x).stripes = s.stripes := rfl
@[simp] theorem State.setFn_keys : (s.setFn n x).keys = s.keys := rfl
@[simp] theorem State.setFn_sweep : (s.setFn n x).sweep = s.sweep := rfl
@[simp] theorem State.setFn_ports : (s.setFn n x).ports = s.ports := rfl
@[simp] theorem State.setFn_xrings : (s.setFn n x).xrings = s.xrings := rfl
@[simp] theorem State.setFn_queues : (s.setFn n x).queues = s.queues := rfl
@[simp] theorem State.setFn_hg : (s.setFn n x).hg = s.hg := rfl
@[simp] theorem State.setFn_hostLog : (s.setFn n x).hostLog = s.hostLog := rfl
@[simp] theorem State.setFn_fwLog : (s.setFn n x).fwLog = s.fwLog := rfl
@[simp] theorem State.setFn_mbHeld : (s.setFn n x).mbHeld = s.mbHeld := rfl
@[simp] theorem State.setFn_mbTmo : (s.setFn n x).mbTmo = s.mbTmo := rfl
@[simp] theorem State.setFn_errLog : (s.setFn n x).errLog = s.errLog := rfl
@[simp] theorem State.setFn_wmapNow : (s.setFn n x).wmapNow = s.wmapNow := rfl
@[simp] theorem State.setFn_mregNow : (s.setFn n x).mregNow = s.mregNow := rfl
@[simp] theorem State.setFn_iowOld : (s.setFn n x).iowOld = s.iowOld := rfl
@[simp] theorem State.setFn_wmapNext : (s.setFn n x).wmapNext = s.wmapNext := rfl
@[simp] theorem State.setFn_mregNext : (s.setFn n x).mregNext = s.mregNext := rfl
@[simp] theorem State.setFn_lost : (s.setFn n x).lost = s.lost := rfl
@[simp] theorem State.setFn_fresh : (s.setFn n x).fresh = s.fresh := rfl
@[simp] theorem State.setFn_flips : (s.setFn n x).flips = s.flips := rfl
@[simp] theorem State.setFn_wbqs : (s.setFn n x).wbqs = s.wbqs := rfl
@[simp] theorem State.setFn_mcLog : (s.setFn n x).mcLog = s.mcLog := rfl
@[simp] theorem State.setFn_fill : (s.setFn n x).fill = s.fill := rfl
@[simp] theorem State.setFn_homes : (s.setFn n x).homes = s.homes := rfl
@[simp] theorem State.setFn_copies : (s.setFn n x).copies = s.copies := rfl
@[simp] theorem State.setFn_cores : (s.setFn n x).cores = s.cores := rfl
@[simp] theorem State.setFn_l1s : (s.setFn n x).l1s = s.l1s := rfl
@[simp] theorem State.setFn_lockedWays : (s.setFn n x).lockedWays = s.lockedWays := rfl
@[simp] theorem State.setFn_tiles : (s.setFn n x).tiles = s.tiles := rfl
@[simp] theorem State.setFn_evbufs : (s.setFn n x).evbufs = s.evbufs := rfl
@[simp] theorem State.setFn_amoHist : (s.setFn n x).amoHist = s.amoHist := rfl
@[simp] theorem State.setFn_net : (s.setFn n x).net = s.net := rfl
@[simp] theorem State.setFn_reqs : (s.setFn n x).reqs = s.reqs := rfl
@[simp] theorem State.setFn_heldTxn : (s.setFn n x).heldTxn = s.heldTxn := rfl
@[simp] theorem State.setFn_rme : (s.setFn n x).rme = s.rme := rfl
@[simp] theorem State.setFn_links : (s.setFn n x).links = s.links := rfl
@[simp] theorem State.setFn_harts : (s.setFn n x).harts = s.harts := rfl
@[simp] theorem State.setFn_trace : (s.setFn n x).trace = s.trace := rfl
@[simp] theorem State.setFn_fatal : (s.setFn n x).fatal = s.fatal := rfl
@[simp] theorem State.setFn_vrEn : (s.setFn n x).vrEn = s.vrEn := rfl
@[simp] theorem State.setFn_straps : (s.setFn n x).straps = s.straps := rfl
@[simp] theorem State.setFn_thermTrip : (s.setFn n x).thermTrip = s.thermTrip := rfl
@[simp] theorem State.setFn_wake : (s.setFn n x).wake = s.wake := rfl
@[simp] theorem State.setFn_pmb : (s.setFn n x).pmb = s.pmb := rfl
@[simp] theorem State.setFn_vin : (s.setFn n x).vin = s.vin := rfl
@[simp] theorem State.setFn_vinAt : (s.setFn n x).vinAt = s.vinAt := rfl
@[simp] theorem State.setFn_wakeBad : (s.setFn n x).wakeBad = s.wakeBad := rfl
@[simp] theorem State.setFn_sealGen : (s.setFn n x).sealGen = s.sealGen := rfl
@[simp] theorem State.setFn_presence : (s.setFn n x).presence = s.presence := rfl
@[simp] theorem State.setFn_clocks : (s.setFn n x).clocks = s.clocks := rfl
@[simp] theorem State.setFn_deep : (s.setFn n x).deep = s.deep := rfl
@[simp] theorem State.setFn_weir : (s.setFn n x).weir = s.weir := rfl
@[simp] theorem State.setFn_freqTo : (s.setFn n x).freqTo = s.freqTo := rfl
@[simp] theorem State.setFn_domTo : (s.setFn n x).domTo = s.domTo := rfl
@[simp] theorem State.setFn_pwrHeld : (s.setFn n x).pwrHeld = s.pwrHeld := rfl
@[simp] theorem State.setFn_pwrNext : (s.setFn n x).pwrNext = s.pwrNext := rfl
@[simp] theorem State.setFn_load : (s.setFn n x).load = s.load := rfl
@[simp] theorem State.setFn_svid : (s.setFn n x).svid = s.svid := rfl
@[simp] theorem State.setFn_ssid : (s.setFn n x).ssid = s.ssid := rfl
@[simp] theorem State.setFn_boot : (s.setFn n x).boot = s.boot := rfl
@[simp] theorem State.setFn_powerQ : (s.setFn n x).powerQ = s.powerQ := rfl
@[simp] theorem State.setFn_halves : (s.setFn n x).halves = s.halves := rfl
@[simp] theorem State.setFn_tileOp : (s.setFn n x).tileOp = s.tileOp := rfl
@[simp] theorem State.setFn_life : (s.setFn n x).life = s.life := rfl
@[simp] theorem State.setFn_recSeg : (s.setFn n x).recSeg = s.recSeg := rfl
@[simp] theorem State.setFn_lc : (s.setFn n x).lc = s.lc := rfl
@[simp] theorem State.setFn_st : (s.setFn n x).st = s.st := rfl
@[simp] theorem State.setFn_stayRecovery : (s.setFn n x).stayRecovery = s.stayRecovery := rfl
@[simp] theorem State.setFn_recoveries : (s.setFn n x).recoveries = s.recoveries := rfl
@[simp] theorem State.setFn_dbg : (s.setFn n x).dbg = s.dbg := rfl
@[simp] theorem State.setFn_pkgTicks : (s.setFn n x).pkgTicks = s.pkgTicks := rfl
@[simp] theorem State.setFn_memTop : (s.setFn n x).memTop = s.memTop := rfl
@[simp] theorem State.setFn_freeCount : (s.setFn n x).freeCount = s.freeCount := rfl

end

section

variable (k : Nat) (x : PortS)

@[simp] theorem State.setPort_pending : (s.setPort k x).pending = s.pending := rfl
@[simp] theorem State.setPort_out : (s.setPort k x).out = s.out := rfl
@[simp] theorem State.setPort_build : (s.setPort k x).build = s.build := rfl
@[simp] theorem State.setPort_mode : (s.setPort k x).mode = s.mode := rfl
@[simp] theorem State.setPort_regs : (s.setPort k x).regs = s.regs := rfl
@[simp] theorem State.setPort_dram : (s.setPort k x).dram = s.dram := rfl
@[simp] theorem State.setPort_mram : (s.setPort k x).mram = s.mram := rfl
@[simp] theorem State.setPort_poison : (s.setPort k x).poison = s.poison := rfl
@[simp] theorem State.setPort_lanes : (s.setPort k x).lanes = s.lanes := rfl
@[simp] theorem State.setPort_chans : (s.setPort k x).chans = s.chans := rfl
@[simp] theorem State.setPort_servos : (s.setPort k x).servos = s.servos := rfl
@[simp] theorem State.setPort_sluices : (s.setPort k x).sluices = s.sluices := rfl
@[simp] theorem State.setPort_furrow : (s.setPort k x).furrow = s.furrow := rfl
@[simp] theorem State.setPort_dies : (s.setPort k x).dies = s.dies := rfl
@[simp] theorem State.setPort_stripes : (s.setPort k x).stripes = s.stripes := rfl
@[simp] theorem State.setPort_keys : (s.setPort k x).keys = s.keys := rfl
@[simp] theorem State.setPort_sweep : (s.setPort k x).sweep = s.sweep := rfl
@[simp] theorem State.setPort_fns : (s.setPort k x).fns = s.fns := rfl
@[simp] theorem State.setPort_xrings : (s.setPort k x).xrings = s.xrings := rfl
@[simp] theorem State.setPort_queues : (s.setPort k x).queues = s.queues := rfl
@[simp] theorem State.setPort_hg : (s.setPort k x).hg = s.hg := rfl
@[simp] theorem State.setPort_hostLog : (s.setPort k x).hostLog = s.hostLog := rfl
@[simp] theorem State.setPort_fwLog : (s.setPort k x).fwLog = s.fwLog := rfl
@[simp] theorem State.setPort_mbHeld : (s.setPort k x).mbHeld = s.mbHeld := rfl
@[simp] theorem State.setPort_mbTmo : (s.setPort k x).mbTmo = s.mbTmo := rfl
@[simp] theorem State.setPort_errLog : (s.setPort k x).errLog = s.errLog := rfl
@[simp] theorem State.setPort_wmapNow : (s.setPort k x).wmapNow = s.wmapNow := rfl
@[simp] theorem State.setPort_mregNow : (s.setPort k x).mregNow = s.mregNow := rfl
@[simp] theorem State.setPort_iowOld : (s.setPort k x).iowOld = s.iowOld := rfl
@[simp] theorem State.setPort_wmapNext : (s.setPort k x).wmapNext = s.wmapNext := rfl
@[simp] theorem State.setPort_mregNext : (s.setPort k x).mregNext = s.mregNext := rfl
@[simp] theorem State.setPort_lost : (s.setPort k x).lost = s.lost := rfl
@[simp] theorem State.setPort_fresh : (s.setPort k x).fresh = s.fresh := rfl
@[simp] theorem State.setPort_flips : (s.setPort k x).flips = s.flips := rfl
@[simp] theorem State.setPort_wbqs : (s.setPort k x).wbqs = s.wbqs := rfl
@[simp] theorem State.setPort_mcLog : (s.setPort k x).mcLog = s.mcLog := rfl
@[simp] theorem State.setPort_fill : (s.setPort k x).fill = s.fill := rfl
@[simp] theorem State.setPort_homes : (s.setPort k x).homes = s.homes := rfl
@[simp] theorem State.setPort_copies : (s.setPort k x).copies = s.copies := rfl
@[simp] theorem State.setPort_cores : (s.setPort k x).cores = s.cores := rfl
@[simp] theorem State.setPort_l1s : (s.setPort k x).l1s = s.l1s := rfl
@[simp] theorem State.setPort_lockedWays : (s.setPort k x).lockedWays = s.lockedWays := rfl
@[simp] theorem State.setPort_tiles : (s.setPort k x).tiles = s.tiles := rfl
@[simp] theorem State.setPort_evbufs : (s.setPort k x).evbufs = s.evbufs := rfl
@[simp] theorem State.setPort_amoHist : (s.setPort k x).amoHist = s.amoHist := rfl
@[simp] theorem State.setPort_net : (s.setPort k x).net = s.net := rfl
@[simp] theorem State.setPort_reqs : (s.setPort k x).reqs = s.reqs := rfl
@[simp] theorem State.setPort_heldTxn : (s.setPort k x).heldTxn = s.heldTxn := rfl
@[simp] theorem State.setPort_rme : (s.setPort k x).rme = s.rme := rfl
@[simp] theorem State.setPort_links : (s.setPort k x).links = s.links := rfl
@[simp] theorem State.setPort_harts : (s.setPort k x).harts = s.harts := rfl
@[simp] theorem State.setPort_trace : (s.setPort k x).trace = s.trace := rfl
@[simp] theorem State.setPort_fatal : (s.setPort k x).fatal = s.fatal := rfl
@[simp] theorem State.setPort_vrEn : (s.setPort k x).vrEn = s.vrEn := rfl
@[simp] theorem State.setPort_straps : (s.setPort k x).straps = s.straps := rfl
@[simp] theorem State.setPort_thermTrip : (s.setPort k x).thermTrip = s.thermTrip := rfl
@[simp] theorem State.setPort_wake : (s.setPort k x).wake = s.wake := rfl
@[simp] theorem State.setPort_pmb : (s.setPort k x).pmb = s.pmb := rfl
@[simp] theorem State.setPort_vin : (s.setPort k x).vin = s.vin := rfl
@[simp] theorem State.setPort_vinAt : (s.setPort k x).vinAt = s.vinAt := rfl
@[simp] theorem State.setPort_wakeBad : (s.setPort k x).wakeBad = s.wakeBad := rfl
@[simp] theorem State.setPort_sealGen : (s.setPort k x).sealGen = s.sealGen := rfl
@[simp] theorem State.setPort_presence : (s.setPort k x).presence = s.presence := rfl
@[simp] theorem State.setPort_clocks : (s.setPort k x).clocks = s.clocks := rfl
@[simp] theorem State.setPort_deep : (s.setPort k x).deep = s.deep := rfl
@[simp] theorem State.setPort_weir : (s.setPort k x).weir = s.weir := rfl
@[simp] theorem State.setPort_freqTo : (s.setPort k x).freqTo = s.freqTo := rfl
@[simp] theorem State.setPort_domTo : (s.setPort k x).domTo = s.domTo := rfl
@[simp] theorem State.setPort_pwrHeld : (s.setPort k x).pwrHeld = s.pwrHeld := rfl
@[simp] theorem State.setPort_pwrNext : (s.setPort k x).pwrNext = s.pwrNext := rfl
@[simp] theorem State.setPort_load : (s.setPort k x).load = s.load := rfl
@[simp] theorem State.setPort_svid : (s.setPort k x).svid = s.svid := rfl
@[simp] theorem State.setPort_ssid : (s.setPort k x).ssid = s.ssid := rfl
@[simp] theorem State.setPort_boot : (s.setPort k x).boot = s.boot := rfl
@[simp] theorem State.setPort_powerQ : (s.setPort k x).powerQ = s.powerQ := rfl
@[simp] theorem State.setPort_halves : (s.setPort k x).halves = s.halves := rfl
@[simp] theorem State.setPort_tileOp : (s.setPort k x).tileOp = s.tileOp := rfl
@[simp] theorem State.setPort_life : (s.setPort k x).life = s.life := rfl
@[simp] theorem State.setPort_recSeg : (s.setPort k x).recSeg = s.recSeg := rfl
@[simp] theorem State.setPort_lc : (s.setPort k x).lc = s.lc := rfl
@[simp] theorem State.setPort_st : (s.setPort k x).st = s.st := rfl
@[simp] theorem State.setPort_stayRecovery : (s.setPort k x).stayRecovery = s.stayRecovery := rfl
@[simp] theorem State.setPort_recoveries : (s.setPort k x).recoveries = s.recoveries := rfl
@[simp] theorem State.setPort_dbg : (s.setPort k x).dbg = s.dbg := rfl
@[simp] theorem State.setPort_pkgTicks : (s.setPort k x).pkgTicks = s.pkgTicks := rfl
@[simp] theorem State.setPort_memTop : (s.setPort k x).memTop = s.memTop := rfl
@[simp] theorem State.setPort_freeCount : (s.setPort k x).freeCount = s.freeCount := rfl

end

section

variable (k r : Nat) (x : XRing)

@[simp] theorem State.setXring_pending : (s.setXring k r x).pending = s.pending := rfl
@[simp] theorem State.setXring_out : (s.setXring k r x).out = s.out := rfl
@[simp] theorem State.setXring_build : (s.setXring k r x).build = s.build := rfl
@[simp] theorem State.setXring_mode : (s.setXring k r x).mode = s.mode := rfl
@[simp] theorem State.setXring_regs : (s.setXring k r x).regs = s.regs := rfl
@[simp] theorem State.setXring_dram : (s.setXring k r x).dram = s.dram := rfl
@[simp] theorem State.setXring_mram : (s.setXring k r x).mram = s.mram := rfl
@[simp] theorem State.setXring_poison : (s.setXring k r x).poison = s.poison := rfl
@[simp] theorem State.setXring_lanes : (s.setXring k r x).lanes = s.lanes := rfl
@[simp] theorem State.setXring_chans : (s.setXring k r x).chans = s.chans := rfl
@[simp] theorem State.setXring_servos : (s.setXring k r x).servos = s.servos := rfl
@[simp] theorem State.setXring_sluices : (s.setXring k r x).sluices = s.sluices := rfl
@[simp] theorem State.setXring_furrow : (s.setXring k r x).furrow = s.furrow := rfl
@[simp] theorem State.setXring_dies : (s.setXring k r x).dies = s.dies := rfl
@[simp] theorem State.setXring_stripes : (s.setXring k r x).stripes = s.stripes := rfl
@[simp] theorem State.setXring_keys : (s.setXring k r x).keys = s.keys := rfl
@[simp] theorem State.setXring_sweep : (s.setXring k r x).sweep = s.sweep := rfl
@[simp] theorem State.setXring_fns : (s.setXring k r x).fns = s.fns := rfl
@[simp] theorem State.setXring_ports : (s.setXring k r x).ports = s.ports := rfl
@[simp] theorem State.setXring_queues : (s.setXring k r x).queues = s.queues := rfl
@[simp] theorem State.setXring_hg : (s.setXring k r x).hg = s.hg := rfl
@[simp] theorem State.setXring_hostLog : (s.setXring k r x).hostLog = s.hostLog := rfl
@[simp] theorem State.setXring_fwLog : (s.setXring k r x).fwLog = s.fwLog := rfl
@[simp] theorem State.setXring_mbHeld : (s.setXring k r x).mbHeld = s.mbHeld := rfl
@[simp] theorem State.setXring_mbTmo : (s.setXring k r x).mbTmo = s.mbTmo := rfl
@[simp] theorem State.setXring_errLog : (s.setXring k r x).errLog = s.errLog := rfl
@[simp] theorem State.setXring_wmapNow : (s.setXring k r x).wmapNow = s.wmapNow := rfl
@[simp] theorem State.setXring_mregNow : (s.setXring k r x).mregNow = s.mregNow := rfl
@[simp] theorem State.setXring_iowOld : (s.setXring k r x).iowOld = s.iowOld := rfl
@[simp] theorem State.setXring_wmapNext : (s.setXring k r x).wmapNext = s.wmapNext := rfl
@[simp] theorem State.setXring_mregNext : (s.setXring k r x).mregNext = s.mregNext := rfl
@[simp] theorem State.setXring_lost : (s.setXring k r x).lost = s.lost := rfl
@[simp] theorem State.setXring_fresh : (s.setXring k r x).fresh = s.fresh := rfl
@[simp] theorem State.setXring_flips : (s.setXring k r x).flips = s.flips := rfl
@[simp] theorem State.setXring_wbqs : (s.setXring k r x).wbqs = s.wbqs := rfl
@[simp] theorem State.setXring_mcLog : (s.setXring k r x).mcLog = s.mcLog := rfl
@[simp] theorem State.setXring_fill : (s.setXring k r x).fill = s.fill := rfl
@[simp] theorem State.setXring_homes : (s.setXring k r x).homes = s.homes := rfl
@[simp] theorem State.setXring_copies : (s.setXring k r x).copies = s.copies := rfl
@[simp] theorem State.setXring_cores : (s.setXring k r x).cores = s.cores := rfl
@[simp] theorem State.setXring_l1s : (s.setXring k r x).l1s = s.l1s := rfl
@[simp] theorem State.setXring_lockedWays : (s.setXring k r x).lockedWays = s.lockedWays := rfl
@[simp] theorem State.setXring_tiles : (s.setXring k r x).tiles = s.tiles := rfl
@[simp] theorem State.setXring_evbufs : (s.setXring k r x).evbufs = s.evbufs := rfl
@[simp] theorem State.setXring_amoHist : (s.setXring k r x).amoHist = s.amoHist := rfl
@[simp] theorem State.setXring_net : (s.setXring k r x).net = s.net := rfl
@[simp] theorem State.setXring_reqs : (s.setXring k r x).reqs = s.reqs := rfl
@[simp] theorem State.setXring_heldTxn : (s.setXring k r x).heldTxn = s.heldTxn := rfl
@[simp] theorem State.setXring_rme : (s.setXring k r x).rme = s.rme := rfl
@[simp] theorem State.setXring_links : (s.setXring k r x).links = s.links := rfl
@[simp] theorem State.setXring_harts : (s.setXring k r x).harts = s.harts := rfl
@[simp] theorem State.setXring_trace : (s.setXring k r x).trace = s.trace := rfl
@[simp] theorem State.setXring_fatal : (s.setXring k r x).fatal = s.fatal := rfl
@[simp] theorem State.setXring_vrEn : (s.setXring k r x).vrEn = s.vrEn := rfl
@[simp] theorem State.setXring_straps : (s.setXring k r x).straps = s.straps := rfl
@[simp] theorem State.setXring_thermTrip : (s.setXring k r x).thermTrip = s.thermTrip := rfl
@[simp] theorem State.setXring_wake : (s.setXring k r x).wake = s.wake := rfl
@[simp] theorem State.setXring_pmb : (s.setXring k r x).pmb = s.pmb := rfl
@[simp] theorem State.setXring_vin : (s.setXring k r x).vin = s.vin := rfl
@[simp] theorem State.setXring_vinAt : (s.setXring k r x).vinAt = s.vinAt := rfl
@[simp] theorem State.setXring_wakeBad : (s.setXring k r x).wakeBad = s.wakeBad := rfl
@[simp] theorem State.setXring_sealGen : (s.setXring k r x).sealGen = s.sealGen := rfl
@[simp] theorem State.setXring_presence : (s.setXring k r x).presence = s.presence := rfl
@[simp] theorem State.setXring_clocks : (s.setXring k r x).clocks = s.clocks := rfl
@[simp] theorem State.setXring_deep : (s.setXring k r x).deep = s.deep := rfl
@[simp] theorem State.setXring_weir : (s.setXring k r x).weir = s.weir := rfl
@[simp] theorem State.setXring_freqTo : (s.setXring k r x).freqTo = s.freqTo := rfl
@[simp] theorem State.setXring_domTo : (s.setXring k r x).domTo = s.domTo := rfl
@[simp] theorem State.setXring_pwrHeld : (s.setXring k r x).pwrHeld = s.pwrHeld := rfl
@[simp] theorem State.setXring_pwrNext : (s.setXring k r x).pwrNext = s.pwrNext := rfl
@[simp] theorem State.setXring_load : (s.setXring k r x).load = s.load := rfl
@[simp] theorem State.setXring_svid : (s.setXring k r x).svid = s.svid := rfl
@[simp] theorem State.setXring_ssid : (s.setXring k r x).ssid = s.ssid := rfl
@[simp] theorem State.setXring_boot : (s.setXring k r x).boot = s.boot := rfl
@[simp] theorem State.setXring_powerQ : (s.setXring k r x).powerQ = s.powerQ := rfl
@[simp] theorem State.setXring_halves : (s.setXring k r x).halves = s.halves := rfl
@[simp] theorem State.setXring_tileOp : (s.setXring k r x).tileOp = s.tileOp := rfl
@[simp] theorem State.setXring_life : (s.setXring k r x).life = s.life := rfl
@[simp] theorem State.setXring_recSeg : (s.setXring k r x).recSeg = s.recSeg := rfl
@[simp] theorem State.setXring_lc : (s.setXring k r x).lc = s.lc := rfl
@[simp] theorem State.setXring_st : (s.setXring k r x).st = s.st := rfl
@[simp] theorem State.setXring_stayRecovery : (s.setXring k r x).stayRecovery = s.stayRecovery := rfl
@[simp] theorem State.setXring_recoveries : (s.setXring k r x).recoveries = s.recoveries := rfl
@[simp] theorem State.setXring_dbg : (s.setXring k r x).dbg = s.dbg := rfl
@[simp] theorem State.setXring_pkgTicks : (s.setXring k r x).pkgTicks = s.pkgTicks := rfl
@[simp] theorem State.setXring_memTop : (s.setXring k r x).memTop = s.memTop := rfl
@[simp] theorem State.setXring_freeCount : (s.setXring k r x).freeCount = s.freeCount := rfl

end

section

variable (n q : Nat) (x : QueueS)

@[simp] theorem State.setQueue_pending : (s.setQueue n q x).pending = s.pending := rfl
@[simp] theorem State.setQueue_out : (s.setQueue n q x).out = s.out := rfl
@[simp] theorem State.setQueue_build : (s.setQueue n q x).build = s.build := rfl
@[simp] theorem State.setQueue_mode : (s.setQueue n q x).mode = s.mode := rfl
@[simp] theorem State.setQueue_regs : (s.setQueue n q x).regs = s.regs := rfl
@[simp] theorem State.setQueue_dram : (s.setQueue n q x).dram = s.dram := rfl
@[simp] theorem State.setQueue_mram : (s.setQueue n q x).mram = s.mram := rfl
@[simp] theorem State.setQueue_poison : (s.setQueue n q x).poison = s.poison := rfl
@[simp] theorem State.setQueue_lanes : (s.setQueue n q x).lanes = s.lanes := rfl
@[simp] theorem State.setQueue_chans : (s.setQueue n q x).chans = s.chans := rfl
@[simp] theorem State.setQueue_servos : (s.setQueue n q x).servos = s.servos := rfl
@[simp] theorem State.setQueue_sluices : (s.setQueue n q x).sluices = s.sluices := rfl
@[simp] theorem State.setQueue_furrow : (s.setQueue n q x).furrow = s.furrow := rfl
@[simp] theorem State.setQueue_dies : (s.setQueue n q x).dies = s.dies := rfl
@[simp] theorem State.setQueue_stripes : (s.setQueue n q x).stripes = s.stripes := rfl
@[simp] theorem State.setQueue_keys : (s.setQueue n q x).keys = s.keys := rfl
@[simp] theorem State.setQueue_sweep : (s.setQueue n q x).sweep = s.sweep := rfl
@[simp] theorem State.setQueue_fns : (s.setQueue n q x).fns = s.fns := rfl
@[simp] theorem State.setQueue_ports : (s.setQueue n q x).ports = s.ports := rfl
@[simp] theorem State.setQueue_xrings : (s.setQueue n q x).xrings = s.xrings := rfl
@[simp] theorem State.setQueue_hg : (s.setQueue n q x).hg = s.hg := rfl
@[simp] theorem State.setQueue_hostLog : (s.setQueue n q x).hostLog = s.hostLog := rfl
@[simp] theorem State.setQueue_fwLog : (s.setQueue n q x).fwLog = s.fwLog := rfl
@[simp] theorem State.setQueue_mbHeld : (s.setQueue n q x).mbHeld = s.mbHeld := rfl
@[simp] theorem State.setQueue_mbTmo : (s.setQueue n q x).mbTmo = s.mbTmo := rfl
@[simp] theorem State.setQueue_errLog : (s.setQueue n q x).errLog = s.errLog := rfl
@[simp] theorem State.setQueue_wmapNow : (s.setQueue n q x).wmapNow = s.wmapNow := rfl
@[simp] theorem State.setQueue_mregNow : (s.setQueue n q x).mregNow = s.mregNow := rfl
@[simp] theorem State.setQueue_iowOld : (s.setQueue n q x).iowOld = s.iowOld := rfl
@[simp] theorem State.setQueue_wmapNext : (s.setQueue n q x).wmapNext = s.wmapNext := rfl
@[simp] theorem State.setQueue_mregNext : (s.setQueue n q x).mregNext = s.mregNext := rfl
@[simp] theorem State.setQueue_lost : (s.setQueue n q x).lost = s.lost := rfl
@[simp] theorem State.setQueue_fresh : (s.setQueue n q x).fresh = s.fresh := rfl
@[simp] theorem State.setQueue_flips : (s.setQueue n q x).flips = s.flips := rfl
@[simp] theorem State.setQueue_wbqs : (s.setQueue n q x).wbqs = s.wbqs := rfl
@[simp] theorem State.setQueue_mcLog : (s.setQueue n q x).mcLog = s.mcLog := rfl
@[simp] theorem State.setQueue_fill : (s.setQueue n q x).fill = s.fill := rfl
@[simp] theorem State.setQueue_homes : (s.setQueue n q x).homes = s.homes := rfl
@[simp] theorem State.setQueue_copies : (s.setQueue n q x).copies = s.copies := rfl
@[simp] theorem State.setQueue_cores : (s.setQueue n q x).cores = s.cores := rfl
@[simp] theorem State.setQueue_l1s : (s.setQueue n q x).l1s = s.l1s := rfl
@[simp] theorem State.setQueue_lockedWays : (s.setQueue n q x).lockedWays = s.lockedWays := rfl
@[simp] theorem State.setQueue_tiles : (s.setQueue n q x).tiles = s.tiles := rfl
@[simp] theorem State.setQueue_evbufs : (s.setQueue n q x).evbufs = s.evbufs := rfl
@[simp] theorem State.setQueue_amoHist : (s.setQueue n q x).amoHist = s.amoHist := rfl
@[simp] theorem State.setQueue_net : (s.setQueue n q x).net = s.net := rfl
@[simp] theorem State.setQueue_reqs : (s.setQueue n q x).reqs = s.reqs := rfl
@[simp] theorem State.setQueue_heldTxn : (s.setQueue n q x).heldTxn = s.heldTxn := rfl
@[simp] theorem State.setQueue_rme : (s.setQueue n q x).rme = s.rme := rfl
@[simp] theorem State.setQueue_links : (s.setQueue n q x).links = s.links := rfl
@[simp] theorem State.setQueue_harts : (s.setQueue n q x).harts = s.harts := rfl
@[simp] theorem State.setQueue_trace : (s.setQueue n q x).trace = s.trace := rfl
@[simp] theorem State.setQueue_fatal : (s.setQueue n q x).fatal = s.fatal := rfl
@[simp] theorem State.setQueue_vrEn : (s.setQueue n q x).vrEn = s.vrEn := rfl
@[simp] theorem State.setQueue_straps : (s.setQueue n q x).straps = s.straps := rfl
@[simp] theorem State.setQueue_thermTrip : (s.setQueue n q x).thermTrip = s.thermTrip := rfl
@[simp] theorem State.setQueue_wake : (s.setQueue n q x).wake = s.wake := rfl
@[simp] theorem State.setQueue_pmb : (s.setQueue n q x).pmb = s.pmb := rfl
@[simp] theorem State.setQueue_vin : (s.setQueue n q x).vin = s.vin := rfl
@[simp] theorem State.setQueue_vinAt : (s.setQueue n q x).vinAt = s.vinAt := rfl
@[simp] theorem State.setQueue_wakeBad : (s.setQueue n q x).wakeBad = s.wakeBad := rfl
@[simp] theorem State.setQueue_sealGen : (s.setQueue n q x).sealGen = s.sealGen := rfl
@[simp] theorem State.setQueue_presence : (s.setQueue n q x).presence = s.presence := rfl
@[simp] theorem State.setQueue_clocks : (s.setQueue n q x).clocks = s.clocks := rfl
@[simp] theorem State.setQueue_deep : (s.setQueue n q x).deep = s.deep := rfl
@[simp] theorem State.setQueue_weir : (s.setQueue n q x).weir = s.weir := rfl
@[simp] theorem State.setQueue_freqTo : (s.setQueue n q x).freqTo = s.freqTo := rfl
@[simp] theorem State.setQueue_domTo : (s.setQueue n q x).domTo = s.domTo := rfl
@[simp] theorem State.setQueue_pwrHeld : (s.setQueue n q x).pwrHeld = s.pwrHeld := rfl
@[simp] theorem State.setQueue_pwrNext : (s.setQueue n q x).pwrNext = s.pwrNext := rfl
@[simp] theorem State.setQueue_load : (s.setQueue n q x).load = s.load := rfl
@[simp] theorem State.setQueue_svid : (s.setQueue n q x).svid = s.svid := rfl
@[simp] theorem State.setQueue_ssid : (s.setQueue n q x).ssid = s.ssid := rfl
@[simp] theorem State.setQueue_boot : (s.setQueue n q x).boot = s.boot := rfl
@[simp] theorem State.setQueue_powerQ : (s.setQueue n q x).powerQ = s.powerQ := rfl
@[simp] theorem State.setQueue_halves : (s.setQueue n q x).halves = s.halves := rfl
@[simp] theorem State.setQueue_tileOp : (s.setQueue n q x).tileOp = s.tileOp := rfl
@[simp] theorem State.setQueue_life : (s.setQueue n q x).life = s.life := rfl
@[simp] theorem State.setQueue_recSeg : (s.setQueue n q x).recSeg = s.recSeg := rfl
@[simp] theorem State.setQueue_lc : (s.setQueue n q x).lc = s.lc := rfl
@[simp] theorem State.setQueue_st : (s.setQueue n q x).st = s.st := rfl
@[simp] theorem State.setQueue_stayRecovery : (s.setQueue n q x).stayRecovery = s.stayRecovery := rfl
@[simp] theorem State.setQueue_recoveries : (s.setQueue n q x).recoveries = s.recoveries := rfl
@[simp] theorem State.setQueue_dbg : (s.setQueue n q x).dbg = s.dbg := rfl
@[simp] theorem State.setQueue_pkgTicks : (s.setQueue n q x).pkgTicks = s.pkgTicks := rfl
@[simp] theorem State.setQueue_memTop : (s.setQueue n q x).memTop = s.memTop := rfl
@[simp] theorem State.setQueue_freeCount : (s.setQueue n q x).freeCount = s.freeCount := rfl

end

section

variable (k : Nat) (x : TestEnt)

@[simp] theorem State.setTestEnt_pending : (s.setTestEnt k x).pending = s.pending := rfl
@[simp] theorem State.setTestEnt_out : (s.setTestEnt k x).out = s.out := rfl
@[simp] theorem State.setTestEnt_build : (s.setTestEnt k x).build = s.build := rfl
@[simp] theorem State.setTestEnt_mode : (s.setTestEnt k x).mode = s.mode := rfl
@[simp] theorem State.setTestEnt_regs : (s.setTestEnt k x).regs = s.regs := rfl
@[simp] theorem State.setTestEnt_dram : (s.setTestEnt k x).dram = s.dram := rfl
@[simp] theorem State.setTestEnt_mram : (s.setTestEnt k x).mram = s.mram := rfl
@[simp] theorem State.setTestEnt_poison : (s.setTestEnt k x).poison = s.poison := rfl
@[simp] theorem State.setTestEnt_lanes : (s.setTestEnt k x).lanes = s.lanes := rfl
@[simp] theorem State.setTestEnt_chans : (s.setTestEnt k x).chans = s.chans := rfl
@[simp] theorem State.setTestEnt_servos : (s.setTestEnt k x).servos = s.servos := rfl
@[simp] theorem State.setTestEnt_sluices : (s.setTestEnt k x).sluices = s.sluices := rfl
@[simp] theorem State.setTestEnt_furrow : (s.setTestEnt k x).furrow = s.furrow := rfl
@[simp] theorem State.setTestEnt_dies : (s.setTestEnt k x).dies = s.dies := rfl
@[simp] theorem State.setTestEnt_stripes : (s.setTestEnt k x).stripes = s.stripes := rfl
@[simp] theorem State.setTestEnt_keys : (s.setTestEnt k x).keys = s.keys := rfl
@[simp] theorem State.setTestEnt_sweep : (s.setTestEnt k x).sweep = s.sweep := rfl
@[simp] theorem State.setTestEnt_fns : (s.setTestEnt k x).fns = s.fns := rfl
@[simp] theorem State.setTestEnt_ports : (s.setTestEnt k x).ports = s.ports := rfl
@[simp] theorem State.setTestEnt_xrings : (s.setTestEnt k x).xrings = s.xrings := rfl
@[simp] theorem State.setTestEnt_queues : (s.setTestEnt k x).queues = s.queues := rfl
@[simp] theorem State.setTestEnt_hg : (s.setTestEnt k x).hg = s.hg := rfl
@[simp] theorem State.setTestEnt_hostLog : (s.setTestEnt k x).hostLog = s.hostLog := rfl
@[simp] theorem State.setTestEnt_fwLog : (s.setTestEnt k x).fwLog = s.fwLog := rfl
@[simp] theorem State.setTestEnt_mbHeld : (s.setTestEnt k x).mbHeld = s.mbHeld := rfl
@[simp] theorem State.setTestEnt_mbTmo : (s.setTestEnt k x).mbTmo = s.mbTmo := rfl
@[simp] theorem State.setTestEnt_errLog : (s.setTestEnt k x).errLog = s.errLog := rfl
@[simp] theorem State.setTestEnt_wmapNow : (s.setTestEnt k x).wmapNow = s.wmapNow := rfl
@[simp] theorem State.setTestEnt_mregNow : (s.setTestEnt k x).mregNow = s.mregNow := rfl
@[simp] theorem State.setTestEnt_iowOld : (s.setTestEnt k x).iowOld = s.iowOld := rfl
@[simp] theorem State.setTestEnt_wmapNext : (s.setTestEnt k x).wmapNext = s.wmapNext := rfl
@[simp] theorem State.setTestEnt_mregNext : (s.setTestEnt k x).mregNext = s.mregNext := rfl
@[simp] theorem State.setTestEnt_lost : (s.setTestEnt k x).lost = s.lost := rfl
@[simp] theorem State.setTestEnt_fresh : (s.setTestEnt k x).fresh = s.fresh := rfl
@[simp] theorem State.setTestEnt_flips : (s.setTestEnt k x).flips = s.flips := rfl
@[simp] theorem State.setTestEnt_wbqs : (s.setTestEnt k x).wbqs = s.wbqs := rfl
@[simp] theorem State.setTestEnt_mcLog : (s.setTestEnt k x).mcLog = s.mcLog := rfl
@[simp] theorem State.setTestEnt_fill : (s.setTestEnt k x).fill = s.fill := rfl
@[simp] theorem State.setTestEnt_homes : (s.setTestEnt k x).homes = s.homes := rfl
@[simp] theorem State.setTestEnt_copies : (s.setTestEnt k x).copies = s.copies := rfl
@[simp] theorem State.setTestEnt_cores : (s.setTestEnt k x).cores = s.cores := rfl
@[simp] theorem State.setTestEnt_l1s : (s.setTestEnt k x).l1s = s.l1s := rfl
@[simp] theorem State.setTestEnt_lockedWays : (s.setTestEnt k x).lockedWays = s.lockedWays := rfl
@[simp] theorem State.setTestEnt_tiles : (s.setTestEnt k x).tiles = s.tiles := rfl
@[simp] theorem State.setTestEnt_evbufs : (s.setTestEnt k x).evbufs = s.evbufs := rfl
@[simp] theorem State.setTestEnt_amoHist : (s.setTestEnt k x).amoHist = s.amoHist := rfl
@[simp] theorem State.setTestEnt_net : (s.setTestEnt k x).net = s.net := rfl
@[simp] theorem State.setTestEnt_reqs : (s.setTestEnt k x).reqs = s.reqs := rfl
@[simp] theorem State.setTestEnt_heldTxn : (s.setTestEnt k x).heldTxn = s.heldTxn := rfl
@[simp] theorem State.setTestEnt_rme : (s.setTestEnt k x).rme = s.rme := rfl
@[simp] theorem State.setTestEnt_links : (s.setTestEnt k x).links = s.links := rfl
@[simp] theorem State.setTestEnt_harts : (s.setTestEnt k x).harts = s.harts := rfl
@[simp] theorem State.setTestEnt_trace : (s.setTestEnt k x).trace = s.trace := rfl
@[simp] theorem State.setTestEnt_fatal : (s.setTestEnt k x).fatal = s.fatal := rfl
@[simp] theorem State.setTestEnt_vrEn : (s.setTestEnt k x).vrEn = s.vrEn := rfl
@[simp] theorem State.setTestEnt_straps : (s.setTestEnt k x).straps = s.straps := rfl
@[simp] theorem State.setTestEnt_thermTrip : (s.setTestEnt k x).thermTrip = s.thermTrip := rfl
@[simp] theorem State.setTestEnt_wake : (s.setTestEnt k x).wake = s.wake := rfl
@[simp] theorem State.setTestEnt_pmb : (s.setTestEnt k x).pmb = s.pmb := rfl
@[simp] theorem State.setTestEnt_vin : (s.setTestEnt k x).vin = s.vin := rfl
@[simp] theorem State.setTestEnt_vinAt : (s.setTestEnt k x).vinAt = s.vinAt := rfl
@[simp] theorem State.setTestEnt_wakeBad : (s.setTestEnt k x).wakeBad = s.wakeBad := rfl
@[simp] theorem State.setTestEnt_sealGen : (s.setTestEnt k x).sealGen = s.sealGen := rfl
@[simp] theorem State.setTestEnt_presence : (s.setTestEnt k x).presence = s.presence := rfl
@[simp] theorem State.setTestEnt_clocks : (s.setTestEnt k x).clocks = s.clocks := rfl
@[simp] theorem State.setTestEnt_deep : (s.setTestEnt k x).deep = s.deep := rfl
@[simp] theorem State.setTestEnt_weir : (s.setTestEnt k x).weir = s.weir := rfl
@[simp] theorem State.setTestEnt_freqTo : (s.setTestEnt k x).freqTo = s.freqTo := rfl
@[simp] theorem State.setTestEnt_domTo : (s.setTestEnt k x).domTo = s.domTo := rfl
@[simp] theorem State.setTestEnt_pwrHeld : (s.setTestEnt k x).pwrHeld = s.pwrHeld := rfl
@[simp] theorem State.setTestEnt_pwrNext : (s.setTestEnt k x).pwrNext = s.pwrNext := rfl
@[simp] theorem State.setTestEnt_load : (s.setTestEnt k x).load = s.load := rfl
@[simp] theorem State.setTestEnt_svid : (s.setTestEnt k x).svid = s.svid := rfl
@[simp] theorem State.setTestEnt_ssid : (s.setTestEnt k x).ssid = s.ssid := rfl
@[simp] theorem State.setTestEnt_boot : (s.setTestEnt k x).boot = s.boot := rfl
@[simp] theorem State.setTestEnt_powerQ : (s.setTestEnt k x).powerQ = s.powerQ := rfl
@[simp] theorem State.setTestEnt_halves : (s.setTestEnt k x).halves = s.halves := rfl
@[simp] theorem State.setTestEnt_tileOp : (s.setTestEnt k x).tileOp = s.tileOp := rfl
@[simp] theorem State.setTestEnt_life : (s.setTestEnt k x).life = s.life := rfl
@[simp] theorem State.setTestEnt_recSeg : (s.setTestEnt k x).recSeg = s.recSeg := rfl
@[simp] theorem State.setTestEnt_lc : (s.setTestEnt k x).lc = s.lc := rfl
@[simp] theorem State.setTestEnt_stayRecovery : (s.setTestEnt k x).stayRecovery = s.stayRecovery := rfl
@[simp] theorem State.setTestEnt_recoveries : (s.setTestEnt k x).recoveries = s.recoveries := rfl
@[simp] theorem State.setTestEnt_dbg : (s.setTestEnt k x).dbg = s.dbg := rfl
@[simp] theorem State.setTestEnt_pkgTicks : (s.setTestEnt k x).pkgTicks = s.pkgTicks := rfl
@[simp] theorem State.setTestEnt_memTop : (s.setTestEnt k x).memTop = s.memTop := rfl
@[simp] theorem State.setTestEnt_freeCount : (s.setTestEnt k x).freeCount = s.freeCount := rfl

end

section

@[simp] theorem State.draw_pending : s.draw.2.pending = s.pending := rfl
@[simp] theorem State.draw_out : s.draw.2.out = s.out := rfl
@[simp] theorem State.draw_build : s.draw.2.build = s.build := rfl
@[simp] theorem State.draw_mode : s.draw.2.mode = s.mode := rfl
@[simp] theorem State.draw_regs : s.draw.2.regs = s.regs := rfl
@[simp] theorem State.draw_dram : s.draw.2.dram = s.dram := rfl
@[simp] theorem State.draw_mram : s.draw.2.mram = s.mram := rfl
@[simp] theorem State.draw_poison : s.draw.2.poison = s.poison := rfl
@[simp] theorem State.draw_lanes : s.draw.2.lanes = s.lanes := rfl
@[simp] theorem State.draw_chans : s.draw.2.chans = s.chans := rfl
@[simp] theorem State.draw_servos : s.draw.2.servos = s.servos := rfl
@[simp] theorem State.draw_sluices : s.draw.2.sluices = s.sluices := rfl
@[simp] theorem State.draw_furrow : s.draw.2.furrow = s.furrow := rfl
@[simp] theorem State.draw_dies : s.draw.2.dies = s.dies := rfl
@[simp] theorem State.draw_stripes : s.draw.2.stripes = s.stripes := rfl
@[simp] theorem State.draw_keys : s.draw.2.keys = s.keys := rfl
@[simp] theorem State.draw_sweep : s.draw.2.sweep = s.sweep := rfl
@[simp] theorem State.draw_fns : s.draw.2.fns = s.fns := rfl
@[simp] theorem State.draw_ports : s.draw.2.ports = s.ports := rfl
@[simp] theorem State.draw_xrings : s.draw.2.xrings = s.xrings := rfl
@[simp] theorem State.draw_queues : s.draw.2.queues = s.queues := rfl
@[simp] theorem State.draw_hg : s.draw.2.hg = s.hg := rfl
@[simp] theorem State.draw_hostLog : s.draw.2.hostLog = s.hostLog := rfl
@[simp] theorem State.draw_fwLog : s.draw.2.fwLog = s.fwLog := rfl
@[simp] theorem State.draw_mbHeld : s.draw.2.mbHeld = s.mbHeld := rfl
@[simp] theorem State.draw_mbTmo : s.draw.2.mbTmo = s.mbTmo := rfl
@[simp] theorem State.draw_errLog : s.draw.2.errLog = s.errLog := rfl
@[simp] theorem State.draw_wmapNow : s.draw.2.wmapNow = s.wmapNow := rfl
@[simp] theorem State.draw_mregNow : s.draw.2.mregNow = s.mregNow := rfl
@[simp] theorem State.draw_iowOld : s.draw.2.iowOld = s.iowOld := rfl
@[simp] theorem State.draw_wmapNext : s.draw.2.wmapNext = s.wmapNext := rfl
@[simp] theorem State.draw_mregNext : s.draw.2.mregNext = s.mregNext := rfl
@[simp] theorem State.draw_lost : s.draw.2.lost = s.lost := rfl
@[simp] theorem State.draw_fresh : s.draw.2.fresh = s.fresh := rfl
@[simp] theorem State.draw_flips : s.draw.2.flips = s.flips := rfl
@[simp] theorem State.draw_wbqs : s.draw.2.wbqs = s.wbqs := rfl
@[simp] theorem State.draw_mcLog : s.draw.2.mcLog = s.mcLog := rfl
@[simp] theorem State.draw_fill : s.draw.2.fill = s.fill := rfl
@[simp] theorem State.draw_homes : s.draw.2.homes = s.homes := rfl
@[simp] theorem State.draw_copies : s.draw.2.copies = s.copies := rfl
@[simp] theorem State.draw_cores : s.draw.2.cores = s.cores := rfl
@[simp] theorem State.draw_l1s : s.draw.2.l1s = s.l1s := rfl
@[simp] theorem State.draw_lockedWays : s.draw.2.lockedWays = s.lockedWays := rfl
@[simp] theorem State.draw_tiles : s.draw.2.tiles = s.tiles := rfl
@[simp] theorem State.draw_evbufs : s.draw.2.evbufs = s.evbufs := rfl
@[simp] theorem State.draw_amoHist : s.draw.2.amoHist = s.amoHist := rfl
@[simp] theorem State.draw_net : s.draw.2.net = s.net := rfl
@[simp] theorem State.draw_reqs : s.draw.2.reqs = s.reqs := rfl
@[simp] theorem State.draw_heldTxn : s.draw.2.heldTxn = s.heldTxn := rfl
@[simp] theorem State.draw_rme : s.draw.2.rme = s.rme := rfl
@[simp] theorem State.draw_links : s.draw.2.links = s.links := rfl
@[simp] theorem State.draw_harts : s.draw.2.harts = s.harts := rfl
@[simp] theorem State.draw_trace : s.draw.2.trace = s.trace := rfl
@[simp] theorem State.draw_fatal : s.draw.2.fatal = s.fatal := rfl
@[simp] theorem State.draw_vrEn : s.draw.2.vrEn = s.vrEn := rfl
@[simp] theorem State.draw_straps : s.draw.2.straps = s.straps := rfl
@[simp] theorem State.draw_thermTrip : s.draw.2.thermTrip = s.thermTrip := rfl
@[simp] theorem State.draw_wake : s.draw.2.wake = s.wake := rfl
@[simp] theorem State.draw_pmb : s.draw.2.pmb = s.pmb := rfl
@[simp] theorem State.draw_vin : s.draw.2.vin = s.vin := rfl
@[simp] theorem State.draw_vinAt : s.draw.2.vinAt = s.vinAt := rfl
@[simp] theorem State.draw_wakeBad : s.draw.2.wakeBad = s.wakeBad := rfl
@[simp] theorem State.draw_sealGen : s.draw.2.sealGen = s.sealGen := rfl
@[simp] theorem State.draw_presence : s.draw.2.presence = s.presence := rfl
@[simp] theorem State.draw_clocks : s.draw.2.clocks = s.clocks := rfl
@[simp] theorem State.draw_deep : s.draw.2.deep = s.deep := rfl
@[simp] theorem State.draw_weir : s.draw.2.weir = s.weir := rfl
@[simp] theorem State.draw_freqTo : s.draw.2.freqTo = s.freqTo := rfl
@[simp] theorem State.draw_domTo : s.draw.2.domTo = s.domTo := rfl
@[simp] theorem State.draw_pwrHeld : s.draw.2.pwrHeld = s.pwrHeld := rfl
@[simp] theorem State.draw_pwrNext : s.draw.2.pwrNext = s.pwrNext := rfl
@[simp] theorem State.draw_load : s.draw.2.load = s.load := rfl
@[simp] theorem State.draw_svid : s.draw.2.svid = s.svid := rfl
@[simp] theorem State.draw_ssid : s.draw.2.ssid = s.ssid := rfl
@[simp] theorem State.draw_boot : s.draw.2.boot = s.boot := rfl
@[simp] theorem State.draw_powerQ : s.draw.2.powerQ = s.powerQ := rfl
@[simp] theorem State.draw_halves : s.draw.2.halves = s.halves := rfl
@[simp] theorem State.draw_tileOp : s.draw.2.tileOp = s.tileOp := rfl
@[simp] theorem State.draw_life : s.draw.2.life = s.life := rfl
@[simp] theorem State.draw_recSeg : s.draw.2.recSeg = s.recSeg := rfl
@[simp] theorem State.draw_lc : s.draw.2.lc = s.lc := rfl
@[simp] theorem State.draw_st : s.draw.2.st = s.st := rfl
@[simp] theorem State.draw_stayRecovery : s.draw.2.stayRecovery = s.stayRecovery := rfl
@[simp] theorem State.draw_recoveries : s.draw.2.recoveries = s.recoveries := rfl
@[simp] theorem State.draw_dbg : s.draw.2.dbg = s.dbg := rfl
@[simp] theorem State.draw_pkgTicks : s.draw.2.pkgTicks = s.pkgTicks := rfl
@[simp] theorem State.draw_memTop : s.draw.2.memTop = s.memTop := rfl

end

end Sys2Proof.Machine
end

