-- ==== Sys2Proof/Laws/Ops.lean ====
section
/-! SUPPORT. What the shared operations do, said once: fields and tables read after they are written, what recording an
error or a trace event can change, and what one loop over an operation keeps. -/

namespace Sys2Proof.Machine

open Sys2Proof

/-! ## Register fields -/

/-- A field reads what was written, cut to its width. -/
@[simp] theorem State.get_put_same (s : State) (u : UnitId) (f : Fld) (v i j : Nat) :
    (s.put u f v i j).get u f i j = v % 2 ^ f.width := by
  simp [State.get, State.put]

/-- A field with another key keeps its value. -/
theorem State.get_put_ne (s : State) {u u' : UnitId} {f f' : Fld} {i j i' j' : Nat} (v : Nat)
    (h : fldKey u' f' i' j' ≠ fldKey u f i j) : (s.put u f v i j).get u' f' i' j' = s.get u' f' i' j' := by
  simp [State.get, State.put, tget_tset_ne _ _ _ _ h]

/-- Fields follow the build and the register table alone. -/
theorem State.get_congr {s t : State} (hb : t.build = s.build) (hr : t.regs = s.regs) (u : UnitId) (f : Fld) (i j : Nat) :
    t.get u f i j = s.get u f i j := by
  simp [State.get, hb, hr]

/-- An event bit reads 1 once raised. -/
theorem State.on_raise_same (s : State) (u : UnitId) (f : Fld) (i : Nat) (h : f.width = 1) :
    (s.raise u f i).on u f i = true := by
  simp [State.on, State.raise, h]

/-- A counter reads the sum, and stays at all ones (R547). -/
theorem State.get_count_same (s : State) (u : UnitId) (f : Fld) (n i : Nat) :
    (s.count u f n i).get u f i = min (s.get u f i + n) (2 ^ f.width - 1) := by
  have : 0 < 2 ^ f.width := Nat.two_pow_pos _
  simp only [State.count, get_put_same]
  exact Nat.mod_eq_of_lt (by omega)

/-! ## The tables of the engines -/

@[simp] theorem State.lane_setLane (s : State) (a : Nat) (x : Lane) : (s.setLane a x).lane a = x := by
  simp [State.lane, State.setLane]

theorem State.lane_setLane_ne (s : State) {a b : Nat} (x : Lane) (h : b ≠ a) : (s.setLane a x).lane b = s.lane b := by
  simp [State.lane, State.setLane, tget_tset_ne _ _ _ _ h]

@[simp] theorem State.chan_setChan (s : State) (a : Nat) (x : Chan) : (s.setChan a x).chan a = x := by
  simp [State.chan, State.setChan]

theorem State.chan_setChan_ne (s : State) {a b : Nat} (x : Chan) (h : b ≠ a) : (s.setChan a x).chan b = s.chan b := by
  simp [State.chan, State.setChan, tget_tset_ne _ _ _ _ h]

@[simp] theorem State.servo_setServo (s : State) (a : Nat) (x : Servo) : (s.setServo a x).servo a = x := by
  simp [State.servo, State.setServo]

theorem State.servo_setServo_ne (s : State) {a b : Nat} (x : Servo) (h : b ≠ a) :
    (s.setServo a x).servo b = s.servo b := by
  simp [State.servo, State.setServo, tget_tset_ne _ _ _ _ h]

@[simp] theorem State.sluice_setSluice (s : State) (a : Nat) (x : Sluice) : (s.setSluice a x).sluice a = x := by
  simp [State.sluice, State.setSluice]

theorem State.sluice_setSluice_ne (s : State) {a b : Nat} (x : Sluice) (h : b ≠ a) :
    (s.setSluice a x).sluice b = s.sluice b := by
  simp [State.sluice, State.setSluice, tget_tset_ne _ _ _ _ h]

@[simp] theorem State.die_setDie (s : State) (m : Nat) (x : Die) : (s.setDie m x).die m = x := by
  simp [State.die, State.setDie]

@[simp] theorem State.stripe_setStripe (s : State) (k : Nat) (x : StripeEng) : (s.setStripe k x).stripe k = x := by
  simp [State.stripe, State.setStripe]

@[simp] theorem State.hart_setHart (s : State) (n : Nat) (x : Hart) : (s.setHart n x).hart n = x := by
  simp [State.hart, State.setHart]

theorem State.hart_setHart_ne (s : State) {a b : Nat} (x : Hart) (h : b ≠ a) : (s.setHart a x).hart b = s.hart b := by
  simp [State.hart, State.setHart, tget_tset_ne _ _ _ _ h]

@[simp] theorem State.hline_setHline (s : State) (n : Nat) (x : HLine) : (s.setHline n x).hline n = x := by
  simp [State.hline, State.setHline]

@[simp] theorem State.link_setLink (s : State) (n : Fin 45) (x : VzLink) : (s.setLink n x).link n = x := by
  simp [State.link, State.setLink]

/-! ## Loops -/

/-- A loop keeps what each of its turns keeps. -/
theorem foldl_keeps {α β : Type} (p : β → Prop) (g : β → α → β) (hg : ∀ b a, p b → p (g b a)) (l : List α) :
    ∀ b, p b → p (l.foldl g b) := by
  induction l with
  | nil => exact fun b h => h
  | cons a l ih => exact fun b h => ih _ (hg b a h)

/-! ## What the recording operations can change -/

/-- A state that differs in the register table, the traces, the package log and the free values' count alone. -/
def Recorded (s t : State) : Prop :=
  ∃ r tr el fc, t = { s with regs := r, trace := tr, errLog := el, freeCount := fc }

theorem Recorded.same (s : State) : Recorded s s := ⟨_, _, _, _, Eq.refl s⟩

theorem Recorded.trans {s t u : State} (h : Recorded s t) (g : Recorded t u) : Recorded s u := by
  obtain ⟨r, tr, el, fc, h⟩ := h
  obtain ⟨r', tr', el', fc', g⟩ := g
  exact ⟨r', tr', el', fc', by rw [g, h]⟩

theorem Recorded.put {s t : State} (h : Recorded s t) (u : UnitId) (f : Fld) (v i j : Nat) : Recorded s (t.put u f v i j) :=
  h.trans ⟨_, _, _, _, by rw [State.put]⟩

theorem Recorded.raise {s t : State} (h : Recorded s t) (u : UnitId) (f : Fld) (i : Nat) : Recorded s (t.raise u f i) :=
  h.put u f 1 i 0

theorem Recorded.count {s t : State} (h : Recorded s t) (u : UnitId) (f : Fld) (n i : Nat) : Recorded s (t.count u f n i) :=
  h.put u f _ i 0

theorem Recorded.draw {s t : State} (h : Recorded s t) : Recorded s t.draw.2 := h.trans ⟨_, _, _, _, by rw [State.draw]⟩

/-- A trace event. -/
theorem Recorded.traceAs {s t : State} (h : Recorded s t) (kind b : Nat) (u : UnitId) (d : Nat) :
    Recorded s (t.traceAs kind b u d) := by
  unfold State.traceAs
  dsimp only
  split
  · exact h
  split
  · exact h.raise ..
  split
  · exact Recorded.raise (Recorded.put (h.trans ⟨_, _, _, _, Eq.refl _⟩) ..) ..
  · exact Recorded.put (h.trans ⟨_, _, _, _, Eq.refl _⟩) ..

theorem Recorded.traceEvent {s t : State} (h : Recorded s t) (kind b : Nat) (u : UnitId) :
    Recorded s (t.traceEvent kind b u) := h.draw.traceAs ..

/-- An entry of the package log. -/
theorem Recorded.logErr {s t : State} (h : Recorded s t) (u : UnitId) (c : ErrClass) : Recorded s (t.logErr u c) := by
  have h₁ : ∀ x, Recorded s { t.draw.2 with errLog := x } := fun x => h.trans ⟨_, _, _, _, by rw [State.draw]⟩
  have h₂ := fun x => (h₁ x).count .err F.ERR_LOG_CNT 1 0
  unfold State.logErr
  dsimp only
  cases c <;> dsimp only <;> split <;> first
    | exact ((h₂ _).raise ..).raise ..
    | exact (h₂ _).raise ..

/-- An error recorded in a unit's summary. -/
theorem Recorded.record {s t : State} (h : Recorded s t) (u : UnitId) (c : ErrClass) : Recorded s (t.record u c) := by
  have h₁ : Recorded s (if t.errBits u = 0 then t.put u F.UNIT_ERR_FIRST (errCode c) else t) := by
    split
    · exact h.put ..
    · exact h
  have h₂ := (h₁.raise u (errBit c) 0).count u F.UNIT_ERR_CNT 1 0
  cases c with
  | corrected => exact h₂
  | denied => exact h₂
  | uncorrected => exact (h₂.logErr ..).traceEvent ..
  | hwfault => exact (h₂.logErr ..).traceEvent ..

theorem Recorded.denied {s t : State} (h : Recorded s t) (u : UnitId) : Recorded s (t.denied u) := h.record u .denied

/-- A package event counted. -/
theorem Recorded.pmuAdd {s : State} (k : Nat) : ∀ (fuel n : Nat) (c : Nat) (t : State), k = fuel → Recorded s t →
    Recorded s (t.pmuAdd fuel n c) := by
  induction k with
  | zero => intro fuel n c t e h; subst e; exact h
  | succ k ih =>
    intro fuel n c t e h
    subst e
    unfold State.pmuAdd
    dsimp only
    split
    · exact h.put ..
    split
    · exact ih k _ _ _ rfl ((h.put ..).raise ..)
    · exact (h.put ..).raise ..

theorem Recorded.pmuEvent {s t : State} (h : Recorded s t) (ev : Nat) (o : PmuObs) (k : Nat) :
    Recorded s (t.pmuEvent ev o k) := by
  unfold State.pmuEvent
  split
  · exact h
  · refine foldl_keeps (Recorded s) _ (fun b a hb => ?_) _ _ h
    split
    · exact Recorded.pmuAdd 16 16 a k b rfl hb
    · exact hb

/-- Recording leaves every memory as it was. -/
theorem Recorded.sameMemory {s t : State} (h : Recorded s t) : SameMemory s t := by
  obtain ⟨r, tr, el, fc, rfl⟩ := h
  exact ⟨rfl, rfl, rfl, rfl⟩

end Sys2Proof.Machine
end

