-- ==== Sys2Proof/Laws/Memory.lean ====
section
/-! SUPPORT. The memories: a read after a write, and that every operation over DRAM, MRAM, poison and check bits keeps the
canonical form. -/

namespace Sys2Proof.Machine

open Sys2Proof

/-! ## Read after write -/

/-- A byte of MRAM reads what was written. -/
@[simp] theorem State.mramByte_setMram (s : State) (a : Nat) (b : Byte) : (s.setMram a b).mramByte a = b := by
  simp [State.mramByte, State.setMram]

/-- A write to MRAM leaves every other byte. -/
theorem State.mramByte_setMram_ne (s : State) {a a' : Nat} (b : Byte) (h : a' ≠ a) :
    (s.setMram a b).mramByte a' = s.mramByte a' := by
  simp [State.mramByte, State.setMram, tget_tset_ne _ _ _ _ h]

/-- Bytes written to MRAM leave every byte outside them. -/
theorem State.mramByte_putMram_outside (bs : List Byte) : ∀ (s : State) (a a' : Nat), a' < a ∨ a + bs.length ≤ a' →
    (s.putMram a bs).mramByte a' = s.mramByte a' := by
  induction bs with
  | nil => intro s a a' _; rfl
  | cons b bs ih =>
    intro s a a' h
    simp only [List.length_cons] at h
    rw [State.putMram, ih _ _ _ (by omega), State.mramByte_setMram_ne _ _ (by omega)]

/-- Bytes written to MRAM read back. -/
theorem State.mramByte_putMram_inside (bs : List Byte) : ∀ (s : State) (a i : Nat), i < bs.length →
    (s.putMram a bs).mramByte (a + i) = bs.getD i 0 := by
  induction bs with
  | nil => intro s a i h; simp at h
  | cons b bs ih =>
    intro s a i h
    rw [State.putMram]
    cases i with
    | zero => rw [State.mramByte_putMram_outside _ _ _ _ (by omega)]; simp
    | succ i =>
      have := ih (s.setMram a b) (a + 1) i (by simpa using h)
      rw [show a + (i + 1) = a + 1 + i by omega, this]
      simp

/-- Writing a byte defines it, if an undefined range covers it, and no other. -/
theorem State.tget_freshened (s : State) (x y : Nat) :
    tget false (s.freshened x) y = if y = x ∧ (s.lostAt x).isSome = true then true else tget false s.fresh y := by
  unfold State.freshened
  by_cases h : s.lost.isEmpty = true
  · have hn : s.lost = [] := by simpa using h
    simp [State.lostAt, hn]
  · by_cases hl : (s.lostAt x).isSome = true
    · by_cases hy : y = x
      · simp [h, hl, hy]
      · simp [h, hl, hy, tget_tset_ne]
    · simp [h, hl]

/-- What is defined stays so. -/
theorem State.freshened_mono (s : State) (x y : Nat) (h : tget false s.fresh y = true) :
    tget false (s.freshened x) y = true := by
  rw [State.tget_freshened, h, ite_self]

/-- Writing a byte leaves the others. -/
theorem State.freshened_ne (s : State) (x y : Nat) (h : y ≠ x) : tget false (s.freshened x) y = tget false s.fresh y := by
  rw [State.tget_freshened, if_neg fun g => h g.1]

/-- A byte of an undefined range that is written to is defined. -/
theorem State.fresh_setDram (s : State) (a : Nat) (b : Byte) (h : (s.lostAt a).isSome = true) :
    tget false (s.setDram a b).fresh a = true := by
  have h₀ : tget false (s.freshened a) a = true := by simp [State.tget_freshened, h]
  unfold State.setDram
  dsimp only
  split
  · exact h₀
  split
  · exact State.freshened_mono _ _ _ h₀
  · exact h₀

/-- A byte that is neither written nor the annex byte of one written is as defined as before. -/
theorem State.fresh_setDram_ne (s : State) {a a' : Nat} (b : Byte) (h : a' ≠ a)
    (ha : ∀ r, s.strongAt a = some r → annexOf r a ≠ a') : tget false (s.setDram a b).fresh a' = tget false s.fresh a' := by
  have h₀ : tget false (s.freshened a) a' = tget false s.fresh a' := by simp [State.tget_freshened, h]
  unfold State.setDram
  dsimp only
  split
  · exact h₀
  split
  · rename_i r hr
    exact (State.freshened_ne _ _ _ fun g => ha r hr g.symm).trans h₀
  · exact h₀

/-- A byte of DRAM reads what was written. -/
@[simp] theorem State.dramByte_setDram (s : State) (a : Nat) (b : Byte) : (s.setDram a b).dramByte a = b := by
  have hf := s.fresh_setDram a b
  obtain ⟨x, y, h, -⟩ := s.setDram_cases a b
  simp only [h, State.dramByte, State.lostAt, tget_tset_same] at hf ⊢
  split
  · rename_i r hr
    split at hr
    · cases hr
    · rw [if_pos (hf (by rw [hr]; rfl))]
  · rfl

/-- A write to DRAM leaves every other byte, but for its own annex byte. -/
theorem State.dramByte_setDram_ne (s : State) {a a' : Nat} (b : Byte) (h : a' ≠ a)
    (ha : ∀ r, s.strongAt a = some r → annexOf r a ≠ a') : (s.setDram a b).dramByte a' = s.dramByte a' := by
  have hf := s.fresh_setDram_ne b h ha
  obtain ⟨x, y, he, -⟩ := s.setDram_cases a b
  simp only [he, State.dramByte, State.lostAt, tget_tset_ne _ _ _ _ h] at hf ⊢
  rw [hf]

/-! ## The canonical form -/

/-- The form rests on the four tables alone. -/
theorem wf_of_same {s t : State} (h : SameMemory s t) (hs : Memory.wf s = true) : Memory.wf t = true := by
  obtain ⟨h₁, h₂, h₃, h₄⟩ := h
  simpa [Memory.wf, h₁, h₂, h₃, h₄] using hs

theorem wf_recorded {s t : State} (h : Recorded s t) (hs : Memory.wf s = true) : Memory.wf t = true :=
  wf_of_same h.sameMemory hs

theorem wf_put (s : State) (u : UnitId) (f : Fld) (v i j : Nat) (hs : Memory.wf s = true) :
    Memory.wf (s.put u f v i j) = true := hs

theorem wf_record (s : State) (u : UnitId) (c : ErrClass) (hs : Memory.wf s = true) : Memory.wf (s.record u c) = true :=
  wf_recorded ((Recorded.same s).record u c) hs

/-- A poison mask set. -/
theorem wf_poison (s : State) (k v : Nat) (hs : Memory.wf s = true) :
    Memory.wf { s with poison := tset 0 s.poison k v } = true := by
  simp only [Memory.wf, Bool.and_eq_true] at hs ⊢
  exact ⟨⟨hs.1.1, twf_tset _ _ _ _ hs.1.2⟩, hs.2⟩

/-- Wrong bits set. -/
theorem wf_flips (s : State) (k v : Nat) (hs : Memory.wf s = true) :
    Memory.wf { s with flips := tset 0 s.flips k v } = true := by
  simp only [Memory.wf, Bool.and_eq_true] at hs ⊢
  exact ⟨hs.1, twf_tset _ _ _ _ hs.2⟩

theorem wf_setMram (s : State) (a : Nat) (b : Byte) (hs : Memory.wf s = true) : Memory.wf (s.setMram a b) = true := by
  simp only [Memory.wf, State.setMram, Bool.and_eq_true] at hs ⊢
  exact ⟨⟨⟨hs.1.1.1, twf_tset _ _ _ _ hs.1.1.2⟩, hs.1.2⟩, hs.2⟩

theorem wf_putMram (bs : List Byte) : ∀ (s : State) (a : Nat), Memory.wf s = true → Memory.wf (s.putMram a bs) = true := by
  induction bs with
  | nil => exact fun s a h => h
  | cons b bs ih => exact fun s a h => ih _ _ (wf_setMram s a b h)

theorem wf_mramClear (s : State) (a n : Nat) (hs : Memory.wf s = true) : Memory.wf (s.mramClear a n) = true := by
  unfold State.mramClear
  split
  · exact hs
  · exact foldl_keeps (fun t => Memory.wf t = true) _ (fun t l ht => wf_poison t _ _ ht) _ _ hs

theorem wf_setDram (s : State) (a : Nat) (b : Byte) (hs : Memory.wf s = true) : Memory.wf (s.setDram a b) = true := by
  obtain ⟨x, y, h, hx⟩ := s.setDram_cases a b
  simp only [Memory.wf, h, Bool.and_eq_true] at hs ⊢
  exact ⟨⟨⟨twf_tset _ _ _ _ hs.1.1.1, hs.1.1.2⟩, hs.1.2⟩, hx hs.2⟩

/-- An entry of a controller's log: the log changes, and what recording changes. -/
theorem recorded_mcLogAdd (s : State) (a kind syn : Nat) (strong scrub : Bool) :
    ∃ x, Recorded { s with mcLog := x } (s.mcLogAdd a kind syn strong scrub) := by
  have h₀ : ∀ (t : State) (u : UnitId) (v : Nat) (b : Prop) [Decidable b] (k : Nat),
      Recorded t (match k with
        | 1 => (if b then (t.put u F.MC_ELOG_CNT v).raise u F.MC_EVT_LOG_WRAP else t.put u F.MC_ELOG_CNT v).raise u F.MC_EVT_CE
        | 2 => ((if b then (t.put u F.MC_ELOG_CNT v).raise u F.MC_EVT_LOG_WRAP else t.put u F.MC_ELOG_CNT v).raise u
            F.MC_EVT_CE_HARD).count u F.MC_CNT_CE_HARD
        | 3 => ((if b then (t.put u F.MC_ELOG_CNT v).raise u F.MC_EVT_LOG_WRAP else t.put u F.MC_ELOG_CNT v).raise u
            F.MC_EVT_CE).count u F.MC_CNT_CE_DEFER
        | 4 => (((if b then (t.put u F.MC_ELOG_CNT v).raise u F.MC_EVT_LOG_WRAP else t.put u F.MC_ELOG_CNT v).raise u
            F.MC_EVT_UE).count u F.MC_CNT_UE).record u .uncorrected
        | _ => ((if b then (t.put u F.MC_ELOG_CNT v).raise u F.MC_EVT_LOG_WRAP else t.put u F.MC_ELOG_CNT v).raise u
            F.MC_EVT_ANNEX).count u F.MC_CNT_ANNEX) := by
    intro t u v b _ k
    have h₁ : Recorded t (if b then (t.put u F.MC_ELOG_CNT v).raise u F.MC_EVT_LOG_WRAP else t.put u F.MC_ELOG_CNT v) := by
      split
      · exact ((Recorded.same t).put ..).raise ..
      · exact (Recorded.same t).put ..
    generalize (if b then (t.put u F.MC_ELOG_CNT v).raise u F.MC_EVT_LOG_WRAP else t.put u F.MC_ELOG_CNT v) = w at h₁
    split
    · exact h₁.raise ..
    · exact (h₁.raise ..).count ..
    · exact (h₁.raise ..).count ..
    · exact ((h₁.raise ..).count ..).record ..
    · exact (h₁.raise ..).count ..
  exact ⟨_, h₀ _ _ _ _ _⟩

theorem sameMemory_mcLogAdd (s : State) (a kind syn : Nat) (strong scrub : Bool) :
    SameMemory s (s.mcLogAdd a kind syn strong scrub) := by
  obtain ⟨x, h⟩ := recorded_mcLogAdd s a kind syn strong scrub
  exact h.sameMemory

theorem sameMemory_wbDrop (s : State) (line mask : Nat) : SameMemory s (s.wbDrop line mask) := by
  unfold State.wbDrop
  dsimp only
  split <;> exact ⟨rfl, rfl, rfl, rfl⟩

theorem sameMemory_wbPush (s : State) (k : Nat) (e : WbEnt) : SameMemory s (s.wbPush k e).1 := by
  unfold State.wbPush
  dsimp only
  split <;> exact ⟨rfl, rfl, rfl, rfl⟩

/-- An injection applied. -/
theorem wf_mcInject (s : State) (line : Nat) (hs : Memory.wf s = true) : Memory.wf (s.mcInject line) = true := by
  unfold State.mcInject
  dsimp only
  split
  · exact wf_put _ _ _ _ _ _ (wf_flips _ _ _ hs)
  · exact hs

/-- A write of masked bytes to a stack. -/
theorem wf_mcWrite (s : State) (line : Nat) (bytes : List Byte) (mask p : Nat) (hs : Memory.wf s = true) :
    Memory.wf (s.mcWrite line bytes mask p) = true := by
  have h₁ : Memory.wf (s.wbDrop line mask) = true := wf_of_same (sameMemory_wbDrop ..) hs
  have h₂ := foldl_keeps (fun t => Memory.wf t = true)
    (fun t i => if inMask mask i then t.setDram (64 * line + i) (bytes.getD i 0) else t)
    (fun t i ht => by split <;> first | exact wf_setDram _ _ _ ht | exact ht) (List.range 64) _ h₁
  have h₃ := fun v => wf_poison _ line v h₂
  exact wf_mcInject _ _ (wf_recorded ((Recorded.same _).pmuEvent 0x05 { line := line, w := true } 1) (h₃ _))

/-- An annex byte rewritten. -/
theorem wf_annexRepair (s : State) (r : MRegion) (a : Nat) (scrub : Bool) (hs : Memory.wf s = true) :
    Memory.wf (s.annexRepair r a scrub) = true := by
  unfold State.annexRepair
  dsimp only
  split
  · exact wf_of_same (sameMemory_mcLogAdd ..) (wf_flips _ _ _ (wf_flips _ _ _ (wf_flips _ _ _ hs)))
  · exact hs

/-- Annex bytes rewritten by a read. -/
theorem wf_mcAnnex (s : State) (r : MRegion) (line : Nat) (scrub : Bool) (hs : Memory.wf s = true) :
    Memory.wf (s.mcAnnex r line scrub) = true :=
  foldl_keeps (fun t => Memory.wf t = true) _ (fun t _ ht => wf_annexRepair t _ _ _ ht) _ _ hs

/-- A line of an annex scrubbed. -/
theorem wf_annexScrub (s : State) (r : MRegion) (line : Nat) (hs : Memory.wf s = true) :
    Memory.wf (s.annexScrub r line) = true :=
  foldl_keeps (fun t => Memory.wf t = true) _ (fun t _ ht => wf_annexRepair t _ _ _ ht) _ _ hs

theorem sameMemory_mcBad (s : State) (line i : Nat) (r : Option MRegion) (scrub : Bool) :
    SameMemory s (s.mcBad line i r scrub) := by
  have h := sameMemory_mcLogAdd s (64 * line + i) 4 (s.synAt r (64 * line + i)) r.isSome scrub
  unfold State.mcBad
  dsimp only
  split
  · exact ⟨rfl, rfl, rfl, rfl⟩
  · obtain ⟨h₁, h₂, h₃, h₄⟩ := h
    obtain ⟨g₁, g₂, g₃, g₄⟩ := sameMemory_wbPush (s.mcLogAdd (64 * line + i) 4 (s.synAt r (64 * line + i)) r.isSome scrub)
      (stackOf (64 * line)).val ⟨line, List.range 64, true, scrub, i, s.synAt r (64 * line + i)⟩
    exact ⟨g₁.trans h₁, g₂.trans h₂, g₃.trans h₃, g₄.trans h₄⟩

theorem sameMemory_mcFix (s : State) (line : Nat) (fix : List Nat) (r : Option MRegion) (scrub : Bool) :
    SameMemory s (s.mcFix line fix r scrub) := by
  unfold State.mcFix
  dsimp only
  generalize (fix.filter fun i => !(s.wbHas (stackOf (64 * line)).val line false).contains i) = new
  split
  · exact ⟨rfl, rfl, rfl, rfl⟩
  · rename_i i l
    obtain ⟨h₁, h₂, h₃, h₄⟩ := sameMemory_wbPush s (stackOf (64 * line)).val
      ⟨line, i :: l, false, scrub, i, s.synAt r (64 * line + i)⟩
    split
    · exact ⟨h₁, h₂, h₃, h₄⟩
    · obtain ⟨g₁, g₂, g₃, g₄⟩ := sameMemory_mcLogAdd (s.wbPush (stackOf (64 * line)).val
        ⟨line, i :: l, false, scrub, i, s.synAt r (64 * line + i)⟩).1 (64 * line + i) 3 (s.synAt r (64 * line + i)) r.isSome scrub
      exact ⟨g₁.trans h₁, g₂.trans h₂, g₃.trans h₃, g₄.trans h₄⟩

/-- A line read by a controller. -/
theorem wf_mcRead (s : State) (line : Nat) (scrub : Bool) (hs : Memory.wf s = true) :
    Memory.wf (s.mcRead line scrub).1 = true := by
  have h₁ := fun r => wf_mcAnnex s r line scrub hs
  have h₂ : ∀ (b : Bool) (t : State) (u : UnitId) (f : Fld), Memory.wf t = true →
      Memory.wf (if b then t.count u f else t) = true := by
    intro b t u f ht
    split <;> exact ht
  unfold State.mcRead
  split
  · exact hs
  dsimp only
  rcases s.strongAt (64 * line) with _ | r
  · dsimp only
    split
    · exact wf_of_same (sameMemory_mcBad ..) hs
    · exact wf_of_same (sameMemory_mcFix ..) (h₂ _ _ _ _ hs)
  · dsimp only
    split
    · exact wf_of_same (sameMemory_mcBad ..) (h₁ r)
    · exact wf_of_same (sameMemory_mcFix ..) (h₂ _ _ _ _ (h₁ r))

/-- A queued write-back written. -/
theorem wf_mcWriteback (s : State) (k : Fin 8) (hard : Bool) (hs : Memory.wf s = true) :
    Memory.wf (s.mcWriteback k hard) = true := by
  unfold State.mcWriteback
  split
  · exact hs
  · dsimp only
    split
    · exact wf_mcInject _ _
        (wf_poison _ _ _ (foldl_keeps (fun t => Memory.wf t = true) _ (fun t i ht => wf_setDram _ _ _ ht) _ _ hs))
    split
    · exact wf_of_same (sameMemory_mcLogAdd ..) hs
    split
    · exact wf_of_same (sameMemory_mcLogAdd ..) hs
    · exact wf_of_same (sameMemory_mcLogAdd ..)
        (wf_mcInject _ _ (foldl_keeps (fun t => Memory.wf t = true) _ (fun t i ht => wf_setDram _ _ _ ht) _ _ hs))

/-- Memory lost to a commit of the memory map. -/
theorem wf_lose (s : State) (r : Nat × Nat) (hs : Memory.wf s = true) : Memory.wf (s.lose r) = true := by
  simp only [Memory.wf, Bool.and_eq_true] at hs
  unfold State.lose
  simp only [Memory.wf, Bool.and_eq_true]
  exact ⟨⟨⟨twf_tkeep _ _ _ hs.1.1.1, hs.1.1.2⟩, twf_tkeep _ _ _ hs.1.2⟩, twf_tkeep _ _ _ hs.2⟩

/-! ## The register table -/

theorem regsSorted_put (s : State) (u : UnitId) (f : Fld) (v i j : Nat) (hs : s.regsSorted = true) :
    (s.put u f v i j).regsSorted = true := tsorted_tset _ _ _ _ hs

end Sys2Proof.Machine
end

