-- ==== Sys2Proof/WellFormed.lean ====
section
/-! DEFINITION. The commands whose operands the package can meet: fields within their widths, lists of the lengths that the
rules give. The meanings are total; statements name this where a rule speaks of such operands only. -/

namespace Sys2Proof

/-- A sideband message from the bridge (R41): an 8-bit TAG and a 64-bit PAYLOAD. -/
def wfSb (m : SbIn) : Bool := decide (m.tag < 256 ∧ m.payload < 2 ^ 64)

/-- An uplink frame (R27): 1,120 PAM4 levels. -/
def wfUplink (f : UplinkFrame) : Bool := decide (f.levels < 2 ^ 2240)

/-- A decoded codeword has 4,108 data bytes (R68, R73). -/
def wfDeep (o : DeepObs) : Bool := decide (o.data.length = 4108)

/-- A codeword as a pass shows it (R65, R68, R87): 4,108 data bytes and 36,960 soft values of 5 bits. -/
def wfCw (c : CwRead) : Bool := decide (c.data.length = 4108 ∧ c.soft.length = 36960) && c.soft.all fun v => decide (v < 32)

/-- A read pass has eight codewords (R68). -/
def wfPass (o : PassObs) : Bool := decide (o.cws.length = 8) && o.cws.all wfCw

/-- A servo gate (R100, R101): a track number of 24 bits and amplitudes of 16. -/
def wfWedge (o : WedgeObs) : Bool :=
  decide (o.mark < 2 ^ 16 ∧ o.wedge < 1024 ∧ o.gray < 2 ^ 24 ∧ o.burstA < 2 ^ 16 ∧ o.burstB < 2 ^ 16 ∧ o.burstC < 2 ^ 16 ∧ o.burstD < 2 ^ 16)

/-- The fields of SV_CMD (R123). -/
def wfSv (g : SvArgs) : Bool := decide (g.prof < 8 ∧ g.head < 16 ∧ g.track < 2 ^ 24 ∧ -32768 ≤ g.offset ∧ g.offset < 32768)

/-- A value written to configuration space fits 64 bits. -/
def wfCfg : CfgReq → Bool
  | .read _ => true
  | .write _ v => decide (v < 2 ^ 64)

/-- A BAR access of 1, 2, 4 or 8 bytes, with a value that fits (R233). -/
def wfBar (r : BarReq) : Bool :=
  [1, 2, 4, 8].contains r.size && (match r.write with | some v => decide (v < 2 ^ (8 * r.size)) | none => true)

/-- A live setting within its field (R228). -/
def wfLive (f : LiveField) (v : Nat) : Bool :=
  match f with
  | .classes => decide (v < 16)
  | .weight => decide (v < 256)
  | .quota => decide (v < 2 ^ 32)

/-- A submission-queue entry has 64 bytes (R264). -/
def wfFetch : FetchRes → Bool
  | .entry bs => decide (bs.length = 64)
  | .error => true

/-- A directory victim is a line number (R344). -/
def wfVictim (v : Option Nat) : Bool := v.all fun l => decide (l < 2 ^ 46)

/-- An instruction's address is even and of 64 bits, and its bits fit its length (R292). -/
def wfAt (a : At) : Bool := decide (a.pc < 2 ^ 64 ∧ a.pc % 2 = 0 ∧ a.inst < 2 ^ (if a.short then 16 else 32))

/-- A register write by an instruction names a well-formed instruction. -/
def wfTarget : RegTarget → Bool
  | .mem .. => true
  | .csr a .. => wfAt a

/-- The command's operands are such as the package can meet. -/
def wellFormed (i : Instr) : Bool :=
  match i with
  | .registerWrite t _ => wfTarget t
  | .ylStepExit _ rtt => decide (rtt < 2 ^ 11)
  | .uplinkFrame _ f => wfUplink f
  | .sidebandAcknowledgement _ tag stat => decide (tag < 256 ∧ stat < 256)
  | .sbResendTimer _ tag => decide (tag < 256)
  | .cap _ m => wfSb m
  | .id _ m => wfSb m
  | .echo _ m => wfSb m
  | .spinStat _ m => wfSb m
  | .parkStat _ m => wfSb m
  | .preampVal _ m => wfSb m
  | .env _ m => wfSb m
  | .fault _ m => wfSb m
  | .writeAbort _ m => wfSb m
  | .shock _ m => wfSb m
  | .health _ m => wfSb m
  | .bridgeMakerMessage _ op m => decide (0x80 ≤ op ∧ op < 256) && wfSb m
  | .readPassStart _ idx => decide (idx < 65536)
  | .readPassEnd _ obs => wfPass obs
  | .deepDecodeDone _ _ obs => wfDeep obs
  | .servoWedge _ obs => wfWedge obs
  | .seek _ g => wfSv g
  | .offset _ g => wfSv g
  | .svLoad _ g => wfSv g
  | .svCmdReserved _ op => decide (op = 0 ∨ (8 ≤ op ∧ op < 16))
  | .verifyResult _ obs => decide (obs.cws.length = 8)
  | .stripeDescDone _ idx => decide (idx < 65536)
  | .strDownClear mask => decide (mask < 2 ^ 96)
  | .keyCmdReserved _ op scope => decide (op < 16 ∧ scope < 4)
  | .format _ _ _ asm => decide (asm < 2 ^ 48)
  | .sanitise _ _ _ _ _ asm => decide (asm < 2 ^ 48)
  | .swpCmdReserved _ op => decide (op = 0 ∨ (5 ≤ op ∧ op < 16))
  | .swpFillSectorResult _ obs => decide (obs.cws.length = 8)
  | .pcieLinkUp _ _ width _ => [1, 4, 8, 16].contains width
  | .configRequest _ r => wfCfg r
  | .vfEnableSet _ n => decide (n ≤ 1024)
  | .barAccess _ r => wfBar r
  | .fnLiveFieldWrite _ field v => wfLive field v
  | .hostCompletion _ _ _ _ data => decide (data.length ≤ 4096)
  | .xferDone _ _ idx => decide (idx < 65536)
  | .sqFetch _ _ r => wfFetch r
  | .hgRestart _ _ _ _ arise => arise.all fun c => decide (c ≠ 0)
  | .mbCommit _ w3 => decide (w3 < 2 ^ 64)
  | .smbMbWrite bytes => decide (bytes.length < 256)
  | .gateCall a _ _ _ => wfAt a
  | .gateReturn a _ _ _ => wfAt a
  | .gatemark a _ _ f3 => wfAt a && decide (f3 ≠ 0)
  | .mret a => wfAt a
  | .sret a => wfAt a
  | .trap a e => wfAt a && decide (e.tval < 2 ^ 64 ∧ e.tval2 < 2 ^ 64 ∧ e.jfault < 2 ^ 64)
  | .hartLoad a _ _ _ => wfAt a
  | .hartStore a _ _ => wfAt a
  | .hartAmo a _ _ _ _ _ => wfAt a
  | .lr a _ _ _ => wfAt a
  | .sc a _ _ _ _ => wfAt a
  | .fence a _ _ => wfAt a
  | .fenceI a => wfAt a
  | .sfenceVma a _ _ => wfAt a
  | .hfenceVvma a _ _ => wfAt a
  | .hfenceGvma a _ _ => wfAt a
  | .jatomctlClear a _ => wfAt a
  | .jgatecfgWrite a _ => wfAt a
  | .rdS _ _ v _ => wfVictim v
  | .rdU _ _ v _ => wfVictim v
  | .upg _ _ v _ => wfVictim v
  | .ncWr _ _ _ data _ => [1, 2, 4, 8, 16, 32, 64].contains data.length
  | .powerSample amps => amps.toList.all fun a => decide (a < 2 ^ 32)
  | .weirTest temps => temps.all fun t => decide (-128 ≤ t ∧ t < 128)
  | .wakeStepReady ids => decide (ids.length ≤ 8)
  | .loadingBegin head => decide (head.bytes.length = 256)
  | .loadingImageEnd _ body => decide (body.length < 2 ^ 32)
  | .asyncMachineCheck _ _ own _ _ => decide (own.hart < 256)
  | .unitErrClear .. | .laneEnable .. | .laneDisable .. | .retrain .. | .retract .. | .sleepRequest .. | .sleepWake ..
  | .ylT0Detect .. | .ylStepTimeout .. | .ylDetectBurst .. | .laneDown .. | .downlinkFrame .. | .heartbeatIdleFrame ..
  | .go .. | .sbRxRelease .. | .chEnable .. | .chDisable .. | .readEntryFetch .. | .read .. | .readSoft ..
  | .decodeMem .. | .scan .. | .syncWindowExpiry .. | .chCancel .. | .acquireTimeout .. | .servoLost ..
  | .settleTimeout .. | .shockHoldEnd .. | .coefSwap .. | .svEnable .. | .svDisable .. | .unload .. | .spinUp ..
  | .spinDown .. | .halt .. | .spinGrant .. | .spinTimeout .. | .slEnable .. | .slDisable .. | .write ..
  | .fillStart .. | .fillDone .. | .journalRecordAck .. | .burstStart .. | .sectorWriteEnd ..
  | .revolutionVerifyStart .. | .wrateSet .. | .slCancel .. | .sldJheadWrite .. | .sldJtailWrite .. | .encode ..
  | .rebuild .. | .check .. | .strEnable .. | .strDisable .. | .keyLoad .. | .keyRestore .. | .keySuspend ..
  | .keyResume .. | .keyErase .. | .keyEraseDrained .. | .keyCmdDone .. | .keyCacheFill .. | .resume .. | .abort ..
  | .swpPhaseBegin .. | .swpQuiesceDone .. | .swpCryptoDone .. | .swpMetadataDone .. | .swpTrackDone ..
  | .swpReport .. | .perstAssert .. | .perstDeassert .. | .pcieLinkDown .. | .pcieEnable .. | .cfgReady ..
  | .busMasterDisable .. | .busMasterEnable .. | .functionLevelReset .. | .vfEnableClear .. | .d3hotEntry ..
  | .fnCreate .. | .fnFree .. | .xferRingEnable .. | .hostRead .. | .hostWrite .. | .hostReadTimeout ..
  | .tagHoldExpiry .. | .l0pEntry .. | .l1Entry .. | .clkreqRelease .. | .verReqWrite .. | .queueEnable ..
  | .queueDisable .. | .queueDisableDrained .. | .sqTail .. | .cqHead .. | .hgAdmission .. | .postConsume ..
  | .coalesceTimeout .. | .hgFreeze .. | .hgEnable .. | .take .. | .mbTimeout .. | .mbDeliverHeld .. | .smbMbRead ..
  | .smbMbStat .. | .smbMbFlags .. | .smbModeRead .. | .smbWakeCommand .. | .smbAddressMatch .. | .interruptTaken ..
  | .irqSourceChange .. | .mtimecmpMatch .. | .wmapCommit .. | .wmapCommitDone .. | .iowWorldChange .. | .rdOnce ..
  | .wrFull .. | .wrPtl .. | .amo .. | .evict .. | .wb .. | .odata .. | .ack .. | .compAck .. | .snpS .. | .snpU ..
  | .snpInv .. | .snpOnce .. | .snpClean .. | .data .. | .comp .. | .wbAck .. | .evictAck .. | .err .. | .getS ..
  | .getU .. | .tileUpg .. | .put .. | .tInv .. | .tDown .. | .tFetch .. | .tData .. | .clean .. | .cleanInv ..
  | .inv .. | .recall .. | .rmeCmdReserved .. | .rmeDone .. | .mcCorrectionWriteback .. | .scrubRead ..
  | .memmapCommit .. | .memmapCommitDone .. | .fillGo .. | .fillDoneMem .. | .ncRd .. | .ncData .. | .ncAck ..
  | .irq .. | .badopUnit .. | .flitReceived .. | .nak .. | .fastRetrainStart .. | .vzDetect .. | .vzStepDone ..
  | .vzMismatchHoldEnd .. | .vzStepTimeout .. | .vzEnable .. | .vzRetrain .. | .isolateSet .. | .isolateClear ..
  | .halfIdleEnter .. | .requestTimeout .. | .txnHoldExpiry .. | .pwronAssert .. | .pwronRise .. | .vauxLoss ..
  | .thermalTrip .. | .thermalWarn .. | .tripClear .. | .sealOpen .. | .presencePress .. | .presenceWindowEnd ..
  | .presenceJumper .. | .serve .. | .still .. | .shutdown .. | .restart .. | .pwrCmdReserved ..
  | .shutdownProgramEnd .. | .domReq .. | .domainChangeDone .. | .pwrHoldWrite .. | .tileFreqWrite ..
  | .freqChangeDone .. | .vinChangeCheck .. | .clockGateEnter .. | .deepGateTimer .. | .clockRestartDone ..
  | .aonAlarmMatch .. | .pmbusTransactionEnd .. | .pmbusRetryWaitEnd .. | .wakeStepTimeout .. | .wakeRetryTimer ..
  | .tripHoldEnd .. | .loadingFillDone .. | .loadingRegWrite .. | .loadingEnd .. | .tilePowerUp .. | .unitReadyRise ..
  | .cfgStart .. | .tileRetire .. | .tileAdd .. | .tileSwap .. | .tileCmdReserved .. | .tileOpStepDone ..
  | .provision .. | .deploy .. | .diag .. | .undiag .. | .retire .. | .diagMode .. | .storeRec .. | .lcCmdReserved ..
  | .lcCmdDone .. | .stClassDone .. | .test .. | .fuse .. | .clearSoft .. | .stCmdReserved .. | .stCmdDone ..
  | .packageFatal .. | .force .. | .fatalWarmReset .. | .coreMceRelease .. | .pmuFreeze .. | .pmuClear ..
  | .counterWrite .. | .trcMark .. | .dmiAccess .. | .stackHot .. | .presenceRelease .. | .sealClose ..
  | .halfIdleExit .. | .l1Exit .. | .functionResetDone .. => true

end Sys2Proof
end

