-- ==== Sys2Proof/Tests/Slice0.lean ====
section
/-! SUPPORT. Tests: an ill-formed term for each check of WellFormed, the worked examples of the spec, and for every hypothesis
of the statements a concrete state and operands that meet it. -/

set_option linter.unusedVariables false
set_option Elab.async false

namespace Sys2Proof.Machine

open Sys2Proof

/-! ## Ill-formed commands are refused -/

/-- An odd instruction address. -/
theorem test_ill_registerWrite : wellFormed (.registerWrite (.csr ⟨0, 1, false, 0⟩ 0 0 false) 0) = false := by decide

/-- A round trip of more than 11 bits. -/
theorem test_ill_ylStepExit : wellFormed (.ylStepExit 0 2048) = false := by decide

/-- More than 1,120 levels. -/
theorem test_ill_uplinkFrame : wellFormed (.uplinkFrame 0 ⟨2 ^ 2240⟩) = false := by decide +kernel

/-- A status of 9 bits. -/
theorem test_ill_sidebandAcknowledgement : wellFormed (.sidebandAcknowledgement 0 0 256) = false := by decide

/-- A TAG of 9 bits. -/
theorem test_ill_sbResendTimer : wellFormed (.sbResendTimer 0 256) = false := by decide

/-- A TAG of 9 bits. -/
theorem test_ill_cap : wellFormed (.cap 0 ⟨256, 0⟩) = false := by decide

/-- A TAG of 9 bits. -/
theorem test_ill_id : wellFormed (.id 0 ⟨256, 0⟩) = false := by decide

/-- A TAG of 9 bits. -/
theorem test_ill_echo : wellFormed (.echo 0 ⟨256, 0⟩) = false := by decide

/-- A TAG of 9 bits. -/
theorem test_ill_spinStat : wellFormed (.spinStat 0 ⟨256, 0⟩) = false := by decide

/-- A TAG of 9 bits. -/
theorem test_ill_parkStat : wellFormed (.parkStat 0 ⟨256, 0⟩) = false := by decide

/-- A TAG of 9 bits. -/
theorem test_ill_preampVal : wellFormed (.preampVal 0 ⟨256, 0⟩) = false := by decide

/-- A TAG of 9 bits. -/
theorem test_ill_env : wellFormed (.env 0 ⟨256, 0⟩) = false := by decide

/-- A TAG of 9 bits. -/
theorem test_ill_fault : wellFormed (.fault 0 ⟨256, 0⟩) = false := by decide

/-- A TAG of 9 bits. -/
theorem test_ill_writeAbort : wellFormed (.writeAbort 0 ⟨256, 0⟩) = false := by decide

/-- A TAG of 9 bits. -/
theorem test_ill_shock : wellFormed (.shock 0 ⟨256, 0⟩) = false := by decide

/-- A TAG of 9 bits. -/
theorem test_ill_health : wellFormed (.health 0 ⟨256, 0⟩) = false := by decide

/-- An OP below the maker range. -/
theorem test_ill_bridgeMakerMessage : wellFormed (.bridgeMakerMessage 0 0x7F ⟨0, 0⟩) = false := by decide

/-- An index of 17 bits. -/
theorem test_ill_readPassStart : wellFormed (.readPassStart 0 65536) = false := by decide

/-- A pass without codewords. -/
theorem test_ill_readPassEnd : wellFormed (.readPassEnd 0 ⟨none, 0, [], [], []⟩) = false := by decide

/-- An empty codeword. -/
theorem test_ill_deepDecodeDone : wellFormed (.deepDecodeDone 0 0 ⟨true, 0, 0, []⟩) = false := by decide

/-- Wedge number 1,024. -/
theorem test_ill_servoWedge : wellFormed (.servoWedge 0 ⟨0, 0, 1024, 0, 0, 0, 0, 0, 0, 0, false⟩) = false := by decide

/-- Profile 8. -/
theorem test_ill_seek : wellFormed (.seek 0 ⟨8, 0, 0, 0⟩) = false := by decide

/-- Profile 8. -/
theorem test_ill_offset : wellFormed (.offset 0 ⟨8, 0, 0, 0⟩) = false := by decide

/-- Profile 8. -/
theorem test_ill_svLoad : wellFormed (.svLoad 0 ⟨8, 0, 0, 0⟩) = false := by decide

/-- A command code that has a meaning. -/
theorem test_ill_svCmdReserved : wellFormed (.svCmdReserved 0 1) = false := by decide

/-- No codewords. -/
theorem test_ill_verifyResult : wellFormed (.verifyResult 0 ⟨none, []⟩) = false := by decide

/-- An index of 17 bits. -/
theorem test_ill_stripeDescDone : wellFormed (.stripeDescDone 0 65536) = false := by decide

/-- A 97th actuator. -/
theorem test_ill_strDownClear : wellFormed (.strDownClear (2 ^ 96)) = false := by decide

/-- A code of 5 bits. -/
theorem test_ill_keyCmdReserved : wellFormed (.keyCmdReserved .secure 16 0) = false := by decide

/-- A 49th assembly. -/
theorem test_ill_format : wellFormed (.format .secure false false (2 ^ 48)) = false := by decide

/-- A 49th assembly. -/
theorem test_ill_sanitise : wellFormed (.sanitise .secure 0 0 false false (2 ^ 48)) = false := by decide

/-- No codewords. -/
theorem test_ill_swpFillSectorResult : wellFormed (.swpFillSectorResult 0 ⟨none, []⟩) = false := by decide

/-- A command code that has a meaning. -/
theorem test_ill_swpCmdReserved : wellFormed (.swpCmdReserved .secure 1) = false := by decide

/-- A width of three lanes. -/
theorem test_ill_pcieLinkUp : wellFormed (.pcieLinkUp 0 0 3 false) = false := by decide

/-- A value of 65 bits. -/
theorem test_ill_configRequest : wellFormed (.configRequest 0 (.write .vendorId (2 ^ 64))) = false := by decide

/-- 1,025 virtual functions. -/
theorem test_ill_vfEnableSet : wellFormed (.vfEnableSet 0 1025) = false := by decide

/-- An access of three bytes. -/
theorem test_ill_barAccess : wellFormed (.barAccess 0 ⟨0, 3, none, false, false⟩) = false := by decide

/-- A fifth class. -/
theorem test_ill_fnLiveFieldWrite : wellFormed (.fnLiveFieldWrite 0 .classes 16) = false := by decide

/-- More data than a read asks. -/
theorem test_ill_hostCompletion : wellFormed (.hostCompletion 0 0 .success false (List.replicate 4097 0)) = false := by decide +kernel

/-- An index of 17 bits. -/
theorem test_ill_xferDone : wellFormed (.xferDone 0 0 65536) = false := by decide

/-- An empty entry. -/
theorem test_ill_sqFetch : wellFormed (.sqFetch 0 0 (.entry [])) = false := by decide

/-- A new cause of 0. -/
theorem test_ill_hgRestart : wellFormed (.hgRestart 0 false 0 0 (some 0)) = false := by decide

/-- A word of 65 bits. -/
theorem test_ill_mbCommit : wellFormed (.mbCommit .bmc (2 ^ 64)) = false := by decide

/-- 256 bytes. -/
theorem test_ill_smbMbWrite : wellFormed (.smbMbWrite (List.replicate 256 0)) = false := by decide +kernel

/-- An odd instruction address. -/
theorem test_ill_gateCall : wellFormed (.gateCall ⟨0, 1, false, 0⟩ 0 0 0) = false := by decide

/-- An odd instruction address. -/
theorem test_ill_gateReturn : wellFormed (.gateReturn ⟨0, 1, false, 0⟩ 0 0 0) = false := by decide

/-- An odd instruction address. -/
theorem test_ill_gatemark : wellFormed (.gatemark ⟨0, 1, false, 0⟩ 0 0 1) = false := by decide

/-- An odd instruction address. -/
theorem test_ill_mret : wellFormed (.mret ⟨0, 1, false, 0⟩) = false := by decide

/-- A short instruction of 17 bits. -/
theorem test_ill_sret : wellFormed (.sret ⟨0, 0, true, 65536⟩) = false := by decide

/-- A trap value of 65 bits. -/
theorem test_ill_trap : wellFormed (.trap ⟨0, 0, false, 0⟩ ⟨0, 2 ^ 64, 0, 0, 0, false, 0⟩) = false := by decide

/-- An odd instruction address. -/
theorem test_ill_hartLoad : wellFormed (.hartLoad ⟨0, 1, false, 0⟩ ⟨0, 0, .own, false⟩ (.x 1 false) .none) = false := by decide

/-- An odd instruction address. -/
theorem test_ill_hartStore : wellFormed (.hartStore ⟨0, 1, false, 0⟩ ⟨0, 0, .own, false⟩ (.x 1)) = false := by decide

/-- An odd instruction address. -/
theorem test_ill_hartAmo : wellFormed (.hartAmo ⟨0, 1, false, 0⟩ ⟨0, 0, .own, false⟩ .add 1 2 .none) = false := by decide

/-- An odd instruction address. -/
theorem test_ill_lr : wellFormed (.lr ⟨0, 1, false, 0⟩ ⟨0, 0, .own, false⟩ 1 .none) = false := by decide

/-- An odd instruction address. -/
theorem test_ill_sc : wellFormed (.sc ⟨0, 1, false, 0⟩ ⟨0, 0, .own, false⟩ 1 2 .none) = false := by decide

/-- An odd instruction address. -/
theorem test_ill_fence : wellFormed (.fence ⟨0, 1, false, 0⟩ 0 0) = false := by decide

/-- An odd instruction address. -/
theorem test_ill_fenceI : wellFormed (.fenceI ⟨0, 1, false, 0⟩) = false := by decide

/-- An odd instruction address. -/
theorem test_ill_sfenceVma : wellFormed (.sfenceVma ⟨0, 1, false, 0⟩ none none) = false := by decide

/-- An odd instruction address. -/
theorem test_ill_hfenceVvma : wellFormed (.hfenceVvma ⟨0, 1, false, 0⟩ none none) = false := by decide

/-- An odd instruction address. -/
theorem test_ill_hfenceGvma : wellFormed (.hfenceGvma ⟨0, 1, false, 0⟩ none none) = false := by decide

/-- An odd instruction address. -/
theorem test_ill_jatomctlClear : wellFormed (.jatomctlClear ⟨0, 1, false, 0⟩ 0) = false := by decide

/-- An odd instruction address. -/
theorem test_ill_jgatecfgWrite : wellFormed (.jgatecfgWrite ⟨0, 1, false, 0⟩ 0) = false := by decide

/-- A victim beyond the last line. -/
theorem test_ill_rdS : wellFormed (.rdS 0 0 (some (2 ^ 46)) .none) = false := by decide

/-- A victim beyond the last line. -/
theorem test_ill_rdU : wellFormed (.rdU 0 0 (some (2 ^ 46)) .none) = false := by decide

/-- A victim beyond the last line. -/
theorem test_ill_upg : wellFormed (.upg 0 0 (some (2 ^ 46)) .none) = false := by decide

/-- Three bytes. -/
theorem test_ill_ncWr : wellFormed (.ncWr 0 0 0 [0, 0, 0] ⟨.secure, none⟩) = false := by decide

/-- A sample of 33 bits. -/
theorem test_ill_powerSample : wellFormed (.powerSample #v[2 ^ 32, 0, 0, 0]) = false := by decide

/-- A temperature of 9 bits. -/
theorem test_ill_weirTest : wellFormed (.weirTest [128]) = false := by decide

/-- Nine stacks. -/
theorem test_ill_wakeStepReady : wellFormed (.wakeStepReady (List.replicate 9 ⟨0, 0, 0, 0⟩)) = false := by decide

/-- An empty header. -/
theorem test_ill_loadingBegin : wellFormed (.loadingBegin ⟨true, 0, [], []⟩) = false := by decide

/-- An image of 4 GiB. -/
theorem test_ill_loadingImageEnd : wellFormed (.loadingImageEnd true (List.replicate (2 ^ 32) 0)) = false := by simp only [wellFormed, List.length_replicate, Nat.lt_irrefl, decide_false]

/-- Hart 256. -/
theorem test_ill_asyncMachineCheck : wellFormed (.asyncMachineCheck 0 false { hart := 256 } 0 0) = false := by decide

/-! ## The worked examples of the spec -/

/-- What `n` bytes at offset `o` of a ready unit's page show, through die slot `slot`. -/
def readAt (s : State) (u : UnitId) (slot o n : Nat) : Nat := s.pageVal true u slot o n

/-- A package of build B02 after reset: its hub and medium dies have stepping B0 (R12). -/
def resetB02 : State := { State.reset with build := .b02 }

/-- Chapter Register Reference, 'naming a register of actuator 61' (R10, R536). -/
theorem test_page61 : dieOf 61 = 2 ∧ unitBase (.act 61) = 0x011E000E0000 := by decide

/-- The same example: UNIT_ID and UNIT_VER, of a die of stepping B0, through slot 46. -/
theorem test_header61 : readAt resetB02 (.act 61) 46 0 4 = 0x02E03D05 ∧ readAt resetB02 (.act 61) 46 4 4 = 0x00100404 := by
  decide +kernel

/-- Chapter Register Reference, 'the three builds': PKG_FEAT. -/
theorem test_builds :
    readAt { State.reset with build := .b01 } .hub 0 0x50 4 = 0x131 ∧
    readAt resetB02 .hub 0 0x50 4 = 0x241 ∧
    readAt State.reset .hub 0 0x50 4 = 0x241 := by decide +kernel

/-- Chapter Shelf Processor, 'reading a mixed build': PKG_IDENT and PKG_STEP of a B02 package. -/
theorem test_mixed :
    readAt resetB02 .hub 0 0x40 4 = 0x00029648 ∧
    readAt resetB02 .hub 0 0x48 8 = 0x0001101010010010 := by decide +kernel

/-- Chapter Stripes and Keys, 'a tweak' (R184). -/
theorem test_tweak : dataUnit 61 1000 5 = 0x07A0007D0005 := by decide

/-- Chapter Memory and Protection, 'a byte under the strong code': the check bits of 0x3C. -/
theorem test_checkBits : checkBits 0x3C = 0x05 := by decide

/-- The same example: d5 flips, and the strong code restores the byte. -/
theorem test_strong : syndromeOf 0x20 = 0x0E ∧ judgeByte true 0x1C 0x0E = .corrected 0x3C := by decide

/-- The same example under the light code: detected, not corrected. -/
theorem test_light : judgeByte false 0x1C 0x0E = .bad := by decide

/-- Chapter Memory and Protection, 'a strong region of 32 GiB': stack, local offset and annex byte. -/
theorem test_region :
    (stackOf 0x40009040).val = 1 ∧ localOf 0x40009040 = 0x08001040 ∧
    annexOf ⟨true, 0, 31, 352⟩ 0x40009040 = addrOf 1 0x584000820 := by decide

/-- Chapter Fabric, 'spare lanes on link 40': 32 of 34 lanes good (R401). -/
theorem test_spare : vzMap 32 (2 ^ 34 - 1 - 2 ^ 5 - 2 ^ 20) = (0x3FFEFFFDF, 2) := by decide

/-- The same example: lane 20 passes, the lanes are the lowest 32 good ones; then 31 lanes give half width. -/
theorem test_spareAgain :
    vzMap 32 (2 ^ 34 - 1 - 2 ^ 5) = (0x1FFFFFFDF, 2) ∧ widthOf 32 0x1FFEFFFDF = 1 := by decide

/-- Chapter Cores, 'a gate and its mark': GATEMARK 0x123 (R303). -/
theorem test_gatemark : gatemarkWord 0x123 = 0x1230100B := by decide

/-- The AES S-box and its inverse at the values of FIPS 197. -/
theorem test_sbox : aesSbox 0x53 = 0xED ∧ aesInvSbox 0xED = 0x53 := by decide +kernel


/-! ## Witnesses of the hypotheses of the statements -/

/-- Hypotheses of `laneEnable` in `LaneControl`. -/
theorem witness_laneEnable :
  let s : State := State.reset
  let a : Fin 96 := 3
  (s.on (.act a) F.YL_CTRL_EN = false) := by decide

/-- Hypotheses of `laneEnableAgain` in `LaneControl`. -/
theorem witness_laneEnableAgain :
  let s : State := (State.reset |>.put (.act 3) F.YL_CTRL_EN 1)
  let a : Fin 96 := 3
  (s.on (.act a) F.YL_CTRL_EN = true) := by decide

/-- Hypotheses of `retrain` in `LaneControl`. -/
theorem witness_retrain :
  let s : State := (State.reset |>.put (.act 3) F.YL_CTRL_EN 1 |>.put (.act 3) F.YL_STAT_STATE 8)
  let a : Fin 96 := 3
  (s.on (.act a) F.YL_CTRL_EN = true) := by decide

/-- Hypotheses of `retrainOff` in `LaneControl`. -/
theorem witness_retrainOff :
  let s : State := State.reset
  let a : Fin 96 := 3
  (s.on (.act a) F.YL_CTRL_EN = false) := by decide

/-- Hypotheses of `retract` in `LaneControl`. -/
theorem witness_retract :
  let s : State := (State.reset |>.put (.act 3) F.YL_STAT_STATE 8)
  let a : Fin 96 := 3
  let g := 1
  (s.framing a = true) ∧ ((s.lane a).out.length < 4) ∧ ((freeTag (s.lane a)) = some g) := by decide

/-- Hypotheses of `retractWaits` in `LaneControl`. -/
theorem witness_retractWaits :
  let s : State := (((State.reset |>.put (.act 3) F.YL_STAT_STATE 8)).setLane 3 { out := [⟨1, 0x20, 0, .firmware, 1⟩, ⟨2, 0x20, 0, .firmware, 1⟩, ⟨3, 0x20, 0, .firmware, 1⟩, ⟨4, 0x20, 0, .firmware, 1⟩] })
  let a : Fin 96 := 3
  (s.framing a = true) ∧ (4 ≤ (s.lane a).out.length ∨ freeTag (s.lane a) = none) := by decide

/-- Hypotheses of `retractNoFrames` in `LaneControl`. -/
theorem witness_retractNoFrames :
  let s : State := State.reset
  let a : Fin 96 := 3
  (s.framing a = false) := by decide

/-- Hypotheses of `sleepRequest` in `LaneControl`. -/
theorem witness_sleepRequest :
  let s : State := (State.reset |>.put (.act 3) F.YL_STAT_STATE 8 |>.put (.act 3) F.YL_STAT_VER 4)
  let a : Fin 96 := 3
  let g := 1
  (s.upT7 a = true) ∧ (4 ≤ s.get (.act a) F.YL_STAT_VER) ∧ (s.sbHas a 0x40 = false) ∧ ((s.lane a).out.length < 4) ∧ ((freeTag (s.lane a)) = some g) := by decide

/-- Hypotheses of `sleepRequestElse` in `LaneControl`. -/
theorem witness_sleepRequestElse :
  let s : State := (State.reset |>.put (.act 3) F.YL_STAT_STATE 8 |>.put (.act 3) F.YL_STAT_VER 3)
  let a : Fin 96 := 3
  (s.upT7 a = false ∨ s.get (.act a) F.YL_STAT_VER < 4 ∨ s.sbHas a 0x40 = true) := by decide

/-- Hypotheses of `sleepWake` in `LaneControl`. -/
theorem witness_sleepWake :
  let s : State := (State.reset |>.put (.act 3) F.YL_STAT_STATE 9 |>.put (.act 3) F.YL_CTRL_SLEEP 1)
  let a : Fin 96 := 3
  (s.yl a = 9) := by decide

/-- Hypotheses of `sleepWakeAwake` in `LaneControl`. -/
theorem witness_sleepWakeAwake :
  let s : State := (State.reset |>.put (.act 3) F.YL_STAT_STATE 8 |>.put (.act 3) F.YL_CTRL_SLEEP 1)
  let a : Fin 96 := 3
  (s.yl a ≠ 9) := by decide

/-- Hypotheses of `ylDetectBurst` in `LaneTraining`. -/
theorem witness_ylDetectBurst :
  let s : State := (State.reset |>.put (.act 3) F.YL_STAT_STATE 1)
  let a : Fin 96 := 3
  (s.yl a = 1) := by decide

/-- Hypotheses of `ylT0Detect` in `LaneTraining`. -/
theorem witness_ylT0Detect :
  let s : State := (State.reset |>.put (.act 3) F.YL_STAT_STATE 1)
  let a : Fin 96 := 3
  (s.yl a = 1) := by decide

/-- Hypotheses of `ylStepExit1` in `LaneTraining`. -/
theorem witness_ylStepExit1 :
  let s : State := (State.reset |>.put (.act 3) F.YL_STAT_STATE 2)
  let a : Fin 96 := 3
  let rtt : Nat := 5
  (s.yl a = 2) ∧ ((s.lane a).fastWake = false) := by decide

/-- Hypotheses of `ylStepExitWake` in `LaneTraining`. -/
theorem witness_ylStepExitWake :
  let s : State := (((State.reset |>.put (.act 3) F.YL_STAT_STATE 2)).setLane 3 { fastWake := true })
  let a : Fin 96 := 3
  let rtt : Nat := 5
  (s.yl a = 2) ∧ ((s.lane a).fastWake = true) := by decide

/-- Hypotheses of `ylStepExit2` in `LaneTraining`. -/
theorem witness_ylStepExit2 :
  let s : State := (State.reset |>.put (.act 3) F.YL_STAT_STATE 3)
  let a : Fin 96 := 3
  let rtt : Nat := 5
  (s.yl a = 3) := by decide

/-- Hypotheses of `ylStepExit3` in `LaneTraining`. -/
theorem witness_ylStepExit3 :
  let s : State := (((State.reset |>.put (.act 3) F.YL_STAT_STATE 4)).setLane 3 { goodRun := 16 })
  let a : Fin 96 := 3
  let rtt : Nat := 5
  (s.yl a = 4) ∧ (16 ≤ (s.lane a).goodRun) ∧ ((s.lane a).fastWake = false) := by decide

/-- Hypotheses of `ylStepExit3Wake` in `LaneTraining`. -/
theorem witness_ylStepExit3Wake :
  let s : State := (((State.reset |>.put (.act 3) F.YL_STAT_STATE 4)).setLane 3 { goodRun := 16, fastWake := true })
  let a : Fin 96 := 3
  let rtt : Nat := 5
  (s.yl a = 4) ∧ (16 ≤ (s.lane a).goodRun) ∧ ((s.lane a).fastWake = true) := by decide

/-- Hypotheses of `ylStepExitEarly` in `LaneTraining`. -/
theorem witness_ylStepExitEarly :
  let s : State := (State.reset |>.put (.act 3) F.YL_STAT_STATE 4)
  let a : Fin 96 := 3
  let rtt : Nat := 5
  ((s.yl a = 4 ∧ (s.lane a).goodRun < 16) ∨ (s.yl a = 5 ∧ ((s.lane a).capSeen = false ∨ (s.lane a).idSeen = false)) ∨ (s.yl a = 6 ∧ (s.lane a).echoSeen = false) ∨ (s.yl a = 7 ∧ testOver (s.lane a) = false)) := by decide

/-- Hypotheses of `ylStepExit4` in `LaneTraining`. -/
theorem witness_ylStepExit4 :
  let s : State := (((State.reset |>.put (.act 3) F.YL_STAT_STATE 5 |>.put (.act 3) F.YL_BRIDGE_VMIN 1 |>.put (.act 3) F.YL_BRIDGE_VMAX 3)).setLane 3 { capSeen := true, idSeen := true, verAcked := true, ceil := 4 })
  let a : Fin 96 := 3
  let rtt : Nat := 5
  let v : Nat := 3
  (s.yl a = 5) ∧ ((s.lane a).capSeen = true) ∧ ((s.lane a).idSeen = true) ∧ ((s.lane a).verAcked = true) ∧ (s.t4Version a = some v) := by decide

/-- Hypotheses of `ylReject` in `LaneTraining`. -/
theorem witness_ylReject :
  let s : State := (((State.reset |>.put (.act 3) F.YL_STAT_STATE 5 |>.put (.act 3) F.YL_BRIDGE_VMIN 4 |>.put (.act 3) F.YL_BRIDGE_VMAX 4)).setLane 3 { capSeen := true, idSeen := true, ceil := 2 })
  let a : Fin 96 := 3
  let rtt : Nat := 5
  (s.yl a = 5) ∧ ((s.lane a).capSeen = true) ∧ ((s.lane a).idSeen = true) ∧ (s.t4Version a = none) := by decide

/-- Hypotheses of `ylStepExit5` in `LaneTraining`. -/
theorem witness_ylStepExit5 :
  let s : State := (((State.reset |>.put (.act 3) F.YL_STAT_STATE 6)).setLane 3 { echoSeen := true })
  let a : Fin 96 := 3
  let rtt : Nat := 5
  (s.yl a = 6) ∧ ((s.lane a).echoSeen = true) := by decide

/-- Hypotheses of `ylStepExit6` in `LaneTraining`. -/
theorem witness_ylStepExit6 :
  let s : State := (((State.reset |>.put (.act 3) F.YL_STAT_STATE 7)).setLane 3 { testTx := 25000, testRx := 25000 })
  let a : Fin 96 := 3
  let rtt : Nat := 5
  (s.yl a = 7) ∧ (testOver (s.lane a) = true) ∧ ((s.lane a).testBad = false) ∧ ((s.lane a).testCorr ≤ s.get (.act a) F.YL_LOSS_TEST_CORR) := by decide

/-- Hypotheses of `ylStepTimeout` in `LaneTraining`. -/
theorem witness_ylStepTimeout :
  let s : State := (State.reset |>.put (.act 3) F.YL_STAT_STATE 5)
  let a : Fin 96 := 3
  (2 ≤ s.yl a) ∧ (s.yl a ≤ 7) ∧ (s.get (.act a) F.YL_STAT_TRIES < 3 ∨ (s.lane a.val).fastWake = true) := by decide

/-- Hypotheses of `ylStepFails` in `LaneTraining`. -/
theorem witness_ylStepFails :
  let s : State := (State.reset |>.put (.act 3) F.YL_STAT_STATE 5 |>.put (.act 3) F.YL_STAT_TRIES 3)
  let a : Fin 96 := 3
  (2 ≤ s.yl a) ∧ (s.yl a ≤ 7) ∧ (s.get (.act a) F.YL_STAT_TRIES = 3) ∧ ((s.lane a).fastWake = false) := by decide

/-- Hypotheses of `laneDown` in `LaneTraining`. -/
theorem witness_laneDown :
  let s : State := (((State.reset |>.put (.act 3) F.YL_STAT_STATE 8)).setLane 3 { badRun := 100 })
  let a : Fin 96 := 3
  (s.yl a = 2 ∨ s.yl a = 3 ∨ (s.framing a = true ∧ s.lossFrames a ≤ (s.lane a).badRun)) := by decide

set_option maxRecDepth 100000 in
/-- Hypotheses of `uplinkBad` in `LaneFrames`. -/
theorem witness_uplinkBad :
  let s : State := (State.reset |>.put (.act 3) F.YL_STAT_STATE 4)
  let a : Fin 96 := 3
  let f : UplinkFrame := ⟨(2 ^ 2240 - 1) / 7⟩
  (s.framing a = true) ∧ ((receiveFrame (s.lane a).descrambler f).2.2 = none) := by decide +kernel

set_option maxRecDepth 100000 in
/-- Hypotheses of `uplinkGood` in `LaneFrames`. -/
theorem witness_uplinkGood :
  let s : State := (((State.reset |>.put (.act 3) F.YL_STAT_STATE 4)).setLane 3 { descrambler := 2 ^ 31 - 1 })
  let a : Fin 96 := 3
  let f : UplinkFrame := ⟨pam4 (scramble31 2240 (rsFrame (5 * 2 ^ 16 + frameCrc (5 * 2 ^ 16) * 2 ^ 1976)) (2 ^ 31 - 1)).1⟩
  let corr : Nat := 0
  let d : Nat := 5 * 2 ^ 16 + frameCrc (5 * 2 ^ 16) * 2 ^ 1976
  (s.framing a = true) ∧ ((receiveFrame (s.lane a).descrambler f).2.2 = some (corr, d)) ∧ (frameCrc (d % 2 ^ 1976) = bitsOf d 1976 24) ∧ (bitsOf d 1880 8 = 0) ∧ (bitsOf d 1888 8 = 0) ∧ ((s.lane a).out = []) ∧ (s.upT7 a = false) := by decide +kernel

/-- Hypotheses of `downlinkFrame` in `LaneFrames`. -/
theorem witness_downlinkFrame :
  let s : State := (State.reset |>.put (.act 3) F.YL_STAT_STATE 8)
  let a : Fin 96 := 3
  (s.framing a = true) := by decide

/-- Hypotheses of `heartbeatIdleFrame` in `LaneFrames`. -/
theorem witness_heartbeatIdleFrame :
  let s : State := (State.reset |>.put (.act 3) F.YL_STAT_STATE 8 |>.put (.act 3) F.YL_CTRL_EN 1 |>.put (.act 3) F.SV_STAT_STATE 4)
  let a : Fin 96 := 3
  (s.hbRuns a = true) ∧ ((s.lane a).actCmd = none) := by decide

/-- Hypotheses of `sbAckFirmware` in `LaneFrames`. -/
theorem witness_sbAckFirmware :
  let s : State := (((State.reset |>.put (.act 3) F.YL_STAT_STATE 8)).setLane 3 { out := [⟨7, 0x20, 1, .firmware, 1⟩] })
  let a : Fin 96 := 3
  let m : SbTx := ⟨7, 0x20, 1, .firmware, 1⟩
  let stat : Fin 256 := 1
  (s.framing a = true) ∧ (m.src = .firmware) ∧ ((s.lane a).out = [m]) ∧ ((s.lane a).waiting = []) := by decide

/-- Hypotheses of `sbAckStray` in `LaneFrames`. -/
theorem witness_sbAckStray :
  let s : State := (((State.reset |>.put (.act 3) F.YL_STAT_STATE 8)).setLane 3 { out := [⟨7, 0x20, 1, .firmware, 1⟩] })
  let a : Fin 96 := 3
  let tag : Nat := 9
  let stat : Nat := 1
  (((s.lane a).out.find? fun m => m.tag == tag) = none) := by decide

/-- Hypotheses of `sbResend` in `LaneFrames`. -/
theorem witness_sbResend :
  let s : State := (((State.reset |>.put (.act 3) F.YL_STAT_STATE 8)).setLane 3 { out := [⟨7, 0x20, 1, .firmware, 1⟩] })
  let a : Fin 96 := 3
  let m : SbTx := ⟨7, 0x20, 1, .firmware, 1⟩
  (s.framing a = true) ∧ ((s.lane a).out = [m]) ∧ (m.sends < sbLimit m.op) := by decide

/-- Hypotheses of `sbResendLost` in `LaneFrames`. -/
theorem witness_sbResendLost :
  let s : State := (((State.reset |>.put (.act 3) F.YL_STAT_STATE 8)).setLane 3 { out := [⟨7, 0x20, 1, .firmware, 8⟩] })
  let a : Fin 96 := 3
  let m : SbTx := ⟨7, 0x20, 1, .firmware, 8⟩
  (s.framing a = true) ∧ (m.src = .firmware) ∧ ((s.lane a).out = [m]) ∧ ((s.lane a).waiting = []) ∧ (sbLimit m.op ≤ m.sends) := by decide

/-- Hypotheses of `go` in `LaneFrames`. -/
theorem witness_go :
  let s : State := (State.reset |>.put (.act 3) F.YL_STAT_STATE 8 |>.put (.act 3) F.YL_SB_TXC_TX_OP 18)
  let a : Fin 96 := 3
  let g := 1
  (s.on (.act a) F.YL_SB_TXC_GO = false) ∧ (goAllowed (s.get (.act a) F.YL_SB_TXC_TX_OP) = true) ∧ (s.upT7 a = true) ∧ ((s.lane a).out.length < 4) ∧ ((freeTag (s.lane a)) = some g) := by decide

/-- Hypotheses of `goRefused` in `LaneFrames`. -/
theorem witness_goRefused :
  let s : State := (State.reset |>.put (.act 3) F.YL_STAT_STATE 8 |>.put (.act 3) F.YL_SB_TXC_TX_OP 3)
  let a : Fin 96 := 3
  (s.on (.act a) F.YL_SB_TXC_GO = false) ∧ (goAllowed (s.get (.act a) F.YL_SB_TXC_TX_OP) = false ∨ s.upT7 a = false) := by decide

/-- Hypotheses of `cap` in `BridgeMessages`. -/
theorem witness_cap :
  let s : State := (State.reset |>.put (.act 3) F.YL_STAT_STATE 8 |>.put (.act 3) F.YL_STAT_VER 4)
  let a : Fin 96 := 3
  let m : SbIn := ⟨9, 0x1234⟩
  (s.framing a = true) ∧ (sbRepeat (s.lane a) m.tag = none) ∧ (m.tag ≠ 0) ∧ (s.yl a ≠ 5) := by decide

/-- Hypotheses of `id` in `BridgeMessages`. -/
theorem witness_id :
  let s : State := (State.reset |>.put (.act 3) F.YL_STAT_STATE 8 |>.put (.act 3) F.YL_STAT_VER 4)
  let a : Fin 96 := 3
  let m : SbIn := ⟨9, 0x1234⟩
  (s.framing a = true) ∧ (sbRepeat (s.lane a) m.tag = none) ∧ (s.yl a ≠ 5) ∧ (m.tag ≠ 0) := by decide

/-- Hypotheses of `echo` in `BridgeMessages`. -/
theorem witness_echo :
  let s : State := (State.reset |>.put (.act 3) F.YL_STAT_STATE 8 |>.put (.act 3) F.YL_STAT_VER 4)
  let a : Fin 96 := 3
  let m : SbIn := ⟨9, 0x1234⟩
  (s.framing a = true) ∧ (sbRepeat (s.lane a) m.tag = none) ∧ (s.yl a ≠ 6) := by decide

/-- Hypotheses of `echoT5` in `BridgeMessages`. -/
theorem witness_echoT5 :
  let s : State := (State.reset |>.put (.act 3) F.YL_STAT_STATE 6)
  let a : Fin 96 := 3
  let m : SbIn := ⟨9, 0x1234⟩
  (s.framing a = true) ∧ (sbRepeat (s.lane a) m.tag = none) ∧ (s.yl a = 6) := by decide

/-- Hypotheses of `spinStat` in `BridgeMessages`. -/
theorem witness_spinStat :
  let s : State := (State.reset |>.put (.act 3) F.YL_STAT_STATE 8 |>.put (.act 3) F.YL_STAT_VER 4)
  let a : Fin 96 := 3
  let m : SbIn := ⟨9, 0x1234⟩
  (s.framing a = true) ∧ (sbRepeat (s.lane a) m.tag = none) ∧ (m.tag ≠ 0) ∧ ((s.swpAct (evenOf (dieOf a).val (asmOf a)).val).state = 0) ∧ ((s.swpAct (oddOf (dieOf a).val (asmOf a)).val).state = 0) := by decide

/-- Hypotheses of `parkStat` in `BridgeMessages`. -/
theorem witness_parkStat :
  let s : State := (State.reset |>.put (.act 3) F.YL_STAT_STATE 8 |>.put (.act 3) F.SV_STAT_STATE 7)
  let a : Fin 96 := 3
  let m : SbIn := ⟨9, 3⟩
  (s.framing a = true) ∧ (sbRepeat (s.lane a) m.tag = none) ∧ (m.tag ≠ 0) ∧ (bitsOf m.payload 0 1 = 1) ∧ (s.svState a = 7) ∧ ((s.swpAct a.val).state = 0) := by decide

/-- Hypotheses of `parkStatOut` in `BridgeMessages`. -/
theorem witness_parkStatOut :
  let s : State := (State.reset |>.put (.act 3) F.YL_STAT_STATE 8 |>.put (.act 3) F.SV_STAT_STATE 2)
  let a : Fin 96 := 3
  let m : SbIn := ⟨9, 2⟩
  (s.framing a = true) ∧ (sbRepeat (s.lane a) m.tag = none) ∧ (m.tag ≠ 0) ∧ (bitsOf m.payload 0 1 = 0) ∧ (s.svState a = 2) ∧ ((s.swpAct a.val).state = 0) := by decide

/-- Hypotheses of `preampVal` in `BridgeMessages`. -/
theorem witness_preampVal :
  let s : State := (State.reset |>.put (.act 3) F.YL_STAT_STATE 8 |>.put (.act 3) F.YL_STAT_VER 4)
  let a : Fin 96 := 3
  let m : SbIn := ⟨9, 0x1234⟩
  (s.framing a = true) ∧ (sbRepeat (s.lane a) m.tag = none) ∧ (s.on (.act a) F.YL_SB_RXC_FULL = false) ∧ (m.tag ≠ 0) := by decide

/-- Hypotheses of `env` in `BridgeMessages`. -/
theorem witness_env :
  let s : State := (State.reset |>.put (.act 3) F.YL_STAT_STATE 8 |>.put (.act 3) F.YL_STAT_VER 4)
  let a : Fin 96 := 3
  let m : SbIn := ⟨9, 0x1234⟩
  (s.framing a = true) ∧ (sbRepeat (s.lane a) m.tag = none) ∧ (s.on (.act a) F.YL_SB_RXC_FULL = false) ∧ (m.tag ≠ 0) := by decide

/-- Hypotheses of `fault` in `BridgeMessages`. -/
theorem witness_fault :
  let s : State := (State.reset |>.put (.act 3) F.YL_STAT_STATE 8 |>.put (.act 3) F.YL_STAT_VER 4)
  let a : Fin 96 := 3
  let m : SbIn := ⟨9, 0x1234⟩
  (s.framing a = true) ∧ (sbRepeat (s.lane a) m.tag = none) ∧ (s.on (.act a) F.YL_SB_RXC_FULL = false) ∧ (m.tag ≠ 0) := by decide

/-- Hypotheses of `health` in `BridgeMessages`. -/
theorem witness_health :
  let s : State := (State.reset |>.put (.act 3) F.YL_STAT_STATE 8 |>.put (.act 3) F.YL_STAT_VER 4)
  let a : Fin 96 := 3
  let m : SbIn := ⟨9, 0x1234⟩
  (s.framing a = true) ∧ (sbRepeat (s.lane a) m.tag = none) ∧ (s.on (.act a) F.YL_SB_RXC_FULL = false) ∧ (m.tag ≠ 0) ∧ (4 ≤ s.get (.act a) F.YL_STAT_VER) := by decide

/-- Hypotheses of `bridgeMakerMessage` in `BridgeMessages`. -/
theorem witness_bridgeMakerMessage :
  let s : State := (State.reset |>.put (.act 3) F.YL_STAT_STATE 8 |>.put (.act 3) F.YL_STAT_VER 4)
  let a : Fin 96 := 3
  let op : Fin 128 := 5
  let m : SbIn := ⟨9, 0x1234⟩
  (s.framing a = true) ∧ (sbRepeat (s.lane a) m.tag = none) ∧ (s.on (.act a) F.YL_SB_RXC_FULL = false) ∧ (m.tag ≠ 0) := by decide

/-- Hypotheses of `sbFull` in `BridgeMessages`. -/
theorem witness_sbFull :
  let s : State := (State.reset |>.put (.act 3) F.YL_STAT_STATE 8 |>.put (.act 3) F.YL_SB_RXC_FULL 1)
  let a : Fin 96 := 3
  let m : SbIn := ⟨9, 0x1234⟩
  (s.on (.act a) F.YL_SB_RXC_FULL = true) ∧ (sbRepeat (s.lane a) m.tag = none) := by decide

/-- Hypotheses of `writeAbort` in `BridgeMessages`. -/
theorem witness_writeAbort :
  let s : State := (((State.reset |>.put (.act 3) F.YL_STAT_STATE 8 |>.put (.act 3) F.YL_STAT_VER 4)).setLane 3 { sentWg := [(0x34, false), (0x35, false)] })
  let a : Fin 96 := 3
  let m : SbIn := ⟨9, 0x1234⟩
  (s.framing a = true) ∧ (sbRepeat (s.lane a) m.tag = none) ∧ (wgZero (s.lane a) (m.payload % 256) = true) ∧ (wgZero (s.lane a) (m.payload % 256 + 1) = true) := by decide

/-- Hypotheses of `writeAbortKept` in `BridgeMessages`. -/
theorem witness_writeAbortKept :
  let s : State := (State.reset |>.put (.act 3) F.YL_STAT_STATE 8 |>.put (.act 3) F.YL_STAT_VER 4)
  let a : Fin 96 := 3
  let m : SbIn := ⟨9, 0x1234⟩
  (s.framing a = true) ∧ (sbRepeat (s.lane a) m.tag = none) ∧ (wgZero (s.lane a) (m.payload % 256) = false ∨ wgZero (s.lane a) (m.payload % 256 + 1) = false) := by decide

/-- Hypotheses of `shock` in `BridgeMessages`. -/
theorem witness_shock :
  let s : State := (State.reset |>.put (.act 3) F.YL_STAT_STATE 8 |>.put (.act 3) F.YL_STAT_VER 4)
  let a : Fin 96 := 3
  let m : SbIn := ⟨9, 0x1234⟩
  (s.framing a = true) ∧ (sbRepeat (s.lane a) m.tag = none) ∧ (3 ≤ s.get (.act a) F.YL_STAT_VER) ∧ (m.tag ≠ 0) := by decide

/-- Hypotheses of `chEnable` in `ReadCommands`. -/
theorem witness_chEnable :
  let s : State := (State.reset |>.put (.act 3) F.CH_RQ_CFG_LOG2N 4 |>.put (.act 3) F.CH_CQ_CFG_LOG2N 4 |>.put (.act 3) F.CH_SOFT_CFG_LOG2N 1)
  let a : Fin 96 := 3
  (s.swept a = false) ∧ (s.chRingsOk a = true) := by decide

/-- Hypotheses of `chEnableBad` in `ReadCommands`. -/
theorem witness_chEnableBad :
  let s : State := (State.reset |>.put (.act 3) F.CH_RQ_CFG_LOG2N 1)
  let a : Fin 96 := 3
  (s.swept a = false) ∧ (s.chRingsOk a = false) := by decide

/-- Hypotheses of `chDisable` in `ReadCommands`. -/
theorem witness_chDisable :
  let s : State := (State.reset |>.put (.act 3) F.CH_CTRL_EN 1)
  let a : Fin 96 := 3
  (s.swept a = false) ∧ ((s.chan a.val).ents = []) := by decide

/-- Hypotheses of `readEntryFetch` in `ReadCommands`. -/
theorem witness_readEntryFetch :
  let s : State := (((State.reset |>.put (.act 3) F.CH_CTRL_EN 1 |>.put (.act 3) F.CH_RQ_TAIL 1 |>.put (.act 3) F.CH_RQ_CFG_LOG2N 4 |>.put (.act 3) F.CH_CQ_CFG_LOG2N 4 |>.put (.act 3) F.CH_RQ_CFG_BASE 0xE000000 |>.put (.act 3) F.CH_CQ_CFG_BASE 0xE000001)).setChan 3 { fetchRun := true })
  let a : Fin 96 := 3
  let r : State × MemAns := s.clean.masterRead (dieOf a).val (.act a) (ringAt (s.get (.act a) F.CH_RQ_CFG_BASE) (s.get (.act a) F.CH_RQ_CFG_LOG2N) 32 (s.get (.act a) F.CH_RQ_HEAD)) 32
  let bs := (r.2.data?.getD [])
  (s.on (.act a) F.CH_CTRL_EN = true) ∧ ((s.chan a.val).fetchRun = true) ∧ (s.get (.act a) F.CH_RQ_HEAD ≠ s.get (.act a) F.CH_RQ_TAIL) ∧ ((s.chan a.val).ents.length < 4) ∧ (s.chRoom a (s.chan a.val).ents.length = true) ∧ (r.2.data? = some bs) ∧ ((readEntryOf bs).op < 4) ∧ ((s.chan a.val).cancels = []) := by decide

/-- Hypotheses of `read` in `ReadCommands`. -/
theorem witness_read :
  let s : State := (((State.reset |>.put (.act 3) F.YL_STAT_STATE 8 |>.put (.act 3) F.CH_CTRL_EN 1 |>.put (.act 3) F.CH_CQ_CFG_LOG2N 4 |>.put (.act 3) F.ZSET_RATE 2000)).setChan 3 { ents := [{ idx := 0, e := { readEntryOf (wordsBytes [0, 0, 0, 0]) with op := 0, raw := true } }], fetchRun := true })
  let a : Fin 96 := 3
  let x : ChEntry := { idx := 0, e := { readEntryOf (wordsBytes [0, 0, 0, 0]) with op := 0, raw := true } }
  (s.nextRead? a 0 = some x) ∧ (x.cancelled = false) ∧ (s.readBad a x.e = false) ∧ (s.upT7 a = true) ∧ (x.e.raw = true ∨ s.keyOk x.e.kslot = true) := by decide

/-- Hypotheses of `readSoft` in `ReadCommands`. -/
theorem witness_readSoft :
  let s : State := (((State.reset |>.put (.act 3) F.YL_STAT_STATE 8 |>.put (.act 3) F.CH_CTRL_EN 1 |>.put (.act 3) F.CH_CQ_CFG_LOG2N 4 |>.put (.act 3) F.ZSET_RATE 2000)).setChan 3 { ents := [{ idx := 0, e := { readEntryOf (wordsBytes [0, 0, 0, 0]) with op := 1, raw := true } }], fetchRun := true })
  let a : Fin 96 := 3
  let x : ChEntry := { idx := 0, e := { readEntryOf (wordsBytes [0, 0, 0, 0]) with op := 1, raw := true } }
  (s.nextRead? a 1 = some x) ∧ (x.cancelled = false) ∧ (s.readBad a x.e = false) ∧ (s.upT7 a = true) ∧ (x.e.raw = true ∨ s.keyOk x.e.kslot = true) := by decide

/-- Hypotheses of `scan` in `ReadCommands`. -/
theorem witness_scan :
  let s : State := (((State.reset |>.put (.act 3) F.YL_STAT_STATE 8 |>.put (.act 3) F.CH_CTRL_EN 1 |>.put (.act 3) F.CH_CQ_CFG_LOG2N 4 |>.put (.act 3) F.ZSET_RATE 2000)).setChan 3 { ents := [{ idx := 0, e := { readEntryOf (wordsBytes [0, 0, 0, 0]) with op := 3, raw := true } }], fetchRun := true })
  let a : Fin 96 := 3
  let x : ChEntry := { idx := 0, e := { readEntryOf (wordsBytes [0, 0, 0, 0]) with op := 3, raw := true } }
  (s.nextRead? a 3 = some x) ∧ (x.cancelled = false) ∧ (s.readBad a x.e = false) ∧ (s.upT7 a = true) := by decide

set_option maxRecDepth 100000 in
/-- Hypotheses of `decodeMem` in `ReadCommands`. -/
theorem witness_decodeMem :
  let s : State := ((((State.reset |>.put (.act 3) F.CH_CTRL_EN 1 |>.put (.act 3) F.CH_CQ_CFG_LOG2N 4 |>.put (.act 3) F.YL_STAT_STATE 8)).setChan 3 { ents := [{ idx := 0, e := { readEntryOf [] with op := 2, addr := 0xE000000000, daddr := 0xE000100000 } }] }).setMram 3 5)
  let a : Fin 96 := 3
  let x : ChEntry := { idx := 0, e := { readEntryOf [] with op := 2, addr := 0xE000000000, daddr := 0xE000100000 } }
  let r : State × MemAns := s.clean.masterRead (dieOf a).val (.act a) x.e.addr 197184
  let m : MemRec := memRecOf (r.2.data?.getD [])
  (s.nextRead? a 2 = some x) ∧ (x.cancelled = false) ∧ (s.readBad a x.e = false) ∧ (s.upT7 a = true) ∧ (r.2.data?.isSome = true) ∧ (memBlocks m.mask ≠ []) ∧ (deepRoom (s.die (dieOf a).val) (memBlocks m.mask).length = true) := by decide +kernel

set_option maxRecDepth 100000 in
/-- Hypotheses of `decodeMemPoison` in `ReadCommands`. -/
theorem witness_decodeMemPoison :
  let s : State := { (((State.reset |>.put (.act 3) F.CH_CTRL_EN 1 |>.put (.act 3) F.CH_CQ_CFG_LOG2N 4 |>.put (.act 3) F.YL_STAT_STATE 8)).setChan 3 { ents := [{ idx := 0, e := { readEntryOf [] with op := 2, addr := 0xE000000000, daddr := 0xE000100000 } }] }) with poison := [(0xE000000000 / 64, 1)] }
  let a : Fin 96 := 3
  let x : ChEntry := { idx := 0, e := { readEntryOf [] with op := 2, addr := 0xE000000000, daddr := 0xE000100000 } }
  let r : State × MemAns := s.clean.masterRead (dieOf a).val (.act a) x.e.addr 197184
  (s.nextRead? a 2 = some x) ∧ (x.cancelled = false) ∧ (s.readBad a x.e = false) ∧ (s.upT7 a = true) ∧ (r.2 = .poison) := by decide +kernel

/-- Hypotheses of `readCancelled` in `ReadCommands`. -/
theorem witness_readCancelled :
  let s : State := (((State.reset |>.put (.act 3) F.CH_CTRL_EN 1 |>.put (.act 3) F.CH_CQ_CFG_LOG2N 4 |>.put (.act 3) F.YL_STAT_STATE 8)).setChan 3 { ents := [{ idx := 0, e := { readEntryOf [] with op := 2, addr := 0xE000000000, daddr := 0xE000100000 }, cancelled := true }] })
  let a : Fin 96 := 3
  let x : ChEntry := { idx := 0, e := { readEntryOf [] with op := 2, addr := 0xE000000000, daddr := 0xE000100000 }, cancelled := true }
  (s.nextRead? a 2 = some x) ∧ (x.cancelled = true) := by decide

/-- Hypotheses of `chCancel` in `ReadCommands`. -/
theorem witness_chCancel :
  let s : State := (State.reset |>.put (.act 3) F.CH_RQ_TAIL 5)
  let a : Fin 96 := 3
  let tag : Fin 65536 := 7
  ((s.chan a.val).cancels.length < 4) ∧ (s.get (.act a) F.CH_RQ_TAIL ≠ s.get (.act a) F.CH_RQ_HEAD) := by decide

/-- Hypotheses of `readPassStart` in `ReadPasses`. -/
theorem witness_readPassStart :
  let s : State := (((State.reset |>.put (.act 3) F.ZSET_RATE 2000 |>.put (.act 3) F.SV_STAT_WEDGE 5)).setChan 3 { ents := [{ idx := 0, e := { readEntryOf [] with wedge := 5 }, phase := .window }] })
  let a : Fin 96 := 3
  let x : ChEntry := { idx := 0, e := { readEntryOf [] with wedge := 5 }, phase := .window }
  ((s.chan a.val).ents.find? (fun y => y.idx == x.idx && y.phase == .window) = some x) ∧ (s.get (.act a) F.SV_STAT_WEDGE = x.e.wedge) ∧ (s.slHolds a = false) ∧ ((s.chan a.val).medium = none) ∧ (x.reread = true ∨ ((s.chan a.val).ents.any fun y => y.reread && y.phase == .window) = false) ∧ (1000 ≤ s.get (.act a) F.ZSET_RATE x.e.zset) ∧ (s.get (.act a) F.ZSET_RATE x.e.zset ≤ 3000) := by decide

/-- Hypotheses of `rereadFirst` in `ReadPasses`. -/
theorem witness_rereadFirst :
  let s : State := (((State.reset |>.put (.act 3) F.ZSET_RATE 2000 |>.put (.act 3) F.SV_STAT_WEDGE 5)).setChan 3 { ents := [{ idx := 0, e := { readEntryOf [] with wedge := 5 }, phase := .window }, { idx := 1, e := { readEntryOf [] with wedge := 5 }, phase := .window, reread := true }] })
  let a : Fin 96 := 3
  let x : ChEntry := { idx := 0, e := { readEntryOf [] with wedge := 5 }, phase := .window }
  ((s.chan a.val).ents.find? (fun y => y.idx == x.idx && y.phase == .window) = some x) ∧ (s.get (.act a) F.SV_STAT_WEDGE = x.e.wedge) ∧ (s.slHolds a = false) ∧ (x.reread = false) ∧ (((s.chan a.val).ents.any fun y => y.reread && y.phase == .window) = true) := by decide

/-- Hypotheses of `readPassWaits` in `ReadPasses`. -/
theorem witness_readPassWaits :
  let s : State := ((((State.reset |>.put (.act 3) F.ZSET_RATE 2000 |>.put (.act 3) F.SV_STAT_WEDGE 5)).setChan 3 { ents := [{ idx := 0, e := { readEntryOf [] with wedge := 5 }, phase := .window }] }).setSluice 3 { ents := [{ idx := 0, order := 0, e := writeEntryOf [], rate := 2000, slot := 433, ph := .verifying }] })
  let a : Fin 96 := 3
  let x : ChEntry := { idx := 0, e := { readEntryOf [] with wedge := 5 }, phase := .window }
  ((s.chan a.val).ents.find? (fun y => y.idx == x.idx && y.phase == .window) = some x) ∧ (s.get (.act a) F.SV_STAT_WEDGE = x.e.wedge) ∧ (s.slHolds a = true) := by decide

/-- Hypotheses of `syncWindowExpiry` in `ReadPasses`. -/
theorem witness_syncWindowExpiry :
  let s : State := (((State.reset |>.put (.act 3) F.CH_CTRL_LADDER 3 |>.put (.act 3) F.CH_CQ_CFG_LOG2N 4 |>.put (.act 3) F.CH_CQ_CFG_BASE 0xE000000 |>.put (.act 3) F.SV_STAT_STATE 4)).setChan 3 { ents := [{ idx := 0, e := { readEntryOf [] with wedge := 5, raw := true, addr := 0xE000100000 }, phase := .pass }], medium := some 0 })
  let a : Fin 96 := 3
  let x : ChEntry := { idx := 0, e := { readEntryOf [] with wedge := 5, raw := true, addr := 0xE000100000 }, phase := .pass }
  (s.passEntry? a = some x) ∧ (x.e.op ≠ 1) ∧ (x.rereads < s.get (.act a) F.CH_CTRL_LADDER) := by decide

/-- Hypotheses of `readPassNoSync` in `ReadPasses`. -/
theorem witness_readPassNoSync :
  let s : State := (((State.reset |>.put (.act 3) F.CH_CTRL_LADDER 3 |>.put (.act 3) F.CH_CQ_CFG_LOG2N 4 |>.put (.act 3) F.CH_CQ_CFG_BASE 0xE000000 |>.put (.act 3) F.SV_STAT_STATE 4)).setChan 3 { ents := [{ idx := 0, e := { readEntryOf [] with wedge := 5, raw := true, addr := 0xE000100000 }, phase := .pass }], medium := some 0 })
  let a : Fin 96 := 3
  let x : ChEntry := { idx := 0, e := { readEntryOf [] with wedge := 5, raw := true, addr := 0xE000100000 }, phase := .pass }
  let obs : PassObs := ⟨none, 0, [], [], []⟩
  (s.passEntry? a = some x) ∧ (s.syncFound a x obs = false) ∧ (x.e.op ≠ 1) ∧ (x.rereads < s.get (.act a) F.CH_CTRL_LADDER) := by decide

/-- Hypotheses of `syncExhausted` in `ReadPasses`. -/
theorem witness_syncExhausted :
  let s : State := (((State.reset |>.put (.act 3) F.CH_CTRL_LADDER 3 |>.put (.act 3) F.CH_CQ_CFG_LOG2N 4 |>.put (.act 3) F.CH_CQ_CFG_BASE 0xE000000 |>.put (.act 3) F.SV_STAT_STATE 4)).setChan 3 { ents := [{ idx := 0, e := { readEntryOf [] with wedge := 5, raw := true, addr := 0xE000100000 }, phase := .pass, rereads := 3, headSeen := true }], medium := some 0 })
  let a : Fin 96 := 3
  let x : ChEntry := { idx := 0, e := { readEntryOf [] with wedge := 5, raw := true, addr := 0xE000100000 }, phase := .pass, rereads := 3, headSeen := true }
  (s.passEntry? a = some x) ∧ (x.e.op = 1 ∨ s.get (.act a) F.CH_CTRL_LADDER ≤ x.rereads) ∧ (x.headSeen = true ∨ (s.chan a.val).headSeen = true) ∧ (x.offAll = false ∨ (s.chan a.val).off = false) ∧ (x.syncSeen = false) ∧ (s.plainMram (dieOf a).val (ringAt (s.get (.act a) F.CH_CQ_CFG_BASE) (s.get (.act a) F.CH_CQ_CFG_LOG2N) 16 (s.get (.act a) F.CH_CQ_TAIL)) 16 = true) := by decide

/-- Hypotheses of `readPassEnd` in `ReadPasses`. -/
theorem witness_readPassEnd :
  let s : State := (((State.reset |>.put (.act 3) F.CH_CTRL_LADDER 3 |>.put (.act 3) F.CH_CQ_CFG_LOG2N 4 |>.put (.act 3) F.CH_CQ_CFG_BASE 0xE000000 |>.put (.act 3) F.SV_STAT_STATE 4 |>.put (.act 3) F.CH_CTRL_DEEP 0)).setChan 3 { ents := [{ idx := 0, e := { readEntryOf [] with wedge := 5, raw := true, addr := 0xE000100000 }, phase := .pass }], medium := some 0, headSeen := true })
  let a : Fin 96 := 3
  let x : ChEntry := { idx := 0, e := { readEntryOf [] with wedge := 5, raw := true, addr := 0xE000100000 }, phase := .pass }
  let obs : PassObs := ⟨some (0, 0), 7, [], [], []⟩
  let y : ChEntry := (wanted x).foldl (fun z j => takeCw z (unread (s.get (.act a) F.SV_FIELD_GATE_LEN) (s.sluice a.val).guard (s.chan a.val) x obs ++ (if (s.chan a.val).lostAt.isEmpty then [] else obs.erased)) j (obs.cws.getD j ⟨false, 0, [], []⟩)) (passCounted x true false (s.chan a.val).headSeen obs.mse)
  (s.passEntry? a = some x) ∧ (s.syncFound a x obs = true) ∧ ((s.chan a.val).off = false) ∧ (((wanted x).any fun j => cwDecodes (localSyn x.dec (obs.cws.getD j ⟨false, 0, [], []⟩).synZero (obs.cws.getD j ⟨false, 0, [], []⟩).iters) (obs.cws.getD j ⟨false, 0, [], []⟩).data) = false) ∧ (failing x ≠ []) ∧ (x.e.op ≠ 1) ∧ (s.on (.act a) F.CH_CTRL_DEEP = false) ∧ (x.rereads < s.get (.act a) F.CH_CTRL_LADDER) := by decide

/-- Hypotheses of `readPassDeep` in `ReadPasses`. -/
theorem witness_readPassDeep :
  let s : State := (((State.reset |>.put (.act 3) F.CH_CTRL_LADDER 3 |>.put (.act 3) F.CH_CQ_CFG_LOG2N 4 |>.put (.act 3) F.CH_CQ_CFG_BASE 0xE000000 |>.put (.act 3) F.SV_STAT_STATE 4 |>.put (.act 3) F.CH_CTRL_DEEP 1)).setChan 3 { ents := [{ idx := 0, e := { readEntryOf [] with wedge := 5, raw := true, addr := 0xE000100000 }, phase := .pass }], medium := some 0, headSeen := true })
  let a : Fin 96 := 3
  let x : ChEntry := { idx := 0, e := { readEntryOf [] with wedge := 5, raw := true, addr := 0xE000100000 }, phase := .pass }
  let obs : PassObs := ⟨some (0, 0), 7, [], [], []⟩
  let y : ChEntry := (wanted x).foldl (fun z j => takeCw z (unread (s.get (.act a) F.SV_FIELD_GATE_LEN) (s.sluice a.val).guard (s.chan a.val) x obs ++ (if (s.chan a.val).lostAt.isEmpty then [] else obs.erased)) j (obs.cws.getD j ⟨false, 0, [], []⟩)) (passCounted x true false (s.chan a.val).headSeen obs.mse)
  (s.passEntry? a = some x) ∧ (s.syncFound a x obs = true) ∧ ((s.chan a.val).off = false) ∧ (x.e.op ≠ 1) ∧ (s.on (.act a) F.CH_CTRL_DEEP = true) ∧ (failing y ≠ []) ∧ (deepRoom (s.die (dieOf a).val) (failing y).length = true) := by decide

set_option maxRecDepth 100000 in
/-- Hypotheses of `readPassGood` in `ReadPasses`. -/
theorem witness_readPassGood :
  let s : State := (((State.reset |>.put (.act 3) F.CH_CTRL_LADDER 3 |>.put (.act 3) F.CH_CQ_CFG_LOG2N 4 |>.put (.act 3) F.CH_CQ_CFG_BASE 0xE000000 |>.put (.act 3) F.SV_STAT_STATE 4)).setChan 3 { ents := [{ idx := 0, e := { readEntryOf [] with wedge := 5, raw := true, sect := 0, addr := 0xE000100000 }, phase := .pass, done := (List.range 7).map fun i => (i + 1, List.replicate 4096 0 ++ leBytes 8 ((i + 1) * 2 ^ 48)) }], medium := some 0, headSeen := true })
  let a : Fin 96 := 3
  let x : ChEntry := { idx := 0, e := { readEntryOf [] with wedge := 5, raw := true, sect := 0, addr := 0xE000100000 }, phase := .pass, done := (List.range 7).map fun i => (i + 1, List.replicate 4096 0 ++ leBytes 8 ((i + 1) * 2 ^ 48)) }
  let obs : PassObs := ⟨some (0, 0), 7, [], [], [⟨true, 1, (List.replicate 4096 0 ++ leBytes 8 (0)) ++ leBytes 4 (crc32c (List.replicate 4104 0)), []⟩]⟩
  let y : ChEntry := (wanted x).foldl (fun z j => takeCw z (unread (s.get (.act a) F.SV_FIELD_GATE_LEN) (s.sluice a.val).guard (s.chan a.val) x obs ++ (if (s.chan a.val).lostAt.isEmpty then [] else obs.erased)) j (obs.cws.getD j ⟨false, 0, [], []⟩)) (passCounted x true false (s.chan a.val).headSeen obs.mse)
  (s.passEntry? a = some x) ∧ (s.syncFound a x obs = true) ∧ ((s.chan a.val).off = false) ∧ (x.e.op = 0) ∧ (x.e.raw = true) ∧ (failing y = []) ∧ (tagCheck y = none) ∧ (s.on (.act a) F.CH_CTRL_WBACK = false) ∧ (s.plainMram (dieOf a).val x.e.addr 32768 = true) ∧ (s.plainMram (dieOf a).val (ringAt (s.get (.act a) F.CH_CQ_CFG_BASE) (s.get (.act a) F.CH_CQ_CFG_LOG2N) 16 (s.get (.act a) F.CH_CQ_TAIL)) 16 = true) ∧ (x.e.addr + 32768 ≤ ringAt (s.get (.act a) F.CH_CQ_CFG_BASE) (s.get (.act a) F.CH_CQ_CFG_LOG2N) 16 (s.get (.act a) F.CH_CQ_TAIL) ∨ ringAt (s.get (.act a) F.CH_CQ_CFG_BASE) (s.get (.act a) F.CH_CQ_CFG_LOG2N) 16 (s.get (.act a) F.CH_CQ_TAIL) + 16 ≤ x.e.addr) ∧ (((List.range 8).all fun j => ((y.done.find? fun p => p.1 == j).map (fun p => decide (4096 ≤ p.2.length))) == some true) = true) := by decide +kernel

/-- Hypotheses of `deepDecodeDone` in `ReadPasses`. -/
theorem witness_deepDecodeDone :
  let s : State := ((((State.reset |>.put (.act 3) F.CH_CTRL_LADDER 3)).setDie 0 { deepRun := [none, some ⟨3, 0, 1⟩, none, none] }).setChan 3 { ents := [{ idx := 0, e := readEntryOf [], phase := .deep, deepLeft := [1, 4] }] })
  let m : Fin 4 := 0
  let d : Fin 4 := 1
  let j : DeepJob := ⟨3, 0, 1⟩
  let x : ChEntry := { idx := 0, e := readEntryOf [], phase := .deep, deepLeft := [1, 4] }
  let obs : DeepObs := ⟨false, 1, 5, []⟩
  ((s.die m.val).deepRun[d.val]? = some (some j)) ∧ ((s.die m.val).deepQ = []) ∧ ((s.chan (actOf j.act).val).ents.find? (fun y => y.idx == j.idx && y.phase == .deep && y.deepLeft.contains j.cw) = some x) ∧ ((deepOutcome x obs).2.1 = false) ∧ (x.deepLeft.filter (fun k => k != j.cw) ≠ []) := by decide

set_option maxRecDepth 100000 in
/-- Hypotheses of `deepDecoded` in `ReadPasses`. -/
theorem witness_deepDecoded :
  let s : State := ((((State.reset |>.put (.act 3) F.CH_CTRL_LADDER 3)).setDie 0 { deepRun := [none, some ⟨3, 0, 1⟩, none, none] }).setChan 3 { ents := [{ idx := 0, e := readEntryOf [], phase := .deep, deepLeft := [1, 4] }] })
  let m : Fin 4 := 0
  let d : Fin 4 := 1
  let j : DeepJob := ⟨3, 0, 1⟩
  let x : ChEntry := { idx := 0, e := readEntryOf [], phase := .deep, deepLeft := [1, 4] }
  let obs : DeepObs := ⟨true, 1, 5, List.replicate 4104 0 ++ leBytes 4 (crc32c (List.replicate 4104 0))⟩
  ((s.die m.val).deepRun[d.val]? = some (some j)) ∧ ((s.die m.val).deepQ = []) ∧ ((s.chan (actOf j.act).val).ents.find? (fun y => y.idx == j.idx && y.phase == .deep && y.deepLeft.contains j.cw) = some x) ∧ ((deepOutcome x obs).2.1 = true) ∧ (x.deepLeft.filter (fun k => k != j.cw) ≠ []) := by decide +kernel

/-- Hypotheses of `deepLast` in `ReadPasses`. -/
theorem witness_deepLast :
  let s : State := ((((State.reset |>.put (.act 3) F.CH_CTRL_LADDER 3)).setDie 0 { deepRun := [none, some ⟨3, 0, 1⟩, none, none] }).setChan 3 { ents := [{ idx := 0, e := readEntryOf [], phase := .deep, deepLeft := [1] }] })
  let m : Fin 4 := 0
  let d : Fin 4 := 1
  let j : DeepJob := ⟨3, 0, 1⟩
  let x : ChEntry := { idx := 0, e := readEntryOf [], phase := .deep, deepLeft := [1] }
  let obs : DeepObs := ⟨false, 1, 5, []⟩
  ((s.die m.val).deepRun[d.val]? = some (some j)) ∧ ((s.die m.val).deepQ = []) ∧ ((s.chan (actOf j.act).val).ents.find? (fun y => y.idx == j.idx && y.phase == .deep && y.deepLeft.contains j.cw) = some x) ∧ ((deepOutcome x obs).2.1 = false) ∧ (x.deepLeft.filter (fun k => k != j.cw) = []) ∧ (failing x ≠ []) ∧ (x.mem = none) ∧ (x.e.op ≠ 1) ∧ (x.rereads < s.get (.act (actOf j.act)) F.CH_CTRL_LADDER) := by decide

/-- Hypotheses of `deepNext` in `ReadPasses`. -/
theorem witness_deepNext :
  let s : State := (State.reset.setDie 0 { deepRun := [some ⟨1, 0, 0⟩, some ⟨3, 0, 1⟩, none, none], deepQ := [⟨5, 0, 2⟩, ⟨5, 0, 3⟩] })
  let m : Fin 4 := 0
  let d : Fin 4 := 1
  let j : DeepJob := ⟨3, 0, 1⟩
  let js : List DeepJob := [⟨5, 0, 3⟩]
  let k : DeepJob := ⟨5, 0, 2⟩
  let obs : DeepObs := ⟨false, 1, 5, []⟩
  ((s.die m.val).deepRun[d.val]? = some (some j)) ∧ ((s.die m.val).deepQ = k :: js) ∧ (((s.die m.val).deepRun.set d.val none).findIdx? Option.isNone = some d.val) ∧ ((s.chan (actOf j.act).val).ents.find? (fun y => y.idx == j.idx && y.phase == .deep && y.deepLeft.contains j.cw) = none) := by decide

/-- Hypotheses of `seek` in `MotionCommands`. -/
theorem witness_seek :
  let s : State := (State.reset |>.put (.act 3) F.YL_STAT_STATE 8 |>.put (.act 3) F.SV_STAT_STATE 4 |>.put (.act 3) F.SV_CTRL_EN 1 |>.put (.act 3) F.PROF_A_ACC 1 |>.put (.act 3) F.PROF_A_DEC 1 |>.put (.act 3) F.PROF_V_MAX 1 |>.put (.act 3) F.SV_FIELD_TID_BITS 20)
  let a : Fin 96 := 3
  let g : SvArgs := { prof := 0, head := 0, track := 9, offset := -4 }
  (s.swept a = false) ∧ (s.upT7 a = true) ∧ (s.flying a = true) ∧ ((s.servo a.val).motion = none) ∧ (s.profOk a g.prof = true) ∧ ((s.sluice a.val).ents.filter (fun e => e.ph == .writing) = []) ∧ (s.trackOk a g.track = true) ∧ (g.head ≤ s.get (.act a) F.YL_BRIDGE_HEADS) ∧ (g.head < 16) := by decide

/-- Hypotheses of `offset` in `MotionCommands`. -/
theorem witness_offset :
  let s : State := (State.reset |>.put (.act 3) F.YL_STAT_STATE 8 |>.put (.act 3) F.SV_STAT_STATE 4 |>.put (.act 3) F.SV_CTRL_EN 1 |>.put (.act 3) F.PROF_A_ACC 1 |>.put (.act 3) F.PROF_A_DEC 1 |>.put (.act 3) F.PROF_V_MAX 1 |>.put (.act 3) F.SV_FIELD_TID_BITS 20)
  let a : Fin 96 := 3
  let g : SvArgs := { prof := 0, head := 0, track := 9, offset := -4 }
  (s.swept a = false) ∧ (s.upT7 a = true) ∧ (s.flying a = true) ∧ ((s.servo a.val).motion = none) ∧ (s.profOk a g.prof = true) ∧ ((s.sluice a.val).ents.filter (fun e => e.ph == .writing) = []) := by decide

/-- Hypotheses of `svLoad` in `MotionCommands`. -/
theorem witness_svLoad :
  let s : State := (State.reset |>.put (.act 3) F.YL_STAT_STATE 8 |>.put (.act 3) F.SV_STAT_STATE 1 |>.put (.act 3) F.SV_STAT_LOCK 1)
  let a : Fin 96 := 3
  let g : SvArgs := { prof := 0, head := 0, track := 9, offset := -4 }
  (s.swept a = false) ∧ (s.upT7 a = true) ∧ (s.svState a = 1) ∧ ((s.servo a.val).motion = none) ∧ (g.head ≤ s.get (.act a) F.YL_BRIDGE_HEADS) ∧ (g.head < 16) ∧ (s.on (.act a) F.SV_STAT_LOCK = true) := by decide

/-- Hypotheses of `unload` in `MotionCommands`. -/
theorem witness_unload :
  let s : State := (State.reset |>.put (.act 3) F.YL_STAT_STATE 8 |>.put (.act 3) F.SV_STAT_STATE 4 |>.put (.act 3) F.SV_CTRL_EN 1 |>.put (.act 3) F.PROF_A_ACC 1 |>.put (.act 3) F.PROF_A_DEC 1 |>.put (.act 3) F.PROF_V_MAX 1 |>.put (.act 3) F.SV_FIELD_TID_BITS 20)
  let a : Fin 96 := 3
  (s.swept a = false) ∧ (s.upT7 a = true) ∧ (s.svState a = 4) ∧ ((s.servo a.val).motion = none) := by decide

/-- Hypotheses of `halt` in `MotionCommands`. -/
theorem witness_halt :
  let s : State := (State.reset |>.put (.act 3) F.YL_STAT_STATE 8 |>.put (.act 3) F.SV_STAT_STATE 4 |>.put (.act 3) F.SV_CTRL_EN 1 |>.put (.act 3) F.PROF_A_ACC 1 |>.put (.act 3) F.PROF_A_DEC 1 |>.put (.act 3) F.PROF_V_MAX 1 |>.put (.act 3) F.SV_FIELD_TID_BITS 20)
  let a : Fin 96 := 3
  (s.swept a = false) ∧ (s.upT7 a = true) ∧ (s.svState a = 4) ∧ ((s.servo a.val).motion = none) ∧ (s.on (.act a) F.SV_CTRL_EN = true) := by decide

/-- Hypotheses of `svCmdReserved` in `MotionCommands`. -/
theorem witness_svCmdReserved :
  let s : State := State.reset
  let a : Fin 96 := 3
  let op : Nat := 9
  (8 ≤ op) ∧ (op < 16) := by decide

/-- Hypotheses of `spinUp` in `SpindleCommands`. -/
theorem witness_spinUp :
  let s : State := (State.reset |>.put (.act 3) F.YL_STAT_STATE 8 |>.put (.act 3) F.SV_CTRL_EN 1)
  let a : Fin 96 := 3
  (s.swept a = false) ∧ (s.upT7 a = true) ∧ (s.on (.act a) F.SV_CTRL_EN = true) ∧ ((s.servo a.val).spin = none) ∧ (s.asmLocked a = false) ∧ ((s.die (dieOf a).val).spinQ.contains (asmOf a) = false) ∧ ((s.die (dieOf a).val).spinRun.contains (asmOf a) = false) := by decide

/-- Hypotheses of `spinDown` in `SpindleCommands`. -/
theorem witness_spinDown :
  let s : State := (State.reset |>.put (.act 3) F.YL_STAT_STATE 8 |>.put (.act 3) F.SV_CTRL_EN 1)
  let a : Fin 96 := 3
  (s.swept a = false) ∧ (s.upT7 a = true) ∧ ((s.servo a.val).spin = none) ∧ (s.headsOut a = false) ∧ (s.headsOut (twin a) = false) := by decide

/-- Hypotheses of `spinGrant` in `SpindleCommands`. -/
theorem witness_spinGrant :
  let s : State := (State.reset.setDie 0 { spinQ := [2, 5] })
  let m : Fin 4 := 0
  let k : Nat := 2
  let ks : List Nat := [5]
  ((s.die m.val).spinQ = k :: ks) ∧ ((s.die m.val).spinRun.length < s.spinMax m) := by decide

/-- Hypotheses of `spinTimeout` in `SpindleCommands`. -/
theorem witness_spinTimeout :
  let s : State := (State.reset.setDie 0 { spinRun := [2, 5] })
  let m : Fin 4 := 0
  let k : Fin 12 := 5
  ((s.die m.val).spinRun.contains k.val = true) ∧ ((s.swpAct (evenOf m.val k.val).val).state = 0) ∧ ((s.swpAct (oddOf m.val k.val).val).state = 0) := by decide

/-- Hypotheses of `svEnable` in `SpindleCommands`. -/
theorem witness_svEnable :
  let s : State := (State.reset |>.put (.act 3) F.YL_STAT_STATE 8 |>.put (.act 3) F.SV_STAT_STATE 8)
  let a : Fin 96 := 3
  (s.svState a = 8) ∧ (s.upT7 a = true) := by decide

/-- Hypotheses of `svDisable` in `SpindleCommands`. -/
theorem witness_svDisable :
  let s : State := (State.reset |>.put (.act 3) F.YL_STAT_STATE 8 |>.put (.act 3) F.SV_STAT_STATE 4 |>.put (.act 3) F.SV_CTRL_EN 1 |>.put (.act 3) F.PROF_A_ACC 1 |>.put (.act 3) F.PROF_A_DEC 1 |>.put (.act 3) F.PROF_V_MAX 1 |>.put (.act 3) F.SV_FIELD_TID_BITS 20)
  let a : Fin 96 := 3
  (s.headsOut a = true) ∧ ((s.swpAct a.val).state = 0) := by decide

/-- Hypotheses of `servoWedgeAcquire` in `ServoEvents`. -/
theorem witness_servoWedgeAcquire :
  let s : State := (State.reset |>.put (.act 3) F.YL_STAT_STATE 8 |>.put (.act 3) F.SV_STAT_STATE 3 |>.put (.act 3) F.SV_FIELD_SAM 0)
  let a : Fin 96 := 3
  let o : WedgeObs := { mark := 0, markAt := 10, wedge := 7, gray := 0, burstA := 0, burstB := 0, burstC := 0, burstD := 0, first := 0, last := 20, late := false }
  (s.upT7 a = true) ∧ (s.svState a = 3) ∧ ((s.lane a.val).gateBad = false) ∧ (s.markFound a o = true) ∧ ((s.swpAct a.val).state = 0) ∧ (inOrder (o.wedge % 1024 :: (s.servo a.val).acq.take 2) = false) := by decide

/-- Hypotheses of `servoAcquired` in `ServoEvents`. -/
theorem witness_servoAcquired :
  let s : State := (((State.reset |>.put (.act 3) F.YL_STAT_STATE 8 |>.put (.act 3) F.SV_STAT_STATE 3 |>.put (.act 3) F.SV_FIELD_SAM 0)).setServo 3 { acq := [6, 5], motion := some .load })
  let a : Fin 96 := 3
  let o : WedgeObs := { mark := 0, markAt := 10, wedge := 7, gray := 0, burstA := 0, burstB := 0, burstC := 0, burstD := 0, first := 0, last := 20, late := false }
  (s.upT7 a = true) ∧ (s.svState a = 3) ∧ ((s.lane a.val).gateBad = false) ∧ (s.markFound a o = true) ∧ ((s.swpAct a.val).state = 0) ∧ (inOrder (o.wedge % 1024 :: (s.servo a.val).acq.take 2) = true) ∧ ((s.servo a.val).motion = some .load) := by decide

/-- Hypotheses of `servoWedgeUnread` in `ServoEvents`. -/
theorem witness_servoWedgeUnread :
  let s : State := (((State.reset |>.put (.act 3) F.YL_STAT_STATE 8 |>.put (.act 3) F.SV_STAT_STATE 3)).setServo 3 { acq := [6] } |>.setLane 3 { gateBad := true })
  let a : Fin 96 := 3
  let o : WedgeObs := { mark := 0, markAt := 10, wedge := 7, gray := 0, burstA := 0, burstB := 0, burstC := 0, burstD := 0, first := 0, last := 20, late := false }
  (s.upT7 a = true) ∧ (s.svState a = 3) ∧ ((s.lane a.val).gateBad = true ∨ s.markFound a o = false) ∧ ((s.swpAct a.val).state = 0) := by decide

/-- Hypotheses of `servoWedge` in `ServoEvents`. -/
theorem witness_servoWedge :
  let s : State := (State.reset |>.put (.act 3) F.YL_STAT_STATE 8 |>.put (.act 3) F.SV_STAT_STATE 4)
  let a : Fin 96 := 3
  let o : WedgeObs := { mark := 0, markAt := 10, wedge := 7, gray := 0, burstA := 0, burstB := 0, burstC := 0, burstD := 0, first := 0, last := 20, late := false }
  (s.upT7 a = true) ∧ (s.svState a = 4) ∧ ((s.swpAct a.val).state = 0) ∧ (s.on (.act a) F.SV_LIM_SWAP = false) ∧ ((s.servo a.val).held = none) ∧ (o.late = false) ∧ ((s.sluice a.val).ents = []) ∧ ((s.die (dieOf a).val).jwait = []) ∧ (o.wedge < 540) := by decide

/-- Hypotheses of `acquireTimeout` in `ServoEvents`. -/
theorem witness_acquireTimeout :
  let s : State := (State.reset |>.put (.act 3) F.YL_STAT_STATE 8 |>.put (.act 3) F.SV_STAT_STATE 3)
  let a : Fin 96 := 3
  (s.svState a = 3) ∧ ((s.swpAct a.val).state = 0) := by decide

/-- Hypotheses of `servoLost` in `ServoEvents`. -/
theorem witness_servoLost :
  let s : State := (((State.reset |>.put (.act 3) F.YL_STAT_STATE 8 |>.put (.act 3) F.SV_STAT_STATE 4)).setServo 3 { lostRun := 5000 })
  let a : Fin 96 := 3
  (s.flying a = true) ∧ (s.lostMax a ≤ (s.servo a.val).lostRun) ∧ ((s.swpAct a.val).state = 0) := by decide

/-- Hypotheses of `settleTimeout` in `ServoEvents`. -/
theorem witness_settleTimeout :
  let s : State := (((State.reset |>.put (.act 3) F.YL_STAT_STATE 8 |>.put (.act 3) F.SV_STAT_STATE 6)).setServo 3 { settleAll := 5000, motion := some .seek })
  let a : Fin 96 := 3
  (s.svState a = 6) ∧ (s.get (.act a) F.SV_SHOCK_SETTLE_MAX ≤ (s.servo a.val).settleAll) ∧ ((s.servo a.val).motion = some .seek) ∧ ((s.swpAct a.val).state = 0) := by decide

/-- Hypotheses of `shockHoldEnd` in `ServoEvents`. -/
theorem witness_shockHoldEnd :
  let s : State := (State.reset.setServo 3 { shockOn := true })
  let a : Fin 96 := 3
  ((s.servo a.val).shockOn = true) ∧ ((s.servo a.val).shockLeft = 0) := by decide

/-- Hypotheses of `coefSwap` in `ServoEvents`. -/
theorem witness_coefSwap :
  let s : State := State.reset
  let a : Fin 96 := 3
  (s.flying a = false) := by decide

/-- Hypotheses of `coefSwapFlying` in `ServoEvents`. -/
theorem witness_coefSwapFlying :
  let s : State := (State.reset |>.put (.act 3) F.SV_STAT_STATE 4)
  let a : Fin 96 := 3
  (s.flying a = true) := by decide

/-- Hypotheses of `slEnable` in `WriteCommands`. -/
theorem witness_slEnable :
  let s : State := (State.reset |>.put (.act 3) F.SL_WQ_CFG_LOG2N 4 |>.put (.act 3) F.SL_CQ_CFG_LOG2N 4) |>.put (.med 0) F.SLD_JCFG_JLOG2 12
  let a : Fin 96 := 3
  (s.swept a = false) ∧ (s.on (.act a) F.SL_CTRL_EN = false) ∧ (s.slConfigOk a = true) := by decide +kernel

/-- Hypotheses of `slEnableBad` in `WriteCommands`. -/
theorem witness_slEnableBad :
  let s : State := (State.reset |>.put (.act 3) F.SL_WQ_CFG_LOG2N 1)
  let a : Fin 96 := 3
  (s.swept a = false) ∧ (s.on (.act a) F.SL_CTRL_EN = false) ∧ (s.slConfigOk a = false) := by decide

/-- Hypotheses of `slDisable` in `WriteCommands`. -/
theorem witness_slDisable :
  let s : State := (State.reset |>.put (.act 3) F.SL_CTRL_EN 1)
  let a : Fin 96 := 3
  (s.swept a = false) ∧ ((s.sluice a.val).ents = []) := by decide

/-- Hypotheses of `write` in `WriteCommands`. -/
theorem witness_write :
  let s : State := (State.reset |>.put (.act 3) F.SL_CTRL_EN 1 |>.put (.act 3) F.SL_WQ_TAIL 1 |>.put (.act 3) F.SL_WQ_CFG_LOG2N 4 |>.put (.act 3) F.SL_CQ_CFG_LOG2N 4 |>.put (.act 3) F.SL_WQ_CFG_BASE 0xE000000 |>.put (.act 3) F.SL_CQ_CFG_BASE 0xE000001 |>.put (.act 3) F.ZSET_RATE 2000 |>.put (.act 3) F.SV_FIELD_GATE_LEN 2000)
  let a : Fin 96 := 3
  let r : State × MemAns := s.clean.masterRead (dieOf a).val (.act a) (ringAt (s.get (.act a) F.SL_WQ_CFG_BASE) (s.get (.act a) F.SL_WQ_CFG_LOG2N) 32 (s.get (.act a) F.SL_WQ_HEAD)) 32
  let bs := (r.2.data?.getD [])
  (s.slFetches a = true) ∧ (r.2.data? = some bs) ∧ ((s.sluice a.val).cancels = []) ∧ ((s.sluice a.val).ents = []) ∧ (r.1.writeBad a (writeEntryOf bs) = false) := by decide

/-- Hypotheses of `slCancel` in `WriteCommands`. -/
theorem witness_slCancel :
  let s : State := (State.reset |>.put (.act 3) F.SL_WQ_TAIL 5)
  let a : Fin 96 := 3
  let tag : Fin 65536 := 7
  ((s.sluice a.val).cancels.length < 4) ∧ (s.get (.act a) F.SL_WQ_TAIL ≠ s.get (.act a) F.SL_WQ_HEAD) ∧ ((s.sluice a.val).ents = []) := by decide

/-- Hypotheses of `sldJheadWrite` in `WriteCommands`. -/
theorem witness_sldJheadWrite :
  let s : State := State.reset
  let m : Fin 4 := 0
  let v : Fin 4294967296 := 77
  (s.dieWrites m = false) ∧ ((s.die m.val).jwait = []) := by decide +kernel

/-- Hypotheses of `sldJtailWrite` in `WriteCommands`. -/
theorem witness_sldJtailWrite :
  let s : State := State.reset
  let m : Fin 4 := 0
  let v : Fin 4294967296 := 77
  (s.dieWrites m = false) := by decide +kernel

set_option maxRecDepth 100000 in
/-- Hypotheses of `fillStart` in `SectorLife`. -/
theorem witness_fillStart :
  let s : State := ((State.reset).setSluice 3 { ents := [{ idx := 0, order := 0, e := { writeEntryOf [] with addr := 0xE000000000 }, rate := 2000, slot := 433, ph := .waiting }], nextOrder := 1 } |>.put .key F.KEY_CTRL_EN 1 |>.put .key F.KEY_SLOT_STATE 1)
  let a : Fin 96 := 3
  let e : SlEntry := { idx := 0, order := 0, e := { writeEntryOf [] with addr := 0xE000000000 }, rate := 2000, slot := 433, ph := .waiting }
  let q : State := ((s.clean.put (.act a) F.SL_SEQ_NEXT (s.seqNext a + 1)).putEnt a { e with ph := .filling, started := true, seq := s.seqNext a }).keyTouch (dieOf a) e.e.kslot
  let r : State × MemAns := q.masterRead (dieOf a).val (.act a) e.e.addr 32768
  let d : List Byte := r.2.data?.getD []
  ((s.sluice a.val).ents = [e]) ∧ (e.ph = .waiting) ∧ (s.keyOk e.e.kslot = true) ∧ (r.2.data?.isSome = true) := by decide +kernel

/-- Hypotheses of `fillKeyRefused` in `SectorLife`. -/
theorem witness_fillKeyRefused :
  let s : State := ((State.reset).setSluice 3 { ents := [{ idx := 0, order := 0, e := writeEntryOf [], rate := 2000, slot := 433, ph := .waiting }], nextOrder := 1 })
  let a : Fin 96 := 3
  let e : SlEntry := { idx := 0, order := 0, e := writeEntryOf [], rate := 2000, slot := 433, ph := .waiting }
  ((s.sluice a.val).ents = [e]) ∧ (e.ph = .waiting) ∧ (s.keyOk e.e.kslot = false) := by decide

/-- Hypotheses of `fillDone` in `SectorLife`. -/
theorem witness_fillDone :
  let s : State := ((State.reset).setSluice 3 { ents := [{ idx := 0, order := 0, e := writeEntryOf [], rate := 2000, slot := 433, ph := .filling }], nextOrder := 1 } |>.put (.med 0) F.SLD_JCFG_JLOG2 12)
  let a : Fin 96 := 3
  let e : SlEntry := { idx := 0, order := 0, e := writeEntryOf [], rate := 2000, slot := 433, ph := .filling }
  ((s.sluice a.val).ents = [e]) ∧ (e.ph = .filling) ∧ (s.journalFull (dieOf a) = false) ∧ ((s.die (dieOf a).val).jwait = []) := by decide

/-- Hypotheses of `journalRecordAck` in `SectorLife`. -/
theorem witness_journalRecordAck :
  let s : State := ((State.reset).setSluice 3 { ents := [{ idx := 0, order := 0, e := writeEntryOf [], rate := 2000, slot := 433, ph := .intent }], nextOrder := 1 }).setDie 0 { jfly := [recordOf 3 { idx := 0, order := 0, e := writeEntryOf [], rate := 2000, slot := 433, ph := .intent } 1 0 false] }
  let m : Fin 4 := 0
  let r : JRec := recordOf 3 { idx := 0, order := 0, e := writeEntryOf [], rate := 2000, slot := 433, ph := .intent } 1 0 false
  let e : SlEntry := { idx := 0, order := 0, e := writeEntryOf [], rate := 2000, slot := 433, ph := .intent }
  ((s.die m.val).jfly = [r]) ∧ (r.type = 1) ∧ (s.ent? (actOf r.act) r.idx = some e) ∧ (e.ph = .intent) ∧ (e.order = r.idx) := by decide

/-- Hypotheses of `burstStart` in `SectorLife`. -/
theorem witness_burstStart :
  let s : State := (((State.reset |>.put (.act 3) F.SV_STAT_WRITE_OK 1)).setSluice 3 { ents := [{ idx := 0, order := 0, e := writeEntryOf [], rate := 2000, slot := 433, ph := .writing }], nextOrder := 1 })
  let a : Fin 96 := 3
  let e : SlEntry := { idx := 0, order := 0, e := writeEntryOf [], rate := 2000, slot := 433, ph := .writing }
  ((s.sluice a.val).ents = [e]) ∧ (e.ph = .writing) ∧ (e.burst = false) ∧ (e.sent ≠ sectorBits) ∧ (s.on (.act a) F.SV_STAT_WRITE_OK = true) := by decide

/-- Hypotheses of `burstNot` in `SectorLife`. -/
theorem witness_burstNot :
  let s : State := ((State.reset).setSluice 3 { ents := [{ idx := 0, order := 0, e := writeEntryOf [], rate := 2000, slot := 433, ph := .writing }], nextOrder := 1 })
  let a : Fin 96 := 3
  let e : SlEntry := { idx := 0, order := 0, e := writeEntryOf [], rate := 2000, slot := 433, ph := .writing }
  ((s.sluice a.val).ents = [e]) ∧ (e.ph = .writing) ∧ (e.burst = true ∨ e.sent = sectorBits ∨ s.on (.act a) F.SV_STAT_WRITE_OK = false) := by decide

/-- Hypotheses of `sectorWriteEnd` in `SectorLife`. -/
theorem witness_sectorWriteEnd :
  let s : State := (((State.reset |>.put (.act 3) F.SV_STAT_WRITE_OK 1)).setSluice 3 { ents := [{ idx := 0, order := 0, e := writeEntryOf [], rate := 2000, slot := 433, ph := .writing }], nextOrder := 1 })
  let a : Fin 96 := 3
  let e : SlEntry := { idx := 0, order := 0, e := writeEntryOf [], rate := 2000, slot := 433, ph := .writing }
  ((s.sluice a.val).ents = [e]) ∧ (e.ph = .writing) := by decide

/-- Hypotheses of `revolutionVerifyStart` in `SectorLife`. -/
theorem witness_revolutionVerifyStart :
  let s : State := ((State.reset).setSluice 3 { ents := [{ idx := 0, order := 0, e := writeEntryOf [], rate := 2000, slot := 433, ph := .verifying, vmode := true }], nextOrder := 1 })
  let a : Fin 96 := 3
  let e : SlEntry := { idx := 0, order := 0, e := writeEntryOf [], rate := 2000, slot := 433, ph := .verifying, vmode := true }
  ((s.sluice a.val).ents = [e]) ∧ (e.ph = .verifying) ∧ (e.vmode = true) ∧ (e.reading = false) := by decide

set_option maxRecDepth 100000 in
/-- Hypotheses of `verifyResult` in `SectorLife`. -/
theorem witness_verifyResult :
  let s : State := ((State.reset).setSluice 3 { ents := [{ idx := 0, order := 0, e := writeEntryOf [], rate := 2000, slot := 433, ph := .verifying }], nextOrder := 1 })
  let a : Fin 96 := 3
  let e : SlEntry := { idx := 0, order := 0, e := writeEntryOf [], rate := 2000, slot := 433, ph := .verifying }
  let obs : VerifyObs := ⟨some 0, [(0, 1652195766), (1, 1909987777), (2, 1161802072), (3, 1453140271), (4, 753983594), (5, 1062369309), (6, 196464772), (7, 404179187)].map fun p => ⟨true, 0, List.replicate 4096 0 ++ leBytes 8 (2 ^ 52 + p.1 * 2 ^ 48) ++ leBytes 4 p.2⟩⟩
  ((s.sluice a.val).ents = [e]) ∧ (e.ph = .verifying) ∧ (e.vmode = false ∨ (e.reading = true ∧ e.off = false ∧ verifySync e.dec obs = true)) ∧ (s.verifyBad a e.dec false (tagWritten e) obs = 0) := by decide +kernel

/-- Hypotheses of `verifyFails` in `SectorLife`. -/
theorem witness_verifyFails :
  let s : State := (((State.reset |>.put (.act 3) F.SL_CTRL_REWRITE_MAX 3)).setSluice 3 { ents := [{ idx := 0, order := 0, e := writeEntryOf [], rate := 2000, slot := 433, ph := .verifying }], nextOrder := 1 })
  let a : Fin 96 := 3
  let e : SlEntry := { idx := 0, order := 0, e := writeEntryOf [], rate := 2000, slot := 433, ph := .verifying }
  let obs : VerifyObs := ⟨none, []⟩
  ((s.sluice a.val).ents = [e]) ∧ (e.ph = .verifying) ∧ (e.vmode = false ∨ e.reading = true) ∧ (e.rewrites < s.get (.act a) F.SL_CTRL_REWRITE_MAX) ∧ (s.verifyBad a e.dec (e.vmode && (e.off || !verifySync e.dec obs)) (tagWritten e) obs ≠ 0) := by decide

/-- Hypotheses of `wrateSet` in `SectorLife`. -/
theorem witness_wrateSet :
  let s : State := (((State.reset |>.put (.act 3) F.YL_STAT_STATE 8)).setSluice 3 { ents := [{ idx := 0, order := 0, e := writeEntryOf [], rate := 2000, slot := 433, ph := .filled }], nextOrder := 1 })
  let a : Fin 96 := 3
  let e : SlEntry := { idx := 0, order := 0, e := writeEntryOf [], rate := 2000, slot := 433, ph := .filled }
  let g := 1
  ((s.sluice a.val).ents = [e]) ∧ (e.ph = .filled) ∧ ((s.lane a.val).wrate ≠ e.rate) ∧ (s.upT7 a = true) ∧ ((s.lane a.val).out = []) ∧ ((s.lane a.val).waiting = []) ∧ ((freeTag (s.lane a.val)) = some g) := by decide

set_option maxRecDepth 100000 in
/-- Hypotheses of `encode` in `StripeEngines`. -/
theorem witness_encode :
  let s : State := (((((State.reset |>.put (.stripe 1) F.STR_CTRL_EN 1 |>.put (.stripe 1) F.STR_DQ_CFG_LOG2N 4 |>.put (.stripe 1) F.STR_CQ_CFG_LOG2N 4).putMram 0 (wordsBytes ([0xE000100000 + 2 ^ 63, 0xE000101000 + 2 * 2 ^ 52 + 2 ^ 63] ++ List.replicate 38 0 ++ [0xE000102000 + 4 * 2 ^ 52 + 2 ^ 63, 0xE000103000 + 6 * 2 ^ 52 + 2 ^ 63] ++ List.replicate 6 0))).putMram 0x100000 [1, 2, 3]).putMram 0x101000 [7, 0, 255]).setStripe 1 { fetched := some (2, ⟨3, 1, 2, 2, false, 2, 0, 0xE000000000, false⟩), run := true })
  let k : Fin 4 := 1
  let idx : Nat := 2
  let i : Nat := 1
  let b : Nat := 2
  let d : StripeDesc := ⟨3, 1, 2, 2, false, 2, 0, 0xE000000000, false⟩
  let bs : List Byte := s.mramBytes (d.list - mramBase) 384
  ((s.stripe k.val).fetched = some (idx, d)) ∧ (d.op = 1) ∧ (s.stripeMay k = true) ∧ (descBad d = false) ∧ (s.plainMram (4 + k.val) d.list 384 = true) ∧ (listBad d (stripeColOf bs) [] = false) ∧ (((stripeCols d.k d.p).all fun c => s.plainMram (4 + k.val) (stripeColOf bs c).addr (64 * d.len)) = true) ∧ (((List.range ((List.range d.p).map fun i => 40 + i).length).all fun i => !outputMeets (64 * d.len) ((List.range d.k).map fun c => (stripeColOf bs c).addr) (((List.range d.p).map fun i => 40 + i).map fun c => (stripeColOf bs c).addr) i) = true) ∧ (i < d.p) ∧ (b < 64 * d.len) := by decide +kernel

set_option maxRecDepth 100000 in
/-- Hypotheses of `rebuild` in `StripeEngines`. -/
theorem witness_rebuild :
  let s : State := (((((State.reset |>.put (.stripe 1) F.STR_CTRL_EN 1 |>.put (.stripe 1) F.STR_DQ_CFG_LOG2N 4 |>.put (.stripe 1) F.STR_CQ_CFG_LOG2N 4).putMram 0 (wordsBytes ([0xE000100000 + 2 ^ 63, 0xE000101000 + 2 * 2 ^ 52 + 2 ^ 63] ++ List.replicate 38 0 ++ [0xE000102000 + 4 * 2 ^ 52 + 2 ^ 63, 0xE000103000 + 6 * 2 ^ 52 + 2 ^ 63] ++ List.replicate 6 0))).putMram 0x100000 [1, 2, 3]).putMram 0x101000 [7, 0, 255]).setStripe 1 { fetched := some (2, ⟨3, 2, 2, 2, false, 2, 2, 0xE000000000, false⟩), run := true })
  let k : Fin 4 := 1
  let idx : Nat := 2
  let c : Nat := 1
  let b : Nat := 2
  let d : StripeDesc := ⟨3, 2, 2, 2, false, 2, 2, 0xE000000000, false⟩
  let bs : List Byte := s.mramBytes (d.list - mramBase) 384
  let lost : List Nat := s.erasureSet d (stripeColOf bs)
  let rd : List Nat := (stripeUse d (stripeColOf bs) lost).1
  let wr : List Nat := (stripeUse d (stripeColOf bs) lost).2
  ((s.stripe k.val).fetched = some (idx, d)) ∧ (d.op = 2) ∧ (s.stripeMay k = true) ∧ (descBad d = false) ∧ (s.plainMram (4 + k.val) d.list 384 = true) ∧ (listBad d (stripeColOf bs) lost = false) ∧ (rd.length = d.k) ∧ (((rd ++ wr).all fun c => s.plainMram (4 + k.val) (stripeColOf bs c).addr (64 * d.len)) = true) ∧ (((List.range wr.length).all fun i => !outputMeets (64 * d.len) (rd.map fun c => (stripeColOf bs c).addr) (wr.map fun c => (stripeColOf bs c).addr) i) = true) ∧ (c ∈ wr) ∧ (b < 64 * d.len) := by decide +kernel

set_option maxRecDepth 100000 in
/-- Hypotheses of `check` in `StripeEngines`. -/
theorem witness_check :
  let s : State := (((((State.reset |>.put (.stripe 1) F.STR_CTRL_EN 1 |>.put (.stripe 1) F.STR_DQ_CFG_LOG2N 4 |>.put (.stripe 1) F.STR_CQ_CFG_LOG2N 4).putMram 0 (wordsBytes ([0xE000100000 + 2 ^ 63, 0xE000101000 + 2 * 2 ^ 52 + 2 ^ 63] ++ List.replicate 38 0 ++ [0xE000102000 + 4 * 2 ^ 52 + 2 ^ 63, 0xE000103000 + 6 * 2 ^ 52 + 2 ^ 63] ++ List.replicate 6 0))).putMram 0x100000 [1, 2, 3]).putMram 0x101000 [7, 0, 255]).setStripe 1 { fetched := some (2, ⟨3, 3, 2, 2, false, 2, 0, 0xE000000000, false⟩), run := true })
  let k : Fin 4 := 1
  let idx : Nat := 2
  let d : StripeDesc := ⟨3, 3, 2, 2, false, 2, 0, 0xE000000000, false⟩
  let bs : List Byte := s.mramBytes (d.list - mramBase) 384
  let miss : Nat := (List.range d.p).foldl (fun m i => if (List.range (64 * d.len)).all (fun b => (tget 0 s.mram ((stripeColOf bs (40 + i)).addr - mramBase + b)).toNat == (List.range d.k).foldl (fun x c => x ^^^ gfMul (stripeCoef i c) (tget 0 s.mram ((stripeColOf bs c).addr - mramBase + b)).toNat) 0) then m else m + 2 ^ i) 0
  ((s.stripe k.val).fetched = some (idx, d)) ∧ (d.op = 3) ∧ (s.stripeMay k = true) ∧ (descBad d = false) ∧ (s.plainMram (4 + k.val) d.list 384 = true) ∧ (listBad d (stripeColOf bs) [] = false) ∧ (((stripeCols d.k d.p).all fun c => s.plainMram (4 + k.val) (stripeColOf bs c).addr (64 * d.len)) = true) := by decide +kernel

set_option maxRecDepth 100000 in
/-- Hypotheses of `stripeTooMany` in `StripeEngines`. -/
theorem witness_stripeTooMany :
  let s : State := (((((State.reset |>.put (.stripe 1) F.STR_CTRL_EN 1 |>.put (.stripe 1) F.STR_DQ_CFG_LOG2N 4 |>.put (.stripe 1) F.STR_CQ_CFG_LOG2N 4).putMram 0 (wordsBytes ([0xE000100000 + 2 ^ 63, 0xE000101000 + 2 * 2 ^ 52 + 2 ^ 63] ++ List.replicate 38 0 ++ [0xE000102000 + 4 * 2 ^ 52 + 2 ^ 63, 0xE000103000 + 6 * 2 ^ 52 + 2 ^ 63] ++ List.replicate 6 0))).putMram 0x100000 [1, 2, 3]).putMram 0x101000 [7, 0, 255]).setStripe 1 { fetched := some (2, ⟨3, 2, 2, 2, false, 2, 1099511627779, 0xE000000000, false⟩), run := true })
  let k : Fin 4 := 1
  let idx : Nat := 2
  let d : StripeDesc := ⟨3, 2, 2, 2, false, 2, 1099511627779, 0xE000000000, false⟩
  let bs : List Byte := s.mramBytes (d.list - mramBase) 384
  let lost : List Nat := s.erasureSet d (stripeColOf bs)
  ((s.stripe k.val).fetched = some (idx, d)) ∧ (d.op = 2) ∧ (s.stripeMay k = true) ∧ (descBad d = false) ∧ (s.plainMram (4 + k.val) d.list 384 = true) ∧ (listBad d (stripeColOf bs) lost = false) ∧ ((stripeUse d (stripeColOf bs) lost).1.length < d.k) := by decide +kernel

/-- Hypotheses of `stripeBad` in `StripeEngines`. -/
theorem witness_stripeBad :
  let s : State := ((State.reset |>.put (.stripe 1) F.STR_CTRL_EN 1 |>.put (.stripe 1) F.STR_CQ_CFG_LOG2N 4).setStripe 1 { fetched := some (2, ⟨3, 1, 2, 2, false, 2, 2 ^ 5, 0xE000000000, false⟩), run := true })
  let k : Fin 4 := 1
  let idx : Nat := 2
  let d : StripeDesc := ⟨3, 1, 2, 2, false, 2, 2 ^ 5, 0xE000000000, false⟩
  ((s.stripe k.val).fetched = some (idx, d)) ∧ (d.op = 1) ∧ (s.stripeMay k = true) ∧ (descBad d = true) := by decide

/-- Hypotheses of `stripeDescDone` in `StripeEngines`. -/
theorem witness_stripeDescDone :
  let s : State := ((State.reset |>.put (.stripe 1) F.STR_CQ_CFG_LOG2N 4 |>.put (.stripe 1) F.STR_CQ_CFG_BASE 0xE000000).setStripe 1 { active := [⟨2, 7, 0, 0, 0⟩] })
  let k : Fin 4 := 1
  let j : StripeJob := ⟨2, 7, 0, 0, 0⟩
  ((s.stripe k.val).active = [j]) ∧ (s.plainMram (4 + k.val) (ringAt (s.get (.stripe k) F.STR_CQ_CFG_BASE) (s.get (.stripe k) F.STR_CQ_CFG_LOG2N) 16 (s.get (.stripe k) F.STR_CQ_TAIL)) 16 = true) := by decide

/-- Hypotheses of `strEnable` in `StripeEngines`. -/
theorem witness_strEnable :
  let s : State := (State.reset |>.put (.stripe 1) F.STR_DQ_CFG_LOG2N 4 |>.put (.stripe 1) F.STR_CQ_CFG_LOG2N 12)
  let k : Fin 4 := 1
  (4 ≤ s.get (.stripe k) F.STR_DQ_CFG_LOG2N) ∧ (s.get (.stripe k) F.STR_DQ_CFG_LOG2N ≤ 12) ∧ (4 ≤ s.get (.stripe k) F.STR_CQ_CFG_LOG2N) ∧ (s.get (.stripe k) F.STR_CQ_CFG_LOG2N ≤ 12) := by decide

/-- Hypotheses of `strEnableBad` in `StripeEngines`. -/
theorem witness_strEnableBad :
  let s : State := (State.reset |>.put (.stripe 1) F.STR_DQ_CFG_LOG2N 3 |>.put (.stripe 1) F.STR_CQ_CFG_LOG2N 12)
  let k : Fin 4 := 1
  (s.get (.stripe k) F.STR_DQ_CFG_LOG2N < 4 ∨ 12 < s.get (.stripe k) F.STR_DQ_CFG_LOG2N ∨ s.get (.stripe k) F.STR_CQ_CFG_LOG2N < 4 ∨ 12 < s.get (.stripe k) F.STR_CQ_CFG_LOG2N) := by decide

/-- Hypotheses of `strDisable` in `StripeEngines`. -/
theorem witness_strDisable :
  let s : State := (State.reset |>.put (.stripe 1) F.STR_CTRL_EN 1)
  let k : Fin 4 := 1
  ((s.stripe k.val).fetched = none) := by decide

/-- Hypotheses of `strDisableFetched` in `StripeEngines`. -/
theorem witness_strDisableFetched :
  let s : State := ((State.reset |>.put (.stripe 1) F.STR_CTRL_EN 1 |>.put (.stripe 1) F.STR_CQ_CFG_LOG2N 4 |>.put (.stripe 1) F.STR_CQ_CFG_BASE 0xE000000).setStripe 1 { fetched := some (2, ⟨3, 1, 2, 2, false, 2, 0, 0xE000000000, false⟩), run := true })
  let k : Fin 4 := 1
  let idx : Nat := 2
  let d : StripeDesc := ⟨3, 1, 2, 2, false, 2, 0, 0xE000000000, false⟩
  ((s.stripe k.val).fetched = some (idx, d)) ∧ (s.plainMram (4 + k.val) (ringAt (s.get (.stripe k) F.STR_CQ_CFG_BASE) (s.get (.stripe k) F.STR_CQ_CFG_LOG2N) 16 (s.get (.stripe k) F.STR_CQ_TAIL)) 16 = true) := by decide

/-- Hypotheses of `keyLoad` in `KeyCommands`. -/
theorem witness_keyLoad :
  let s : State := (State.reset |>.put .cfg F.CFG_STAT_LCS 2 |>.setMram 0x1000 1 |>.put (.key) F.KEY_CTRL_LOCK 1 |>.put (.key) F.KEY_SRC_ADDR 0xE000001000 |>.put (.key) F.KEY_CTRL_STORE 7)
  let slot : Fin 4096 := 9
  let fn : Fin 1024 := 5
  let ns : Fin 4 := 2
  let r : State × MemAns := s.clean.masterRead 11 .key (s.get .key F.KEY_SRC_ADDR / 64 * 64) 64
  let key := (r.2.data?.getD [])
  (s.on .key F.KEY_STAT_BUSY = false) ∧ (s.shelfSanitise = false) ∧ (s.get .cfg F.CFG_STAT_LCS = 1 ∨ s.get .cfg F.CFG_STAT_LCS = 2) ∧ (s.on .key F.KEY_CTRL_LOCK = true) ∧ (s.slotState slot.val = 0) ∧ (r.2.data? = some key) ∧ (key.take 32 ≠ key.drop 32) := by decide +kernel

/-- Hypotheses of `keyLoadEqual` in `KeyCommands`. -/
theorem witness_keyLoadEqual :
  let s : State := (State.reset |>.put .cfg F.CFG_STAT_LCS 2  |>.put (.key) F.KEY_CTRL_LOCK 1 |>.put (.key) F.KEY_SRC_ADDR 0xE000001000 |>.put (.key) F.KEY_CTRL_STORE 7)
  let slot : Fin 4096 := 9
  let fn : Fin 1024 := 5
  let ns : Fin 4 := 2
  let r : State × MemAns := s.clean.masterRead 11 .key (s.get .key F.KEY_SRC_ADDR / 64 * 64) 64
  let key := (r.2.data?.getD [])
  (s.on .key F.KEY_STAT_BUSY = false) ∧ (s.shelfSanitise = false) ∧ (s.get .cfg F.CFG_STAT_LCS = 1 ∨ s.get .cfg F.CFG_STAT_LCS = 2) ∧ (s.on .key F.KEY_CTRL_LOCK = true) ∧ (s.slotState slot.val = 0) ∧ (r.2.data? = some key) ∧ (key.take 32 = key.drop 32) := by decide +kernel

/-- Hypotheses of `keyRestore` in `KeyCommands`. -/
theorem witness_keyRestore :
  let s : State := (State.reset |>.put .cfg F.CFG_STAT_LCS 2 |>.put (.key) F.KEY_CTRL_LOCK 1)
  let slot : Fin 4096 := 9
  (s.on .key F.KEY_STAT_BUSY = false) ∧ (s.shelfSanitise = false) ∧ (s.get .cfg F.CFG_STAT_LCS = 1 ∨ s.get .cfg F.CFG_STAT_LCS = 2) ∧ (s.on .key F.KEY_CTRL_LOCK = true) ∧ (s.slotState slot.val = 0) := by decide

/-- Hypotheses of `keySuspend` in `KeyCommands`. -/
theorem witness_keySuspend :
  let s : State := ((State.reset |>.put (.key) F.KEY_CTRL_LOCK 1 |>.put .key F.KEY_SLOT_STATE 1 9).setDie 2 { keyCache := [9, 8] })
  let slot : Fin 4096 := 9
  let fn : Fin 1024 := 5
  (s.on .key F.KEY_STAT_BUSY = false) ∧ (s.shelfSanitise = false) ∧ (s.slotState slot.val = 1) := by decide

/-- Hypotheses of `keyResume` in `KeyCommands`. -/
theorem witness_keyResume :
  let s : State := (State.reset |>.put (.key) F.KEY_CTRL_LOCK 1 |>.put .key F.KEY_SLOT_STATE 2 9)
  let slot : Fin 4096 := 9
  let fn : Fin 1024 := 5
  (s.on .key F.KEY_STAT_BUSY = false) ∧ (s.shelfSanitise = false) ∧ (s.slotState slot.val = 2) := by decide

/-- Hypotheses of `keyErase` in `KeyCommands`. -/
theorem witness_keyErase :
  let s : State := (State.reset |>.put (.key) F.KEY_CTRL_LOCK 1 |>.put .key F.KEY_SLOT_STATE 1 9)
  let slot : Fin 4096 := 9
  let fn : Fin 1024 := 5
  (s.on .key F.KEY_STAT_BUSY = false) ∧ (s.shelfSanitise = false) ∧ (s.on .key F.KEY_CTRL_LOCK = true) ∧ (s.slotState slot.val ≠ 0) := by decide

/-- Hypotheses of `keyEraseDrained` in `KeyCommands`. -/
theorem witness_keyEraseDrained :
  let s : State := { (State.reset |>.put (.key) F.KEY_CTRL_LOCK 1 |>.put .key F.KEY_SLOT_STATE 3 9) with keys := { job := some ⟨5, [9], 0, false, none⟩ } }
  let slot : Fin 4096 := 9
  let r : Nat := 0
  (s.keys.job = some ⟨5, [slot.val], r, false, none⟩) ∧ (s.keysDrained [slot.val] = true) := by decide

/-- Hypotheses of `keyCmdDone` in `KeyCommands`. -/
theorem witness_keyCmdDone :
  let s : State := { (State.reset |>.put (.key) F.KEY_CTRL_LOCK 1 |>.put (.key) F.KEY_STAT_BUSY 1 |>.put .key F.KEY_SLOT_STATE 0 9) with keys := { job := some ⟨5, [], 4, true, none⟩ } }
  let j : KeyJob := ⟨5, [], 4, true, none⟩
  (s.keys.job = some j) ∧ (j.op ≠ 3) ∧ (j.drained = true) ∧ (j.load = none) ∧ (j.result < 256) := by decide

/-- Hypotheses of `keyLoadDone` in `KeyCommands`. -/
theorem witness_keyLoadDone :
  let s : State := { (State.reset |>.setMram 0x1000 1 |>.put (.key) F.KEY_CTRL_LOCK 1 |>.put (.key) F.KEY_STAT_BUSY 1 |>.put (.key) F.KEY_CTRL_STORE 7) with keys := { job := some ⟨1, [], 0, true, some ⟨⟨9, 5, 2, [1, 2]⟩, 3, 0xE000001000⟩⟩ } }
  let l : KeyLoadJob := ⟨⟨9, 5, 2, [1, 2]⟩, 3, 0xE000001000⟩
  let r : Nat := 0
  (s.keys.job = some ⟨1, [], r, true, some l⟩) ∧ (r < 256) ∧ (l.body.fn < 1024) ∧ (l.body.ns < 4) ∧ (l.gen < 65536) ∧ (l.body.slot < 4096) ∧ (s.plainMram 11 l.src 64 = true) := by decide +kernel

/-- Hypotheses of `keySuspendDone` in `KeyCommands`. -/
theorem witness_keySuspendDone :
  let s : State := { (State.reset |>.put (.key) F.KEY_CTRL_LOCK 1 |>.put (.key) F.KEY_STAT_BUSY 1 |>.put .key F.KEY_SLOT_STATE 1 9) with keys := { job := some ⟨3, [9], 0, false, none⟩ } }
  let slot : Fin 4096 := 9
  let r : Nat := 0
  (s.keys.job = some ⟨3, [slot.val], r, false, none⟩) ∧ (r < 256) ∧ (s.keysDrained [slot.val] = true) := by decide

/-- Hypotheses of `keyCmdReserved` in `KeyCommands`. -/
theorem witness_keyCmdReserved :
  let s : State := (State.reset |>.put (.key) F.KEY_CTRL_LOCK 1)
  let op : Nat := 7
  let scope : Nat := 0
  (s.on .key F.KEY_STAT_BUSY = false) ∧ (s.shelfSanitise = false) ∧ (op = 0 ∨ 5 < op ∨ 2 < scope) := by decide

/-- Hypotheses of `keyCacheFill` in `KeyCommands`. -/
theorem witness_keyCacheFill :
  let s : State := (State.reset |>.put (.key) F.KEY_CTRL_LOCK 1 |>.put (.key) F.KEY_CTRL_EN 1 |>.put .key F.KEY_SLOT_STATE 1 9)
  let m : Fin 4 := 2
  let slot : Fin 4096 := 9
  (((dieActs m.val).all fun a => (awaiting (s.chan a.val) slot.val).isEmpty) = true) ∧ (s.keyOk slot.val = true) ∧ ((s.die m.val).keyCache.contains slot.val = false) ∧ ((s.die m.val).keyCache.length < 128) := by decide

/-- Hypotheses of `format` in `SweepCommands`. -/
theorem witness_format :
  let s : State := { (State.reset |>.put .cfg F.CFG_STAT_LCS 2 |>.put .cfg F.CFG_STAT_PRES 1 |>.put .sweep F.SWP_CTRL_LOCK 1 |>.put .sweep F.SWP_CTRL_PROG 3 |>.put .sweep F.SWP_GEOM_N 2 |>.put .sweep F.SWP_GEOM 0xE00000000 |>.put (.act 0) F.ZSET_RATE 2000 |>.put (.act 1) F.ZSET_RATE 2000 |>.put (.act 0) F.SV_FIELD_GATE_LEN 2000 |>.put (.act 1) F.SV_FIELD_GATE_LEN 2000 |>.setMram 16 1) with mode := .twelve }
  let verify : Bool := false
  let shelf : Bool := false
  let asm : Nat := 1
  let r : State × Option (List GeomEntry × Nat) := s.clean.readGeom
  let p := (r.2.getD ([], 0))
  (s.mode = .twelve ∨ s.mode = .serve) ∧ (s.on .sweep F.SWP_STAT_BUSY = false) ∧ (s.on .sweep F.SWP_STAT_PENDING = false) ∧ (s.on .sweep F.SWP_CTRL_LOCK = true) ∧ (1 ≤ s.get .cfg F.CFG_STAT_LCS) ∧ (s.get .cfg F.CFG_STAT_LCS ≤ 3) ∧ (shelf = false ∨ s.present = true) ∧ (s.sealOpen = false) ∧ (r.2 = some p) ∧ (r.1.geomBad (if shelf then 2 ^ 48 - 1 else asm % 2 ^ 48) p.1 = false) := by decide +kernel

/-- Hypotheses of `sanitise` in `SweepCommands`. -/
theorem witness_sanitise :
  let s : State := { (State.reset |>.put .cfg F.CFG_STAT_LCS 2 |>.put .cfg F.CFG_STAT_PRES 1 |>.put .sweep F.SWP_CTRL_LOCK 1 |>.put .sweep F.SWP_CTRL_PROG 3 |>.put .sweep F.SWP_GEOM_N 2 |>.put .sweep F.SWP_GEOM 0xE00000000 |>.put (.act 0) F.ZSET_RATE 2000 |>.put (.act 1) F.ZSET_RATE 2000 |>.put (.act 0) F.SV_FIELD_GATE_LEN 2000 |>.put (.act 1) F.SV_FIELD_GATE_LEN 2000 |>.setMram 16 1) with mode := .serve }
  let passes : Fin 4 := 0
  let verify : Bool := false
  let shelf : Bool := false
  let asm : Nat := 1
  let r : State × Option (List GeomEntry × Nat) := s.clean.readGeom
  let p := (r.2.getD ([], 0))
  (s.mode = .twelve ∨ s.mode = .serve) ∧ (s.on .sweep F.SWP_STAT_BUSY = false) ∧ (s.on .sweep F.SWP_STAT_PENDING = false) ∧ (s.on .sweep F.SWP_CTRL_LOCK = true) ∧ (s.get .cfg F.CFG_STAT_LCS ≠ 0) ∧ (shelf = false ∨ s.present = true) ∧ (r.2 = some p) ∧ (r.1.geomBad (if shelf then 2 ^ 48 - 1 else asm % 2 ^ 48) p.1 = false) := by decide +kernel

/-- Hypotheses of `sanitiseCrypto` in `SweepCommands`. -/
theorem witness_sanitiseCrypto :
  let s : State := { (State.reset |>.put .cfg F.CFG_STAT_LCS 2 |>.put .cfg F.CFG_STAT_PRES 1 |>.put .sweep F.SWP_CTRL_LOCK 1 |>.put .sweep F.SWP_CTRL_PROG 3) with mode := .serve }
  let passes : Fin 4 := 0
  let verify : Bool := false
  let asm : Nat := 1
  (s.mode = .twelve ∨ s.mode = .serve) ∧ (s.on .sweep F.SWP_STAT_BUSY = false) ∧ (s.on .sweep F.SWP_STAT_PENDING = false) ∧ (s.on .sweep F.SWP_CTRL_LOCK = true) ∧ (s.get .cfg F.CFG_STAT_LCS ≠ 0) ∧ (s.present = true ∨ s.sealOpen = true) := by decide

/-- Hypotheses of `resume` in `SweepCommands`. -/
theorem witness_resume :
  let s : State := { (State.reset |>.put .cfg F.CFG_STAT_LCS 2 |>.put .cfg F.CFG_STAT_PRES 1 |>.put .sweep F.SWP_CTRL_LOCK 1 |>.put .sweep F.SWP_CTRL_PROG 3 |>.put .sweep F.SWP_STAT_PENDING 1) with mode := .recovery }
  (s.mode = .twelve ∨ s.mode = .serve ∨ s.mode = .recovery) ∧ (s.on .sweep F.SWP_STAT_BUSY = false) ∧ (s.on .sweep F.SWP_STAT_PENDING = true) ∧ (s.on .sweep F.SWP_CTRL_LOCK = true) ∧ (s.sweep.geomN = 0) := by decide

/-- Hypotheses of `resumeFill` in `SweepCommands`. -/
theorem witness_resumeFill :
  let s : State := { (State.reset |>.put .cfg F.CFG_STAT_LCS 2 |>.put .cfg F.CFG_STAT_PRES 1 |>.put .sweep F.SWP_CTRL_LOCK 1 |>.put .sweep F.SWP_CTRL_PROG 3 |>.put .sweep F.SWP_GEOM_N 2 |>.put .sweep F.SWP_GEOM 0xE00000000 |>.put (.act 0) F.ZSET_RATE 2000 |>.put (.act 1) F.ZSET_RATE 2000 |>.put (.act 0) F.SV_FIELD_GATE_LEN 2000 |>.put (.act 1) F.SV_FIELD_GATE_LEN 2000 |>.setMram 16 1 |>.put .sweep F.SWP_STAT_PENDING 1) with mode := .twelve, sweep := { geomN := 2, geomCrc := crc32c (List.replicate 16 0 ++ [1] ++ List.replicate 15 0) } }
  let r : State × Option (List GeomEntry × Nat) := s.clean.readGeom
  (s.mode = .twelve ∨ s.mode = .serve ∨ s.mode = .recovery) ∧ (s.on .sweep F.SWP_STAT_BUSY = false) ∧ (s.on .sweep F.SWP_STAT_PENDING = true) ∧ (s.on .sweep F.SWP_CTRL_LOCK = true) ∧ (s.sweep.geomN ≠ 0) ∧ (r.2.map (fun p => (p.1.length, p.2)) = some (s.sweep.geomN, s.sweep.geomCrc)) := by decide +kernel

/-- Hypotheses of `abort` in `SweepCommands`. -/
theorem witness_abort :
  let s : State := { (State.reset |>.put .cfg F.CFG_STAT_LCS 2 |>.put .cfg F.CFG_STAT_PRES 1 |>.put .sweep F.SWP_CTRL_LOCK 1 |>.put .sweep F.SWP_CTRL_PROG 3 |>.put .sweep F.SWP_STAT_BUSY 1 |>.put .sweep F.SWP_STAT_PHASE 4) with mode := .format, sweep := { op := 1 } }
  (s.mode ≠ .diagnostic) ∧ (s.on .sweep F.SWP_STAT_BUSY = true) ∧ (s.sweep.op = 1) ∧ (s.get .sweep F.SWP_STAT_PHASE ≠ 5) := by decide

/-- Hypotheses of `swpCmdReserved` in `SweepCommands`. -/
theorem witness_swpCmdReserved :
  let s : State := State.reset
  let op : Nat := 9
  (op % 16 = 0 ∨ 4 < op % 16) := by decide

/-- Hypotheses of `swpPhaseBegin` in `SweepPhases`. -/
theorem witness_swpPhaseBegin :
  let s : State := { (State.reset |>.put .cfg F.CFG_STAT_LCS 2 |>.put .cfg F.CFG_STAT_PRES 1 |>.put .sweep F.SWP_CTRL_LOCK 1 |>.put .sweep F.SWP_CTRL_PROG 3 |>.put .sweep F.SWP_STAT_BUSY 1 |>.put .sweep F.SWP_STAT_PHASE 5) with mode := .sanitise, sweep := { op := 2, method := 3, shelf := true, area := 3, begun := false } }
  (s.on .sweep F.SWP_STAT_BUSY = true) ∧ (s.sweep.begun = false) ∧ (s.get .sweep F.SWP_STAT_PHASE = 5) := by decide

/-- Hypotheses of `swpPhaseBeginQuiesce` in `SweepPhases`. -/
theorem witness_swpPhaseBeginQuiesce :
  let s : State := { (State.reset |>.put .cfg F.CFG_STAT_LCS 2 |>.put .cfg F.CFG_STAT_PRES 1 |>.put .sweep F.SWP_CTRL_LOCK 1 |>.put .sweep F.SWP_CTRL_PROG 3 |>.put .sweep F.SWP_STAT_BUSY 1 |>.put .sweep F.SWP_STAT_PHASE 1) with mode := .sanitise, sweep := { op := 2, method := 3, shelf := true, area := 3, begun := false, asm := 2 } }
  let a : Fin 96 := 3
  (s.on .sweep F.SWP_STAT_BUSY = true) ∧ (s.sweep.begun = false) ∧ (s.get .sweep F.SWP_STAT_PHASE = 1) ∧ (inAsm s.sweep.asm a.val = true) := by decide

/-- Hypotheses of `swpPhaseBeginCrypto` in `SweepPhases`. -/
theorem witness_swpPhaseBeginCrypto :
  let s : State := { (State.reset |>.put .cfg F.CFG_STAT_LCS 2 |>.put .cfg F.CFG_STAT_PRES 1 |>.put .sweep F.SWP_CTRL_LOCK 1 |>.put .sweep F.SWP_CTRL_PROG 3 |>.put .sweep F.SWP_STAT_BUSY 1 |>.put .sweep F.SWP_STAT_PHASE 2) with mode := .sanitise, sweep := { op := 2, method := 3, shelf := true, area := 3, begun := false } }
  let k : Fin 4096 := 9
  (s.on .sweep F.SWP_STAT_BUSY = true) ∧ (s.sweep.begun = false) ∧ (s.get .sweep F.SWP_STAT_PHASE = 2) ∧ (s.on .key F.KEY_STAT_BUSY = false) := by decide

/-- Hypotheses of `swpPhaseBeginFill` in `SweepPhases`. -/
theorem witness_swpPhaseBeginFill :
  let s : State := { (State.reset |>.put .cfg F.CFG_STAT_LCS 2 |>.put .cfg F.CFG_STAT_PRES 1 |>.put .sweep F.SWP_CTRL_LOCK 1 |>.put .sweep F.SWP_CTRL_PROG 3 |>.put (.act 3) F.YL_STAT_STATE 8 |>.put (.act 3) F.SV_CTRL_EN 1 |>.put .sweep F.SWP_STAT_BUSY 1 |>.put .sweep F.SWP_STAT_PHASE 4) with mode := .sanitise, sweep := { op := 2, method := 3, shelf := true, area := 3, begun := false, acts := [(3, { state := 1, gidx := 0, track := 5 })] } }
  let a : Fin 96 := 3
  (s.on .sweep F.SWP_STAT_BUSY = true) ∧ (s.sweep.begun = false) ∧ (s.get .sweep F.SWP_STAT_PHASE = 4) ∧ (s.sweep.acts = [(a.val, { state := 1, gidx := 0, track := 5 })]) ∧ (s.upT7 a = true) ∧ (s.on (.act a) F.SV_CTRL_EN = true) ∧ ((s.servo a.val).spin = none) ∧ (s.asmLocked a = false) := by decide

/-- Hypotheses of `swpPhaseBeginMeta` in `SweepPhases`. -/
theorem witness_swpPhaseBeginMeta :
  let s : State := { (State.reset |>.put .cfg F.CFG_STAT_LCS 2 |>.put .cfg F.CFG_STAT_PRES 1 |>.put .sweep F.SWP_CTRL_LOCK 1 |>.put .sweep F.SWP_CTRL_PROG 3 |>.put .sweep F.SWP_STAT_BUSY 1 |>.put .sweep F.SWP_STAT_PHASE 3) with mode := .sanitise, sweep := { op := 2, method := 3, shelf := true, area := 3, begun := false } }
  (s.on .sweep F.SWP_STAT_BUSY = true) ∧ (s.sweep.begun = false) ∧ (s.get .sweep F.SWP_STAT_PHASE = 3) := by decide

/-- Hypotheses of `swpQuiesceDone` in `SweepPhases`. -/
theorem witness_swpQuiesceDone :
  let s : State := { (State.reset |>.put .cfg F.CFG_STAT_LCS 2 |>.put .cfg F.CFG_STAT_PRES 1 |>.put .sweep F.SWP_CTRL_LOCK 1 |>.put .sweep F.SWP_CTRL_PROG 3 |>.put .sweep F.SWP_STAT_BUSY 1 |>.put .sweep F.SWP_STAT_PHASE 1) with mode := .sanitise, sweep := { op := 2, method := 3, shelf := true, area := 3, begun := true } }
  let q := 2
  (s.on .sweep F.SWP_STAT_BUSY = true) ∧ (s.sweep.begun = true) ∧ (s.get .sweep F.SWP_STAT_PHASE = 1) ∧ ((s.swpScope.all fun a => (s.sluice a.val).ents.isEmpty && (s.chan a.val).ents.isEmpty) = true) ∧ (((swpPhases s.sweep.op s.sweep.method s.sweep.shelf).find? fun q => decide (s.get .sweep F.SWP_STAT_PHASE < q)) = some q) := by decide

/-- Hypotheses of `swpCryptoDone` in `SweepPhases`. -/
theorem witness_swpCryptoDone :
  let s : State := { (State.reset |>.put .cfg F.CFG_STAT_LCS 2 |>.put .cfg F.CFG_STAT_PRES 1 |>.put .sweep F.SWP_CTRL_LOCK 1 |>.put .sweep F.SWP_CTRL_PROG 3 |>.put .sweep F.SWP_STAT_BUSY 1 |>.put .sweep F.SWP_STAT_PHASE 2) with mode := .sanitise, sweep := { op := 2, method := 3, shelf := true, area := 3, begun := true } }
  let q := 3
  (s.on .sweep F.SWP_STAT_BUSY = true) ∧ (s.sweep.begun = true) ∧ (s.get .sweep F.SWP_STAT_PHASE = 2) ∧ (s.keys.uses = []) ∧ (((swpPhases s.sweep.op s.sweep.method s.sweep.shelf).find? fun q => decide (s.get .sweep F.SWP_STAT_PHASE < q)) = some q) := by decide

/-- Hypotheses of `swpMetadataDone` in `SweepPhases`. -/
theorem witness_swpMetadataDone :
  let s : State := { (State.reset |>.put .cfg F.CFG_STAT_LCS 2 |>.put .cfg F.CFG_STAT_PRES 1 |>.put .sweep F.SWP_CTRL_LOCK 1 |>.put .sweep F.SWP_CTRL_PROG 3 |>.put .sweep F.SWP_STAT_BUSY 1 |>.put .sweep F.SWP_STAT_PHASE 3) with mode := .sanitise, sweep := { op := 2, method := 3, shelf := true, area := 3, begun := true } }
  let q := 4
  (s.on .sweep F.SWP_STAT_BUSY = true) ∧ (s.sweep.begun = true) ∧ (s.get .sweep F.SWP_STAT_PHASE = 3) ∧ (((swpPhases s.sweep.op s.sweep.method s.sweep.shelf).find? fun q => decide (s.get .sweep F.SWP_STAT_PHASE < q)) = some q) := by decide

/-- Hypotheses of `swpBurst` in `SweepPhases`. -/
theorem witness_swpBurst :
  let s : State := { (State.reset |>.put .cfg F.CFG_STAT_LCS 2 |>.put .cfg F.CFG_STAT_PRES 1 |>.put .sweep F.SWP_CTRL_LOCK 1 |>.put .sweep F.SWP_CTRL_PROG 3 |>.put (.act 3) F.ZSET_RATE 2000 |>.put (.act 3) F.SV_FIELD_GATE_LEN 2000 |>.put .sweep F.SWP_DQ_CFG_LOG2N 4 |>.put (.act 3) F.SV_STAT_WRITE_OK 1 |>.put .sweep F.SWP_STAT_BUSY 1 |>.put .sweep F.SWP_STAT_PHASE 4) with mode := .sanitise, sweep := { op := 2, method := 3, shelf := true, area := 3, begun := true, acts := [(3, { state := 2, gidx := 0, track := 5, step := 4, sect := 0 })], geom := [⟨3, 0, 0, 5, 9, false⟩] } }
  let a : Fin 96 := 3
  let x : SwpAct := { state := 2, gidx := 0, track := 5, step := 4, sect := 0 }
  let f : SlEntry := s.fillEntry a x.next
  (s.swpAct a.val = x) ∧ (x.state = 2) ∧ (x.step = 4) ∧ (x.fills = []) ∧ ((s.sluice a.val).ents = []) ∧ (x.next < (s.swpPlan a).1) ∧ (s.on (.act a) F.SV_STAT_WRITE_OK = true) := by decide +kernel

/-- Hypotheses of `swpBurstDefect` in `SweepPhases`. -/
theorem witness_swpBurstDefect :
  let s : State := { (State.reset |>.put .cfg F.CFG_STAT_LCS 2 |>.put .cfg F.CFG_STAT_PRES 1 |>.put .sweep F.SWP_CTRL_LOCK 1 |>.put .sweep F.SWP_CTRL_PROG 3 |>.put (.act 3) F.ZSET_RATE 2000 |>.put (.act 3) F.SV_FIELD_GATE_LEN 2000 |>.put .sweep F.SWP_DQ_CFG_LOG2N 4 |>.put .sweep F.SWP_STAT_BUSY 1 |>.put .sweep F.SWP_STAT_PHASE 4) with mode := .sanitise, sweep := { op := 2, method := 3, shelf := true, area := 3, begun := true, acts := [(3, { state := 2, gidx := 0, track := 5, step := 4, sect := 0 })], geom := [⟨3, 0, 0, 5, 9, false⟩] } }
  let a : Fin 96 := 3
  let x : SwpAct := { state := 2, gidx := 0, track := 5, step := 4, sect := 0 }
  let f : SlEntry := s.fillEntry a x.next
  (s.swpAct a.val = x) ∧ (x.state = 2) ∧ (x.step = 4) ∧ (x.fills = []) ∧ ((s.sluice a.val).ents = []) ∧ (x.next < (s.swpPlan a).1) ∧ (s.on (.act a) F.SV_STAT_WRITE_OK = false) := by decide +kernel

/-- Hypotheses of `swpFillSectorResult` in `SweepPhases`. -/
theorem witness_swpFillSectorResult :
  let s : State := { (State.reset |>.put .cfg F.CFG_STAT_LCS 2 |>.put .cfg F.CFG_STAT_PRES 1 |>.put .sweep F.SWP_CTRL_LOCK 1 |>.put .sweep F.SWP_CTRL_PROG 3 |>.put (.act 3) F.ZSET_RATE 2000 |>.put (.act 3) F.SV_FIELD_GATE_LEN 2000 |>.put .sweep F.SWP_DQ_CFG_LOG2N 4 |>.put (.act 3) F.SV_STAT_WRITE_OK 1 |>.put .sweep F.SWP_STAT_BUSY 1 |>.put .sweep F.SWP_STAT_PHASE 4) with mode := .sanitise, sweep := { op := 2, method := 3, shelf := true, area := 3, begun := true, acts := [(3, { state := 2, gidx := 0, track := 5, step := 4, sect := 0, fills := [{ idx := 0, order := 0, e := { writeEntryOf [] with sect := 0 }, rate := 2000, slot := 0, ph := .verifying, seq := 1, status := 0, sent := 296032 }] })], geom := [⟨3, 0, 0, 5, 9, false⟩] } }
  let a : Fin 96 := 3
  let x : SwpAct := { state := 2, gidx := 0, track := 5, step := 4, sect := 0, fills := [{ idx := 0, order := 0, e := { writeEntryOf [] with sect := 0 }, rate := 2000, slot := 0, ph := .verifying, seq := 1, status := 0, sent := 296032 }] }
  let e : SlEntry := { idx := 0, order := 0, e := { writeEntryOf [] with sect := 0 }, rate := 2000, slot := 0, ph := .verifying, seq := 1, status := 0, sent := 296032 }
  let es : List SlEntry := []
  let obs : VerifyObs := ⟨none, []⟩
  (s.swpAct a.val = x) ∧ (x.state = 2) ∧ (x.step = 4) ∧ (x.fills = e :: es) ∧ (s.fillEnds e = true) ∧ (s.fillCause a e obs = 0) := by decide +kernel

/-- Hypotheses of `swpFillSectorDefect` in `SweepPhases`. -/
theorem witness_swpFillSectorDefect :
  let s : State := { (State.reset |>.put .cfg F.CFG_STAT_LCS 2 |>.put .cfg F.CFG_STAT_PRES 1 |>.put .sweep F.SWP_CTRL_LOCK 1 |>.put .sweep F.SWP_CTRL_PROG 3 |>.put (.act 3) F.ZSET_RATE 2000 |>.put (.act 3) F.SV_FIELD_GATE_LEN 2000 |>.put .sweep F.SWP_DQ_CFG_LOG2N 4 |>.put (.act 3) F.SV_STAT_WRITE_OK 1 |>.put .sweep F.SWP_STAT_BUSY 1 |>.put .sweep F.SWP_STAT_PHASE 4) with mode := .sanitise, sweep := { op := 2, method := 3, shelf := true, area := 3, begun := true, acts := [(3, { state := 2, gidx := 0, track := 5, step := 4, sect := 0, fills := [{ idx := 0, order := 0, e := { writeEntryOf [] with sect := 0 }, rate := 2000, slot := 0, ph := .closing, seq := 1, status := 3, sent := 0 }] })], geom := [⟨3, 0, 0, 5, 9, false⟩] } }
  let a : Fin 96 := 3
  let x : SwpAct := { state := 2, gidx := 0, track := 5, step := 4, sect := 0, fills := [{ idx := 0, order := 0, e := { writeEntryOf [] with sect := 0 }, rate := 2000, slot := 0, ph := .closing, seq := 1, status := 3, sent := 0 }] }
  let e : SlEntry := { idx := 0, order := 0, e := { writeEntryOf [] with sect := 0 }, rate := 2000, slot := 0, ph := .closing, seq := 1, status := 3, sent := 0 }
  let es : List SlEntry := []
  let obs : VerifyObs := ⟨none, []⟩
  (s.swpAct a.val = x) ∧ (x.state = 2) ∧ (x.step = 4) ∧ (x.fills = e :: es) ∧ (s.fillEnds e = true) ∧ (s.fillCause a e obs ≠ 0) := by decide +kernel

/-- Hypotheses of `swpTrackDone` in `SweepPhases`. -/
theorem witness_swpTrackDone :
  let s : State := { (State.reset |>.put .cfg F.CFG_STAT_LCS 2 |>.put .cfg F.CFG_STAT_PRES 1 |>.put .sweep F.SWP_CTRL_LOCK 1 |>.put .sweep F.SWP_CTRL_PROG 3 |>.put (.act 3) F.ZSET_RATE 2000 |>.put (.act 3) F.SV_FIELD_GATE_LEN 2000 |>.put .sweep F.SWP_DQ_CFG_LOG2N 4 |>.put .sweep F.SWP_STAT_BUSY 1 |>.put .sweep F.SWP_STAT_PHASE 4) with mode := .sanitise, sweep := { op := 2, method := 3, shelf := true, area := 3, begun := true, acts := [(3, { state := 2, gidx := 0, track := 5, step := 4, sect := 100000 })], geom := [⟨3, 0, 0, 5, 9, false⟩] } }
  let a : Fin 96 := 3
  let x : SwpAct := { state := 2, gidx := 0, track := 5, step := 4, sect := 100000 }
  (s.swpAct a.val = x) ∧ (x.state = 2) ∧ (x.step = 4) ∧ ((s.swpPlan a).1 ≤ x.sect) ∧ (x.track < (s.swpEntry x).last) ∧ (s.sweep.sealStop = false) := by decide +kernel

/-- Hypotheses of `swpReport` in `SweepPhases`. -/
theorem witness_swpReport :
  let s : State := { (State.reset |>.put .cfg F.CFG_STAT_LCS 2 |>.put .cfg F.CFG_STAT_PRES 1 |>.put .sweep F.SWP_CTRL_LOCK 1 |>.put .sweep F.SWP_CTRL_PROG 3 |>.put .sweep F.SWP_STAT_BUSY 1 |>.put .sweep F.SWP_STAT_PHASE 5) with mode := .sanitise, sweep := { op := 2, method := 3, shelf := true, area := 3, begun := true } }
  (s.on .sweep F.SWP_STAT_BUSY = true) ∧ (s.sweep.begun = true) ∧ (s.get .sweep F.SWP_STAT_PHASE = 5) := by decide

/-- Hypotheses of `perstAssert` in `PortEvents`. -/
theorem witness_perstAssert :
  let s : State := (State.reset |>.put (.pcie 0) F.PCIE_STAT_PERST 0)
  let k : Fin 2 := 0
  (s.on (.pcie k) F.PCIE_STAT_PERST = false) := by decide

/-- Hypotheses of `perstDeassert` in `PortEvents`. -/
theorem witness_perstDeassert :
  let s : State := (State.reset |>.put (.pcie 0) F.PCIE_STAT_PERST 1)
  let k : Fin 2 := 0
  (s.on (.pcie k) F.PCIE_STAT_PERST = true) := by decide

/-- Hypotheses of `pcieLinkUp` in `PortEvents`. -/
theorem witness_pcieLinkUp :
  let s : State := { (State.reset |>.put (.pcie 0) F.PCIE_STAT_PERST 0 |>.put (.pcie 0) F.PCIE_CTRL_EN 1 |>.put (.pcie 0) F.PCIE_CTRL_MAX_RATE 5) with mode := .twelve }
  let k : Fin 2 := 0
  let rate : Fin 6 := 4
  let width : Nat := 8
  let flit : Bool := false
  (s.portTrains k = true) ∧ (s.linkUp k = false) ∧ (rate.val ≤ s.get (.pcie k) F.PCIE_CTRL_MAX_RATE) ∧ (width ≤ maxLanes (s.get (.pcie k) F.PCIE_CTRL_MAX_WIDTH)) ∧ (width ∈ [1, 4, 8, 16]) ∧ (flit = true ∨ rate.val < 5) := by decide

/-- Hypotheses of `pcieLinkDown` in `PortEvents`. -/
theorem witness_pcieLinkDown :
  let s : State := (State.reset |>.put (.pcie 0) F.PCIE_STAT_LINK_UP 1)
  let k : Fin 2 := 0
  (s.linkUp k = true) := by decide

/-- Hypotheses of `pcieEnable` in `PortEvents`. -/
theorem witness_pcieEnable :
  let s : State := (State.reset |>.put (.pcie 0) F.PCIE_CTRL_EN 0 |>.put .fnmgr F.FNM_CTRL_LOCK 1)
  let k : Fin 2 := 0
  (s.on .fnmgr F.FNM_CTRL_LOCK = true) := by decide

/-- Hypotheses of `l0pEntry` in `PortEvents`. -/
theorem witness_l0pEntry :
  let s : State := ((State.reset |>.put (.pcie 0) F.PCIE_STAT_LINK_UP 1 |>.put (.pcie 0) F.PCIE_STAT_PM 0 |>.put (.pcie 0) F.PCIE_PM_L0P_IDLE 9).setFn 1024 { l0pEn := true })
  let k : Fin 2 := 0
  (s.linkUp k = true) ∧ (s.get (.pcie k) F.PCIE_STAT_PM = 0) ∧ (s.get (.pcie k) F.PCIE_PM_L0P_IDLE ≠ 0) ∧ ((s.fnS (1024 + k.val)).l0pEn = true) := by decide

/-- Hypotheses of `l1Entry` in `PortEvents`. -/
theorem witness_l1Entry :
  let s : State := ((State.reset |>.put (.pcie 0) F.PCIE_STAT_LINK_UP 1 |>.put (.pcie 0) F.PCIE_STAT_PM 1).setFn 1024 { aspm := 2, ltrEn := true })
  let k : Fin 2 := 0
  (s.linkUp k = true) ∧ (s.get (.pcie k) F.PCIE_STAT_PM ≤ 1) ∧ ((s.portS k.val).reqs = []) ∧ ((s.portS k.val).orphans = []) ∧ (s.bytesWaiting k = 0) ∧ (s.l1Enabled k = true) := by decide

/-- Hypotheses of `clkreqRelease` in `PortEvents`. -/
theorem witness_clkreqRelease :
  let s : State := (((State.reset |>.put (.pcie 0) F.PCIE_STAT_LINK_UP 1 |>.put (.pcie 0) F.PCIE_STAT_PM 2).setFn 1024 { l1ss := 4 }).setPort 0 { ltr := some (1, 1) })
  let k : Fin 2 := 0
  (s.linkUp k = true) ∧ (s.get (.pcie k) F.PCIE_STAT_PM = 2) ∧ ((s.fnS (1024 + k.val)).l1ss / 2 ^ (if (s.fnS (1024 + k.val)).d3 = true then 0 else 0 + 2) % 2 = 1) ∧ (s.ltrAllows k = true) := by decide

/-- Hypotheses of `clkreqRelease11` in `PortEvents`. -/
theorem witness_clkreqRelease11 :
  let s : State := (((State.reset |>.put (.pcie 0) F.PCIE_STAT_LINK_UP 1 |>.put (.pcie 0) F.PCIE_STAT_PM 2).setFn 1024 { l1ss := 8 }).setPort 0 { ltr := some (1, 1) })
  let k : Fin 2 := 0
  (s.linkUp k = true) ∧ (s.get (.pcie k) F.PCIE_STAT_PM = 2) ∧ ((s.fnS (1024 + k.val)).l1ss / 2 ^ (if (s.fnS (1024 + k.val)).d3 = true then 0 else 0 + 2) % 2 = 0) ∧ ((s.fnS (1024 + k.val)).l1ss / 2 ^ (if (s.fnS (1024 + k.val)).d3 = true then 1 else 1 + 2) % 2 = 1) := by decide

/-- Hypotheses of `clkreqReleaseNone` in `PortEvents`. -/
theorem witness_clkreqReleaseNone :
  let s : State := (((State.reset |>.put (.pcie 0) F.PCIE_STAT_LINK_UP 1 |>.put (.pcie 0) F.PCIE_STAT_PM 2).setFn 1024 { l1ss := 4, ltrThr := 9 }).setPort 0 { ltr := some (1, 1) })
  let k : Fin 2 := 0
  (s.linkUp k = true) ∧ (s.get (.pcie k) F.PCIE_STAT_PM = 2) ∧ ((s.fnS (1024 + k.val)).l1ss / 2 ^ (if (s.fnS (1024 + k.val)).d3 = true then 0 else 0 + 2) % 2 = 1) ∧ (s.ltrAllows k = false) ∧ ((s.fnS (1024 + k.val)).l1ss / 2 ^ (if (s.fnS (1024 + k.val)).d3 = true then 1 else 1 + 2) % 2 = 0) := by decide

/-- Hypotheses of `l1Exit` in `PortEvents`. -/
theorem witness_l1Exit :
  let s : State := (State.reset |>.put (.pcie 0) F.PCIE_STAT_LINK_UP 1 |>.put (.pcie 0) F.PCIE_STAT_PM 3)
  let k : Fin 2 := 0
  (s.linkUp k = true) := by decide

/-- Hypotheses of `configRead` in `FunctionRequests`. -/
theorem witness_configRead :
  let s : State := (State.reset |>.put (.pcie 0) F.PCIE_STAT_LINK_UP 1 |>.put (.pcie 0) F.PCIE_CTRL_CFG_READY 1)
  let f : Fin 1026 := 1024
  let r : CfgReg := .maxRead
  (s.linkUp (s.fnPort f.val) = true) ∧ (s.on (.pcie (s.fnPort f.val)) F.PCIE_CTRL_CFG_READY = true) ∧ ((s.fnS f.val).resetting = false) ∧ (isPf f.val = true ∨ s.vfEnabled f.val = true) := by decide

/-- Hypotheses of `configUr` in `FunctionRequests`. -/
theorem witness_configUr :
  let s : State := (State.reset |>.put (.pcie 0) F.PCIE_STAT_LINK_UP 1 |>.put (.pcie 0) F.PCIE_CTRL_CFG_READY 1 |>.put .fnmgr F.FNM_CTRL_SPLIT 8)
  let f : Fin 1026 := 5
  let r : CfgReq := .read .maxRead
  (s.linkUp (s.fnPort f.val) = true) ∧ (s.on (.pcie (s.fnPort f.val)) F.PCIE_CTRL_CFG_READY = true) ∧ ((s.fnS f.val).resetting = false) ∧ (isPf f.val = false) ∧ (s.vfEnabled f.val = false) := by decide

/-- Hypotheses of `configWrite` in `FunctionRequests`. -/
theorem witness_configWrite :
  let s : State := (State.reset |>.put (.pcie 0) F.PCIE_STAT_LINK_UP 1 |>.put (.pcie 0) F.PCIE_CTRL_CFG_READY 1)
  let f : Fin 1026 := 1024
  let v : Nat := 256
  (s.linkUp (s.fnPort f.val) = true) ∧ (s.on (.pcie (s.fnPort f.val)) F.PCIE_CTRL_CFG_READY = true) ∧ ((s.fnS f.val).resetting = false) ∧ (isPf f.val = true) ∧ (v = 128 ∨ v = 256 ∨ v = 512) := by decide

/-- Hypotheses of `busMasterDisable` in `FunctionRequests`. -/
theorem witness_busMasterDisable :
  let s : State := ((State.reset |>.put (.pcie 0) F.PCIE_STAT_LINK_UP 1 |>.put (.pcie 0) F.PCIE_CTRL_CFG_READY 1).setFn 1024 { bme := true })
  let f : Fin 1026 := 1024
  (s.cfgReach f.val = true) ∧ ((s.fnS f.val).bme = true) := by decide

/-- Hypotheses of `busMasterEnable` in `FunctionRequests`. -/
theorem witness_busMasterEnable :
  let s : State := (State.reset |>.put (.pcie 0) F.PCIE_STAT_LINK_UP 1 |>.put (.pcie 0) F.PCIE_CTRL_CFG_READY 1)
  let f : Fin 1026 := 1024
  (s.cfgReach f.val = true) := by decide

/-- Hypotheses of `functionLevelReset` in `FunctionRequests`. -/
theorem witness_functionLevelReset :
  let s : State := ((State.reset |>.put (.pcie 0) F.PCIE_STAT_LINK_UP 1 |>.put (.pcie 0) F.PCIE_CTRL_CFG_READY 1).setFn 1024 { bme := true, msixEnable := true })
  let f : Fin 1026 := 1024
  (s.cfgReach f.val = true) := by decide

/-- Hypotheses of `vfEnableSet` in `FunctionRequests`. -/
theorem witness_vfEnableSet :
  let s : State := (State.reset |>.put (.pcie 0) F.PCIE_STAT_LINK_UP 1 |>.put (.pcie 0) F.PCIE_CTRL_CFG_READY 1 |>.put .fnmgr F.FNM_CTRL_SPLIT 8)
  let k : Fin 2 := 0
  let n : Nat := 5
  (s.cfgReach (1024 + k.val) = true) ∧ (n ≤ s.totalVfs k) ∧ ((s.fnS (1024 + k.val)).vfEnable = false) := by decide

/-- Hypotheses of `vfEnableClear` in `FunctionRequests`. -/
theorem witness_vfEnableClear :
  let s : State := ((State.reset |>.put (.pcie 0) F.PCIE_STAT_LINK_UP 1 |>.put (.pcie 0) F.PCIE_CTRL_CFG_READY 1 |>.put .fnmgr F.FNM_CTRL_SPLIT 8).setFn 1024 { vfEnable := true, numVfs := 2 })
  let k : Fin 2 := 0
  (s.cfgReach (1024 + k.val) = true) ∧ ((s.fnS (1024 + k.val)).vfEnable = true) := by decide

/-- Hypotheses of `d3hotEntry` in `FunctionRequests`. -/
theorem witness_d3hotEntry :
  let s : State := (State.reset |>.put (.pcie 0) F.PCIE_STAT_LINK_UP 1 |>.put (.pcie 0) F.PCIE_CTRL_CFG_READY 1)
  let f : Fin 1026 := 1024
  (s.cfgReach f.val = true) := by decide

/-- Hypotheses of `barTable` in `FunctionRequests`. -/
theorem witness_barTable :
  let s : State := ((State.reset |>.put (.pcie 0) F.PCIE_STAT_LINK_UP 1 |>.put (.pcie 0) F.PCIE_CTRL_CFG_READY 1).setFn 1024 { mse := true })
  let f : Fin 1026 := 1024
  let o : Nat := 16
  let n : Nat := 4
  let off : Nat := 0x80010
  (s.memReach f.val = true) ∧ (badBar (isPf f.val) ⟨off, n, none, false, false⟩ = false) ∧ (barPart (isPf f.val) off = .table o) := by decide

/-- Hypotheses of `barAccess` in `FunctionRequests`. -/
theorem witness_barAccess :
  let s : State := ((State.reset |>.put (.pcie 0) F.PCIE_STAT_LINK_UP 1 |>.put (.pcie 0) F.PCIE_CTRL_CFG_READY 1).setFn 1024 { mse := true })
  let f : Fin 1026 := 1024
  let n : Nat := 4
  let off : Nat := 0x40
  (s.memReach f.val = true) ∧ (badBar (isPf f.val) ⟨off, n, none, false, false⟩ = false) ∧ (barPart (isPf f.val) off = .page) := by decide

/-- Hypotheses of `barUr` in `FunctionRequests`. -/
theorem witness_barUr :
  let s : State := ((State.reset |>.put (.pcie 0) F.PCIE_STAT_LINK_UP 1 |>.put (.pcie 0) F.PCIE_CTRL_CFG_READY 1).setFn 1024 { mse := true })
  let f : Fin 1026 := 1024
  let r : BarReq := ⟨0, 16, none, false, false⟩
  (s.memReach f.val = true) ∧ (badBar (isPf f.val) r = true) := by decide

/-- Hypotheses of `barPoisoned` in `FunctionRequests`. -/
theorem witness_barPoisoned :
  let s : State := ((State.reset |>.put (.pcie 0) F.PCIE_STAT_LINK_UP 1 |>.put (.pcie 0) F.PCIE_CTRL_CFG_READY 1).setFn 1024 { mse := true })
  let f : Fin 1026 := 1024
  let r : BarReq := ⟨0x40, 4, some 7, true, false⟩
  let v : Nat := 7
  (s.memReach f.val = true) ∧ (badBar (isPf f.val) r = false) ∧ (r.write = some v) ∧ (r.poisoned = true) := by decide

/-- Hypotheses of `fnCreate` in `FunctionTable`. -/
theorem witness_fnCreate :
  let s : State := (State.reset |>.put .fnmgr F.FNT_QUEUES 2 5 |>.put .fnmgr F.FNT_VECTORS 3 5 |>.put .fnmgr F.FNT_SHARE 1 5)
  let f : Fin 1024 := 5
  (s.fnCreated f.val = false) ∧ (s.fnPoolsOk f.val = true) := by decide +kernel

/-- Hypotheses of `fnCreateRefused` in `FunctionTable`. -/
theorem witness_fnCreateRefused :
  let s : State := State.reset
  let f : Fin 1024 := 5
  (s.fnCreated f.val = false) ∧ (s.fnPoolsOk f.val = false) := by decide +kernel

/-- Hypotheses of `fnFree` in `FunctionTable`. -/
theorem witness_fnFree :
  let s : State := (State.reset |>.put .fnmgr F.FNT_STATE 1 5)
  let f : Fin 1024 := 5
  (s.fnCreated f.val = true) ∧ (s.fnLive f.val = false) ∧ (s.fnBusy f.val = false) := by decide

/-- Hypotheses of `fnFreeRefused` in `FunctionTable`. -/
theorem witness_fnFreeRefused :
  let s : State := ({ (State.reset |>.put .fnmgr F.FNT_STATE 1 5).setQueue 5 0 { admitted := [7] } with mode := .twelve })
  let f : Fin 1024 := 5
  (s.fnCreated f.val = true) ∧ (s.fnLive f.val = true ∨ s.fnBusy f.val = true) := by decide

/-- Hypotheses of `xferRingEnable` in `Transfers`. -/
theorem witness_xferRingEnable :
  let s : State := (State.reset |>.put (.pcie 0) F.XQ_CFG_LOG2N 4 2 |>.put (.pcie 0) F.XC_CFG_LOG2N 12 2)
  let k : Fin 2 := 0
  let r : Fin 16 := 2
  (4 ≤ s.get (.pcie k) F.XQ_CFG_LOG2N r.val) ∧ (s.get (.pcie k) F.XQ_CFG_LOG2N r.val ≤ 12) ∧ (4 ≤ s.get (.pcie k) F.XC_CFG_LOG2N r.val) ∧ (s.get (.pcie k) F.XC_CFG_LOG2N r.val ≤ 12) := by decide

/-- Hypotheses of `xferRingBad` in `Transfers`. -/
theorem witness_xferRingBad :
  let s : State := (State.reset |>.put (.pcie 0) F.XQ_CFG_LOG2N 3 2)
  let k : Fin 2 := 0
  let r : Fin 16 := 2
  (s.get (.pcie k) F.XQ_CFG_LOG2N r.val < 4 ∨ 12 < s.get (.pcie k) F.XC_CFG_LOG2N r.val) := by decide

/-- Hypotheses of `xferRingDisable` in `Transfers`. -/
theorem witness_xferRingDisable :
  let s : State := (State.reset |>.put (.pcie 0) F.XR_CTRL_EN 1 2)
  let k : Fin 2 := 0
  let r : Fin 16 := 2
  ((s.xring k.val r.val).fetched = none) := by decide

set_option maxRecDepth 100000 in
/-- Hypotheses of `hostRead` in `Transfers`. -/
theorem witness_hostRead :
  let s : State := ((State.reset |>.put (.pcie 0) F.XR_CTRL_EN 1 2 |>.put (.pcie 0) F.XC_CFG_LOG2N 4 2 |>.put (.pcie 0) F.PCIE_STAT_LINK_UP 1).setXring 0 2 { fetched := some (3, ⟨7, 1, 0, true, false, 4, 0x1000, 0x2000, false⟩), run := true }).setFn 1024 { bme := true }
  let k : Fin 2 := 0
  let r : Fin 16 := 2
  let idx : Nat := 3
  let g : Nat := 0
  let d : XferDesc := ⟨7, 1, 0, true, false, 4, 0x1000, 0x2000, false⟩
  ((s.xring k.val r.val).fetched = some (idx, d)) ∧ (d.op = 1) ∧ ((s.xring k.val r.val).doom = none) ∧ (s.xferMay k r.val = true) ∧ (s.xferRefusal k d = none) ∧ (((s.xring k.val r.val).active.all fun x => x.idx != idx) = true) ∧ (s.xfersReady k = []) ∧ (d.haddr % 4096 + d.len ≤ 4096) ∧ (d.len ≤ (s.fnS (1024 + k.val)).maxRead) ∧ (freeReqTag (s.portS k.val) = some g) := by decide +kernel

/-- Hypotheses of `hostWrite` in `Transfers`. -/
theorem witness_hostWrite :
  let s : State := ((State.reset |>.put (.pcie 0) F.XR_CTRL_EN 1 2 |>.put (.pcie 0) F.XC_CFG_LOG2N 4 2 |>.put (.pcie 0) F.PCIE_STAT_LINK_UP 1).setXring 0 2 { fetched := some (3, ⟨7, 2, 0, true, false, 4, 0x1000, 0x2000, false⟩), run := true }).setFn 1024 { bme := true }
  let k : Fin 2 := 0
  let r : Fin 16 := 2
  let idx : Nat := 3
  let d : XferDesc := ⟨7, 2, 0, true, false, 4, 0x1000, 0x2000, false⟩
  ((s.xring k.val r.val).fetched = some (idx, d)) ∧ (d.op = 2) ∧ ((s.xring k.val r.val).doom = none) ∧ (s.xferMay k r.val = true) ∧ (s.xferRefusal k d = none) ∧ (((s.xring k.val r.val).active.all fun x => x.idx != idx) = true) ∧ (s.xfersReady k = []) ∧ (d.haddr % 4096 + d.len ≤ 4096) := by decide

/-- Hypotheses of `hostCompletion` in `Transfers`. -/
theorem witness_hostCompletion :
  let s : State := ((State.reset |>.put (.pcie 0) F.PCIE_STAT_LINK_UP 1 |>.put (.pcie 0) F.XC_CFG_LOG2N 4 2 |>.put (.pcie 0) F.XC_CFG_BASE 0xE000000 2).setXring 0 2 { active := [{ idx := 3, d := ⟨7, 1, 0, true, false, 4, 0x1000, 0x2000, false⟩, fn := 1024, next := 4 }], run := true }).setPort 0 { reqs := [⟨9, 1024, 2, 3, 0, 4, 0⟩] }
  let k : Fin 2 := 0
  let q : HostReqS := ⟨9, 1024, 2, 3, 0, 4, 0⟩
  let x : Xfer := { idx := 3, d := ⟨7, 1, 0, true, false, 4, 0x1000, 0x2000, false⟩, fn := 1024, next := 4 }
  let data : List Byte := [1, 2, 3, 4]
  (q.tag < 1024) ∧ ((s.portS k.val).reqs = [q]) ∧ ((s.xring k.val q.ring).active = [x]) ∧ (x.idx = q.idx) ∧ (x.d.len ≤ x.next) ∧ ((∀ r : Fin 16, r.val = q.ring ∨ (s.xring k.val r.val).active = [])) := by decide

/-- Hypotheses of `hostCompletionUr` in `Transfers`. -/
theorem witness_hostCompletionUr :
  let s : State := ((State.reset |>.put (.pcie 0) F.PCIE_STAT_LINK_UP 1 |>.put (.pcie 0) F.XC_CFG_LOG2N 4 2 |>.put (.pcie 0) F.XC_CFG_BASE 0xE000000 2).setXring 0 2 { active := [{ idx := 3, d := ⟨7, 1, 0, true, false, 4, 0x1000, 0x2000, false⟩, fn := 1024, next := 4 }], run := true }).setPort 0 { reqs := [⟨9, 1024, 2, 3, 0, 4, 0⟩] }
  let k : Fin 2 := 0
  let q : HostReqS := ⟨9, 1024, 2, 3, 0, 4, 0⟩
  let x : Xfer := { idx := 3, d := ⟨7, 1, 0, true, false, 4, 0x1000, 0x2000, false⟩, fn := 1024, next := 4 }
  let data : List Byte := []
  (q.tag < 1024) ∧ ((s.portS k.val).reqs = [q]) ∧ ((s.xring k.val q.ring).active = [x]) ∧ (x.idx = q.idx) ∧ (x.status = 0) ∧ (q.ring < 16) := by decide

/-- Hypotheses of `xferDone` in `Transfers`. -/
theorem witness_xferDone :
  let s : State := ((State.reset |>.put (.pcie 0) F.PCIE_STAT_LINK_UP 1 |>.put (.pcie 0) F.XC_CFG_LOG2N 4 2 |>.put (.pcie 0) F.XC_CFG_BASE 0xE000000 2).setXring 0 2 { active := [{ idx := 3, d := ⟨7, 1, 0, true, false, 4, 0x1000, 0x2000, false⟩, fn := 1024, next := 4 }], run := true })
  let k : Fin 2 := 0
  let r : Fin 16 := 2
  let x : Xfer := { idx := 3, d := ⟨7, 1, 0, true, false, 4, 0x1000, 0x2000, false⟩, fn := 1024, next := 4 }
  ((s.xring k.val r.val).active = [x]) ∧ (s.xferReqs k r.val x.idx = []) ∧ (x.stop = true ∨ x.d.len ≤ x.next) ∧ ((∀ q : Fin 16, q = r ∨ (s.xring k.val q.val).active = [])) := by decide

set_option maxRecDepth 100000 in
/-- Hypotheses of `xferDoneWrite` in `Transfers`. -/
theorem witness_xferDoneWrite :
  let s : State := ((State.reset |>.put (.pcie 0) F.XR_CTRL_EN 1 2 |>.put (.pcie 0) F.XC_CFG_LOG2N 4 2 |>.put (.pcie 0) F.XC_CFG_BASE 0xE000000 2 |>.put (.pcie 0) F.PCIE_STAT_LINK_UP 1).setXring 0 2 { active := [{ idx := 3, d := ⟨7, 2, 0, true, false, 4, 0x1000, 0x2000, false⟩, fn := 1024 }], run := true }).setFn 1024 { bme := true }
  let k : Fin 2 := 0
  let r : Fin 16 := 2
  let x : Xfer := { idx := 3, d := ⟨7, 2, 0, true, false, 4, 0x1000, 0x2000, false⟩, fn := 1024 }
  let ans := (s.clean.masterRead 8 (.pcie 0) 0x2000 4).2
  ((s.xring k.val r.val).active = [x]) ∧ ((∀ q : Fin 16, q = r ∨ (s.xring k.val q.val).active = [])) ∧ (s.xferReqs k r.val x.idx = []) ∧ (x.d.op = 2) ∧ (x.stop = false) ∧ (x.next = 0) ∧ (0 < x.d.len) ∧ (x.d.haddr % 4096 + x.d.len ≤ 4096) ∧ (x.d.len ≤ (s.fnS (1024 + k.val)).maxPayload) ∧ (s.mayIssue k x.fn = true) ∧ ((s.clean.masterRead (8 + k.val) (.pcie k) x.d.daddr x.d.len).2 = ans) := by decide +kernel

/-- Hypotheses of `hostReadTimeout` in `Transfers`. -/
theorem witness_hostReadTimeout :
  let s : State := ((State.reset |>.put (.pcie 0) F.PCIE_STAT_LINK_UP 1 |>.put (.pcie 0) F.XC_CFG_LOG2N 4 2 |>.put (.pcie 0) F.XC_CFG_BASE 0xE000000 2).setXring 0 2 { active := [{ idx := 3, d := ⟨7, 1, 0, true, false, 4, 0x1000, 0x2000, false⟩, fn := 1024, next := 4 }], run := true }).setPort 0 { reqs := [⟨9, 1024, 2, 3, 0, 4, 0⟩] }
  let k : Fin 2 := 0
  let q : HostReqS := ⟨9, 1024, 2, 3, 0, 4, 0⟩
  let x : Xfer := { idx := 3, d := ⟨7, 1, 0, true, false, 4, 0x1000, 0x2000, false⟩, fn := 1024, next := 4 }
  (q.tag < 1024) ∧ ((s.portS k.val).reqs = [q]) ∧ ((s.xring k.val q.ring).active = [x]) ∧ (x.idx = q.idx) := by decide

/-- Hypotheses of `verReqWrite` in `QueueCommands`. -/
theorem witness_verReqWrite :
  let s : State := (State.reset)
  let f : Fin 1026 := 1024
  let v : Fin 256 := 5
  (((List.range 8).any fun q => s.on (.fn f) F.QSTAT_ENABLED q) = false) := by decide

/-- Hypotheses of `queueEnable` in `QueueCommands`. -/
theorem witness_queueEnable :
  let s : State := ((State.reset |>.put (.fn 1024) F.QP_CTRL_VER 2 |>.put (.fn 1024) F.QP_SQ_LOG2N 4 2 |>.put (.fn 1024) F.QP_CQ_LOG2N 5 2 |>.put (.fn 1024) F.QCTRL_CLASS 2 2 |>.put (.pcie 0) F.PCIE_PM_PF_QUEUES 4 |>.put (.pcie 0) F.PCIE_STAT_LINK_UP 1).setFn 1024 { bme := true })
  let f : Fin 1026 := 1024
  let q : Fin 8 := 2
  ((s.queue f.val q.val).draining = false) ∧ (s.on (.fn f) F.QSTAT_ENABLED q.val = false) ∧ (s.enableRefused f.val q.val = false) := by decide

/-- Hypotheses of `queueEnableRefused` in `QueueCommands`. -/
theorem witness_queueEnableRefused :
  let s : State := (State.reset)
  let f : Fin 1026 := 1024
  let q : Fin 8 := 2
  ((s.queue f.val q.val).draining = false) ∧ (s.on (.fn f) F.QSTAT_ENABLED q.val = false) ∧ (s.enableRefused f.val q.val = true) := by decide

/-- Hypotheses of `queueDisable` in `QueueCommands`. -/
theorem witness_queueDisable :
  let s : State := (State.reset |>.put (.fn 1024) F.QSTAT_ENABLED 1 2 |>.put (.fn 1024) F.QCTRL_EN 1 2)
  let f : Fin 1026 := 1024
  let q : Fin 8 := 2
  (s.on (.fn f) F.QSTAT_FROZEN q.val = false) ∧ (s.on (.fn f) F.QSTAT_ENABLED q.val = true) ∧ ((s.queue f.val q.val).draining = false) := by decide

/-- Hypotheses of `queueEnableDraining` in `QueueCommands`. -/
theorem witness_queueEnableDraining :
  let s : State := ((State.reset |>.put (.fn 1024) F.QSTAT_ENABLED 1 2).setQueue 1024 2 { draining := true })
  let f : Fin 1026 := 1024
  let q : Fin 8 := 2
  ((s.queue f.val q.val).draining = true) := by decide

/-- Hypotheses of `queueDisableDrained` in `QueueCommands`. -/
theorem witness_queueDisableDrained :
  let s : State := ((State.reset |>.put (.fn 1024) F.QSTAT_ENABLED 1 2).setQueue 1024 2 { draining := true })
  let f : Fin 1026 := 1024
  let q : Fin 8 := 2
  ((s.queue f.val q.val).draining = true) ∧ (busyTags (s.queue f.val q.val) = []) ∧ (s.on (.fn f) F.QCTRL_EN q.val = false) := by decide

/-- Hypotheses of `sqTail` in `QueueCommands`. -/
theorem witness_sqTail :
  let s : State := (State.reset |>.put (.fn 1024) F.QSTAT_ENABLED 1 2 |>.put (.fn 1024) F.QP_SQ_LOG2N 4 2 |>.put (.pcie 0) F.PCIE_PM_PF_QUEUES 4 |>.put (.pcie 0) F.PCIE_STAT_LINK_UP 1)
  let f : Fin 1026 := 1024
  let q : Fin 8 := 2
  let v : Fin 65536 := 9
  (s.qEnabled f.val q.val = true) ∧ (s.on (.fn f) F.QSTAT_FROZEN q.val = false) ∧ (q.val < s.fnQueues f.val) ∧ (v.val < 2 ^ s.get (.fn f) F.QP_SQ_LOG2N q.val) := by decide

/-- Hypotheses of `cqHead` in `QueueCommands`. -/
theorem witness_cqHead :
  let s : State := (State.reset |>.put (.fn 1024) F.QSTAT_ENABLED 1 2 |>.put (.fn 1024) F.QP_CQ_LOG2N 5 2 |>.put (.pcie 0) F.PCIE_PM_PF_QUEUES 4 |>.put (.pcie 0) F.PCIE_STAT_LINK_UP 1)
  let f : Fin 1026 := 1024
  let q : Fin 8 := 2
  let v : Fin 65536 := 9
  (s.qEnabled f.val q.val = true) ∧ (q.val < s.fnQueues f.val) ∧ (v.val < 2 ^ s.get (.fn f) F.QP_CQ_LOG2N q.val) ∧ ((s.queue f.val q.val).held = []) := by decide

/-- Hypotheses of `sqTailRange` in `QueueCommands`. -/
theorem witness_sqTailRange :
  let s : State := (State.reset |>.put (.fn 1024) F.QSTAT_ENABLED 1 2 |>.put (.fn 1024) F.QP_SQ_LOG2N 4 2 |>.put (.fn 1024) F.QP_CQ_LOG2N 5 2 |>.put (.pcie 0) F.PCIE_PM_PF_QUEUES 4 |>.put (.pcie 0) F.PCIE_STAT_LINK_UP 1)
  let f : Fin 1026 := 1024
  let q : Fin 8 := 2
  let v : Fin 65536 := 99
  (s.qEnabled f.val q.val = true) ∧ (q.val < s.fnQueues f.val) ∧ (2 ^ s.get (.fn f) F.QP_SQ_LOG2N q.val ≤ v.val) ∧ (s.on (.fn f) F.QSTAT_FROZEN q.val = false) := by decide

/-- Hypotheses of `cqHeadRange` in `QueueCommands`. -/
theorem witness_cqHeadRange :
  let s : State := (State.reset |>.put (.fn 1024) F.QSTAT_ENABLED 1 2 |>.put (.fn 1024) F.QP_SQ_LOG2N 4 2 |>.put (.fn 1024) F.QP_CQ_LOG2N 5 2 |>.put (.pcie 0) F.PCIE_PM_PF_QUEUES 4 |>.put (.pcie 0) F.PCIE_STAT_LINK_UP 1)
  let f : Fin 1026 := 1024
  let q : Fin 8 := 2
  let v : Fin 65536 := 99
  (s.qEnabled f.val q.val = true) ∧ (q.val < s.fnQueues f.val) ∧ (2 ^ s.get (.fn f) F.QP_CQ_LOG2N q.val ≤ v.val) ∧ (s.on (.fn f) F.QSTAT_FROZEN q.val = false) := by decide

set_option maxRecDepth 100000 in
/-- Hypotheses of `sqFetch` in `QueueCommands`. -/
theorem witness_sqFetch :
  let s : State := (((State.reset |>.put (.fn 1024) F.QSTAT_ENABLED 1 2 |>.put (.fn 1024) F.QP_SQ_LOG2N 4 2 |>.put (.pcie 0) F.PCIE_PM_PF_QUEUES 4 |>.put (.pcie 0) F.PCIE_STAT_LINK_UP 1).setQueue 1024 2 { sqTail := 3 }).setFn 1024 { bme := true })
  let f : Fin 1026 := 1024
  let q : Fin 8 := 2
  let g : Nat := 0
  let bs : List Byte := (List.replicate 64 (0 : Byte))
  (s.qFetches f.val q.val = true) ∧ (s.fatalStop = false) ∧ (freeReqTag (s.portS (s.fnPort f.val).val) = some g) ∧ (bs.length = 64) ∧ (bitsOf (leNat (bs.take 4)) 5 3 = 0) ∧ (bitsOf (leNat (bs.take 4)) 17 15 = 0) ∧ ((busyTags (s.queue f.val q.val)).contains (bitsOf (leNat (bs.take 4)) 0 5) = false) := by decide +kernel

set_option maxRecDepth 100000 in
/-- Hypotheses of `sqFetchError` in `QueueCommands`. -/
theorem witness_sqFetchError :
  let s : State := (((State.reset |>.put (.fn 1024) F.QSTAT_ENABLED 1 2 |>.put (.fn 1024) F.QP_SQ_LOG2N 4 2 |>.put (.pcie 0) F.PCIE_PM_PF_QUEUES 4 |>.put (.pcie 0) F.PCIE_STAT_LINK_UP 1).setQueue 1024 2 { sqTail := 3 }).setFn 1024 { bme := true })
  let f : Fin 1026 := 1024
  let q : Fin 8 := 2
  let g : Nat := 0
  (s.qFetches f.val q.val = true) ∧ (s.fatalStop = false) ∧ (freeReqTag (s.portS (s.fnPort f.val).val) = some g) := by decide +kernel

set_option maxRecDepth 100000 in
/-- Hypotheses of `sqFetchBusy` in `QueueCommands`. -/
theorem witness_sqFetchBusy :
  let s : State := (((State.reset |>.put (.fn 1024) F.QSTAT_ENABLED 1 2 |>.put (.fn 1024) F.QP_SQ_LOG2N 4 2 |>.put (.pcie 0) F.PCIE_PM_PF_QUEUES 4 |>.put (.pcie 0) F.PCIE_STAT_LINK_UP 1).setQueue 1024 2 { sqTail := 3, fetched := [⟨0, false, [], 0⟩, ⟨1, false, [], 0⟩] }).setFn 1024 { bme := true })
  let f : Fin 1026 := 1024
  let q : Fin 8 := 2
  let g : Nat := 0
  let bs : List Byte := (List.replicate 64 (0 : Byte))
  (s.qFetches f.val q.val = true) ∧ (s.fatalStop = false) ∧ (freeReqTag (s.portS (s.fnPort f.val).val) = some g) ∧ (bs.length = 64) ∧ (bitsOf (leNat (bs.take 4)) 5 3 = 0) ∧ (bitsOf (leNat (bs.take 4)) 17 15 = 0) ∧ ((busyTags (s.queue f.val q.val)).contains (bitsOf (leNat (bs.take 4)) 0 5) = true) := by decide +kernel

/-- Hypotheses of `hgAdmission` in `Headgate`. -/
theorem witness_hgAdmission :
  let s : State := { ((State.reset |>.put (.fn 1024) F.QSTAT_ENABLED 1 2 |>.put (.fn 1024) F.QCTRL_CLASS 2 2 |>.put (.pcie 0) F.PCIE_PM_PF_QUEUES 4 |>.put (.pcie 0) F.PCIE_STAT_LINK_UP 1 |>.put .headgate F.HG_CTRL_EN 1 |>.put .headgate F.IN_CFG_LOG2N 4 2).setQueue 1024 2 { fetched := [⟨3, false, [], 0⟩] }) with hg := { run := true } }
  let f : Nat := 1024
  let q : Nat := 2
  let c : Nat := 2
  let e : CmdEntry := ⟨3, false, [], 0⟩
  let es : List CmdEntry := []
  (s.on .headgate F.HG_CTRL_EN = true) ∧ (s.hg.run = true) ∧ (s.on .headgate F.HG_CTRL_PAUSE = false) ∧ (s.fatalStop = false) ∧ (s.candidates = [(f, q, c)]) ∧ (c < 4) ∧ ((s.queue f q).fetched = e :: es) := by decide

/-- Hypotheses of `postConsume` in `Headgate`. -/
theorem witness_postConsume :
  let s : State := (((State.reset |>.put .headgate F.PQ_TAIL 1 1 |>.put .headgate F.PQ_CFG_LOG2N 4 1 |>.put .headgate F.PQ_CFG_BASE 0xE000000 1 |>.put (.pcie 0) F.PCIE_STAT_LINK_UP 1 |>.put (.pcie 1) F.PCIE_STAT_LINK_UP 1 |>.put (.fn 0) F.QSTAT_ENABLED 1 |>.put (.fn 0) F.QP_CQ_LOG2N 5).setQueue 0 0 { admitted := [0, 4] }).setFn 0 { bme := true })
  let p : Fin 4 := 1
  let f : Fin 1024 := 0
  let q : Fin 8 := 0
  let tag : Fin 32 := 0
  let r : State × MemAns := s.clean.masterRead 10 .headgate (ringAt (s.get .headgate F.PQ_CFG_BASE p.val) (s.get .headgate F.PQ_CFG_LOG2N p.val) 32 (s.get .headgate F.PQ_HEAD p.val)) 32
  let bs := (r.2.data?.getD [])
  (s.get .headgate F.PQ_HEAD p.val ≠ s.get .headgate F.PQ_TAIL p.val) ∧ (r.2.data? = some bs) ∧ (bitsOf (wordAt bs 0) 0 12 = f.val) ∧ (bitsOf (wordAt bs 0) 12 3 = q.val) ∧ (bitsOf (wordAt bs 0) 15 5 = tag.val) ∧ (bitsOf (wordAt bs 0) 20 12 = 0) ∧ (bitsOf (wordAt bs 0) 48 16 = 0) ∧ (wordAt bs 2 = 0) ∧ (wordAt bs 3 = 0) ∧ ((s.queue f.val q.val).admitted.contains tag.val = true) ∧ (s.qEnabled f.val q.val = true) ∧ ((s.fnS f.val).bme = true) ∧ (s.linkUp (s.fnPort f.val) = true) ∧ ((s.fnS f.val).resetting = false) ∧ (s.cqFull f.val q.val = false) ∧ ((s.queue f.val q.val).held = []) := by decide

/-- Hypotheses of `postRejected` in `Headgate`. -/
theorem witness_postRejected :
  let s : State := (State.reset |>.put .headgate F.PQ_TAIL 1 1 |>.put .headgate F.PQ_CFG_LOG2N 4 1 |>.put .headgate F.PQ_CFG_BASE 0xE000000 1 |>.put (.pcie 0) F.PCIE_STAT_LINK_UP 1 |>.put (.pcie 1) F.PCIE_STAT_LINK_UP 1)
  let p : Fin 4 := 1
  let f : Fin 1024 := 0
  let q : Fin 8 := 0
  let tag : Fin 32 := 0
  let r : State × MemAns := s.clean.masterRead 10 .headgate (ringAt (s.get .headgate F.PQ_CFG_BASE p.val) (s.get .headgate F.PQ_CFG_LOG2N p.val) 32 (s.get .headgate F.PQ_HEAD p.val)) 32
  let bs := (r.2.data?.getD [])
  (s.get .headgate F.PQ_HEAD p.val ≠ s.get .headgate F.PQ_TAIL p.val) ∧ (r.2.data? = some bs) ∧ (bitsOf (wordAt bs 0) 0 12 = f.val) ∧ (bitsOf (wordAt bs 0) 12 3 = q.val) ∧ (bitsOf (wordAt bs 0) 15 5 = tag.val) ∧ ((s.queue f.val q.val).admitted.contains tag.val = false) := by decide

/-- Hypotheses of `coalesceTimeout` in `Headgate`. -/
theorem witness_coalesceTimeout :
  let s : State := ((State.reset).setQueue 1024 2 { coal := 2 })
  let f : Fin 1026 := 1024
  let q : Fin 8 := 2
  ((s.queue f.val q.val).coal ≠ 0) := by decide

/-- Hypotheses of `hgRestart` in `Headgate`. -/
theorem witness_hgRestart :
  let s : State := (State.reset |>.put (.fn 1024) F.QSTAT_FROZEN 1 2 |>.put (.fn 1024) F.QSTAT_ENABLED 1 2 |>.put (.fn 1024) F.QSTAT_CAUSE 8 2 |>.put (.pcie 0) F.PCIE_PM_PF_QUEUES 4 |>.put (.pcie 0) F.PCIE_STAT_LINK_UP 1)
  let fn : Fin 1024 := 0
  let pf : Bool := true
  let port : Fin 2 := 0
  let q : Fin 8 := 2
  (s.on (.fn (fnOf (hgFn fn pf port))) F.QSTAT_FROZEN q.val = true) ∧ (s.restartFree (hgFn fn pf port) (s.get (.fn (fnOf (hgFn fn pf port))) F.QSTAT_CAUSE q.val) = true) ∧ ((s.queue (hgFn fn pf port) q.val).admitted = []) := by decide

/-- Hypotheses of `hgRestartRefused` in `Headgate`. -/
theorem witness_hgRestartRefused :
  let s : State := (State.reset |>.put (.pcie 0) F.PCIE_PM_PF_QUEUES 4 |>.put (.pcie 0) F.PCIE_STAT_LINK_UP 1)
  let fn : Fin 1024 := 0
  let pf : Bool := true
  let port : Fin 2 := 0
  let q : Fin 8 := 2
  (s.on (.fn (fnOf (hgFn fn pf port))) F.QSTAT_FROZEN q.val = false) := by decide

/-- Hypotheses of `hgRestartMet` in `Headgate`. -/
theorem witness_hgRestartMet :
  let s : State := (State.reset |>.put (.fn 1024) F.QSTAT_FROZEN 1 2 |>.put (.fn 1024) F.QSTAT_CAUSE 8 2 |>.put (.pcie 0) F.PCIE_PM_PF_QUEUES 4 |>.put (.pcie 0) F.PCIE_STAT_LINK_UP 1)
  let fn : Fin 1024 := 0
  let pf : Bool := true
  let port : Fin 2 := 0
  let q : Fin 8 := 2
  let cause : Fin 11 := 9
  (s.on (.fn (fnOf (hgFn fn pf port))) F.QSTAT_FROZEN q.val = true) ∧ (cause ≠ 2) := by decide

/-- Hypotheses of `hgEnable` in `Headgate`. -/
theorem witness_hgEnable :
  let s : State := (State.reset |>.put .headgate F.IN_CFG_LOG2N 5 0 |>.put .headgate F.IN_CFG_LOG2N 5 1 |>.put .headgate F.IN_CFG_LOG2N 5 2 |>.put .headgate F.IN_CFG_LOG2N 5 3 |>.put .headgate F.PQ_CFG_LOG2N 5 0 |>.put .headgate F.PQ_CFG_LOG2N 5 1 |>.put .headgate F.PQ_CFG_LOG2N 5 2 |>.put .headgate F.PQ_CFG_LOG2N 5 3)
  ((∀ c : Fin 4, 4 ≤ s.get .headgate F.IN_CFG_LOG2N c.val ∧ s.get .headgate F.IN_CFG_LOG2N c.val ≤ 12 ∧ 4 ≤ s.get .headgate F.PQ_CFG_LOG2N c.val ∧ s.get .headgate F.PQ_CFG_LOG2N c.val ≤ 12)) := by decide

/-- Hypotheses of `hgEnableBad` in `Headgate`. -/
theorem witness_hgEnableBad :
  let s : State := (State.reset |>.put .headgate F.IN_CFG_LOG2N 3 1)
  (¬ (∀ c : Fin 4, 4 ≤ s.get .headgate F.IN_CFG_LOG2N c.val ∧ s.get .headgate F.IN_CFG_LOG2N c.val ≤ 12 ∧ 4 ≤ s.get .headgate F.PQ_CFG_LOG2N c.val ∧ s.get .headgate F.PQ_CFG_LOG2N c.val ≤ 12)) := by decide

/-- Hypotheses of `mbCommit` in `Mailboxes`. -/
theorem witness_mbCommit :
  let s : State := (State.reset |>.put .mbox F.UNIT_READY_READY 1)
  let e : MbEnd := (.secure 3)
  let w3 : Nat := 0x12345
  (s.mbRefused e = false) := by decide

/-- Hypotheses of `take` in `Mailboxes`. -/
theorem witness_take :
  let s : State := (State.reset |>.put .mbox F.MBS_STAT_IN_FULL 1 3)
  let e : MbEnd := (.secure 3)
  (s.mbOn e (mbFlds e).full = true) := by decide

/-- Hypotheses of `takeEmpty` in `Mailboxes`. -/
theorem witness_takeEmpty :
  let s : State := State.reset
  let e : MbEnd := (.secure 3)
  (s.mbOn e (mbFlds e).full = false) := by decide

/-- Hypotheses of `mbTimeout` in `Mailboxes`. -/
theorem witness_mbTimeout :
  let s : State := { (State.reset |>.put .mbox F.MBS_STAT_OUT_FULL 1 3) with mbTmo := [(.secure 3, 9)] }
  let e : MbEnd := (.secure 3)
  (s.mbOn e (mbFlds e).outFull = true) ∧ (s.mbDue e ≠ 0) ∧ (s.mbHeld.contains (mbPeer e) = false) := by decide

/-- Hypotheses of `mbDeliverHeld` in `Mailboxes`. -/
theorem witness_mbDeliverHeld :
  let s : State := { (State.reset |>.put .mbox F.UNIT_READY_READY 1) with mbHeld := [.secure 3, .secure 4] }
  let e : MbEnd := (.secure 3)
  (s.mbHeld.contains e = true) ∧ (s.mbReady e = true) := by decide

/-- Hypotheses of `smbMbWrite` in `Mailboxes`. -/
theorem witness_smbMbWrite :
  let s : State := { State.reset with mode := .twelve }
  let bytes : List Byte := [1, 2, 3, 4, 5, 6, 7, 8, 9, 10, 11, 12, 13, 14, 15, 16]
  (s.isOff = false) ∧ (s.mode ≠ .keep) ∧ (bytes.length = 16) := by decide

/-- Hypotheses of `smbMbWriteBad` in `Mailboxes`. -/
theorem witness_smbMbWriteBad :
  let s : State := { State.reset with mode := .twelve }
  let bytes : List Byte := [1, 2]
  (s.isOff = false) ∧ (bytes.length ≠ 16) := by decide

/-- Hypotheses of `smbMbRead` in `Mailboxes`. -/
theorem witness_smbMbRead :
  let s : State := { State.reset with mode := .twelve }
  (s.isOff = false) := by decide

/-- Hypotheses of `smbMbStat` in `Mailboxes`. -/
theorem witness_smbMbStat :
  let s : State := { State.reset with mode := .twelve }
  (s.isOff = false) := by decide

/-- Hypotheses of `smbMbFlags` in `Mailboxes`. -/
theorem witness_smbMbFlags :
  let s : State := { (State.reset |>.put .mbox bmcFlds.full 1 |>.put .mbox bmcFlds.inMsg 1) with mode := .twelve }
  let data : Byte := 7
  (s.isOff = false) := by decide

/-- Hypotheses of `pwronRise` in `SupplyAndTemperature`. -/
theorem witness_pwronRise :
  let s : State := State.reset
  let straps : Fin 4 := 2
  (s.isOff = true) := by decide

/-- Hypotheses of `thermalTrip` in `SupplyAndTemperature`. -/
theorem witness_thermalTrip :
  let s : State := { State.reset with mode := .serve }
  let die : DieKind := (.stack 2)
  (s.isOff = false) := by decide

/-- Hypotheses of `thermalWarn` in `SupplyAndTemperature`. -/
theorem witness_thermalWarn :
  let s : State := State.reset
  let die : DieKind := .hub
  let temp : BitVec 8 := 124
  (∀ k : Fin 8, die ≠ .stack k) := by decide

/-- Hypotheses of `smbAddressMatch` in `SupplyAndTemperature`. -/
theorem witness_smbAddressMatch :
  let s : State := { (State.reset |>.put .aon F.AON_WAKE_EN_SMB_MATCH 1) with mode := .keep }
  let addr : Fin 128 := 0x4C
  (s.mode = .keep) ∧ (s.on .aon F.AON_MODE_TRIP_HOLD = false) ∧ (s.on .aon F.AON_WAKE_EN_SMB_MATCH = true) ∧ (addr.val = 0x4C + s.straps) := by decide

/-- Hypotheses of `smbWakeCommand` in `SupplyAndTemperature`. -/
theorem witness_smbWakeCommand :
  let s : State := { State.reset with mode := .keep }
  (s.mode = .keep) ∧ (s.on .aon F.AON_MODE_TRIP_HOLD = false) := by decide

/-- Hypotheses of `smbWakeIgnored` in `SupplyAndTemperature`. -/
theorem witness_smbWakeIgnored :
  let s : State := { State.reset with mode := .keep }
  let data : Byte := 2
  (s.isOff = false) ∧ (data ≠ 1) := by decide

/-- Hypotheses of `aonAlarmMatch` in `SupplyAndTemperature`. -/
theorem witness_aonAlarmMatch :
  let s : State := { (State.reset |>.put .aon F.AON_WAKE_EN_ALARM 1 |>.put .aon F.AON_ALARM 77) with mode := .keep }
  (s.mode = .keep) ∧ (s.on .aon F.AON_MODE_TRIP_HOLD = false) ∧ (s.on .aon F.AON_WAKE_EN_ALARM = true) ∧ (s.get .aon F.AON_ALARM ≠ 0) := by decide

/-- Hypotheses of `smbModeRead` in `SupplyAndTemperature`. -/
theorem witness_smbModeRead :
  let s : State := { State.reset with mode := .serve }
  (s.isOff = false) := by decide

/-- Hypotheses of `sealOpen` in `PresenceAndSeal`. -/
theorem witness_sealOpen :
  let s : State := { State.reset with mode := .serve }
  (s.isOff = false) ∧ (s.mode ≠ .keep) ∧ (s.sealOpen = false) := by decide

/-- Hypotheses of `presencePress` in `PresenceAndSeal`. -/
theorem witness_presencePress :
  let s : State := { State.reset with mode := .serve }
  (s.isOff = false) ∧ (s.mode ≠ .keep) ∧ (s.presence.low = false) := by decide

/-- Hypotheses of `presenceJumper` in `PresenceAndSeal`. -/
theorem witness_presenceJumper :
  let s : State := { (State.reset |>.put .cfg F.CFG_STAT_LCS 1) with presence := { low := true } }
  (s.presence.low = true) ∧ (s.presence.window = false) := by decide

/-- Hypotheses of `pmbusNext` in `WakeSequence`. -/
theorem witness_pmbusNext :
  let s : State := { State.reset with pmb := some ⟨1, .clearFaults, 0, false⟩ }
  let p : PmbS := ⟨1, .clearFaults, 0, false⟩
  let data : BitVec 16 := 0
  (s.pmb = some p) ∧ (p.wait = false) ∧ (s.vin = none) ∧ (p.send = .clearFaults) := by decide

/-- Hypotheses of `pmbusVout` in `WakeSequence`. -/
theorem witness_pmbusVout :
  let s : State := { State.reset with pmb := some ⟨1, .enablePin, 0, false⟩ }
  let p : PmbS := ⟨1, .enablePin, 0, false⟩
  let data : BitVec 16 := 0
  (s.pmb = some p) ∧ (p.wait = false) ∧ (s.vin = none) ∧ (p.send = .enablePin) := by decide

/-- Hypotheses of `pmbusTransactionEnd` in `WakeSequence`. -/
theorem witness_pmbusTransactionEnd :
  let s : State := { State.reset with pmb := some ⟨1, .vout 1800, 0, false⟩ }
  let p : PmbS := ⟨1, .vout 1800, 0, false⟩
  let data : BitVec 16 := 0
  let mv : Nat := 1800
  (s.pmb = some p) ∧ (p.wait = false) ∧ (s.vin = none) ∧ (p.send = .vout mv) := by decide

/-- Hypotheses of `pmbusFails` in `WakeSequence`. -/
theorem witness_pmbusFails :
  let s : State := { State.reset with pmb := some ⟨1, .vout 1800, 0, false⟩ }
  let p : PmbS := ⟨1, .vout 1800, 0, false⟩
  let data : BitVec 16 := 0
  (s.pmb = some p) ∧ (p.wait = false) := by decide

/-- Hypotheses of `pmbusRetryWaitEnd` in `WakeSequence`. -/
theorem witness_pmbusRetryWaitEnd :
  let s : State := { State.reset with pmb := some ⟨1, .vout 1800, 1, true⟩ }
  let p : PmbS := ⟨1, .vout 1800, 1, true⟩
  (s.pmb = some p) ∧ (p.wait = true) ∧ (p.fails < 2) := by decide

/-- Hypotheses of `wakePowerGood` in `WakeSequence`. -/
theorem witness_wakePowerGood :
  let s : State := { State.reset with wake := { step := 1, pgWait := true } }
  let ids : List StackId := []
  (s.mode = .waking) ∧ (s.fatalStop = false) ∧ (s.wake.step = 1) ∧ (s.wake.pgWait = true) := by decide

/-- Hypotheses of `wakeRegulators` in `WakeSequence`. -/
theorem witness_wakeRegulators :
  let s : State := { State.reset with wake := { step := 1, regsUp := true } }
  let ids : List StackId := []
  (s.mode = .waking) ∧ (s.fatalStop = false) ∧ (s.wake.step = 1) ∧ (s.wake.pgWait = false) ∧ (s.wake.regsUp = true) := by decide

/-- Hypotheses of `wakeClocks` in `WakeSequence`. -/
theorem witness_wakeClocks :
  let s : State := { State.reset with wake := { step := 2 } }
  let ids : List StackId := []
  (s.mode = .waking) ∧ (s.fatalStop = false) ∧ (s.wake.step = 2) := by decide

/-- Hypotheses of `wakeMemory` in `WakeSequence`. -/
theorem witness_wakeMemory :
  let s : State := { State.reset with wake := { step := 3 } }
  let ids : List StackId := []
  (s.mode = .waking) ∧ (s.fatalStop = false) ∧ (s.wake.step = 3) := by decide

/-- Hypotheses of `wakeStepReady` in `WakeSequence`. -/
theorem witness_wakeStepReady :
  let s : State := { (State.reset |>.put .hub F.UNIT_READY_READY 1 |>.put .keep F.UNIT_READY_READY 1) with wake := { step := 4 } }
  let ids : List StackId := []
  (s.mode = .waking) ∧ (s.fatalStop = false) ∧ (s.wake.step = 4) ∧ (s.on .hub F.UNIT_READY_READY = true) ∧ (s.on .keep F.UNIT_READY_READY = true) := by decide

/-- Hypotheses of `wakeStepTimeout` in `WakeSequence`. -/
theorem witness_wakeStepTimeout :
  let s : State := { State.reset with wake := { step := 4, attempt := 1 } }
  (s.mode = .waking) ∧ (s.fatalStop = false) ∧ (s.wake.step = 4) := by decide

/-- Hypotheses of `wakeRetryTimer` in `WakeSequence`. -/
theorem witness_wakeRetryTimer :
  let s : State := { State.reset with mode := .keep, wake := { attempt := 1, retry := true } }
  (s.mode = .keep) ∧ (s.wake.retry = true) := by decide

/-- Hypotheses of `tripHoldEnd` in `WakeSequence`. -/
theorem witness_tripHoldEnd :
  let s : State := { (State.reset |>.put .aon F.AON_MODE_TRIP_HOLD 1) with mode := .keep }
  (s.mode = .keep) ∧ (s.wake.held = 0) := by decide

/-- Hypotheses of `tripHoldWake` in `WakeSequence`. -/
theorem witness_tripHoldWake :
  let s : State := { (State.reset |>.put .aon F.AON_MODE_TRIP_HOLD 1) with mode := .keep, wake := { held := 4 } }
  (s.mode = .keep) ∧ (s.wake.held ≠ 0) := by decide

/-- Hypotheses of `serve` in `PowerCommands`. -/
theorem witness_serve :
  let s : State := { State.reset with mode := .twelve }
  let w : World := .normal
  (s.on .aon F.AON_MODE_BUSY = false) ∧ (s.mode = .twelve) := by decide

/-- Hypotheses of `serveFromStill` in `PowerCommands`. -/
theorem witness_serveFromStill :
  let s : State := { State.reset with mode := .still }
  let w : World := .normal
  (s.on .aon F.AON_MODE_BUSY = false) ∧ (s.mode = .still) ∧ (s.vin = none) := by decide

/-- Hypotheses of `still` in `PowerCommands`. -/
theorem witness_still :
  let s : State := { State.reset with mode := .serve }
  let w : World := .normal
  (s.on .aon F.AON_MODE_BUSY = false) ∧ (s.mode = .serve) ∧ (s.vin = none) := by decide

/-- Hypotheses of `shutdown` in `PowerCommands`. -/
theorem witness_shutdown :
  let s : State := { State.reset with mode := .serve }
  let w : World := .normal
  (s.on .aon F.AON_MODE_BUSY = false) ∧ (pwrFrom 3 s.mode = true) ∧ (s.holdsPwr w = false) ∧ (s.stayRecovery = false) ∧ (s.mayShut = true) ∧ (s.tileOp = none) ∧ (s.testing = false) := by decide

/-- Hypotheses of `shutdownWaits` in `PowerCommands`. -/
theorem witness_shutdownWaits :
  let s : State := { State.reset with mode := .serve, tileOp := some ⟨1, 2, 2, 0⟩ }
  let w : World := .normal
  (s.on .aon F.AON_MODE_BUSY = false) ∧ (pwrFrom 3 s.mode = true) ∧ (s.holdsPwr w = false) ∧ (s.stayRecovery = false) ∧ (s.mayShut = true) ∧ (s.tileOp.isSome = true) := by decide

/-- Hypotheses of `restart` in `PowerCommands`. -/
theorem witness_restart :
  let s : State := { State.reset with mode := .serve }
  let w : World := .normal
  (s.on .aon F.AON_MODE_BUSY = false) ∧ (pwrFrom 4 s.mode = true) ∧ (s.holdsPwr w = false) ∧ (s.stayRecovery = false) ∧ (s.tileOp = none) := by decide

/-- Hypotheses of `restartHeld` in `PowerCommands`. -/
theorem witness_restartHeld :
  let s : State := { (State.reset |>.put .pwr F.PWR_HOLD 8) with mode := .serve }
  (s.on .aon F.AON_MODE_BUSY = false) ∧ (pwrFrom 4 s.mode = true) ∧ (s.get .pwr F.PWR_HOLD ≠ 0) := by decide

/-- Hypotheses of `pwrCmdReserved` in `PowerCommands`. -/
theorem witness_pwrCmdReserved :
  let s : State := State.reset
  let op : Fin 16 := 9
  let w : World := .normal
  (s.on .aon F.AON_MODE_BUSY = false) ∧ (op.val = 0 ∨ 4 < op.val) := by decide

/-- Hypotheses of `shutdownProgramEnd` in `PowerCommands`. -/
theorem witness_shutdownProgramEnd :
  let s : State := { State.reset with mode := .shutdownTest, st := { active := some ⟨some 0, 2, []⟩ } }
  let prog : Nat := 0
  let run : Nat := 2
  (s.st.active = some ⟨some prog, run, []⟩) ∧ (s.mode = .shutdownTest) ∧ (s.wake.held = 0) := by decide

/-- Hypotheses of `vinCommanded` in `PowerCommands`. -/
theorem witness_vinCommanded :
  let s : State := { State.reset with mode := .serve, vin := some ⟨1800, 1, .command, none⟩, pmb := some ⟨1, .vout 1800, 0, false⟩ }
  let v : VinS := ⟨1800, 1, .command, none⟩
  let p : PmbS := ⟨1, .vout 1800, 0, false⟩
  let data : BitVec 16 := 0
  (s.vin = some v) ∧ (s.pmb = some p) ∧ (p.wait = false) ∧ (p.send = .vout v.mv) := by decide

/-- Hypotheses of `vinChangeCheck` in `PowerCommands`. -/
theorem witness_vinChangeCheck :
  let s : State := { State.reset with mode := .serve, vin := some ⟨1800, 1, .slew, none⟩, pmb := none }
  let v : VinS := ⟨1800, 1, .slew, none⟩
  let q : Fin 4 := 1
  (s.vin = some v) ∧ (v.stage = .slew) ∧ (v.quarter = q.val) := by decide

/-- Hypotheses of `vinNext` in `PowerCommands`. -/
theorem witness_vinNext :
  let s : State := { State.reset with mode := .serve, vin := some ⟨1800, 1, .status, none⟩, pmb := some ⟨1, .statusWord, 0, false⟩ }
  let v : VinS := ⟨1800, 1, .status, none⟩
  let p : PmbS := ⟨1, .statusWord, 0, false⟩
  let data : BitVec 16 := 0
  (s.vin = some v) ∧ (s.pmb = some p) ∧ (p.wait = false) ∧ (p.send = .statusWord) ∧ (v.quarter < 3) ∧ (statusFault data.toNat = false) := by decide

/-- Hypotheses of `vinChangeEnds` in `PowerCommands`. -/
theorem witness_vinChangeEnds :
  let s : State := { (State.reset |>.put .aon F.AON_MODE_BUSY 1) with mode := .still, vin := some ⟨1800, 3, .status, none⟩, pmb := some ⟨1, .statusWord, 0, false⟩ }
  let v : VinS := ⟨1800, 3, .status, none⟩
  let p : PmbS := ⟨1, .statusWord, 0, false⟩
  let data : BitVec 16 := 0
  (s.vin = some v) ∧ (s.pmb = some p) ∧ (p.wait = false) ∧ (p.send = .statusWord) ∧ (3 ≤ v.quarter) ∧ (v.next = none) ∧ (statusFault data.toNat = false) ∧ (s.mode = .still ∨ s.mode = .serve) ∧ (s.on .aon F.AON_MODE_BUSY = true) := by decide

/-- Hypotheses of `vinChangeFails` in `PowerCommands`. -/
theorem witness_vinChangeFails :
  let s : State := { State.reset with mode := .serve, vin := some ⟨1800, 1, .slew, none⟩, pmb := none }
  let v : VinS := ⟨1800, 1, .slew, none⟩
  let q : Fin 4 := 1
  (s.isOff = false) ∧ (s.mode ≠ .keep) ∧ (s.vin = some v) ∧ (v.stage = .slew) ∧ (v.quarter = q.val) := by decide

/-- Hypotheses of `domReq` in `DomainsAndClocks`. -/
theorem witness_domReq :
  let s : State := (State.reset |>.put (.vz 5) F.VZ_CTRL_ISOLATE 1)
  let d : Fin 43 := 5
  let w : World := .normal
  (w = .secure ∨ s.get .pwr F.PWR_HOLD / 2 ^ d.val % 2 = 0) ∧ (s.mayOff d = true) ∧ (s.get .pwr F.PWR_DOM_STATE d.val < 2) := by decide

/-- Hypotheses of `domReqHeld` in `DomainsAndClocks`. -/
theorem witness_domReqHeld :
  let s : State := (State.reset |>.put .pwr F.PWR_HOLD 0xFF)
  let d : Fin 43 := 5
  (s.get .pwr F.PWR_HOLD / 2 ^ d.val % 2 = 1) := by decide

/-- Hypotheses of `domainChangeDone` in `DomainsAndClocks`. -/
theorem witness_domainChangeDone :
  let s : State := { State.reset with domTo := [(5, 1)] }
  let d : Fin 43 := 5
  (tget 0 s.domTo d.val = 1) := by decide

/-- Hypotheses of `domainOffDone` in `DomainsAndClocks`. -/
theorem witness_domainOffDone :
  let s : State := { State.reset with domTo := [(5, 3)] }
  let d : Fin 43 := 5
  (tget 0 s.domTo d.val = 3) := by decide

/-- Hypotheses of `pwrHoldWrite` in `DomainsAndClocks`. -/
theorem witness_pwrHoldWrite :
  let s : State := State.reset
  let mask : BitVec 43 := 0xF0
  (s.pwrHeld = none) := by decide

/-- Hypotheses of `freqChangeDone` in `DomainsAndClocks`. -/
theorem witness_freqChangeDone :
  let s : State := { (State.reset |>.put .pwr F.TILE_FREQ_FREQ 20 3 |>.put .pwr F.TILE_FREQ_CAP 20 3) with freqTo := [(3, 20)] }
  let n : Fin 32 := 3
  let g : Fin 64 := 20
  (tget 0 s.freqTo n.val = g.val) ∧ (g.val ≠ 0) ∧ (s.freqWant n.val = g.val) := by decide

/-- Hypotheses of `weirLowers` in `DomainsAndClocks`. -/
theorem witness_weirLowers :
  let s : State := (State.reset |>.put .cfg F.CFG_TMAP_VALID 1 2 |>.put .pwr F.TILE_FREQ_CAP 20 2 |>.put .pwr F.PWR_FLOOR 12)
  let temps : List Int := [130]
  let n : Fin 32 := 2
  let p : Fin 36 := 0
  (s.physTile n.val = some p) ∧ (s.weirsOn temps 100 n.val p.val ≠ 0) ∧ (s.floorF < s.get .pwr F.TILE_FREQ_CAP n.val) := by decide

/-- Hypotheses of `weirRaises` in `DomainsAndClocks`. -/
theorem witness_weirRaises :
  let s : State := (State.reset |>.put .cfg F.CFG_TMAP_VALID 1 2 |>.put .pwr F.TILE_FREQ_CAP 20 2 |>.put .pwr F.PWR_FLOOR 12)
  let temps : List Int := [20]
  let n : Fin 32 := 2
  let p : Fin 36 := 0
  (s.physTile n.val = some p) ∧ ((s.tilesUsed.any fun e => s.weirsOn temps 100 e.1 e.2 != 0) = false) ∧ ((s.tilesUsed.any fun e => s.weirsOn temps 97 e.1 e.2 != 0) = false) ∧ (s.weir.calm = 0) := by decide

/-- Hypotheses of `clockGateEnter` in `DomainsAndClocks`. -/
theorem witness_clockGateEnter :
  let s : State := { State.reset with mode := .serve }
  let u : ClockUnit := (.tile 5)
  (4 ≤ modeCode s.mode) ∧ (s.clocks.contains u = false) ∧ (s.mayGate u true = true) := by decide

/-- Hypotheses of `deepGateTimer` in `DomainsAndClocks`. -/
theorem witness_deepGateTimer :
  let s : State := { (State.reset |>.put .pwr F.STILL_DEEP_TILE_MS 9) with mode := .still, clocks := [.tile 5] }
  let u : ClockUnit := (.tile 5)
  (s.mode = .still) ∧ (s.clocks.contains u = true) ∧ (s.deep.contains u = false) ∧ (s.deepMs u ≠ 0) ∧ (s.demands u = false) := by decide

/-- Hypotheses of `clockRestartDone` in `DomainsAndClocks`. -/
theorem witness_clockRestartDone :
  let s : State := { (State.reset |>.put (.act 0) F.SV_STAT_STATE 3) with clocks := [.med 0, .hub], deep := [.hub] }
  let u : ClockUnit := (.med 0)
  (s.clocks.contains u = true) ∧ (s.demands u = true) := by decide

/-- Hypotheses of `trap` in `Traps`. -/
theorem witness_trap :
  let s : State := ((State.reset |>.put .cfg F.CFG_TMAP_VALID 1 1 |>.put .cfg F.CFG_TMAP_PHYS 1 1).setHart 9 { run := true, w := false, priv := 0, csr := [(0x305, 0x801)] })
  let a : At := ⟨9, 0x1000, false, 0⟩
  let h : Hart := { run := true, w := false, priv := 0, csr := [(0x305, 0x801)], pc := 0x1000 }
  let e : ExcArg := ⟨8, 0, 0, 0, 0, false, 0⟩
  (s.running a = some h) ∧ (e.cause.val ≠ 25) ∧ (h.priv = 3 ∨ csr h 0x302 / 2 ^ e.cause.val % 2 = 0) := by decide

/-- Hypotheses of `trapSecure` in `Traps`. -/
theorem witness_trapSecure :
  let s : State := ((State.reset |>.put .cfg F.CFG_TMAP_VALID 1 1 |>.put .cfg F.CFG_TMAP_PHYS 1 1).setHart 9 { run := true, w := true, priv := 0, csr := [(0x302, 0x100)] })
  let a : At := ⟨9, 0x1000, false, 0⟩
  let h : Hart := { run := true, w := true, priv := 0, csr := [(0x302, 0x100)], pc := 0x1000 }
  let e : ExcArg := ⟨8, 0, 0, 0, 0, false, 0⟩
  (s.running a = some h) ∧ (e.cause.val ≠ 25) ∧ (h.w = true) ∧ (h.priv < 3) ∧ (csr h 0x302 / 2 ^ e.cause.val % 2 = 1) := by decide

/-- Hypotheses of `trapHs` in `Traps`. -/
theorem witness_trapHs :
  let s : State := ((State.reset |>.put .cfg F.CFG_TMAP_VALID 1 1 |>.put .cfg F.CFG_TMAP_PHYS 1 1).setHart 9 { run := true, w := false, priv := 0, v := true, csr := [(0x302, 0x100)] })
  let a : At := ⟨9, 0x1000, false, 0⟩
  let h : Hart := { run := true, w := false, priv := 0, v := true, csr := [(0x302, 0x100)], pc := 0x1000 }
  let e : ExcArg := ⟨8, 0, 0, 0, 0, false, 0⟩
  (s.running a = some h) ∧ (e.cause.val ≠ 25) ∧ (e.cause.val ≠ 10) ∧ (h.w = false) ∧ (h.priv < 3) ∧ (csr h 0x302 / 2 ^ e.cause.val % 2 = 1) ∧ (h.v = false ∨ csr h 0x602 / 2 ^ e.cause.val % 2 = 0) := by decide

/-- Hypotheses of `trapVs` in `Traps`. -/
theorem witness_trapVs :
  let s : State := ((State.reset |>.put .cfg F.CFG_TMAP_VALID 1 1 |>.put .cfg F.CFG_TMAP_PHYS 1 1).setHart 9 { run := true, w := false, priv := 0, v := true, csr := [(0x302, 0x100), (0x602, 0x100)] })
  let a : At := ⟨9, 0x1000, false, 0⟩
  let h : Hart := { run := true, w := false, priv := 0, v := true, csr := [(0x302, 0x100), (0x602, 0x100)], pc := 0x1000 }
  let e : ExcArg := ⟨8, 0, 0, 0, 0, false, 0⟩
  (s.running a = some h) ∧ (e.cause.val ≠ 25) ∧ (h.w = false) ∧ (h.v = true) ∧ (h.priv < 3) ∧ (csr h 0x302 / 2 ^ e.cause.val % 2 = 1) ∧ (csr h 0x602 / 2 ^ e.cause.val % 2 = 1) := by decide

/-- Hypotheses of `trapGuest` in `Traps`. -/
theorem witness_trapGuest :
  let s : State := ((State.reset |>.put .cfg F.CFG_TMAP_VALID 1 1 |>.put .cfg F.CFG_TMAP_PHYS 1 1).setHart 9 { run := true, w := false, priv := 0, v := true })
  let a : At := ⟨9, 0x1000, false, 0⟩
  let h : Hart := { run := true, w := false, priv := 0, v := true, pc := 0x1000 }
  let e : ExcArg := ⟨21, 0x8000, 0x2000, 1, 0, true, 3⟩
  (s.running a = some h) ∧ (e.cause.val ∈ [20, 21, 23]) ∧ (e.impl ≠ 0) ∧ (csr h 0x302 / 2 ^ e.cause.val % 2 = 0) := by decide

/-- Hypotheses of `mret` in `Traps`. -/
theorem witness_mret :
  let s : State := ((State.reset |>.put .cfg F.CFG_TMAP_VALID 1 1 |>.put .cfg F.CFG_TMAP_PHYS 1 1).setHart 9 { run := true, csr := [(0x300, 0x880), (0x341, 0x80)] })
  let a : At := ⟨9, 0x1000, false, 0⟩
  let h : Hart := { run := true, csr := [(0x300, 0x880), (0x341, 0x80)], pc := 0x1000 }
  (s.running a = some h) ∧ (h.priv = 3) ∧ (csr h 0x7C0 % 2 = 0 ∨ bitsOf (csr h 0x300) 39 1 = 0 ∨ bitsOf (csr h 0x300) 11 2 = 3) := by decide

/-- Hypotheses of `mretIllegal` in `Traps`. -/
theorem witness_mretIllegal :
  let s : State := ((State.reset |>.put .cfg F.CFG_TMAP_VALID 1 1 |>.put .cfg F.CFG_TMAP_PHYS 1 1).setHart 9 { run := true, priv := 1 })
  let a : At := ⟨9, 0x1000, false, 0⟩
  let h : Hart := { run := true, priv := 1, pc := 0x1000 }
  (s.running a = some h) ∧ (h.priv < 3) ∧ (csr h 0x302 / 4 % 2 = 0) := by decide

/-- Hypotheses of `mretBadV` in `Traps`. -/
theorem witness_mretBadV :
  let s : State := ((State.reset |>.put .cfg F.CFG_TMAP_VALID 1 1 |>.put .cfg F.CFG_TMAP_PHYS 1 1).setHart 9 { run := true, csr := [(0x300, 0x8000000000), (0x7C0, 1)] })
  let a : At := ⟨9, 0x1000, false, 0⟩
  let h : Hart := { run := true, csr := [(0x300, 0x8000000000), (0x7C0, 1)], pc := 0x1000 }
  (s.running a = some h) ∧ (h.priv = 3) ∧ (csr h 0x7C0 % 2 = 1) ∧ (bitsOf (csr h 0x300) 39 1 = 1) ∧ (bitsOf (csr h 0x300) 11 2 ≠ 3) := by decide

/-- Hypotheses of `sret` in `Traps`. -/
theorem witness_sret :
  let s : State := ((State.reset |>.put .cfg F.CFG_TMAP_VALID 1 1 |>.put .cfg F.CFG_TMAP_PHYS 1 1).setHart 9 { run := true, priv := 1, w := true, csr := [(0x5C0, 3)] })
  let a : At := ⟨9, 0x1000, false, 0⟩
  let h : Hart := { run := true, priv := 1, w := true, csr := [(0x5C0, 3)], pc := 0x1000 }
  (s.running a = some h) ∧ (h.priv = 1) ∧ (h.v = false) ∧ (h.w = true) ∧ (bitsOf (csr h 0x300) 22 1 = 0) ∧ (csr h 0x5C0 / 4 % 2 = 0) := by decide

/-- Hypotheses of `sretHs` in `Traps`. -/
theorem witness_sretHs :
  let s : State := ((State.reset |>.put .cfg F.CFG_TMAP_VALID 1 1 |>.put .cfg F.CFG_TMAP_PHYS 1 1).setHart 9 { run := true, priv := 1, w := false })
  let a : At := ⟨9, 0x1000, false, 0⟩
  let h : Hart := { run := true, priv := 1, w := false, pc := 0x1000 }
  (s.running a = some h) ∧ (h.priv = 1) ∧ (h.v = false) ∧ (h.w = false) ∧ (bitsOf (csr h 0x300) 22 1 = 0) := by decide

/-- Hypotheses of `sretSecure` in `Traps`. -/
theorem witness_sretSecure :
  let s : State := ((State.reset |>.put .cfg F.CFG_TMAP_VALID 1 1 |>.put .cfg F.CFG_TMAP_PHYS 1 1).setHart 9 { run := true, priv := 1, w := true, csr := [(0x5C0, 4)] })
  let a : At := ⟨9, 0x1000, false, 0⟩
  let h : Hart := { run := true, priv := 1, w := true, csr := [(0x5C0, 4)], pc := 0x1000 }
  (s.running a = some h) ∧ (h.priv = 1) ∧ (h.v = false) ∧ (h.w = true) ∧ (bitsOf (csr h 0x300) 22 1 = 0) ∧ (csr h 0x5C0 / 4 % 2 = 1) := by decide

/-- Hypotheses of `sretVs` in `Traps`. -/
theorem witness_sretVs :
  let s : State := ((State.reset |>.put .cfg F.CFG_TMAP_VALID 1 1 |>.put .cfg F.CFG_TMAP_PHYS 1 1).setHart 9 { run := true, priv := 1, w := false, v := true })
  let a : At := ⟨9, 0x1000, false, 0⟩
  let h : Hart := { run := true, priv := 1, w := false, v := true, pc := 0x1000 }
  (s.running a = some h) ∧ (h.priv = 1) ∧ (h.v = true) ∧ (bitsOf (csr h 0x600) 22 1 = 0) := by decide

/-- Hypotheses of `sretM` in `Traps`. -/
theorem witness_sretM :
  let s : State := ((State.reset |>.put .cfg F.CFG_TMAP_VALID 1 1 |>.put .cfg F.CFG_TMAP_PHYS 1 1).setHart 9 { run := true, priv := 3 })
  let a : At := ⟨9, 0x1000, false, 0⟩
  let h : Hart := { run := true, priv := 3, pc := 0x1000 }
  (s.running a = some h) ∧ (h.priv = 3) ∧ (bankNow h ≠ 0 ∨ bitsOf (csr h 0x600) 7 1 = 0) := by decide

/-- Hypotheses of `sretIllegal` in `Traps`. -/
theorem witness_sretIllegal :
  let s : State := ((State.reset |>.put .cfg F.CFG_TMAP_VALID 1 1 |>.put .cfg F.CFG_TMAP_PHYS 1 1).setHart 9 { run := true, priv := 0 })
  let a : At := ⟨9, 0x1000, false, 0⟩
  let h : Hart := { run := true, priv := 0, pc := 0x1000 }
  (s.running a = some h) ∧ (h.v = false) ∧ (h.priv = 0 ∨ (h.priv = 1 ∧ bitsOf (csr h 0x300) 22 1 = 1)) ∧ (csr h 0x302 / 4 % 2 = 0) := by decide

/-- Hypotheses of `gateCall` in `Gates`. -/
theorem witness_gateCall :
  let s : State := { ((State.reset |>.put .cfg F.CFG_TMAP_VALID 1 1 |>.put .cfg F.CFG_TMAP_PHYS 1 1).setHart 9 { run := true, w := false, priv := 1, csr := [(0x3A0, 0x0F), (0x3B0, 0xFFFFFFFF), (0x7C1, 18)] }) with wmapNow := [⟨0, 0xFFFF, true⟩], dram := [(0x1000, 0x0B), (0x1001, 0x10), (0x1002, 0x50)] }
  let a : At := ⟨9, 0x1000, false, 0⟩
  let h : Hart := { run := true, w := false, priv := 1, csr := [(0x3A0, 0x0F), (0x3B0, 0xFFFFFFFF), (0x7C1, 18)], pc := 0x1000 }
  let rd : Fin 32 := 1
  let rs1 : BitVec 64 := 0x1000
  let tag : Fin 4096 := 5
  let r : State × Option Nat := (s.clean.setHart a.hart.val h).secureFetch a.hart.val rs1.toNat
  (s.running a = some h) ∧ (h.w = false) ∧ (gateAllowed h = true) ∧ (rs1.toNat % 4 = 0) ∧ (r.2 = some (gatemarkWord tag.val)) := by decide +kernel

/-- Hypotheses of `gateFault` in `Gates`. -/
theorem witness_gateFault :
  let s : State := ((State.reset |>.put .cfg F.CFG_TMAP_VALID 1 1 |>.put .cfg F.CFG_TMAP_PHYS 1 1).setHart 9 { run := true, w := false, priv := 1 })
  let a : At := ⟨9, 0x1000, false, 0⟩
  let h : Hart := { run := true, w := false, priv := 1, pc := 0x1000 }
  let rd : Fin 32 := 1
  let rs1 : BitVec 64 := 0x2000
  let tag : Fin 4096 := 5
  (s.running a = some h) ∧ (h.w = false) ∧ (h.priv < 3) ∧ (gateAllowed h = false) ∧ (csr h 0x302 / 2 ^ 24 % 2 = 0) := by decide

/-- Hypotheses of `gateReturn` in `Gates`. -/
theorem witness_gateReturn :
  let s : State := ((State.reset |>.put .cfg F.CFG_TMAP_VALID 1 1 |>.put .cfg F.CFG_TMAP_PHYS 1 1).setHart 9 { run := true, priv := 1, csr := [(0x5C0, 1)] })
  let a : At := ⟨9, 0x1000, false, 0⟩
  let h : Hart := { run := true, priv := 1, csr := [(0x5C0, 1)], pc := 0x1000 }
  let rd : Fin 32 := 1
  let rs1 : BitVec 64 := 0x2000
  let tag : Fin 4096 := 5
  (s.running a = some h) ∧ (h.w = true) ∧ (h.priv = 1) ∧ (csr h 0x5C0 / 4 % 2 = 0) := by decide

/-- Hypotheses of `gatemark` in `Gates`. -/
theorem witness_gatemark :
  let s : State := ((State.reset |>.put .cfg F.CFG_TMAP_VALID 1 1 |>.put .cfg F.CFG_TMAP_PHYS 1 1).setHart 9 { run := true })
  let a : At := ⟨9, 0x1000, false, 0⟩
  let h : Hart := { run := true, pc := 0x1000 }
  (s.running a = some h) := by decide

/-- Hypotheses of `gatemarkBad` in `Gates`. -/
theorem witness_gatemarkBad :
  let s : State := ((State.reset |>.put .cfg F.CFG_TMAP_VALID 1 1 |>.put .cfg F.CFG_TMAP_PHYS 1 1).setHart 9 { run := true, priv := 1 })
  let a : At := ⟨9, 0x1000, false, 0⟩
  let h : Hart := { run := true, priv := 1, pc := 0x1000 }
  let rs1 : Fin 32 := 0
  let rd : Fin 32 := 0
  let f3 : Fin 8 := 5
  (s.running a = some h) ∧ (rs1 ≠ 0 ∨ rd ≠ 0 ∨ f3 ≠ 1) ∧ (h.priv = 3 ∨ csr h 0x302 / 4 % 2 = 0) := by decide

/-- Hypotheses of `gateReturnIllegal` in `Gates`. -/
theorem witness_gateReturnIllegal :
  let s : State := ((State.reset |>.put .cfg F.CFG_TMAP_VALID 1 1 |>.put .cfg F.CFG_TMAP_PHYS 1 1).setHart 9 { run := true, priv := 0 })
  let a : At := ⟨9, 0x1000, false, 0⟩
  let h : Hart := { run := true, priv := 0, pc := 0x1000 }
  let rd : Fin 32 := 1
  let rs1 : BitVec 64 := 0x2000
  let tag : Fin 4096 := 5
  (s.running a = some h) ∧ (h.w = true) ∧ (h.priv ≠ 1 ∨ csr h 0x5C0 / 4 % 2 = 1) ∧ (h.priv = 3 ∨ csr h 0x302 / 4 % 2 = 0) := by decide

/-- Hypotheses of `gateUnmarked` in `Gates`. -/
theorem witness_gateUnmarked :
  let s : State := ((State.reset |>.put .cfg F.CFG_TMAP_VALID 1 1 |>.put .cfg F.CFG_TMAP_PHYS 1 1).setHart 9 { run := true, w := false, priv := 1, csr := [(0x7C1, 18)] })
  let a : At := ⟨9, 0x1000, false, 0⟩
  let h : Hart := { run := true, w := false, priv := 1, csr := [(0x7C1, 18)], pc := 0x1000 }
  let rd : Fin 32 := 1
  let rs1 : BitVec 64 := 0x2002
  let tag : Fin 4096 := 5
  (s.running a = some h) ∧ (h.w = false) ∧ (h.priv < 3) ∧ (gateAllowed h = true) ∧ (rs1.toNat % 4 ≠ 0) ∧ (csr h 0x302 / 2 ^ 24 % 2 = 0) := by decide

/-- Hypotheses of `jatomctlClear` in `Gates`. -/
theorem witness_jatomctlClear :
  let s : State := ((State.reset |>.put .cfg F.CFG_TMAP_VALID 1 1 |>.put .cfg F.CFG_TMAP_PHYS 1 1).setHart 9 { run := true, tumbler := [(5, 3)] })
  let a : At := ⟨9, 0x1000, false, 0⟩
  let h : Hart := { run := true, tumbler := [(5, 3)], pc := 0x1000 }
  let mode : Fin 4 := 2
  (s.running a = some h) ∧ (h.v = false) ∧ (h.priv ≠ 0) := by decide

/-- Hypotheses of `jgatecfgWrite` in `Gates`. -/
theorem witness_jgatecfgWrite :
  let s : State := ((State.reset |>.put .cfg F.CFG_TMAP_VALID 1 1 |>.put .cfg F.CFG_TMAP_PHYS 1 1).setHart 9 { run := true })
  let a : At := ⟨9, 0x1000, false, 0⟩
  let h : Hart := { run := true, pc := 0x1000 }
  let v : BitVec 64 := 0x1F
  (s.running a = some h) ∧ (h.v = false) ∧ (h.priv = 3) := by decide

/-- Hypotheses of `jgatecfgIllegal` in `Gates`. -/
theorem witness_jgatecfgIllegal :
  let s : State := ((State.reset |>.put .cfg F.CFG_TMAP_VALID 1 1 |>.put .cfg F.CFG_TMAP_PHYS 1 1).setHart 9 { run := true, priv := 1 })
  let a : At := ⟨9, 0x1000, false, 0⟩
  let h : Hart := { run := true, priv := 1, pc := 0x1000 }
  let v : BitVec 64 := 0x1F
  (s.running a = some h) ∧ (h.v = false) ∧ (h.priv < 3) ∧ (csr h 0x302 / 4 % 2 = 0) := by decide

/-- Hypotheses of `jatomctlVirtual` in `Gates`. -/
theorem witness_jatomctlVirtual :
  let s : State := ((State.reset |>.put .cfg F.CFG_TMAP_VALID 1 1 |>.put .cfg F.CFG_TMAP_PHYS 1 1).setHart 9 { run := true, priv := 1, v := true, w := false })
  let a : At := ⟨9, 0x1000, false, 0⟩
  let h : Hart := { run := true, priv := 1, v := true, w := false, pc := 0x1000 }
  let mode : Fin 4 := 2
  (s.running a = some h) ∧ (h.v = true) ∧ (h.priv < 3) ∧ (csr h 0x302 / 2 ^ 22 % 2 = 0) := by decide

/-- Hypotheses of `jgatecfgVirtual` in `Gates`. -/
theorem witness_jgatecfgVirtual :
  let s : State := ((State.reset |>.put .cfg F.CFG_TMAP_VALID 1 1 |>.put .cfg F.CFG_TMAP_PHYS 1 1).setHart 9 { run := true, priv := 1, v := true, w := false })
  let a : At := ⟨9, 0x1000, false, 0⟩
  let h : Hart := { run := true, priv := 1, v := true, w := false, pc := 0x1000 }
  let v : BitVec 64 := 3
  (s.running a = some h) ∧ (h.v = true) ∧ (h.priv < 3) ∧ (csr h 0x302 / 2 ^ 22 % 2 = 0) := by decide

/-- Hypotheses of `fence` in `Fences`. -/
theorem witness_fence :
  let s : State := ((State.reset |>.put .cfg F.CFG_TMAP_VALID 1 1 |>.put .cfg F.CFG_TMAP_PHYS 1 1).setHart 9 { run := true })
  let a : At := ⟨9, 0x1000, false, 0⟩
  let h : Hart := { run := true, pc := 0x1000 }
  let p : Fin 16 := 3
  let q : Fin 16 := 3
  (s.running a = some h) := by decide

/-- Hypotheses of `fenceI` in `Fences`. -/
theorem witness_fenceI :
  let s : State := ((State.reset |>.put .cfg F.CFG_TMAP_VALID 1 1 |>.put .cfg F.CFG_TMAP_PHYS 1 1).setHart 9 { run := true })
  let a : At := ⟨9, 0x1000, false, 0⟩
  let h : Hart := { run := true, pc := 0x1000 }
  (s.running a = some h) := by decide

/-- Hypotheses of `sfenceVma` in `Fences`. -/
theorem witness_sfenceVma :
  let s : State := ((State.reset |>.put .cfg F.CFG_TMAP_VALID 1 1 |>.put .cfg F.CFG_TMAP_PHYS 1 1).setHart 9 { run := true, priv := 1, w := false, tlb := [⟨false, false, 3, 0, false, false, 5, 0, 7, 0xFF, 0, 1, 0, 24⟩, ⟨false, true, 3, 4, false, true, 5, 0, 7, 0xFF, 0, 3, 0, 25⟩] })
  let a : At := ⟨9, 0x1000, false, 0⟩
  let h : Hart := { run := true, priv := 1, w := false, tlb := [⟨false, false, 3, 0, false, false, 5, 0, 7, 0xFF, 0, 1, 0, 24⟩, ⟨false, true, 3, 4, false, true, 5, 0, 7, 0xFF, 0, 3, 0, 25⟩], pc := 0x1000 }
  let va : Option (BitVec 64) := none
  let asid : Option (Fin 65536) := none
  (s.running a = some h) ∧ (h.v = false) ∧ (h.priv = 1) ∧ (bitsOf (csr h 0x300) 20 1 = 0) := by decide

/-- Hypotheses of `sfenceVmaM` in `Fences`. -/
theorem witness_sfenceVmaM :
  let s : State := ((State.reset |>.put .cfg F.CFG_TMAP_VALID 1 1 |>.put .cfg F.CFG_TMAP_PHYS 1 1).setHart 9 { run := true, priv := 3, tlb := [⟨false, false, 3, 0, false, false, 5, 0, 7, 0xFF, 0, 1, 0, 24⟩, ⟨false, true, 3, 4, false, true, 5, 0, 7, 0xFF, 0, 3, 0, 25⟩] })
  let a : At := ⟨9, 0x1000, false, 0⟩
  let h : Hart := { run := true, priv := 3, tlb := [⟨false, false, 3, 0, false, false, 5, 0, 7, 0xFF, 0, 1, 0, 24⟩, ⟨false, true, 3, 4, false, true, 5, 0, 7, 0xFF, 0, 3, 0, 25⟩], pc := 0x1000 }
  let va : Option (BitVec 64) := none
  let asid : Option (Fin 65536) := some 3
  (s.running a = some h) ∧ (h.v = false) ∧ (h.priv = 3) := by decide

/-- Hypotheses of `sfenceVmaVs` in `Fences`. -/
theorem witness_sfenceVmaVs :
  let s : State := ((State.reset |>.put .cfg F.CFG_TMAP_VALID 1 1 |>.put .cfg F.CFG_TMAP_PHYS 1 1).setHart 9 { run := true, priv := 1, v := true, w := false, tlb := [⟨false, false, 3, 0, false, false, 5, 0, 7, 0xFF, 0, 1, 0, 24⟩, ⟨false, true, 3, 4, false, true, 5, 0, 7, 0xFF, 0, 3, 0, 25⟩], csr := [(0x680, 4 * 2 ^ 44)] })
  let a : At := ⟨9, 0x1000, false, 0⟩
  let h : Hart := { run := true, priv := 1, v := true, w := false, tlb := [⟨false, false, 3, 0, false, false, 5, 0, 7, 0xFF, 0, 1, 0, 24⟩, ⟨false, true, 3, 4, false, true, 5, 0, 7, 0xFF, 0, 3, 0, 25⟩], csr := [(0x680, 4 * 2 ^ 44)], pc := 0x1000 }
  let va : Option (BitVec 64) := none
  let asid : Option (Fin 65536) := none
  (s.running a = some h) ∧ (h.v = true) ∧ (h.priv = 1) ∧ (bitsOf (csr h 0x600) 20 1 = 0) := by decide

/-- Hypotheses of `sfenceVmaIllegal` in `Fences`. -/
theorem witness_sfenceVmaIllegal :
  let s : State := ((State.reset |>.put .cfg F.CFG_TMAP_VALID 1 1 |>.put .cfg F.CFG_TMAP_PHYS 1 1).setHart 9 { run := true, priv := 0, tlb := [⟨false, false, 3, 0, false, false, 5, 0, 7, 0xFF, 0, 1, 0, 24⟩, ⟨false, true, 3, 4, false, true, 5, 0, 7, 0xFF, 0, 3, 0, 25⟩] })
  let a : At := ⟨9, 0x1000, false, 0⟩
  let h : Hart := { run := true, priv := 0, tlb := [⟨false, false, 3, 0, false, false, 5, 0, 7, 0xFF, 0, 1, 0, 24⟩, ⟨false, true, 3, 4, false, true, 5, 0, 7, 0xFF, 0, 3, 0, 25⟩], pc := 0x1000 }
  let va : Option (BitVec 64) := none
  let asid : Option (Fin 65536) := none
  (s.running a = some h) ∧ (h.v = false) ∧ (h.priv = 0 ∨ (h.priv = 1 ∧ bitsOf (csr h 0x300) 20 1 = 1)) ∧ (csr h 0x302 / 4 % 2 = 0) := by decide

/-- Hypotheses of `sfenceVmaVirtual` in `Fences`. -/
theorem witness_sfenceVmaVirtual :
  let s : State := ((State.reset |>.put .cfg F.CFG_TMAP_VALID 1 1 |>.put .cfg F.CFG_TMAP_PHYS 1 1).setHart 9 { run := true, priv := 0, v := true, w := false, tlb := [⟨false, false, 3, 0, false, false, 5, 0, 7, 0xFF, 0, 1, 0, 24⟩, ⟨false, true, 3, 4, false, true, 5, 0, 7, 0xFF, 0, 3, 0, 25⟩] })
  let a : At := ⟨9, 0x1000, false, 0⟩
  let h : Hart := { run := true, priv := 0, v := true, w := false, tlb := [⟨false, false, 3, 0, false, false, 5, 0, 7, 0xFF, 0, 1, 0, 24⟩, ⟨false, true, 3, 4, false, true, 5, 0, 7, 0xFF, 0, 3, 0, 25⟩], pc := 0x1000 }
  let va : Option (BitVec 64) := none
  let asid : Option (Fin 65536) := none
  (s.running a = some h) ∧ (h.v = true) ∧ (h.priv = 0 ∨ (h.priv = 1 ∧ bitsOf (csr h 0x600) 20 1 = 1)) ∧ (csr h 0x302 / 2 ^ 22 % 2 = 0) := by decide

/-- Hypotheses of `hfenceVvma` in `Fences`. -/
theorem witness_hfenceVvma :
  let s : State := ((State.reset |>.put .cfg F.CFG_TMAP_VALID 1 1 |>.put .cfg F.CFG_TMAP_PHYS 1 1).setHart 9 { run := true, priv := 1, w := false, tlb := [⟨false, false, 3, 0, false, false, 5, 0, 7, 0xFF, 0, 1, 0, 24⟩, ⟨false, true, 3, 4, false, true, 5, 0, 7, 0xFF, 0, 3, 0, 25⟩] })
  let a : At := ⟨9, 0x1000, false, 0⟩
  let h : Hart := { run := true, priv := 1, w := false, tlb := [⟨false, false, 3, 0, false, false, 5, 0, 7, 0xFF, 0, 1, 0, 24⟩, ⟨false, true, 3, 4, false, true, 5, 0, 7, 0xFF, 0, 3, 0, 25⟩], pc := 0x1000 }
  let va : Option (BitVec 64) := none
  let asid : Option (Fin 65536) := none
  (s.running a = some h) ∧ (h.v = false) ∧ (h.w = false) ∧ (h.priv = 1) := by decide

/-- Hypotheses of `hfenceGvma` in `Fences`. -/
theorem witness_hfenceGvma :
  let s : State := ((State.reset |>.put .cfg F.CFG_TMAP_VALID 1 1 |>.put .cfg F.CFG_TMAP_PHYS 1 1).setHart 9 { run := true, priv := 1, w := false, tlb := [⟨false, false, 3, 0, false, false, 5, 0, 7, 0xFF, 0, 1, 0, 24⟩, ⟨false, true, 3, 4, false, true, 5, 0, 7, 0xFF, 0, 3, 0, 25⟩] })
  let a : At := ⟨9, 0x1000, false, 0⟩
  let h : Hart := { run := true, priv := 1, w := false, tlb := [⟨false, false, 3, 0, false, false, 5, 0, 7, 0xFF, 0, 1, 0, 24⟩, ⟨false, true, 3, 4, false, true, 5, 0, 7, 0xFF, 0, 3, 0, 25⟩], pc := 0x1000 }
  let gpa : Option (BitVec 64) := none
  let vmid : Option (Fin 16384) := some 4
  (s.running a = some h) ∧ (h.v = false) ∧ (h.w = false) ∧ (h.priv = 1) ∧ (bitsOf (csr h 0x300) 20 1 = 0) := by decide

/-- Hypotheses of `hfenceVvmaIllegal` in `Fences`. -/
theorem witness_hfenceVvmaIllegal :
  let s : State := ((State.reset |>.put .cfg F.CFG_TMAP_VALID 1 1 |>.put .cfg F.CFG_TMAP_PHYS 1 1).setHart 9 { run := true, priv := 1, w := true, tlb := [⟨false, false, 3, 0, false, false, 5, 0, 7, 0xFF, 0, 1, 0, 24⟩, ⟨false, true, 3, 4, false, true, 5, 0, 7, 0xFF, 0, 3, 0, 25⟩] })
  let a : At := ⟨9, 0x1000, false, 0⟩
  let h : Hart := { run := true, priv := 1, w := true, tlb := [⟨false, false, 3, 0, false, false, 5, 0, 7, 0xFF, 0, 1, 0, 24⟩, ⟨false, true, 3, 4, false, true, 5, 0, 7, 0xFF, 0, 3, 0, 25⟩], pc := 0x1000 }
  let va : Option (BitVec 64) := none
  let asid : Option (Fin 65536) := none
  (s.running a = some h) ∧ (h.v = false) ∧ (h.w = true ∨ h.priv = 0) ∧ (h.priv = 3 ∨ csr h 0x302 / 4 % 2 = 0) := by decide

/-- Hypotheses of `hfenceVvmaVirtual` in `Fences`. -/
theorem witness_hfenceVvmaVirtual :
  let s : State := ((State.reset |>.put .cfg F.CFG_TMAP_VALID 1 1 |>.put .cfg F.CFG_TMAP_PHYS 1 1).setHart 9 { run := true, priv := 1, v := true, w := false, tlb := [⟨false, false, 3, 0, false, false, 5, 0, 7, 0xFF, 0, 1, 0, 24⟩, ⟨false, true, 3, 4, false, true, 5, 0, 7, 0xFF, 0, 3, 0, 25⟩] })
  let a : At := ⟨9, 0x1000, false, 0⟩
  let h : Hart := { run := true, priv := 1, v := true, w := false, tlb := [⟨false, false, 3, 0, false, false, 5, 0, 7, 0xFF, 0, 1, 0, 24⟩, ⟨false, true, 3, 4, false, true, 5, 0, 7, 0xFF, 0, 3, 0, 25⟩], pc := 0x1000 }
  let va : Option (BitVec 64) := none
  let asid : Option (Fin 65536) := none
  (s.running a = some h) ∧ (h.v = true) ∧ (h.priv < 3) ∧ (csr h 0x302 / 2 ^ 22 % 2 = 0) := by decide

/-- Hypotheses of `hfenceGvmaIllegal` in `Fences`. -/
theorem witness_hfenceGvmaIllegal :
  let s : State := ((State.reset |>.put .cfg F.CFG_TMAP_VALID 1 1 |>.put .cfg F.CFG_TMAP_PHYS 1 1).setHart 9 { run := true, priv := 1, w := true, tlb := [⟨false, false, 3, 0, false, false, 5, 0, 7, 0xFF, 0, 1, 0, 24⟩, ⟨false, true, 3, 4, false, true, 5, 0, 7, 0xFF, 0, 3, 0, 25⟩] })
  let a : At := ⟨9, 0x1000, false, 0⟩
  let h : Hart := { run := true, priv := 1, w := true, tlb := [⟨false, false, 3, 0, false, false, 5, 0, 7, 0xFF, 0, 1, 0, 24⟩, ⟨false, true, 3, 4, false, true, 5, 0, 7, 0xFF, 0, 3, 0, 25⟩], pc := 0x1000 }
  let gpa : Option (BitVec 64) := none
  let vmid : Option (Fin 16384) := none
  (s.running a = some h) ∧ (h.v = false) ∧ (h.w = true ∨ h.priv = 0) ∧ (h.priv = 3 ∨ csr h 0x302 / 4 % 2 = 0) := by decide

/-- Hypotheses of `hfenceGvmaVirtual` in `Fences`. -/
theorem witness_hfenceGvmaVirtual :
  let s : State := ((State.reset |>.put .cfg F.CFG_TMAP_VALID 1 1 |>.put .cfg F.CFG_TMAP_PHYS 1 1).setHart 9 { run := true, priv := 1, v := true, w := false, tlb := [⟨false, false, 3, 0, false, false, 5, 0, 7, 0xFF, 0, 1, 0, 24⟩, ⟨false, true, 3, 4, false, true, 5, 0, 7, 0xFF, 0, 3, 0, 25⟩] })
  let a : At := ⟨9, 0x1000, false, 0⟩
  let h : Hart := { run := true, priv := 1, v := true, w := false, tlb := [⟨false, false, 3, 0, false, false, 5, 0, 7, 0xFF, 0, 1, 0, 24⟩, ⟨false, true, 3, 4, false, true, 5, 0, 7, 0xFF, 0, 3, 0, 25⟩], pc := 0x1000 }
  let gpa : Option (BitVec 64) := none
  let vmid : Option (Fin 16384) := none
  (s.running a = some h) ∧ (h.v = true) ∧ (h.priv < 3) ∧ (csr h 0x302 / 2 ^ 22 % 2 = 0) := by decide

/-- Hypotheses of `hartLoad` in `HartMemory`. -/
theorem witness_hartLoad :
  let s : State := ((State.reset |>.put .cfg F.CFG_TMAP_VALID 1 1 |>.put .cfg F.CFG_TMAP_PHYS 1 1).setHart 9 { run := true })
  let a : At := ⟨9, 0x1000, false, 0⟩
  let h : Hart := { run := true, pc := 0x1000 }
  let m : MemArg := ⟨0xE000000010, 3, .own, false⟩
  let rd : Fin 32 := 3
  let sg : Bool := true
  let par : Parity := .none
  let r : State × Access := (s.clean.setHart a.hart.val h).memRead (cxOf h a.hart.val false false) ⟨.load, 2 ^ m.lg.val, false, false, false⟩ 8 m.va.toNat (2 ^ m.lg.val) m.walk par
  let bs := (match r.2 with | .ok b => b | _ => [])
  (s.running a = some h) ∧ (m.via = .own) ∧ (rd ≠ 0) ∧ (r.2 = .ok bs) := by decide +kernel

/-- Hypotheses of `hartLoadAny` in `HartMemory`. -/
theorem witness_hartLoadAny :
  let s : State := ((State.reset |>.put .cfg F.CFG_TMAP_VALID 1 1 |>.put .cfg F.CFG_TMAP_PHYS 1 1).setHart 9 { run := true, csr := [(0x100, 0x6000), (0x1100, 0x6000)] })
  let a : At := ⟨9, 0x1000, false, 0⟩
  let h : Hart := { run := true, csr := [(0x100, 0x6000), (0x1100, 0x6000)], pc := 0x1000 }
  let m : MemArg := ⟨0xE000000010, 3, .own, false⟩
  let d : Dest := (.f 3)
  let par : Parity := .none
  let c : WalkCx := (if m.via = .own then cxOf h a.hart.val false false else { cxOf h a.hart.val false true with w := false })
  let r : State × Access := (s.clean.setHart a.hart.val h).memRead c ⟨loadKind d m.via, 2 ^ m.lg.val, false, destExt d == some 9, false⟩ 8 m.va.toNat (2 ^ m.lg.val) m.walk par
  let bs := (match r.2 with | .ok b => b | _ => [])
  (s.running a = some h) ∧ (d ≠ .fetch) ∧ (accessRefusal h m.via (destExt d) = none) ∧ (r.2 = .ok bs) := by decide +kernel

/-- Hypotheses of `hartFetch` in `HartMemory`. -/
theorem witness_hartFetch :
  let s : State := ((State.reset |>.put .cfg F.CFG_TMAP_VALID 1 1 |>.put .cfg F.CFG_TMAP_PHYS 1 1).setHart 9 { run := true })
  let a : At := ⟨9, 0x1000, false, 0⟩
  let h : Hart := { run := true, pc := 0x1000 }
  let m : MemArg := ⟨0xE000000010, 3, .own, false⟩
  let par : Parity := .none
  let r : State × Access := (s.clean.setHart a.hart.val h).memRead (cxOf h a.hart.val true false) ⟨.fetch, instLen a, false, false, false⟩ 11 (a.pc % 2 ^ 64) (instLen a) m.walk par
  let bs := (match r.2 with | .ok b => b | _ => [])
  (s.running a = some h) ∧ (r.2 = .ok bs) := by decide +kernel

/-- Hypotheses of `hartStore` in `HartMemory`. -/
theorem witness_hartStore :
  let s : State := ((State.reset |>.put .cfg F.CFG_TMAP_VALID 1 1 |>.put .cfg F.CFG_TMAP_PHYS 1 1).setHart 9 { run := true, x := [(3, 0x1234)] })
  let a : At := ⟨9, 0x1000, false, 0⟩
  let h : Hart := { run := true, x := [(3, 0x1234)], pc := 0x1000 }
  let m : MemArg := ⟨0xE000000010, 3, .own, false⟩
  let rs2 : Fin 32 := 3
  let r : State × Option (Flt × Nat) := (s.clean.setHart a.hart.val h).memWrite (cxOf h a.hart.val false false) ⟨.store, 2 ^ m.lg.val, false, false, false⟩ m.va.toNat (leBytes (2 ^ m.lg.val) (xreg h rs2.val)) m.walk
  (s.running a = some h) ∧ (m.via = .own) ∧ (r.2 = none) := by decide +kernel

/-- Hypotheses of `hartStoreAny` in `HartMemory`. -/
theorem witness_hartStoreAny :
  let s : State := ((State.reset |>.put .cfg F.CFG_TMAP_VALID 1 1 |>.put .cfg F.CFG_TMAP_PHYS 1 1).setHart 9 { run := true, csr := [(0x100, 0x6000), (0x1100, 0x6000)] })
  let a : At := ⟨9, 0x1000, false, 0⟩
  let h : Hart := { run := true, csr := [(0x100, 0x6000), (0x1100, 0x6000)], pc := 0x1000 }
  let m : MemArg := ⟨0xE000000010, 3, .own, false⟩
  let d : Src := (.f 3)
  let r : State × Option (Flt × Nat) := (s.clean.setHart a.hart.val h).memWrite (cxOf h a.hart.val false (m.via != .own)) ⟨.store, 2 ^ m.lg.val, false, false, false⟩ m.va.toNat (srcBytes h (2 ^ m.lg.val) d) m.walk
  (s.running a = some h) ∧ (accessRefusal h m.via (srcExt d) = none) ∧ (∀ v e, d ≠ .vec v e) ∧ (r.2 = none) := by decide +kernel

/-- Hypotheses of `hartStoreVec` in `HartMemory`. -/
theorem witness_hartStoreVec :
  let s : State := ((State.reset |>.put .cfg F.CFG_TMAP_VALID 1 1 |>.put .cfg F.CFG_TMAP_PHYS 1 1).setHart 9 { run := true, csr := [(0x100, 0x600), (0x1100, 0x600)] })
  let a : At := ⟨9, 0x1000, false, 0⟩
  let h : Hart := { run := true, csr := [(0x100, 0x600), (0x1100, 0x600)], pc := 0x1000 }
  let m : MemArg := ⟨0x1010, 3, .own, false⟩
  let vs : Fin 32 := 3
  let el : Fin 256 := 1
  let r : State × Option (Flt × Nat) := (s.clean.setHart a.hart.val h).memWrite (cxOf h a.hart.val false (m.via != .own)) ⟨.store, 2 ^ m.lg.val, false, true, false⟩ m.va.toNat (elemOf h vs.val el.val (2 ^ m.lg.val)) m.walk
  (s.running a = some h) ∧ (accessRefusal h m.via (some 9) = none) ∧ (r.2 = none) := by decide +kernel

/-- Hypotheses of `hartMisaligned` in `HartMemory`. -/
theorem witness_hartMisaligned :
  let s : State := ((State.reset |>.put .cfg F.CFG_TMAP_VALID 1 1 |>.put .cfg F.CFG_TMAP_PHYS 1 1).setHart 9 { run := true })
  let a : At := ⟨9, 0x1000, false, 0⟩
  let h : Hart := { run := true, pc := 0x1000 }
  let m : MemArg := ⟨0x11, 3, .own, false⟩
  let op : HartAmo := .add
  let rd : Fin 32 := 3
  let rs2 : Fin 32 := 4
  let par : Parity := .none
  (s.running a = some h) ∧ (m.lg.val = 3) ∧ (m.va.toNat % 8 ≠ 0) ∧ (h.priv = 3) := by decide

/-- Hypotheses of `hartAmo` in `HartMemory`. -/
theorem witness_hartAmo :
  let s : State := ((State.reset |>.put .cfg F.CFG_TMAP_VALID 1 1 |>.put .cfg F.CFG_TMAP_PHYS 1 1).setHart 9 { run := true })
  let a : At := ⟨9, 0x1000, false, 0⟩
  let h : Hart := { run := true, pc := 0x1000 }
  let m : MemArg := ⟨0x1010, 3, .own, false⟩
  let op : HartAmo := .add
  let rd : Fin 32 := 3
  let rs2 : Fin 32 := 4
  let par : Parity := .none
  let r : State × (Trans ⊕ Flt) := (s.clean.setHart a.hart.val h).translate (cxOf h a.hart.val false false) ⟨.store, if m.lg.val = 3 then 8 else 4, true, false, false⟩ m.va.toNat m.walk
  let p := (match r.2 with | .inl x => x | .inr _ => ⟨0, 0, 0⟩)
  let q : State := (r.1.coreParity a.hart.val (p.pa / 64) par).makeUnique a.hart.val (p.pa / 64)
  let c := ((q.myCopy a.hart.val (p.pa / 64)).getD ⟨.s, { bytes := [], pmask := 1 }⟩)
  (s.running a = some h) ∧ (m.va.toNat % (if m.lg.val = 3 then 8 else 4) = 0) ∧ (rd ≠ 0) ∧ (r.2 = .inl p) ∧ (goesFar ((r.1.coreParity a.hart.val (p.pa / 64) par).hart a.hart.val) (p.pa / 64) = false) ∧ (q.myCopy a.hart.val (p.pa / 64) = some c) ∧ (c.d.pmask = 0) ∧ (c.d.bytes.length = 64) := by decide +kernel

/-- Hypotheses of `hartAmoFar` in `HartMemory`. -/
theorem witness_hartAmoFar :
  let s : State := ((State.reset |>.put .cfg F.CFG_TMAP_VALID 1 1 |>.put .cfg F.CFG_TMAP_PHYS 1 1).setHart 9 { run := true, csr := [(0x5C2, 2)] })
  let a : At := ⟨9, 0x1000, false, 0⟩
  let h : Hart := { run := true, csr := [(0x5C2, 2)], pc := 0x1000 }
  let m : MemArg := ⟨0x1010, 3, .own, false⟩
  let op : HartAmo := .add
  let rd : Fin 32 := 3
  let rs2 : Fin 32 := 4
  let par : Parity := .none
  let r : State × (Trans ⊕ Flt) := (s.clean.setHart a.hart.val h).translate (cxOf h a.hart.val false false) ⟨.store, if m.lg.val = 3 then 8 else 4, true, false, false⟩ m.va.toNat m.walk
  let p := (match r.2 with | .inl x => x | .inr _ => ⟨0, 0, 0⟩)
  let q0 : State := (r.1.coreParity a.hart.val (p.pa / 64) par)
  let z : State × Option LineData × Bool := q0.atHome (p.pa / 64) { op := .amo, port := q0.hartPort a.hart.val, txn := 0, w := (q0.hart a.hart.val).w, own := storeOwn (q0.hart a.hart.val) a.hart.val, aop := amoOpOf op, off := p.pa % 64, wide := (if m.lg.val = 3 then 8 else 4) == 8, operand := xreg (q0.hart a.hart.val) rs2.val, hart := a.hart.val }
  let d := (z.2.1.getD { bytes := [], pmask := 1 })
  (s.running a = some h) ∧ (m.va.toNat % (if m.lg.val = 3 then 8 else 4) = 0) ∧ (rd ≠ 0) ∧ (r.2 = .inl p) ∧ (goesFar (q0.hart a.hart.val) (p.pa / 64) = true) ∧ (z.2.1 = some d) ∧ (d.pmask = 0) := by decide +kernel

/-- Hypotheses of `lr` in `HartMemory`. -/
theorem witness_lr :
  let s : State := ((State.reset |>.put .cfg F.CFG_TMAP_VALID 1 1 |>.put .cfg F.CFG_TMAP_PHYS 1 1).setHart 9 { run := true })
  let a : At := ⟨9, 0x1000, false, 0⟩
  let h : Hart := { run := true, pc := 0x1000 }
  let m : MemArg := ⟨0x1010, 3, .own, false⟩
  let rd : Fin 32 := 3
  let par : Parity := .none
  let r : State × (Trans ⊕ Flt) := (s.clean.setHart a.hart.val h).translate (cxOf h a.hart.val false false) ⟨.load, if m.lg.val = 3 then 8 else 4, true, false, false⟩ m.va.toNat m.walk
  let p := (match r.2 with | .inl x => x | .inr _ => ⟨0, 0, 0⟩)
  let q : State := (r.1.coreParity a.hart.val (p.pa / 64) par).makeUnique a.hart.val (p.pa / 64)
  let c := ((q.myCopy a.hart.val (p.pa / 64)).getD ⟨.s, { bytes := [], pmask := 1 }⟩)
  (s.running a = some h) ∧ (m.va.toNat % (if m.lg.val = 3 then 8 else 4) = 0) ∧ (rd ≠ 0) ∧ (r.2 = .inl p) ∧ (q.myCopy a.hart.val (p.pa / 64) = some c) ∧ (c.d.pmask = 0) ∧ (c.d.bytes.length = 64) := by decide +kernel

/-- Hypotheses of `sc` in `HartMemory`. -/
theorem witness_sc :
  let s : State := ((State.reset |>.put .cfg F.CFG_TMAP_VALID 1 1 |>.put .cfg F.CFG_TMAP_PHYS 1 1).setHart 9 { run := true, resv := some 64 })
  let a : At := ⟨9, 0x1000, false, 0⟩
  let h : Hart := { run := true, resv := some 64, pc := 0x1000 }
  let m : MemArg := ⟨0x1010, 3, .own, false⟩
  let rd : Fin 32 := 3
  let rs2 : Fin 32 := 4
  let par : Parity := .none
  let r : State × (Trans ⊕ Flt) := (s.clean.setHart a.hart.val h).translate (cxOf h a.hart.val false false) ⟨.store, if m.lg.val = 3 then 8 else 4, true, false, false⟩ m.va.toNat m.walk
  let p := (match r.2 with | .inl x => x | .inr _ => ⟨0, 0, 0⟩)
  let q : State := (r.1.coreParity a.hart.val (p.pa / 64) par).makeUnique a.hart.val (p.pa / 64)
  let c := ((q.myCopy a.hart.val (p.pa / 64)).getD ⟨.s, { bytes := [], pmask := 1 }⟩)
  (s.running a = some h) ∧ (m.va.toNat % (if m.lg.val = 3 then 8 else 4) = 0) ∧ (rd ≠ 0) ∧ (r.2 = .inl p) ∧ (((r.1.coreParity a.hart.val (p.pa / 64) par).hart a.hart.val).resv = some (p.pa / 64)) ∧ (q.myCopy a.hart.val (p.pa / 64) = some c) ∧ (c.d.pmask = 0) ∧ (c.d.bytes.length = 64) := by decide +kernel

/-- Hypotheses of `scFails` in `HartMemory`. -/
theorem witness_scFails :
  let s : State := ((State.reset |>.put .cfg F.CFG_TMAP_VALID 1 1 |>.put .cfg F.CFG_TMAP_PHYS 1 1).setHart 9 { run := true, resv := some 65 })
  let a : At := ⟨9, 0x1000, false, 0⟩
  let h : Hart := { run := true, resv := some 65, pc := 0x1000 }
  let m : MemArg := ⟨0x1010, 3, .own, false⟩
  let rd : Fin 32 := 3
  let rs2 : Fin 32 := 4
  let par : Parity := .none
  let r : State × (Trans ⊕ Flt) := (s.clean.setHart a.hart.val h).translate (cxOf h a.hart.val false false) ⟨.store, if m.lg.val = 3 then 8 else 4, true, false, false⟩ m.va.toNat m.walk
  let p := (match r.2 with | .inl x => x | .inr _ => ⟨0, 0, 0⟩)
  (s.running a = some h) ∧ (m.va.toNat % (if m.lg.val = 3 then 8 else 4) = 0) ∧ (rd ≠ 0) ∧ (r.2 = .inl p) ∧ (((r.1.coreParity a.hart.val (p.pa / 64) par).hart a.hart.val).resv ≠ some (p.pa / 64)) := by decide +kernel

/-- Hypotheses of `irqSourceChange` in `InterruptsAndWorlds`. -/
theorem witness_irqSourceChange :
  let s : State := (State.reset |>.put (.mc 1) F.UNIT_ERR_IEN 1 |>.put (.mc 1) F.UNIT_ERR_UE 1)
  let src : Fin 3136 := 2585
  let u : UnitId := (.mc 1)
  (unitAt (src.val / 64) (src.val % 64) = some u) := by decide +kernel

/-- Hypotheses of `irq` in `InterruptsAndWorlds`. -/
theorem witness_irq :
  let s : State := (State.reset |>.put (.vz 1) F.VZ_STAT_STATE 8)
  let src : Fin 3136 := 77
  let level : Bool := true
  ((∀ n : Fin 45, s.irqLink src.val = some n.val → s.get (.vz n) F.VZ_STAT_STATE = 8)) := by decide

/-- Hypotheses of `irqLost` in `InterruptsAndWorlds`. -/
theorem witness_irqLost :
  let s : State := State.reset
  let src : Fin 3136 := 77
  let level : Bool := true
  let n : Fin 45 := 1
  (s.irqLink src.val = some n.val) ∧ (s.get (.vz n) F.VZ_STAT_STATE ≠ 8) := by decide

/-- Hypotheses of `mtimecmpMatch` in `InterruptsAndWorlds`. -/
theorem witness_mtimecmpMatch :
  let s : State := (State.reset |>.put .cfg F.CFG_TMAP_VALID 1 1 |>.put .cfg F.CFG_TMAP_PHYS 1 1 |>.put (.core 1 1) F.CORE_MTIMECMP 99)
  let n : Fin 256 := 9
  let u : UnitId := (.core 1 1)
  (s.coreUnit n.val = some u) ∧ (s.get u F.CORE_MTIMECMP < 2 ^ 64) := by decide +kernel

/-- Hypotheses of `interruptTaken` in `InterruptsAndWorlds`. -/
theorem witness_interruptTaken :
  let s : State := ((State.reset |>.put .cfg F.CFG_TMAP_VALID 1 1 |>.put .cfg F.CFG_TMAP_PHYS 1 1 |>.put (.core 1 1) F.CORE_MSIP 1).setHart 9 { run := true, priv := 1, csr := [(0x304, 8)] })
  let n : Fin 256 := 9
  let u : UnitId := (.core 1 1)
  let pc : BitVec 64 := 0x400
  let c : Nat := 3
  (s.coreUnit n.val = some u) ∧ ((s.hart n.val).run = true) ∧ ((s.hart n.val).halted = false) ∧ (s.fatalStop = false) ∧ ((s.hart n.val).mce = []) ∧ ((s.clean.setHart n.val { s.hart n.val with pc := pc.toNat }).nextIntr n.val = some (c, .m)) ∧ (c < 64) := by decide +kernel

/-- Hypotheses of `asyncMachineCheck` in `InterruptsAndWorlds`. -/
theorem witness_asyncMachineCheck :
  let s : State := ((State.reset |>.put .cfg F.CFG_TMAP_VALID 1 1 |>.put .cfg F.CFG_TMAP_PHYS 1 1).setHart 9 { run := true })
  let n : Fin 256 := 9
  let u : UnitId := (.core 1 1)
  let own : Own := {}
  let level : Fin 8 := 1
  let addr : BitVec 52 := 0x80
  (s.coreUnit n.val = some u) ∧ ((s.hart n.val).run = true) ∧ ((s.physTile (n.val / 8)).isSome = true) ∧ (s.underTileCmd (n.val / 8) = false) := by decide +kernel

/-- Hypotheses of `coreMceRelease` in `InterruptsAndWorlds`. -/
theorem witness_coreMceRelease :
  let s : State := (State.reset |>.put .cfg F.CFG_TMAP_VALID 1 1 |>.put .cfg F.CFG_TMAP_PHYS 1 1 |>.put (.core 1 1) F.CORE_MCE_VALID 1)
  let n : Fin 256 := 9
  let u : UnitId := (.core 1 1)
  (s.coreUnit n.val = some u) ∧ ((s.hart n.val).mce = []) := by decide +kernel

/-- Hypotheses of `wmapCommit` in `InterruptsAndWorlds`. -/
theorem witness_wmapCommit :
  let s : State := (State.reset |>.put .wmap F.WREG_EN 1 2)
  (s.on .wmap F.WMAP_CTRL_LOCK = false) ∧ (s.on .wmap F.WMAP_STAT_BUSY = false) := by decide

/-- Hypotheses of `wmapCommitDone` in `InterruptsAndWorlds`. -/
theorem witness_wmapCommitDone :
  let s : State := { (State.reset.setHart 9 { run := true, tlb := [⟨false, false, 3, 0, false, false, 5, 0, 7, 0xFF, 0, 1, 0, 24⟩] }) with wmapNext := some [⟨1, 2, true⟩] }
  let rs : List WRegion := [⟨1, 2, true⟩]
  (s.wmapNext = some rs) := by decide

/-- Hypotheses of `iowWorldChange` in `InterruptsAndWorlds`. -/
theorem witness_iowWorldChange :
  let s : State := State.reset
  let i : Fin 14 := 5
  let b : Bool := true
  (i.val < 11) := by decide

/-- Hypotheses of `rdS` in `CopyRequests`. -/
theorem witness_rdS :
  let s : State := (State.reset |>.put (.vz 38) F.VZ_STAT_STATE 8 |>.put (.vz 39) F.VZ_STAT_STATE 8 |>.put (.vz 3) F.VZ_STAT_STATE 8 |>.put (.vz 1) F.VZ_STAT_STATE 8 |>.setHline 1 { llc := some { bytes := List.replicate 64 1 } })
  let agent : Fin 42 := 37
  let line : BitVec 46 := 1
  let n : Nat := 0
  let d : LineData := { bytes := List.replicate 64 1 }
  (36 ≤ agent.val) ∧ (s.net = []) ∧ (s.WayOpen agent.val line.toNat) ∧ (s.freeTxn agent.val = some n) ∧ (s.mayAsk agent.val line.toNat .rdS = true) ∧ (s.windowOk ((masterOf agent.val).getD 0) false (64 * line.toNat) 64 = true) ∧ (64 * line.toNat < dramSize) ∧ (64 * line.toNat < s.memTop * 2 ^ 29) ∧ (s.masterSecure ((masterOf agent.val).getD 0) = true ∨ s.securePage (line.toNat / 64) = false) ∧ ((s.hline line.toNat).txn = none) ∧ ((s.hline line.toNat).waitq = []) ∧ (hasRoom .dir (s.entriesOf (homeOf line.toNat)) line.toNat = true) ∧ ((s.hline line.toNat).d = .i) ∧ ((s.hline line.toNat).p = []) ∧ ((s.hline line.toNat).llc = some d) ∧ (d.pmask = 0) ∧ (d.bad = none) := by decide +kernel

/-- Hypotheses of `rdSOwned` in `CopyRequests`. -/
theorem witness_rdSOwned :
  let s : State := (State.reset |>.put (.vz 38) F.VZ_STAT_STATE 8 |>.put (.vz 39) F.VZ_STAT_STATE 8 |>.put (.vz 3) F.VZ_STAT_STATE 8 |>.put (.vz 1) F.VZ_STAT_STATE 8 |>.setHline 1 { d := .u, p := [3] })
  let agent : Fin 42 := 37
  let line : BitVec 46 := 1
  let n : Nat := 0
  let o : Fin 36 := 3
  (36 ≤ agent.val) ∧ (s.net = []) ∧ (s.WayOpen agent.val line.toNat) ∧ (s.freeTxn agent.val = some n) ∧ (s.mayAsk agent.val line.toNat .rdS = true) ∧ (s.windowOk ((masterOf agent.val).getD 0) false (64 * line.toNat) 64 = true) ∧ (64 * line.toNat < dramSize) ∧ (64 * line.toNat < s.memTop * 2 ^ 29) ∧ (s.masterSecure ((masterOf agent.val).getD 0) = true ∨ s.securePage (line.toNat / 64) = false) ∧ ((s.hline line.toNat).txn = none) ∧ ((s.hline line.toNat).waitq = []) ∧ ((s.hline line.toNat).d = .u) ∧ ((s.hline line.toNat).p = [o.val]) ∧ (s.isolated o.val line.toNat = false) := by decide +kernel

/-- Hypotheses of `rdSTile` in `CopyRequests`. -/
theorem witness_rdSTile :
  let s : State := { (State.reset |>.put (.vz 38) F.VZ_STAT_STATE 8 |>.put (.vz 39) F.VZ_STAT_STATE 8 |>.put (.vz 3) F.VZ_STAT_STATE 8 |>.put (.vz 1) F.VZ_STAT_STATE 8 |>.setHline 1 { llc := some { bytes := List.replicate 64 1 } }) with net := [⟨.req { op := .rdS, port := 3, txn := 5 }, 1, 3, homePort 1, 5, 0⟩] }
  let agent : Fin 42 := 3
  let line : BitVec 46 := 1
  let n : Nat := 5
  let r : HReq := { op := .rdS, port := 3, txn := 5 }
  let d : LineData := { bytes := List.replicate 64 1 }
  (agent.val < 36) ∧ (s.net = [⟨.req r, line.toNat, agent.val, homePort line.toNat, n, 0⟩]) ∧ (s.WayOpen agent.val line.toNat) ∧ (r.op = .rdS) ∧ (r.port = agent.val) ∧ (r.txn = n) ∧ (64 * line.toNat < dramSize) ∧ (64 * line.toNat < s.memTop * 2 ^ 29) ∧ (r.w = true ∨ s.securePage (line.toNat / 64) = false) ∧ ((s.hline line.toNat).txn = none) ∧ ((s.hline line.toNat).waitq = []) ∧ (hasRoom .dir (s.entriesOf (homeOf line.toNat)) line.toNat = true) ∧ ((s.hline line.toNat).d = .i) ∧ ((s.hline line.toNat).p = []) ∧ ((s.hline line.toNat).llc = some d) ∧ (d.pmask = 0) ∧ (d.bad = none) := by decide +kernel

/-- Hypotheses of `rdUTile` in `CopyRequests`. -/
theorem witness_rdUTile :
  let s : State := { (State.reset |>.put (.vz 38) F.VZ_STAT_STATE 8 |>.put (.vz 39) F.VZ_STAT_STATE 8 |>.put (.vz 3) F.VZ_STAT_STATE 8 |>.put (.vz 1) F.VZ_STAT_STATE 8 |>.setHline 1 { llc := some { bytes := List.replicate 64 1 } }) with net := [⟨.req { op := .rdU, port := 3, txn := 5 }, 1, 3, homePort 1, 5, 0⟩] }
  let agent : Fin 42 := 3
  let line : BitVec 46 := 1
  let n : Nat := 5
  let r : HReq := { op := .rdU, port := 3, txn := 5 }
  let d : LineData := { bytes := List.replicate 64 1 }
  (agent.val < 36) ∧ (s.net = [⟨.req r, line.toNat, agent.val, homePort line.toNat, n, 0⟩]) ∧ (s.WayOpen agent.val line.toNat) ∧ (r.op = .rdU) ∧ (r.port = agent.val) ∧ (r.txn = n) ∧ (64 * line.toNat < dramSize) ∧ (64 * line.toNat < s.memTop * 2 ^ 29) ∧ (r.w = true ∨ s.securePage (line.toNat / 64) = false) ∧ ((s.hline line.toNat).txn = none) ∧ ((s.hline line.toNat).waitq = []) ∧ (hasRoom .dir (s.entriesOf (homeOf line.toNat)) line.toNat = true) ∧ ((s.hline line.toNat).d = .i) ∧ ((s.hline line.toNat).p = []) ∧ ((s.hline line.toNat).llc = some d) ∧ (d.pmask = 0) ∧ (d.bad = none) := by decide +kernel

/-- Hypotheses of `rdU` in `CopyRequests`. -/
theorem witness_rdU :
  let s : State := (State.reset |>.put (.vz 38) F.VZ_STAT_STATE 8 |>.put (.vz 39) F.VZ_STAT_STATE 8 |>.put (.vz 3) F.VZ_STAT_STATE 8 |>.put (.vz 1) F.VZ_STAT_STATE 8 |>.setHline 1 { d := .s, p := [3] })
  let agent : Fin 42 := 37
  let line : BitVec 46 := 1
  let n : Nat := 0
  let o : Fin 36 := 3
  (36 ≤ agent.val) ∧ (s.net = []) ∧ (s.WayOpen agent.val line.toNat) ∧ (s.freeTxn agent.val = some n) ∧ (s.mayAsk agent.val line.toNat .rdU = true) ∧ (s.windowOk ((masterOf agent.val).getD 0) false (64 * line.toNat) 64 = true) ∧ (s.windowOk ((masterOf agent.val).getD 0) true (64 * line.toNat) 64 = true) ∧ (64 * line.toNat < dramSize) ∧ (64 * line.toNat < s.memTop * 2 ^ 29) ∧ (s.masterSecure ((masterOf agent.val).getD 0) = true ∨ s.securePage (line.toNat / 64) = false) ∧ ((s.hline line.toNat).txn = none) ∧ ((s.hline line.toNat).waitq = []) ∧ ((s.hline line.toNat).d = .s) ∧ ((s.hline line.toNat).p = [o.val]) ∧ (s.isolated o.val line.toNat = false) := by decide +kernel

/-- Hypotheses of `upg` in `CopyRequests`. -/
theorem witness_upg :
  let s : State := (State.reset |>.put (.vz 38) F.VZ_STAT_STATE 8 |>.put (.vz 39) F.VZ_STAT_STATE 8 |>.put (.vz 3) F.VZ_STAT_STATE 8 |>.put (.vz 1) F.VZ_STAT_STATE 8 |>.setHline 1 { d := .s, p := [37] } |>.setCopy 37 1 (some ⟨.s, { bytes := List.replicate 64 1 }⟩))
  let agent : Fin 42 := 37
  let line : BitVec 46 := 1
  let n : Nat := 0
  (36 ≤ agent.val) ∧ (s.net = []) ∧ (s.WayOpen agent.val line.toNat) ∧ (s.freeTxn agent.val = some n) ∧ (s.mayAsk agent.val line.toNat .upg = true) ∧ (s.windowOk ((masterOf agent.val).getD 0) true (64 * line.toNat) 64 = true) ∧ (64 * line.toNat < dramSize) ∧ (64 * line.toNat < s.memTop * 2 ^ 29) ∧ (s.masterSecure ((masterOf agent.val).getD 0) = true ∨ s.securePage (line.toNat / 64) = false) ∧ ((s.hline line.toNat).txn = none) ∧ ((s.hline line.toNat).waitq = []) ∧ ((s.hline line.toNat).d = .s) ∧ ((s.hline line.toNat).p = [agent.val]) := by decide +kernel

/-- Hypotheses of `upgTile` in `CopyRequests`. -/
theorem witness_upgTile :
  let s : State := { (State.reset |>.put (.vz 38) F.VZ_STAT_STATE 8 |>.put (.vz 39) F.VZ_STAT_STATE 8 |>.put (.vz 3) F.VZ_STAT_STATE 8 |>.put (.vz 1) F.VZ_STAT_STATE 8 |>.setHline 1 { d := .s, p := [3] }) with net := [⟨.req { op := .upg, port := 3, txn := 5 }, 1, 3, homePort 1, 5, 0⟩] }
  let agent : Fin 42 := 3
  let line : BitVec 46 := 1
  let n : Nat := 5
  let r : HReq := { op := .upg, port := 3, txn := 5 }
  (agent.val < 36) ∧ (s.net = [⟨.req r, line.toNat, agent.val, homePort line.toNat, n, 0⟩]) ∧ (s.WayOpen agent.val line.toNat) ∧ (r.op = .upg) ∧ (r.port = agent.val) ∧ (r.txn = n) ∧ (64 * line.toNat < dramSize) ∧ (64 * line.toNat < s.memTop * 2 ^ 29) ∧ (r.w = true ∨ s.securePage (line.toNat / 64) = false) ∧ ((s.hline line.toNat).txn = none) ∧ ((s.hline line.toNat).waitq = []) ∧ ((s.hline line.toNat).d = .s) ∧ ((s.hline line.toNat).p = [agent.val]) := by decide +kernel

/-- Hypotheses of `rdURefused` in `CopyRequests`. -/
theorem witness_rdURefused :
  let s : State := (State.reset |>.put (.vz 38) F.VZ_STAT_STATE 8 |>.put (.vz 39) F.VZ_STAT_STATE 8 |>.put (.vz 3) F.VZ_STAT_STATE 8 |>.put (.vz 1) F.VZ_STAT_STATE 8 |>.put .iow F.IOW_WIN_EN 1 1)
  let agent : Fin 42 := 37
  let line : BitVec 46 := 1
  (36 ≤ agent.val) ∧ (s.net = []) ∧ (s.mayAsk agent.val line.toNat .rdU = true) ∧ (s.windowOk ((masterOf agent.val).getD 0) true (64 * line.toNat) 64 = false) := by decide +kernel

/-- Hypotheses of `rdOnce` in `SingleRequests`. -/
theorem witness_rdOnce :
  let s : State := (State.reset |>.put (.vz 38) F.VZ_STAT_STATE 8 |>.put (.vz 39) F.VZ_STAT_STATE 8 |>.put (.vz 3) F.VZ_STAT_STATE 8 |>.put (.vz 1) F.VZ_STAT_STATE 8 |>.setHline 1 { llc := some { bytes := List.replicate 64 1 } })
  let i : Fin 13 := 10
  let line : BitVec 46 := 1
  let n : Nat := 0
  let d : LineData := { bytes := List.replicate 64 1 }
  (s.net = []) ∧ (s.WayOpen (masterPort i.val) line.toNat) ∧ (s.freeTxn (masterPort i.val) = some n) ∧ (s.windowOk i.val false (64 * line.toNat) 64 = true) ∧ (64 * line.toNat < dramSize) ∧ (64 * line.toNat < s.memTop * 2 ^ 29) ∧ (s.masterSecure i.val = true ∨ s.securePage (line.toNat / 64) = false) ∧ ((s.hline line.toNat).txn = none) ∧ ((s.hline line.toNat).waitq = []) ∧ ((s.hline line.toNat).d ≠ .u) ∧ ((s.hline line.toNat).llc = some d) ∧ (d.pmask = 0) ∧ (d.bad = none) := by decide +kernel

/-- Hypotheses of `rdOnceParity` in `SingleRequests`. -/
theorem witness_rdOnceParity :
  let s : State := (State.reset |>.put (.vz 38) F.VZ_STAT_STATE 8 |>.put (.vz 39) F.VZ_STAT_STATE 8 |>.put (.vz 3) F.VZ_STAT_STATE 8 |>.put (.vz 1) F.VZ_STAT_STATE 8 |>.setHline 1 { llc := some { bytes := List.replicate 64 1 } })
  let i : Fin 13 := 10
  let line : BitVec 46 := 1
  let n : Nat := 0
  let d : LineData := { bytes := List.replicate 64 1 }
  let again : Bool := false
  (s.net = []) ∧ (s.WayOpen (masterPort i.val) line.toNat) ∧ (s.freeTxn (masterPort i.val) = some n) ∧ (s.windowOk i.val false (64 * line.toNat) 64 = true) ∧ (64 * line.toNat < dramSize) ∧ (64 * line.toNat < s.memTop * 2 ^ 29) ∧ (s.masterSecure i.val = true ∨ s.securePage (line.toNat / 64) = false) ∧ ((s.hline line.toNat).txn = none) ∧ ((s.hline line.toNat).waitq = []) ∧ ((s.hline line.toNat).d ≠ .u) ∧ ((s.hline line.toNat).llc = some d) ∧ ((s.hline line.toNat).dirty = false) := by decide +kernel

/-- Hypotheses of `wrFull` in `SingleRequests`. -/
theorem witness_wrFull :
  let s : State := (State.reset |>.put (.vz 38) F.VZ_STAT_STATE 8 |>.put (.vz 39) F.VZ_STAT_STATE 8 |>.put (.vz 3) F.VZ_STAT_STATE 8 |>.put (.vz 1) F.VZ_STAT_STATE 8 |>.setHline 1 { llc := some { bytes := List.replicate 64 1 } })
  let i : Fin 13 := 10
  let line : BitVec 46 := 1
  let n : Nat := 0
  let data : Vector Byte 64 := Vector.replicate 64 7
  let d : LineData := { bytes := List.replicate 64 1 }
  (s.net = []) ∧ (s.WayOpen (masterPort i.val) line.toNat) ∧ (s.freeTxn (masterPort i.val) = some n) ∧ (s.windowOk i.val true (64 * line.toNat) 64 = true) ∧ (64 * line.toNat < dramSize) ∧ (64 * line.toNat < s.memTop * 2 ^ 29) ∧ (s.masterSecure i.val = true ∨ s.securePage (line.toNat / 64) = false) ∧ ((s.hline line.toNat).txn = none) ∧ ((s.hline line.toNat).waitq = []) ∧ ((s.hline line.toNat).p = []) ∧ ((s.hline line.toNat).llc = some d) := by decide +kernel

/-- Hypotheses of `wrPtl` in `SingleRequests`. -/
theorem witness_wrPtl :
  let s : State := (State.reset |>.put (.vz 38) F.VZ_STAT_STATE 8 |>.put (.vz 39) F.VZ_STAT_STATE 8 |>.put (.vz 3) F.VZ_STAT_STATE 8 |>.put (.vz 1) F.VZ_STAT_STATE 8 |>.setHline 1 { llc := some { bytes := List.replicate 64 1 } })
  let i : Fin 13 := 10
  let line : BitVec 46 := 1
  let n : Nat := 0
  let data : Vector Byte 64 := Vector.replicate 64 7
  let mask : BitVec 64 := 0xF0
  let d : LineData := { bytes := List.replicate 64 1 }
  (s.net = []) ∧ (s.WayOpen (masterPort i.val) line.toNat) ∧ (s.freeTxn (masterPort i.val) = some n) ∧ (s.windowOk i.val true (64 * line.toNat) 64 = true) ∧ (64 * line.toNat < dramSize) ∧ (64 * line.toNat < s.memTop * 2 ^ 29) ∧ (s.masterSecure i.val = true ∨ s.securePage (line.toNat / 64) = false) ∧ ((s.hline line.toNat).txn = none) ∧ ((s.hline line.toNat).waitq = []) ∧ ((s.hline line.toNat).p = []) ∧ ((s.hline line.toNat).llc = some d) ∧ (d.bad = none) := by decide +kernel

/-- Hypotheses of `wrFullDram` in `SingleRequests`. -/
theorem witness_wrFullDram :
  let s : State := (State.reset |>.put (.vz 38) F.VZ_STAT_STATE 8 |>.put (.vz 39) F.VZ_STAT_STATE 8 |>.put (.vz 3) F.VZ_STAT_STATE 8 |>.put (.vz 1) F.VZ_STAT_STATE 8)
  let i : Fin 13 := 10
  let line : BitVec 46 := 1
  let n : Nat := 0
  let data : Vector Byte 64 := Vector.replicate 64 7
  let b : Nat := 65
  (s.net = []) ∧ (s.WayOpen (masterPort i.val) line.toNat) ∧ (s.freeTxn (masterPort i.val) = some n) ∧ (s.windowOk i.val true (64 * line.toNat) 64 = true) ∧ (64 * line.toNat < dramSize) ∧ (64 * line.toNat < s.memTop * 2 ^ 29) ∧ (s.masterSecure i.val = true ∨ s.securePage (line.toNat / 64) = false) ∧ ((s.hline line.toNat).txn = none) ∧ ((s.hline line.toNat).waitq = []) ∧ ((s.hline line.toNat).p = []) ∧ ((s.hline line.toNat).llc = none) := by decide +kernel

/-- Hypotheses of `wrPtlDram` in `SingleRequests`. -/
theorem witness_wrPtlDram :
  let s : State := (State.reset |>.put (.vz 38) F.VZ_STAT_STATE 8 |>.put (.vz 39) F.VZ_STAT_STATE 8 |>.put (.vz 3) F.VZ_STAT_STATE 8 |>.put (.vz 1) F.VZ_STAT_STATE 8)
  let i : Fin 13 := 10
  let line : BitVec 46 := 1
  let n : Nat := 0
  let data : Vector Byte 64 := Vector.replicate 64 7
  let mask : BitVec 64 := 0xF2
  let b : Nat := 65
  (s.net = []) ∧ (s.WayOpen (masterPort i.val) line.toNat) ∧ (s.freeTxn (masterPort i.val) = some n) ∧ (s.windowOk i.val true (64 * line.toNat) 64 = true) ∧ (64 * line.toNat < dramSize) ∧ (64 * line.toNat < s.memTop * 2 ^ 29) ∧ (s.masterSecure i.val = true ∨ s.securePage (line.toNat / 64) = false) ∧ ((s.hline line.toNat).txn = none) ∧ ((s.hline line.toNat).waitq = []) ∧ ((s.hline line.toNat).p = []) ∧ ((s.hline line.toNat).llc = none) := by decide +kernel

/-- Hypotheses of `wrFullRefused` in `SingleRequests`. -/
theorem witness_wrFullRefused :
  let s : State := (State.reset |>.put (.vz 38) F.VZ_STAT_STATE 8 |>.put (.vz 39) F.VZ_STAT_STATE 8 |>.put (.vz 3) F.VZ_STAT_STATE 8 |>.put (.vz 1) F.VZ_STAT_STATE 8 |>.put .iow F.IOW_WIN_EN 1 10)
  let i : Fin 13 := 10
  let line : BitVec 46 := 1
  let data : Vector Byte 64 := Vector.replicate 64 7
  (s.net = []) ∧ (s.windowOk i.val true (64 * line.toNat) 64 = false) := by decide +kernel

/-- Hypotheses of `amo` in `SingleRequests`. -/
theorem witness_amo :
  let s : State := (State.reset |>.put (.vz 38) F.VZ_STAT_STATE 8 |>.put (.vz 39) F.VZ_STAT_STATE 8 |>.put (.vz 3) F.VZ_STAT_STATE 8 |>.put (.vz 1) F.VZ_STAT_STATE 8 |>.put .cfg F.CFG_TMAP_VALID 1 1 |>.put .cfg F.CFG_TMAP_PHYS 1 1 |>.setHline 1 { llc := some { bytes := List.replicate 64 1 } })
  let hart : Fin 256 := 9
  let line : BitVec 46 := 1
  let word : Fin 16 := 2
  let wide : Bool := false
  let op : AmoOp := .add
  let operand : Word := 5
  let d : LineData := { bytes := List.replicate 64 1 }
  let p : Fin 36 := 1
  let n : Nat := 0
  (s.physTile (hart.val / 8) = some p) ∧ (s.net = []) ∧ (s.WayOpen p.val line.toNat) ∧ (s.freeTxn p.val = some n) ∧ (64 * line.toNat < dramSize) ∧ (64 * line.toNat < s.memTop * 2 ^ 29) ∧ ((s.hart hart.val).w = true ∨ s.securePage (line.toNat / 64) = false) ∧ ((s.hline line.toNat).txn = none) ∧ ((s.hline line.toNat).waitq = []) ∧ ((s.hline line.toNat).p = []) ∧ ((s.hline line.toNat).llc = some d) ∧ (d.pmask = 0) ∧ (d.bad = none) ∧ (hasRoom (s.arrayOf (.home (homeOf line.toNat)) .llc) (s.llcLines (homeOf line.toNat)) line.toNat = true) := by decide +kernel

/-- Hypotheses of `amoContended` in `SingleRequests`. -/
theorem witness_amoContended :
  let s : State := { (State.reset |>.put (.vz 38) F.VZ_STAT_STATE 8 |>.put (.vz 39) F.VZ_STAT_STATE 8 |>.put (.vz 3) F.VZ_STAT_STATE 8 |>.put (.vz 1) F.VZ_STAT_STATE 8 |>.put .cfg F.CFG_TMAP_VALID 1 1 |>.put .cfg F.CFG_TMAP_PHYS 1 1 |>.setHline 1 { llc := some { bytes := List.replicate 64 1 } }) with amoHist := [(1, [(1, 3)])] }
  let hart : Fin 256 := 9
  let line : BitVec 46 := 1
  let word : Fin 16 := 2
  let wide : Bool := false
  let op : AmoOp := .add
  let operand : Word := 5
  let d : LineData := { bytes := List.replicate 64 1 }
  let p : Fin 36 := 1
  let n : Nat := 0
  let k : Nat := 3
  (s.physTile (hart.val / 8) = some p) ∧ (s.net = []) ∧ (s.WayOpen p.val line.toNat) ∧ (s.freeTxn p.val = some n) ∧ (64 * line.toNat < dramSize) ∧ (64 * line.toNat < s.memTop * 2 ^ 29) ∧ ((s.hart hart.val).w = true ∨ s.securePage (line.toNat / 64) = false) ∧ ((s.hline line.toNat).txn = none) ∧ ((s.hline line.toNat).waitq = []) ∧ ((s.hline line.toNat).p = []) ∧ ((s.hline line.toNat).llc = some d) ∧ (d.pmask = 0) ∧ (d.bad = none) ∧ (hasRoom (s.arrayOf (.home (homeOf line.toNat)) .llc) (s.llcLines (homeOf line.toNat)) line.toNat = true) ∧ ((tget [] s.amoHist (homeOf line.toNat).val).find? (fun e => e.1 == line.toNat) = some (line.toNat, k)) ∧ (k ≠ hart.val) := by decide +kernel

/-- Hypotheses of `evictSent` in `NoticesAndAnswers`. -/
theorem witness_evictSent :
  let s : State := (State.reset |>.put (.vz 38) F.VZ_STAT_STATE 8 |>.put (.vz 39) F.VZ_STAT_STATE 8 |>.put (.vz 3) F.VZ_STAT_STATE 8 |>.put (.vz 1) F.VZ_STAT_STATE 8 |>.setHline 1 { d := .s, p := [37, 3] } |>.setCopy 37 1 (some ⟨.s, { bytes := List.replicate 64 1 }⟩))
  let agent : Fin 42 := 37
  let line : BitVec 46 := 1
  let n : Nat := 0
  let c : Copy := ⟨.s, { bytes := List.replicate 64 1 }⟩
  (36 ≤ agent.val) ∧ (s.net = []) ∧ (s.freeTxn agent.val = some n) ∧ (s.agentBusy agent.val line.toNat = false) ∧ (s.copyOf agent.val line.toNat = some c) ∧ (c.st ≠ .ud) ∧ (c.d.bad = none) := by decide +kernel

/-- Hypotheses of `evict` in `NoticesAndAnswers`. -/
theorem witness_evict :
  let s : State := { (State.reset |>.put (.vz 38) F.VZ_STAT_STATE 8 |>.put (.vz 39) F.VZ_STAT_STATE 8 |>.put (.vz 3) F.VZ_STAT_STATE 8 |>.put (.vz 1) F.VZ_STAT_STATE 8 |>.setHline 1 { d := .s, p := [37, 3] }) with net := [⟨.evict false, 1, 37, homePort 1, 6, 0⟩] }
  let agent : Fin 42 := 37
  let line : BitVec 46 := 1
  let n : Nat := 6
  let rest : List Msg := []
  (s.net = ⟨.evict false, line.toNat, agent.val, homePort line.toNat, n, 0⟩ :: rest) ∧ (s.WayOpen agent.val line.toNat) ∧ ((s.hline line.toNat).p.contains agent.val = true) := by decide +kernel

/-- Hypotheses of `evictOffer` in `NoticesAndAnswers`. -/
theorem witness_evictOffer :
  let s : State := { (State.reset |>.put (.vz 38) F.VZ_STAT_STATE 8 |>.put (.vz 39) F.VZ_STAT_STATE 8 |>.put (.vz 3) F.VZ_STAT_STATE 8 |>.put (.vz 1) F.VZ_STAT_STATE 8 |>.put (.home 1) F.HOME_TUNE_OFFER_EN 1 |>.put (.home 1) F.HOME_TUNE_OFFER_Q 4 |>.setHline 1 { d := .s, p := [3, 4] }) with net := [⟨.evict true, 1, 3, homePort 1, 6, 0⟩] }
  let agent : Fin 42 := 3
  let line : BitVec 46 := 1
  let n : Nat := 6
  let rest : List Msg := []
  (s.net = ⟨.evict true, line.toNat, agent.val, homePort line.toNat, n, 0⟩ :: rest) ∧ (s.WayOpen agent.val line.toNat) ∧ ((s.hline line.toNat).p.contains agent.val = true) ∧ ((s.hline line.toNat).llc = none) ∧ (s.on (.home (homeOf line.toNat)) F.HOME_TUNE_OFFER_EN = true) ∧ (s.offersAt (homeOf line.toNat).val < max 1 (s.get (.home (homeOf line.toNat)) F.HOME_TUNE_OFFER_Q)) := by decide +kernel

/-- Hypotheses of `evictLate` in `NoticesAndAnswers`. -/
theorem witness_evictLate :
  let s : State := { (State.reset |>.put (.vz 38) F.VZ_STAT_STATE 8 |>.put (.vz 39) F.VZ_STAT_STATE 8 |>.put (.vz 3) F.VZ_STAT_STATE 8 |>.put (.vz 1) F.VZ_STAT_STATE 8) with net := [⟨.evict false, 1, 37, homePort 1, 6, 0⟩] }
  let agent : Fin 42 := 37
  let line : BitVec 46 := 1
  let n : Nat := 6
  let rest : List Msg := []
  (s.net = ⟨.evict false, line.toNat, agent.val, homePort line.toNat, n, 0⟩ :: rest) ∧ (s.WayOpen agent.val line.toNat) ∧ ((s.hline line.toNat).p.contains agent.val = false) := by decide +kernel

/-- Hypotheses of `wbSent` in `NoticesAndAnswers`. -/
theorem witness_wbSent :
  let s : State := (State.reset |>.put (.vz 38) F.VZ_STAT_STATE 8 |>.put (.vz 39) F.VZ_STAT_STATE 8 |>.put (.vz 3) F.VZ_STAT_STATE 8 |>.put (.vz 1) F.VZ_STAT_STATE 8 |>.setHline 1 { d := .u, p := [37] } |>.setCopy 37 1 (some ⟨.ud, { bytes := List.replicate 64 1 }⟩))
  let agent : Fin 42 := 37
  let line : BitVec 46 := 1
  let n : Nat := 0
  let d : LineData := { bytes := List.replicate 64 1 }
  (36 ≤ agent.val) ∧ (s.net = []) ∧ (s.freeTxn agent.val = some n) ∧ (s.agentBusy agent.val line.toNat = false) ∧ (s.copyOf agent.val line.toNat = some ⟨.ud, d⟩) ∧ (d.pmask = 0) ∧ (d.bad = none) := by decide +kernel

/-- Hypotheses of `wb` in `NoticesAndAnswers`. -/
theorem witness_wb :
  let s : State := { (State.reset |>.put (.vz 38) F.VZ_STAT_STATE 8 |>.put (.vz 39) F.VZ_STAT_STATE 8 |>.put (.vz 3) F.VZ_STAT_STATE 8 |>.put (.vz 1) F.VZ_STAT_STATE 8 |>.setHline 1 { d := .u, p := [37] }) with net := [⟨.wb { bytes := List.replicate 64 1 }, 1, 37, homePort 1, 6, 0⟩] }
  let agent : Fin 42 := 37
  let line : BitVec 46 := 1
  let n : Nat := 6
  let rest : List Msg := []
  let d : LineData := { bytes := List.replicate 64 1 }
  (s.net = ⟨.wb d, line.toNat, agent.val, homePort line.toNat, n, 0⟩ :: rest) ∧ (s.WayOpen agent.val line.toNat) ∧ (d.pmask = 0) ∧ ((s.hline line.toNat).txn = none) ∧ ((s.hline line.toNat).llc = none) ∧ (hasRoom (s.arrayOf (.home (homeOf line.toNat)) .llc) (s.llcLines (homeOf line.toNat)) line.toNat = true) := by decide +kernel

/-- Hypotheses of `wbHeld` in `NoticesAndAnswers`. -/
theorem witness_wbHeld :
  let s : State := { (State.reset |>.put (.vz 38) F.VZ_STAT_STATE 8 |>.put (.vz 39) F.VZ_STAT_STATE 8 |>.put (.vz 3) F.VZ_STAT_STATE 8 |>.put (.vz 1) F.VZ_STAT_STATE 8 |>.setHline 1 { d := .u, p := [37], txn := some { r := { op := .rdOnce, port := 40, txn := 0 }, wait := [37, 38] } }) with net := [⟨.wb { bytes := List.replicate 64 1 }, 1, 37, homePort 1, 6, 0⟩] }
  let agent : Fin 42 := 37
  let line : BitVec 46 := 1
  let n : Nat := 6
  let rest : List Msg := []
  let d : LineData := { bytes := List.replicate 64 1 }
  let x : HTxn := { r := { op := .rdOnce, port := 40, txn := 0 }, wait := [37, 38] }
  (s.net = ⟨.wb d, line.toNat, agent.val, homePort line.toNat, n, 0⟩ :: rest) ∧ (s.WayOpen agent.val line.toNat) ∧ ((s.hline line.toNat).txn = some x) ∧ (x.wbWait.contains agent.val = false) := by decide +kernel

/-- Hypotheses of `odata` in `NoticesAndAnswers`. -/
theorem witness_odata :
  let s : State := { (State.reset |>.put (.vz 38) F.VZ_STAT_STATE 8 |>.put (.vz 39) F.VZ_STAT_STATE 8 |>.put (.vz 3) F.VZ_STAT_STATE 8 |>.put (.vz 1) F.VZ_STAT_STATE 8 |>.setHline 1 { offers := [(3, false)] }) with net := [⟨.odata { bytes := List.replicate 64 1 }, 1, 3, homePort 1, 0, 0⟩] }
  let agent : Fin 42 := 3
  let line : BitVec 46 := 1
  let n : Nat := 0
  let rest : List Msg := []
  let d : LineData := { bytes := List.replicate 64 1 }
  (s.net = ⟨.odata d, line.toNat, agent.val, homePort line.toNat, n, 0⟩ :: rest) ∧ (s.WayOpen agent.val line.toNat) ∧ ((s.hline line.toNat).offers = [(agent.val, false)]) ∧ ((s.hline line.toNat).llc = none) ∧ (d.pmask = 0) ∧ (hasRoom (s.arrayOf (.home (homeOf line.toNat)) .llc) (s.llcLines (homeOf line.toNat)) line.toNat = true) := by decide +kernel

/-- Hypotheses of `odataCancelled` in `NoticesAndAnswers`. -/
theorem witness_odataCancelled :
  let s : State := { (State.reset |>.put (.vz 38) F.VZ_STAT_STATE 8 |>.put (.vz 39) F.VZ_STAT_STATE 8 |>.put (.vz 3) F.VZ_STAT_STATE 8 |>.put (.vz 1) F.VZ_STAT_STATE 8 |>.setHline 1 { offers := [(3, true)] }) with net := [⟨.odata { bytes := List.replicate 64 1 }, 1, 3, homePort 1, 0, 0⟩] }
  let agent : Fin 42 := 3
  let line : BitVec 46 := 1
  let n : Nat := 0
  let rest : List Msg := []
  let d : LineData := { bytes := List.replicate 64 1 }
  (s.net = ⟨.odata d, line.toNat, agent.val, homePort line.toNat, n, 0⟩ :: rest) ∧ (s.WayOpen agent.val line.toNat) ∧ ((s.hline line.toNat).offers = [(agent.val, true)]) := by decide +kernel

/-- Hypotheses of `ack` in `NoticesAndAnswers`. -/
theorem witness_ack :
  let s : State := { (State.reset |>.put (.vz 38) F.VZ_STAT_STATE 8 |>.put (.vz 39) F.VZ_STAT_STATE 8 |>.put (.vz 3) F.VZ_STAT_STATE 8 |>.put (.vz 1) F.VZ_STAT_STATE 8 |>.setHline 1 { d := .u, p := [37], txn := some { r := { op := .rdOnce, port := 40, txn := 0 }, wait := [37, 38] } }) with net := [⟨.ack .hit none .s, 1, 37, homePort 1, 6, 0⟩] }
  let agent : Fin 42 := 37
  let line : BitVec 46 := 1
  let n : Nat := 6
  let rest : List Msg := []
  let x : HTxn := { r := { op := .rdOnce, port := 40, txn := 0 }, wait := [37, 38] }
  (s.net = ⟨.ack .hit none .s, line.toNat, agent.val, homePort line.toNat, n, 0⟩ :: rest) ∧ (s.WayOpen agent.val line.toNat) ∧ ((s.hline line.toNat).txn = some x) ∧ (x.wait.contains agent.val = true) ∧ (x.wait.filter (fun k => k != agent.val) ≠ []) := by decide +kernel

/-- Hypotheses of `ackMiss` in `NoticesAndAnswers`. -/
theorem witness_ackMiss :
  let s : State := { (State.reset |>.put (.vz 38) F.VZ_STAT_STATE 8 |>.put (.vz 39) F.VZ_STAT_STATE 8 |>.put (.vz 3) F.VZ_STAT_STATE 8 |>.put (.vz 1) F.VZ_STAT_STATE 8 |>.setHline 1 { d := .s, p := [37, 3], txn := some { r := { op := .rdOnce, port := 40, txn := 0 }, wait := [37, 38] } }) with net := [⟨.ack .miss none .s, 1, 37, homePort 1, 6, 0⟩] }
  let agent : Fin 42 := 37
  let line : BitVec 46 := 1
  let n : Nat := 6
  let rest : List Msg := []
  let x : HTxn := { r := { op := .rdOnce, port := 40, txn := 0 }, wait := [37, 38] }
  (s.net = ⟨.ack .miss none .s, line.toNat, agent.val, homePort line.toNat, n, 0⟩ :: rest) ∧ (s.WayOpen agent.val line.toNat) ∧ ((s.hline line.toNat).txn = some x) ∧ (x.wait.contains agent.val = true) ∧ (x.wait.filter (fun k => k != agent.val) ≠ []) := by decide +kernel

/-- Hypotheses of `ackWb` in `NoticesAndAnswers`. -/
theorem witness_ackWb :
  let s : State := { (State.reset |>.put (.vz 38) F.VZ_STAT_STATE 8 |>.put (.vz 39) F.VZ_STAT_STATE 8 |>.put (.vz 3) F.VZ_STAT_STATE 8 |>.put (.vz 1) F.VZ_STAT_STATE 8 |>.setHline 1 { d := .u, p := [37], txn := some { r := { op := .rdOnce, port := 40, txn := 0 }, wait := [37] } }) with net := [⟨.ack .wbPending none .s, 1, 37, homePort 1, 6, 0⟩] }
  let agent : Fin 42 := 37
  let line : BitVec 46 := 1
  let n : Nat := 6
  let rest : List Msg := []
  let x : HTxn := { r := { op := .rdOnce, port := 40, txn := 0 }, wait := [37] }
  (s.net = ⟨.ack .wbPending none .s, line.toNat, agent.val, homePort line.toNat, n, 0⟩ :: rest) ∧ (s.WayOpen agent.val line.toNat) ∧ ((s.hline line.toNat).txn = some x) ∧ (x.wait = [agent.val]) ∧ (x.wbs = []) ∧ (x.r.op = .rdOnce) := by decide +kernel

/-- Hypotheses of `ackLast` in `NoticesAndAnswers`. -/
theorem witness_ackLast :
  let s : State := { (State.reset |>.put (.vz 38) F.VZ_STAT_STATE 8 |>.put (.vz 39) F.VZ_STAT_STATE 8 |>.put (.vz 3) F.VZ_STAT_STATE 8 |>.put (.vz 1) F.VZ_STAT_STATE 8 |>.setHline 1 { d := .u, p := [37], txn := some { r := { op := .rdOnce, port := 40, txn := 6 }, wait := [37] } }) with net := [⟨.ack .dataSent none .s, 1, 37, homePort 1, 6, 0⟩] }
  let agent : Fin 42 := 37
  let line : BitVec 46 := 1
  let n : Nat := 6
  let rest : List Msg := []
  let x : HTxn := { r := { op := .rdOnce, port := 40, txn := 6 }, wait := [37] }
  (s.net = ⟨.ack .dataSent none .s, line.toNat, agent.val, homePort line.toNat, n, 0⟩ :: rest) ∧ (s.WayOpen agent.val line.toNat) ∧ ((s.hline line.toNat).txn = some x) ∧ ((s.hline line.toNat).waitq = []) ∧ (x.wait = [agent.val]) ∧ (x.wbWait = []) ∧ (x.wbs = []) ∧ (x.dir = none) ∧ (x.gone = false) ∧ (x.comp = false) ∧ (x.r.op = .rdOnce) := by decide +kernel

/-- Hypotheses of `compAck` in `NoticesAndAnswers`. -/
theorem witness_compAck :
  let s : State := { (State.reset |>.put (.vz 38) F.VZ_STAT_STATE 8 |>.put (.vz 39) F.VZ_STAT_STATE 8 |>.put (.vz 3) F.VZ_STAT_STATE 8 |>.put (.vz 1) F.VZ_STAT_STATE 8 |>.setHline 1 { d := .u, p := [37], txn := some { r := { op := .rdU, port := 37, txn := 6 }, comp := true } }) with net := [⟨.compAck, 1, 37, homePort 1, 6, 0⟩] }
  let agent : Fin 42 := 37
  let line : BitVec 46 := 1
  let n : Nat := 6
  let rest : List Msg := []
  let x : HTxn := { r := { op := .rdU, port := 37, txn := 6 }, comp := true }
  (s.net = ⟨.compAck, line.toNat, agent.val, homePort line.toNat, n, 0⟩ :: rest) ∧ (s.WayOpen agent.val line.toNat) ∧ ((s.hline line.toNat).txn = some x) ∧ ((s.hline line.toNat).waitq = []) ∧ (x.comp = true) ∧ (x.wbs = []) := by decide +kernel

/-- Hypotheses of `wbAck` in `NoticesAndAnswers`. -/
theorem witness_wbAck :
  let s : State := { (State.reset |>.put (.vz 38) F.VZ_STAT_STATE 8 |>.put (.vz 39) F.VZ_STAT_STATE 8 |>.put (.vz 3) F.VZ_STAT_STATE 8 |>.put (.vz 1) F.VZ_STAT_STATE 8) with net := [⟨.wbAck false, 1, homePort 1, 37, 6, 0⟩], reqs := [{ port := 37, txn := 6, line := 1, op := some .wb }] }
  let agent : Fin 42 := 37
  let line : BitVec 46 := 1
  let n : Nat := 6
  let rest : List Msg := []
  let b : Bool := false
  let q : OReq := { port := 37, txn := 6, line := 1, op := some .wb }
  (s.net = ⟨.wbAck b, line.toNat, homePort line.toNat, agent.val, n, 0⟩ :: rest) ∧ (s.WayOpen agent.val line.toNat) ∧ (36 ≤ agent.val) ∧ (s.reqs = [q]) ∧ (q.port = agent.val) ∧ (q.line = line.toNat) ∧ (q.op = some .wb) := by decide +kernel

/-- Hypotheses of `evictAck` in `NoticesAndAnswers`. -/
theorem witness_evictAck :
  let s : State := { (State.reset |>.put (.vz 38) F.VZ_STAT_STATE 8 |>.put (.vz 39) F.VZ_STAT_STATE 8 |>.put (.vz 3) F.VZ_STAT_STATE 8 |>.put (.vz 1) F.VZ_STAT_STATE 8) with net := [⟨.evAck .accept, 1, homePort 1, 37, 6, 0⟩], evbufs := [(37, 1, { bytes := List.replicate 64 1 })], reqs := [{ port := 37, txn := 6, line := 1, op := some .evict }] }
  let agent : Fin 42 := 37
  let line : BitVec 46 := 1
  let n : Nat := 6
  let rest : List Msg := []
  let d : LineData := { bytes := List.replicate 64 1 }
  let q : OReq := { port := 37, txn := 6, line := 1, op := some .evict }
  (s.net = ⟨.evAck .accept, line.toNat, homePort line.toNat, agent.val, n, 0⟩ :: rest) ∧ (s.WayOpen agent.val line.toNat) ∧ (s.evbufs = [(agent.val, line.toNat, d)]) ∧ (36 ≤ agent.val) ∧ (s.reqs = [q]) ∧ (q.port = agent.val) ∧ (q.line = line.toNat) ∧ (q.op = some .evict) := by decide +kernel

/-- Hypotheses of `evictAckDeclined` in `NoticesAndAnswers`. -/
theorem witness_evictAckDeclined :
  let s : State := { (State.reset |>.put (.vz 38) F.VZ_STAT_STATE 8 |>.put (.vz 39) F.VZ_STAT_STATE 8 |>.put (.vz 3) F.VZ_STAT_STATE 8 |>.put (.vz 1) F.VZ_STAT_STATE 8) with net := [⟨.evAck .decline, 1, homePort 1, 37, 6, 0⟩], evbufs := [(37, 1, { bytes := List.replicate 64 1 })], reqs := [{ port := 37, txn := 6, line := 1, op := some .evict }] }
  let agent : Fin 42 := 37
  let line : BitVec 46 := 1
  let n : Nat := 6
  let rest : List Msg := []
  let d : LineData := { bytes := List.replicate 64 1 }
  let q : OReq := { port := 37, txn := 6, line := 1, op := some .evict }
  (s.net = ⟨.evAck .decline, line.toNat, homePort line.toNat, agent.val, n, 0⟩ :: rest) ∧ (s.WayOpen agent.val line.toNat) ∧ (s.evbufs = [(agent.val, line.toNat, d)]) ∧ (36 ≤ agent.val) ∧ (s.reqs = [q]) ∧ (q.port = agent.val) ∧ (q.line = line.toNat) ∧ (q.op = some .evict) := by decide +kernel

/-- Hypotheses of `snpS` in `AgentMessages`. -/
theorem witness_snpS :
  let s : State := { (State.reset |>.put (.vz 38) F.VZ_STAT_STATE 8 |>.put (.vz 39) F.VZ_STAT_STATE 8 |>.put (.vz 3) F.VZ_STAT_STATE 8 |>.put (.vz 1) F.VZ_STAT_STATE 8 |>.setCopy 37 1 (some ⟨.ud, { bytes := List.replicate 64 1 }⟩)) with net := [⟨.snp .s 40 6, 1, homePort 1, 37, 0, 0⟩] }
  let agent : Fin 42 := 37
  let line : BitVec 46 := 1
  let c : Copy := ⟨.ud, { bytes := List.replicate 64 1 }⟩
  let q : Nat := 40
  let n : Nat := 6
  let rest : List Msg := []
  (36 ≤ agent.val) ∧ (s.net = ⟨.snp .s q n, line.toNat, homePort line.toNat, agent.val, 0, 0⟩ :: rest) ∧ (s.WayOpen agent.val line.toNat) ∧ (s.copyOf agent.val line.toNat = some c) ∧ (c.d.pmask = 0) ∧ (c.d.bad = none) := by decide +kernel

/-- Hypotheses of `snpU` in `AgentMessages`. -/
theorem witness_snpU :
  let s : State := { (State.reset |>.put (.vz 38) F.VZ_STAT_STATE 8 |>.put (.vz 39) F.VZ_STAT_STATE 8 |>.put (.vz 3) F.VZ_STAT_STATE 8 |>.put (.vz 1) F.VZ_STAT_STATE 8 |>.setCopy 37 1 (some ⟨.ud, { bytes := List.replicate 64 1 }⟩)) with net := [⟨.snp .u 40 6, 1, homePort 1, 37, 0, 0⟩] }
  let agent : Fin 42 := 37
  let line : BitVec 46 := 1
  let c : Copy := ⟨.ud, { bytes := List.replicate 64 1 }⟩
  let q : Nat := 40
  let n : Nat := 6
  let rest : List Msg := []
  (36 ≤ agent.val) ∧ (s.net = ⟨.snp .u q n, line.toNat, homePort line.toNat, agent.val, 0, 0⟩ :: rest) ∧ (s.WayOpen agent.val line.toNat) ∧ (s.copyOf agent.val line.toNat = some c) ∧ (c.d.pmask = 0) ∧ (c.d.bad = none) := by decide +kernel

/-- Hypotheses of `snpInv` in `AgentMessages`. -/
theorem witness_snpInv :
  let s : State := { (State.reset |>.put (.vz 38) F.VZ_STAT_STATE 8 |>.put (.vz 39) F.VZ_STAT_STATE 8 |>.put (.vz 3) F.VZ_STAT_STATE 8 |>.put (.vz 1) F.VZ_STAT_STATE 8 |>.setCopy 37 1 (some ⟨.ud, { bytes := List.replicate 64 1 }⟩)) with net := [⟨.snp .inv 40 6, 1, homePort 1, 37, 0, 0⟩] }
  let agent : Fin 42 := 37
  let line : BitVec 46 := 1
  let c : Copy := ⟨.ud, { bytes := List.replicate 64 1 }⟩
  let q : Nat := 40
  let n : Nat := 6
  let rest : List Msg := []
  (36 ≤ agent.val) ∧ (s.net = ⟨.snp .inv q n, line.toNat, homePort line.toNat, agent.val, 0, 0⟩ :: rest) ∧ (s.WayOpen agent.val line.toNat) ∧ (s.copyOf agent.val line.toNat = some c) ∧ (c.d.pmask = 0) ∧ (c.d.bad = none) := by decide +kernel

/-- Hypotheses of `snpOnce` in `AgentMessages`. -/
theorem witness_snpOnce :
  let s : State := { (State.reset |>.put (.vz 38) F.VZ_STAT_STATE 8 |>.put (.vz 39) F.VZ_STAT_STATE 8 |>.put (.vz 3) F.VZ_STAT_STATE 8 |>.put (.vz 1) F.VZ_STAT_STATE 8 |>.setCopy 37 1 (some ⟨.ud, { bytes := List.replicate 64 1 }⟩)) with net := [⟨.snp .once 40 6, 1, homePort 1, 37, 0, 0⟩] }
  let agent : Fin 42 := 37
  let line : BitVec 46 := 1
  let c : Copy := ⟨.ud, { bytes := List.replicate 64 1 }⟩
  let q : Nat := 40
  let n : Nat := 6
  let rest : List Msg := []
  (36 ≤ agent.val) ∧ (s.net = ⟨.snp .once q n, line.toNat, homePort line.toNat, agent.val, 0, 0⟩ :: rest) ∧ (s.WayOpen agent.val line.toNat) ∧ (s.copyOf agent.val line.toNat = some c) ∧ (c.d.pmask = 0) ∧ (c.d.bad = none) := by decide +kernel

/-- Hypotheses of `snpClean` in `AgentMessages`. -/
theorem witness_snpClean :
  let s : State := { (State.reset |>.put (.vz 38) F.VZ_STAT_STATE 8 |>.put (.vz 39) F.VZ_STAT_STATE 8 |>.put (.vz 3) F.VZ_STAT_STATE 8 |>.put (.vz 1) F.VZ_STAT_STATE 8 |>.setCopy 37 1 (some ⟨.ud, { bytes := List.replicate 64 1 }⟩)) with net := [⟨.snp .clean 40 6, 1, homePort 1, 37, 0, 0⟩] }
  let agent : Fin 42 := 37
  let line : BitVec 46 := 1
  let c : Copy := ⟨.ud, { bytes := List.replicate 64 1 }⟩
  let q : Nat := 40
  let n : Nat := 6
  let rest : List Msg := []
  (36 ≤ agent.val) ∧ (s.net = ⟨.snp .clean q n, line.toNat, homePort line.toNat, agent.val, 0, 0⟩ :: rest) ∧ (s.WayOpen agent.val line.toNat) ∧ (s.copyOf agent.val line.toNat = some c) ∧ (c.d.pmask = 0) ∧ (c.d.bad = none) := by decide +kernel

/-- Hypotheses of `snpMiss` in `AgentMessages`. -/
theorem witness_snpMiss :
  let s : State := { (State.reset |>.put (.vz 38) F.VZ_STAT_STATE 8 |>.put (.vz 39) F.VZ_STAT_STATE 8 |>.put (.vz 3) F.VZ_STAT_STATE 8 |>.put (.vz 1) F.VZ_STAT_STATE 8) with net := [⟨.snp .inv 40 6, 1, homePort 1, 37, 0, 0⟩] }
  let agent : Fin 42 := 37
  let line : BitVec 46 := 1
  let q : Nat := 40
  let n : Nat := 6
  let rest : List Msg := []
  (s.net = ⟨.snp .inv q n, line.toNat, homePort line.toNat, agent.val, 0, 0⟩ :: rest) ∧ (s.WayOpen agent.val line.toNat) ∧ (s.copyOf agent.val line.toNat = none) ∧ (s.wbOut agent.val line.toNat = false) ∧ (s.coreVec agent.val line.toNat = []) := by decide +kernel

/-- Hypotheses of `snpWb` in `AgentMessages`. -/
theorem witness_snpWb :
  let s : State := { (State.reset |>.put (.vz 38) F.VZ_STAT_STATE 8 |>.put (.vz 39) F.VZ_STAT_STATE 8 |>.put (.vz 3) F.VZ_STAT_STATE 8 |>.put (.vz 1) F.VZ_STAT_STATE 8) with net := [⟨.snp .s 40 6, 1, homePort 1, 37, 0, 0⟩], reqs := [{ port := 37, txn := 0, line := 1, op := some .wb }] }
  let agent : Fin 42 := 37
  let line : BitVec 46 := 1
  let q : Nat := 40
  let n : Nat := 6
  let rest : List Msg := []
  (s.net = ⟨.snp .s q n, line.toNat, homePort line.toNat, agent.val, 0, 0⟩ :: rest) ∧ (s.WayOpen agent.val line.toNat) ∧ (s.copyOf agent.val line.toNat = none) ∧ (s.wbOut agent.val line.toNat = true) ∧ (s.coreVec agent.val line.toNat = []) := by decide +kernel

/-- Hypotheses of `data` in `AgentMessages`. -/
theorem witness_data :
  let s : State := { (State.reset |>.put (.vz 38) F.VZ_STAT_STATE 8 |>.put (.vz 39) F.VZ_STAT_STATE 8 |>.put (.vz 3) F.VZ_STAT_STATE 8 |>.put (.vz 1) F.VZ_STAT_STATE 8) with net := [⟨.data .uc { bytes := List.replicate 64 1 }, 1, 51, 37, 6, 0⟩], reqs := [{ port := 37, txn := 6, line := 1, op := some .rdU }] }
  let port : Fin 50 := 37
  let txn : Fin 1024 := 6
  let ln : Nat := 1
  let src : Nat := 51
  let rest : List Msg := []
  let q : OReq := { port := 37, txn := 6, line := 1, op := some .rdU }
  let d : LineData := { bytes := List.replicate 64 1 }
  let g : CopySt := .uc
  (s.net = ⟨.data g d, ln, src, port.val, txn.val, 0⟩ :: rest) ∧ (s.passes ⟨.data g d, ln, src, port.val, txn.val, 0⟩ = true) ∧ (s.clocks = []) ∧ (s.reqs.find? (fun r => r.port == port.val && r.txn == txn.val) = some q) ∧ (q.comp = none) := by decide +kernel

/-- Hypotheses of `dataLate` in `AgentMessages`. -/
theorem witness_dataLate :
  let s : State := { (State.reset |>.put (.vz 38) F.VZ_STAT_STATE 8 |>.put (.vz 39) F.VZ_STAT_STATE 8 |>.put (.vz 3) F.VZ_STAT_STATE 8 |>.put (.vz 1) F.VZ_STAT_STATE 8) with net := [⟨.data .uc { bytes := List.replicate 64 1 }, 1, 51, 37, 6, 0⟩] }
  let port : Fin 50 := 37
  let txn : Fin 1024 := 6
  let ln : Nat := 1
  let src : Nat := 51
  let rest : List Msg := []
  let d : LineData := { bytes := List.replicate 64 1 }
  let g : CopySt := .uc
  (s.net = ⟨.data g d, ln, src, port.val, txn.val, 0⟩ :: rest) ∧ (s.passes ⟨.data g d, ln, src, port.val, txn.val, 0⟩ = true) ∧ (s.clocks = []) ∧ (s.reqs.find? (fun r => r.port == port.val && r.txn == txn.val) = none) := by decide +kernel

/-- Hypotheses of `compWrite` in `AgentMessages`. -/
theorem witness_compWrite :
  let s : State := { (State.reset |>.put (.vz 38) F.VZ_STAT_STATE 8 |>.put (.vz 39) F.VZ_STAT_STATE 8 |>.put (.vz 3) F.VZ_STAT_STATE 8 |>.put (.vz 1) F.VZ_STAT_STATE 8) with net := [⟨.comp .s false, 1, 51, 37, 6, 0⟩], reqs := [{ port := 37, txn := 6, line := 1, op := some .wrFull }] }
  let port : Fin 50 := 37
  let txn : Fin 1024 := 6
  let ln : Nat := 1
  let src : Nat := 51
  let rest : List Msg := []
  let q : OReq := { port := 37, txn := 6, line := 1, op := some .wrFull }
  let g : CopySt := .s
  let b : Bool := false
  (s.net = ⟨.comp g b, ln, src, port.val, txn.val, 0⟩ :: rest) ∧ (s.passes ⟨.comp g b, ln, src, port.val, txn.val, 0⟩ = true) ∧ (s.clocks = []) ∧ (s.reqs.find? (fun r => r.port == port.val && r.txn == txn.val) = some q) ∧ (s.reqs.filter (fun x => x == q) = [q]) ∧ (q.op = some .wrFull) ∧ (q.comp = none) ∧ ({ q with comp := some g, contended := b } ∉ s.reqs) := by decide +kernel

/-- Hypotheses of `comp` in `AgentMessages`. -/
theorem witness_comp :
  let s : State := { (State.reset |>.put (.vz 38) F.VZ_STAT_STATE 8 |>.put (.vz 39) F.VZ_STAT_STATE 8 |>.put (.vz 3) F.VZ_STAT_STATE 8 |>.put (.vz 1) F.VZ_STAT_STATE 8) with net := [⟨.comp .uc false, 1, 51, 37, 6, 0⟩], reqs := [{ port := 37, txn := 6, line := 1, op := some .rdU, got := some (.uc, { bytes := List.replicate 64 1 }) }] }
  let port : Fin 50 := 37
  let txn : Fin 1024 := 6
  let ln : Nat := 1
  let src : Nat := 51
  let rest : List Msg := []
  let q : OReq := { port := 37, txn := 6, line := 1, op := some .rdU, got := some (.uc, { bytes := List.replicate 64 1 }) }
  let g : CopySt := .uc
  let b : Bool := false
  let d : LineData := { bytes := List.replicate 64 1 }
  (s.net = ⟨.comp g b, ln, src, port.val, txn.val, 0⟩ :: rest) ∧ (s.passes ⟨.comp g b, ln, src, port.val, txn.val, 0⟩ = true) ∧ (s.clocks = []) ∧ (s.reqs.find? (fun r => r.port == port.val && r.txn == txn.val) = some q) ∧ (q.op = some .rdU) ∧ (q.core = none) ∧ (q.got = some (.uc, d)) ∧ (36 ≤ port.val) ∧ (hasRoom (s.arrayOf (agentUnit port.val) (agentArray port.val)) (s.agentLines port.val) q.line = true) := by decide +kernel

/-- Hypotheses of `err` in `AgentMessages`. -/
theorem witness_err :
  let s : State := { (State.reset |>.put (.vz 38) F.VZ_STAT_STATE 8 |>.put (.vz 39) F.VZ_STAT_STATE 8 |>.put (.vz 3) F.VZ_STAT_STATE 8 |>.put (.vz 1) F.VZ_STAT_STATE 8) with net := [⟨.err 1, 1, 51, 37, 6, 0⟩], reqs := [{ port := 37, txn := 6, line := 1, op := some .rdU }] }
  let port : Fin 50 := 37
  let txn : Fin 1024 := 6
  let ln : Nat := 1
  let src : Nat := 51
  let rest : List Msg := []
  let q : OReq := { port := 37, txn := 6, line := 1, op := some .rdU }
  let c : Nat := 1
  (s.net = ⟨.err c, ln, src, port.val, txn.val, 0⟩ :: rest) ∧ (s.passes ⟨.err c, ln, src, port.val, txn.val, 0⟩ = true) ∧ (s.clocks = []) ∧ (s.reqs.find? (fun r => r.port == port.val && r.txn == txn.val) = some q) ∧ (q.core = none) := by decide +kernel

/-- Hypotheses of `getS` in `TileMessages`. -/
theorem witness_getS :
  let s : State := (State.reset |>.put (.vz 38) F.VZ_STAT_STATE 8 |>.put (.vz 39) F.VZ_STAT_STATE 8 |>.put (.vz 3) F.VZ_STAT_STATE 8 |>.put (.vz 1) F.VZ_STAT_STATE 8 |>.setCopy 1 1 (some ⟨.uc, { bytes := List.replicate 64 1 }⟩))
  let tile : Fin 36 := 1
  let core : Fin 8 := 2
  let line : BitVec 46 := 1
  let c : Copy := ⟨.uc, { bytes := List.replicate 64 1 }⟩
  (s.tileTxn tile.val line.toNat = {}) ∧ (s.coreVec tile.val line.toNat = []) ∧ (s.copyOf tile.val line.toNat = some c) ∧ (c.d.bad = none) ∧ (c.st ≠ .s) ∧ (hasRoom (s.arrayOf (coreOf tile.val core.val) .l2) (s.coreLines tile.val core.val) line.toNat = true) := by decide +kernel

/-- Hypotheses of `getU` in `TileMessages`. -/
theorem witness_getU :
  let s : State := (State.reset |>.put (.vz 38) F.VZ_STAT_STATE 8 |>.put (.vz 39) F.VZ_STAT_STATE 8 |>.put (.vz 3) F.VZ_STAT_STATE 8 |>.put (.vz 1) F.VZ_STAT_STATE 8 |>.setCopy 1 1 (some ⟨.uc, { bytes := List.replicate 64 1 }⟩))
  let tile : Fin 36 := 1
  let core : Fin 8 := 2
  let line : BitVec 46 := 1
  let c : Copy := ⟨.uc, { bytes := List.replicate 64 1 }⟩
  (s.tileTxn tile.val line.toNat = {}) ∧ (s.coreVec tile.val line.toNat = []) ∧ (s.copyOf tile.val line.toNat = some c) ∧ (c.d.bad = none) ∧ (c.st ≠ .s) ∧ (hasRoom (s.arrayOf (coreOf tile.val core.val) .l2) (s.coreLines tile.val core.val) line.toNat = true) := by decide +kernel

/-- Hypotheses of `getSMiss` in `TileMessages`. -/
theorem witness_getSMiss :
  let s : State := (State.reset |>.put (.vz 38) F.VZ_STAT_STATE 8 |>.put (.vz 39) F.VZ_STAT_STATE 8 |>.put (.vz 3) F.VZ_STAT_STATE 8 |>.put (.vz 1) F.VZ_STAT_STATE 8)
  let tile : Fin 36 := 1
  let core : Fin 8 := 2
  let line : BitVec 46 := 1
  let n : Nat := 0
  (s.tileTxn tile.val line.toNat = {}) ∧ (s.copyOf tile.val line.toNat = none) ∧ (s.coreCopy tile.val core.val line.toNat = none) ∧ (s.freeTxn tile.val = some n) ∧ ((s.reqs.any fun r => r.port == tile.val && r.line == line.toNat) = false) := by decide +kernel

/-- Hypotheses of `tileUpg` in `TileMessages`. -/
theorem witness_tileUpg :
  let s : State := ((State.reset |>.put (.vz 38) F.VZ_STAT_STATE 8 |>.put (.vz 39) F.VZ_STAT_STATE 8 |>.put (.vz 3) F.VZ_STAT_STATE 8 |>.put (.vz 1) F.VZ_STAT_STATE 8 |>.setCopy 1 1 (some ⟨.uc, { bytes := List.replicate 64 1 }⟩)).setCoreCopy 1 2 1 (some ⟨.s, { bytes := List.replicate 64 1 }⟩))
  let tile : Fin 36 := 1
  let core : Fin 8 := 2
  let line : BitVec 46 := 1
  let c : Copy := ⟨.uc, { bytes := List.replicate 64 1 }⟩
  let x : Copy := ⟨.s, { bytes := List.replicate 64 1 }⟩
  (s.tileTxn tile.val line.toNat = {}) ∧ (s.copyOf tile.val line.toNat = some c) ∧ (c.d.bad = none) ∧ (c.st ≠ .s) ∧ (s.coreCopy tile.val core.val line.toNat = some x) ∧ (x.st = .s) ∧ (s.coreVec tile.val line.toNat = [core.val]) ∧ (hasRoom (s.arrayOf (coreOf tile.val core.val) .l2) (s.coreLines tile.val core.val) line.toNat = true) := by decide +kernel

/-- Hypotheses of `put` in `TileMessages`. -/
theorem witness_put :
  let s : State := ((State.reset |>.put (.vz 38) F.VZ_STAT_STATE 8 |>.put (.vz 39) F.VZ_STAT_STATE 8 |>.put (.vz 3) F.VZ_STAT_STATE 8 |>.put (.vz 1) F.VZ_STAT_STATE 8 |>.setCopy 1 1 (some ⟨.uc, { bytes := List.replicate 64 1 }⟩)).setCoreCopy 1 2 1 (some ⟨.ud, { bytes := List.replicate 64 1 }⟩))
  let tile : Fin 36 := 1
  let core : Fin 8 := 2
  let line : BitVec 46 := 1
  let c : Copy := ⟨.uc, { bytes := List.replicate 64 1 }⟩
  let x : Copy := ⟨.ud, { bytes := List.replicate 64 1 }⟩
  (s.copyOf tile.val line.toNat = some c) ∧ (c.st ≠ .ud) ∧ (s.coreCopy tile.val core.val line.toNat = some x) ∧ (x.st = .ud) ∧ (x.d.pmask = 0) ∧ (x.d.bad = none) := by decide +kernel

/-- Hypotheses of `tInv` in `TileMessages`. -/
theorem witness_tInv :
  let s : State := { (State.reset.setCoreCopy 1 2 1 (some ⟨.ud, { bytes := List.replicate 64 1 }⟩)) with net := [⟨.tile .inv, 1, 1, 1, 1, 2⟩] }
  let tile : Fin 36 := 1
  let core : Fin 8 := 2
  let line : BitVec 46 := 1
  let x : Copy := ⟨.ud, { bytes := List.replicate 64 1 }⟩
  let y : Nat := 1
  let rest : List Msg := []
  (s.net = ⟨.tile .inv, line.toNat, tile.val, tile.val, y, core.val⟩ :: rest) ∧ (s.coreCopy tile.val core.val line.toNat = some x) ∧ (x.d.pmask = 0) ∧ (x.d.bad = none) ∧ (s.clocks = []) := by decide +kernel

/-- Hypotheses of `tDown` in `TileMessages`. -/
theorem witness_tDown :
  let s : State := { (State.reset.setCoreCopy 1 2 1 (some ⟨.ud, { bytes := List.replicate 64 1 }⟩)) with net := [⟨.tile .down, 1, 1, 1, 1, 2⟩] }
  let tile : Fin 36 := 1
  let core : Fin 8 := 2
  let line : BitVec 46 := 1
  let x : Copy := ⟨.ud, { bytes := List.replicate 64 1 }⟩
  let y : Nat := 1
  let rest : List Msg := []
  (s.net = ⟨.tile .down, line.toNat, tile.val, tile.val, y, core.val⟩ :: rest) ∧ (s.coreCopy tile.val core.val line.toNat = some x) ∧ (x.d.pmask = 0) ∧ (x.d.bad = none) ∧ (s.clocks = []) := by decide +kernel

/-- Hypotheses of `tFetch` in `TileMessages`. -/
theorem witness_tFetch :
  let s : State := { (State.reset.setCoreCopy 1 2 1 (some ⟨.ud, { bytes := List.replicate 64 1 }⟩)) with net := [⟨.tile .fetch, 1, 1, 1, 1, 2⟩] }
  let tile : Fin 36 := 1
  let core : Fin 8 := 2
  let line : BitVec 46 := 1
  let x : Copy := ⟨.ud, { bytes := List.replicate 64 1 }⟩
  let y : Nat := 1
  let rest : List Msg := []
  (s.net = ⟨.tile .fetch, line.toNat, tile.val, tile.val, y, core.val⟩ :: rest) ∧ (s.coreCopy tile.val core.val line.toNat = some x) ∧ (x.d.pmask = 0) ∧ (x.d.bad = none) ∧ (s.clocks = []) := by decide +kernel

/-- Hypotheses of `tInvHeld` in `TileMessages`. -/
theorem witness_tInvHeld :
  let s : State := { (State.reset.put .cfg F.CFG_TMAP_VALID 1 1 |>.put .cfg F.CFG_TMAP_PHYS 1 1 |>.setCoreCopy 1 2 1 (some ⟨.ud, { bytes := List.replicate 64 1 }⟩) |>.setTileTxn 1 1 { snp := some (.inv, 40, 6), snpWait := [2] } |>.setHart 10 { run := true, resv := some 1 }) with net := [⟨.tile .inv, 1, 1, 1, 1, 2⟩] }
  let tile : Fin 36 := 1
  let core : Fin 8 := 2
  let line : BitVec 46 := 1
  let x : Copy := ⟨.ud, { bytes := List.replicate 64 1 }⟩
  let y : Nat := 1
  let rest : List Msg := []
  (s.net = ⟨.tile .inv, line.toNat, tile.val, tile.val, y, core.val⟩ :: rest) ∧ (s.coreCopy tile.val core.val line.toNat = some x) ∧ (x.d.pmask = 0) ∧ (x.d.bad = none) ∧ (s.clocks = []) ∧ (y = 1) ∧ (s.mayHold tile.val core.val line.toNat = true) := by decide +kernel

/-- Hypotheses of `tData` in `TileMessages`. -/
theorem witness_tData :
  let s : State := { (State.reset.setTileTxn 1 1 { snp := some (.inv, 40, 6), snpWait := [2, 3] }) with net := [⟨.tdata none false, 1, 1, 1, 1, 2⟩] }
  let tile : Fin 36 := 1
  let core : Fin 8 := 2
  let line : BitVec 46 := 1
  let w : TileTxn := { snp := some (.inv, 40, 6), snpWait := [2, 3] }
  let rest : List Msg := []
  (s.net = ⟨.tdata none false, line.toNat, tile.val, tile.val, 1, core.val⟩ :: rest) ∧ (s.clocks = []) ∧ (s.tileTxn tile.val line.toNat = w) ∧ (w.snp.isSome = true) ∧ (w.snpWait.filter (fun k => k != core.val) ≠ []) := by decide +kernel

/-- Hypotheses of `tDataLast` in `TileMessages`. -/
theorem witness_tDataLast :
  let s : State := { (State.reset.setTileTxn 1 1 { snp := some (.inv, 40, 6), snpWait := [2] } |>.setCopy 1 1 (some ⟨.s, { bytes := List.replicate 64 1 }⟩)) with net := [⟨.tdata none false, 1, 1, 1, 1, 2⟩] }
  let tile : Fin 36 := 1
  let core : Fin 8 := 2
  let line : BitVec 46 := 1
  let w : TileTxn := { snp := some (.inv, 40, 6), snpWait := [2] }
  let q : Nat := 40
  let n : Nat := 6
  let c : Copy := ⟨.s, { bytes := List.replicate 64 1 }⟩
  let rest : List Msg := []
  (s.net = ⟨.tdata none false, line.toNat, tile.val, tile.val, 1, core.val⟩ :: rest) ∧ (s.clocks = []) ∧ (s.tileTxn tile.val line.toNat = w) ∧ (w.snp = some (.inv, q, n)) ∧ (w.snpWait = [core.val]) ∧ (w.req = none) ∧ (s.copyOf tile.val line.toNat = some c) ∧ (c.st ≠ .ud) := by decide +kernel

/-- Hypotheses of `clean` in `RangeMaintenance`. -/
theorem witness_clean :
  let s : State := (State.reset |>.put (.vz 38) F.VZ_STAT_STATE 8 |>.put (.vz 39) F.VZ_STAT_STATE 8 |>.put (.vz 3) F.VZ_STAT_STATE 8 |>.put (.vz 1) F.VZ_STAT_STATE 8 |>.put .rme F.RME0_LIMIT 5 |>.setHline 1 { llc := some { bytes := List.replicate 64 1 }, dirty := true })
  let agent : Fin 64 := 3
  let w : World := .normal
  let line : BitVec 46 := 1
  let h : HLine := { llc := some { bytes := List.replicate 64 1 }, dirty := true }
  (agent.val ≤ 41) ∧ (s.on .rme F.RME0_BUSY = false) ∧ (s.get .rme F.RME0_BASE ≤ line.toNat) ∧ (line.toNat ≤ s.get .rme F.RME0_LIMIT) ∧ (s.homes = [(line.toNat, h)]) ∧ (h.llc.isSome = true) := by decide +kernel

/-- Hypotheses of `cleanInv` in `RangeMaintenance`. -/
theorem witness_cleanInv :
  let s : State := (State.reset |>.put (.vz 38) F.VZ_STAT_STATE 8 |>.put (.vz 39) F.VZ_STAT_STATE 8 |>.put (.vz 3) F.VZ_STAT_STATE 8 |>.put (.vz 1) F.VZ_STAT_STATE 8 |>.put .rme F.RME0_LIMIT 5 |>.setHline 1 { llc := some { bytes := List.replicate 64 1 }, dirty := true })
  let agent : Fin 64 := 3
  let w : World := .normal
  let line : BitVec 46 := 1
  let h : HLine := { llc := some { bytes := List.replicate 64 1 }, dirty := true }
  (agent.val ≤ 41) ∧ (s.on .rme F.RME0_BUSY = false) ∧ (s.get .rme F.RME0_BASE ≤ line.toNat) ∧ (line.toNat ≤ s.get .rme F.RME0_LIMIT) ∧ (s.homes = [(line.toNat, h)]) ∧ (h.llc.isSome = true) := by decide +kernel

/-- Hypotheses of `inv` in `RangeMaintenance`. -/
theorem witness_inv :
  let s : State := (State.reset |>.put (.vz 38) F.VZ_STAT_STATE 8 |>.put (.vz 39) F.VZ_STAT_STATE 8 |>.put (.vz 3) F.VZ_STAT_STATE 8 |>.put (.vz 1) F.VZ_STAT_STATE 8 |>.put .rme F.RME0_LIMIT 5 |>.setHline 1 { llc := some { bytes := List.replicate 64 1 }, dirty := true })
  let agent : Fin 64 := 3
  let w : World := .normal
  let line : BitVec 46 := 1
  let h : HLine := { llc := some { bytes := List.replicate 64 1 }, dirty := true }
  (agent.val ≤ 41) ∧ (s.on .rme F.RME0_BUSY = false) ∧ (s.get .rme F.RME0_BASE ≤ line.toNat) ∧ (line.toNat ≤ s.get .rme F.RME0_LIMIT) ∧ (s.homes = [(line.toNat, h)]) ∧ (h.llc.isSome = true) := by decide +kernel

/-- Hypotheses of `rmeDoneClean` in `RangeMaintenance`. -/
theorem witness_rmeDoneClean :
  let s : State := { (State.reset |>.put (.vz 38) F.VZ_STAT_STATE 8 |>.put (.vz 39) F.VZ_STAT_STATE 8 |>.put (.vz 3) F.VZ_STAT_STATE 8 |>.put (.vz 1) F.VZ_STAT_STATE 8 |>.put .rme F.RME0_BUSY 1 |>.setHline 1 { llc := some { bytes := List.replicate 64 1 }, dirty := true }) with rme := [(0, some ⟨.clean, true, 0, [1]⟩)] }
  let line : BitVec 46 := 1
  let w : Bool := true
  let h : HLine := { llc := some { bytes := List.replicate 64 1 }, dirty := true }
  let d : LineData := { bytes := List.replicate 64 1 }
  let b : Nat := 65
  (s.on .rme F.RME0_BUSY = true) ∧ (tget none s.rme 0 = some ⟨.clean, w, 0, [line.toNat]⟩) ∧ (s.homes = [(line.toNat, h)]) ∧ (h.p = []) ∧ (h.d = .i) ∧ (h.txn = none) ∧ (h.waitq = []) ∧ (h.llc = some d) ∧ (d.pmask = 0) ∧ (d.bad = none) ∧ (d.bytes.length = 64) ∧ (h.dirty = true) ∧ (s.securePage (line.toNat / 64) = false) ∧ (64 * line.toNat < dramSize) := by decide +kernel

/-- Hypotheses of `rmeDoneCleanInv` in `RangeMaintenance`. -/
theorem witness_rmeDoneCleanInv :
  let s : State := { (State.reset |>.put (.vz 38) F.VZ_STAT_STATE 8 |>.put (.vz 39) F.VZ_STAT_STATE 8 |>.put (.vz 3) F.VZ_STAT_STATE 8 |>.put (.vz 1) F.VZ_STAT_STATE 8 |>.put .rme F.RME0_BUSY 1 |>.setHline 1 { llc := some { bytes := List.replicate 64 1 }, dirty := true }) with rme := [(0, some ⟨.cleanInv, true, 0, [1]⟩)] }
  let line : BitVec 46 := 1
  let w : Bool := true
  let h : HLine := { llc := some { bytes := List.replicate 64 1 }, dirty := true }
  let d : LineData := { bytes := List.replicate 64 1 }
  let b : Nat := 65
  (s.on .rme F.RME0_BUSY = true) ∧ (tget none s.rme 0 = some ⟨.cleanInv, w, 0, [line.toNat]⟩) ∧ (s.homes = [(line.toNat, h)]) ∧ (h.p = []) ∧ (h.d = .i) ∧ (h.txn = none) ∧ (h.waitq = []) ∧ (h.llc = some d) ∧ (d.pmask = 0) ∧ (d.bad = none) ∧ (d.bytes.length = 64) ∧ (h.dirty = true) ∧ (s.securePage (line.toNat / 64) = false) ∧ (64 * line.toNat < dramSize) := by decide +kernel

/-- Hypotheses of `rmeDoneInv` in `RangeMaintenance`. -/
theorem witness_rmeDoneInv :
  let s : State := { (State.reset |>.put (.vz 38) F.VZ_STAT_STATE 8 |>.put (.vz 39) F.VZ_STAT_STATE 8 |>.put (.vz 3) F.VZ_STAT_STATE 8 |>.put (.vz 1) F.VZ_STAT_STATE 8 |>.put .rme F.RME0_BUSY 1 |>.setHline 1 { llc := some { bytes := List.replicate 64 1 }, dirty := true }) with rme := [(0, some ⟨.inv, true, 0, [1]⟩)] }
  let line : BitVec 46 := 1
  let w : Bool := true
  let h : HLine := { llc := some { bytes := List.replicate 64 1 }, dirty := true }
  let d : LineData := { bytes := List.replicate 64 1 }
  (s.on .rme F.RME0_BUSY = true) ∧ (tget none s.rme 0 = some ⟨.inv, w, 0, [line.toNat]⟩) ∧ (s.homes = [(line.toNat, h)]) ∧ (h.p = []) ∧ (h.d = .i) ∧ (h.txn = none) ∧ (h.waitq = []) ∧ (h.llc = some d) ∧ (d.pmask = 0) ∧ (d.bad = none) ∧ (d.bytes.length = 64) ∧ (h.dirty = true) ∧ (s.securePage (line.toNat / 64) = false) ∧ (64 * line.toNat < dramSize) := by decide +kernel

/-- Hypotheses of `recall` in `RangeMaintenance`. -/
theorem witness_recall :
  let s : State := (State.reset |>.put (.vz 38) F.VZ_STAT_STATE 8 |>.put (.vz 39) F.VZ_STAT_STATE 8 |>.put (.vz 3) F.VZ_STAT_STATE 8 |>.put (.vz 1) F.VZ_STAT_STATE 8 |>.setHline 1 { d := .u, p := [37] })
  let agent : Fin 64 := 37
  let line : BitVec 46 := 1
  let h : HLine := { d := .u, p := [37] }
  (agent.val ≤ 41) ∧ (s.on .rme F.RME1_BUSY = false) ∧ (s.homes = [(line.toNat, h)]) ∧ (h.p = [agent.val]) := by decide +kernel

/-- Hypotheses of `rmeDoneRecall` in `RangeMaintenance`. -/
theorem witness_rmeDoneRecall :
  let s : State := { (State.reset |>.put (.vz 38) F.VZ_STAT_STATE 8 |>.put (.vz 39) F.VZ_STAT_STATE 8 |>.put (.vz 3) F.VZ_STAT_STATE 8 |>.put (.vz 1) F.VZ_STAT_STATE 8 |>.put .rme F.RME1_BUSY 1 |>.setHline 1 { d := .u, p := [37] }) with rme := [(1, some ⟨.recall, true, 37, [1]⟩)] }
  let agent : Fin 42 := 37
  let line : BitVec 46 := 1
  let h : HLine := { d := .u, p := [37] }
  (s.on .rme F.RME1_BUSY = true) ∧ (tget none s.rme 1 = some ⟨.recall, true, agent.val, [line.toNat]⟩) ∧ (s.homes = [(line.toNat, h)]) ∧ (h.p = [agent.val]) ∧ (h.txn = none) ∧ (h.waitq = []) ∧ (s.isolated agent.val line.toNat = false) ∧ (64 * line.toNat < dramSize) := by decide +kernel

/-- Hypotheses of `rmeDone` in `RangeMaintenance`. -/
theorem witness_rmeDone :
  let s : State := (State.reset |>.put .rme F.RME1_BUSY 1)
  (s.on .rme F.RME1_BUSY = true) ∧ (tget none s.rme 1 = none) ∧ (s.rmeOpen 1 = false) := by decide

/-- Hypotheses of `recallChannel0` in `RangeMaintenance`. -/
theorem witness_recallChannel0 :
  let s : State := State.reset
  let agent : Fin 64 := 3
  let w : World := .secure
  (s.on .rme F.RME0_BUSY = false) := by decide

/-- Hypotheses of `rmeCmdReserved` in `RangeMaintenance`. -/
theorem witness_rmeCmdReserved :
  let s : State := State.reset
  let op : Fin 8 := 6
  let agent : Fin 64 := 3
  let w : World := .secure
  (s.on .rme F.RME0_BUSY = false) ∧ (op.val = 0 ∨ 5 ≤ op.val) := by decide

/-- Hypotheses of `mcCorrectionWriteback` in `StackControllers`. -/
theorem witness_mcCorrectionWriteback :
  let s : State := { State.reset with mregNow := [⟨true, 0, 0, 200⟩], flips := [(4098, 1)], dram := [(4098, 5)], wbqs := [(1, [⟨64, [2], false, false, 2, 7⟩])] }
  let k : Fin 8 := 1
  let e : WbEnt := ⟨64, [2], false, false, 2, 7⟩
  let q : List WbEnt := []
  let i : Nat := 2
  let v : Nat := 5
  let hard : Bool := false
  (s.wbq k.val = e :: q) ∧ (e.bytes = [i]) ∧ (i < 64) ∧ (e.poison = false) ∧ (e.line * 64 + i < dramSize) ∧ (stackOf (64 * e.line) = k) ∧ (hard = false ∨ s.on (.mc k) F.MC_TUNE_WB_VERIFY = false) ∧ (judgeByte (s.strongAt (64 * e.line)).isSome (s.readByte (64 * e.line + i)) (s.synAt (s.strongAt (64 * e.line)) (64 * e.line + i)) = .corrected v) := by decide +kernel

/-- Hypotheses of `mcWritebackTaken` in `StackControllers`. -/
theorem witness_mcWritebackTaken :
  let s : State := { State.reset with mregNow := [⟨true, 0, 0, 200⟩], flips := [(4098, 1)], dram := [(4098, 5)], wbqs := [(1, [⟨64, [2, 3], false, false, 2, 7⟩])] }
  let k : Fin 8 := 1
  let e : WbEnt := ⟨64, [2, 3], false, false, 2, 7⟩
  let q : List WbEnt := []
  let hard : Bool := false
  (s.wbq k.val = e :: q) ∧ (e.bytes ≠ []) ∧ (e.poison = false) ∧ (stackOf (64 * e.line) = k) ∧ (hard = false ∨ s.on (.mc k) F.MC_TUNE_WB_VERIFY = false) := by decide +kernel

/-- Hypotheses of `mcWritebackHard` in `StackControllers`. -/
theorem witness_mcWritebackHard :
  let s : State := { State.reset with mregNow := [⟨true, 0, 0, 200⟩], flips := [(4098, 1)], dram := [(4098, 5)], wbqs := [(1, [⟨64, [2], false, false, 2, 7⟩])] }
  let k : Fin 8 := 1
  let e : WbEnt := ⟨64, [2], false, false, 2, 7⟩
  let q : List WbEnt := []
  (s.wbq k.val = e :: q) ∧ (e.bytes ≠ []) ∧ (e.poison = false) ∧ (stackOf (64 * e.line) = k) ∧ (s.on (.mc k) F.MC_TUNE_WB_VERIFY = true) := by decide +kernel

/-- Hypotheses of `mcPoisonWriteback` in `StackControllers`. -/
theorem witness_mcPoisonWriteback :
  let s : State := { State.reset with mregNow := [⟨true, 0, 0, 200⟩], flips := [(4098, 1)], dram := [(4098, 5)], wbqs := [(1, [⟨64, [2], true, false, 2, 7⟩])] }
  let k : Fin 8 := 1
  let e : WbEnt := ⟨64, [2], true, false, 2, 7⟩
  let q : List WbEnt := []
  let i : Nat := 2
  let hard : Bool := false
  (s.wbq k.val = e :: q) ∧ (e.bytes = [i]) ∧ (e.poison = true) := by decide +kernel

/-- Hypotheses of `mcWritebackEmpty` in `StackControllers`. -/
theorem witness_mcWritebackEmpty :
  let s : State := State.reset
  let k : Fin 8 := 1
  let hard : Bool := false
  (s.wbq k.val = []) := by decide +kernel

/-- Hypotheses of `scrubRead` in `StackControllers`. -/
theorem witness_scrubRead :
  let s : State := (State.reset |>.put (.mc 1) F.MC_SCRUB_EN 1)
  let k : Fin 8 := 1
  let i : Fin 64 := 3
  let bits : BitVec 13 := 1
  (s.on (.mc k) F.MC_SCRUB_EN = true) := by decide +kernel

/-- Hypotheses of `scrubOff` in `StackControllers`. -/
theorem witness_scrubOff :
  let s : State := (State.reset |>.put (.mc 1) F.MC_SCRUB_EN 0)
  let k : Fin 8 := 1
  let i : Fin 64 := 3
  let bits : BitVec 13 := 1
  (s.on (.mc k) F.MC_SCRUB_EN = false) := by decide +kernel

/-- Hypotheses of `memmapCommit` in `StackControllers`. -/
theorem witness_memmapCommit :
  let s : State := State.reset
  (s.on .memmap F.MEMMAP_CTRL_LOCK = false) ∧ (s.on .memmap F.FILL_BUSY = false) ∧ (s.on .memmap F.MEMMAP_STAT_BUSY = false) ∧ ((s.mregions.all (regionOk (s.get .memmap F.MEM_TOP)) && pairsAll regionsApart s.mregions) = true) := by decide +kernel

/-- Hypotheses of `memmapCommitRefused` in `StackControllers`. -/
theorem witness_memmapCommitRefused :
  let s : State := (State.reset |>.put .memmap F.MREG_EN 1 2 |>.put .memmap F.MREG_BASE 3 2)
  (s.on .memmap F.MEMMAP_CTRL_LOCK = false) ∧ (s.on .memmap F.FILL_BUSY = false) ∧ (s.on .memmap F.MEMMAP_STAT_BUSY = false) ∧ ((s.mregions.all (regionOk (s.get .memmap F.MEM_TOP)) && pairsAll regionsApart s.mregions) = false) := by decide +kernel

/-- Hypotheses of `memmapCommitDenied` in `StackControllers`. -/
theorem witness_memmapCommitDenied :
  let s : State := State.reset
  let w : World := .normal
  (w = .normal ∨ s.on .memmap F.MEMMAP_CTRL_LOCK = true ∨ s.on .memmap F.FILL_BUSY = true ∨ s.on .memmap F.MEMMAP_STAT_BUSY = true) := by decide

/-- Hypotheses of `memmapCommitDone` in `StackControllers`. -/
theorem witness_memmapCommitDone :
  let s : State := { State.reset with mregNext := some ([], 300) }
  let rs : List MRegion := []
  let top : Nat := 300
  (s.mregNext = some (rs, top)) := by decide +kernel

/-- Hypotheses of `memmapCommitLoses` in `StackControllers`. -/
theorem witness_memmapCommitLoses :
  let s : State := { State.reset with mregNext := some ([⟨true, 0, 0, 300⟩], 300) }
  let rs : List MRegion := [⟨true, 0, 0, 300⟩]
  let top : Nat := 300
  let a : Nat := 77
  (s.mregNext = some (rs, top)) ∧ (a < 192 * 2 ^ 30) ∧ (codeAt s.mregNow (a / 2 ^ 30) ≠ codeAt rs (a / 2 ^ 30)) := by decide +kernel

/-- Hypotheses of `fillGo` in `StackControllers`. -/
theorem witness_fillGo :
  let s : State := State.reset
  (s.on .memmap F.FILL_BUSY = false) ∧ (s.on .memmap F.MEMMAP_STAT_BUSY = false) ∧ ((4096 * s.get .memmap F.FILL_LIMIT < dramSize ∧ s.get .memmap F.FILL_BASE ≤ s.get .memmap F.FILL_LIMIT)) := by decide +kernel

/-- Hypotheses of `fillGoRefused` in `StackControllers`. -/
theorem witness_fillGoRefused :
  let s : State := (State.reset |>.put .memmap F.FILL_BASE 3)
  (s.on .memmap F.FILL_BUSY = false) ∧ (s.on .memmap F.MEMMAP_STAT_BUSY = false) ∧ (¬(4096 * s.get .memmap F.FILL_LIMIT < dramSize ∧ s.get .memmap F.FILL_BASE ≤ s.get .memmap F.FILL_LIMIT)) := by decide +kernel

/-- Hypotheses of `fillGoDenied` in `StackControllers`. -/
theorem witness_fillGoDenied :
  let s : State := State.reset
  let w : World := .normal
  (w = .normal ∨ s.on .memmap F.FILL_BUSY = true ∨ s.on .memmap F.MEMMAP_STAT_BUSY = true) := by decide +kernel

/-- Hypotheses of `fillDoneMem` in `StackControllers`. -/
theorem witness_fillDoneMem :
  let s : State := { State.reset with fill := some (4096, 8191), dram := [(1, 7), (5000, 7)] }
  let lo : Nat := 4096
  let hi : Nat := 8191
  let a : Nat := 5000
  (s.fill = some (lo, hi)) ∧ (s.mode ≠ .loading) := by decide +kernel

/-- Hypotheses of `fillDoneNone` in `StackControllers`. -/
theorem witness_fillDoneNone :
  let s : State := State.reset
  (s.fill = none ∨ s.mode = .loading) := by decide +kernel

/-- Hypotheses of `ncRd` in `FabricAccesses`. -/
theorem witness_ncRd :
  let s : State := State.reset |>.put (.vz 44) F.VZ_STAT_STATE 8
  let port : Fin 50 := 47
  let txn : Fin 1024 := 6
  let addr : BitVec 52 := 0xE000000040
  let lg : Fin 7 := 3
  let w : NcBy := ⟨.secure, none⟩
  ((s.reqs.any fun r => r.port == port.val && r.txn == txn.val) = false) ∧ ((s.heldTxn.any fun e => e.port == port.val && e.txn == txn.val) = false) ∧ (s.ncPasses port.val addr.toNat = true) ∧ ((masterOf port.val).all (fun i => s.windowOk i false addr.toNat (2 ^ lg.val)) = true) ∧ (masterOf port.val = none → (2 ^ lg.val) ≤ 8) ∧ (addr.toNat % (2 ^ lg.val) = 0) ∧ (inMram addr.toNat (2 ^ lg.val) = true) ∧ (s.worldOk (s.ncWorld port.val w) addr.toNat (2 ^ lg.val) = true) ∧ (s.inKeystore addr.toNat (2 ^ lg.val) = false ∨ port.val = 47) := by decide +kernel

/-- Hypotheses of `ncWr` in `FabricAccesses`. -/
theorem witness_ncWr :
  let s : State := State.reset |>.put (.vz 44) F.VZ_STAT_STATE 8
  let port : Fin 50 := 47
  let txn : Fin 1024 := 6
  let addr : BitVec 52 := 0xE000000040
  let data : List Byte := [1, 2, 3, 4]
  let w : NcBy := ⟨.secure, none⟩
  let b : Nat := 68
  ((s.reqs.any fun r => r.port == port.val && r.txn == txn.val) = false) ∧ ((s.heldTxn.any fun e => e.port == port.val && e.txn == txn.val) = false) ∧ (s.ncPasses port.val addr.toNat = true) ∧ ([1, 2, 4, 8, 16, 32, 64].contains data.length = true) ∧ ((masterOf port.val).all (fun i => s.windowOk i true addr.toNat data.length) = true) ∧ (masterOf port.val = none → data.length ≤ 8) ∧ (addr.toNat % data.length = 0) ∧ (inMram addr.toNat data.length = true) ∧ (s.worldOk (s.ncWorld port.val w) addr.toNat data.length = true) ∧ (s.inKeystore addr.toNat data.length = false ∨ port.val = 47) ∧ (s.inProgress addr.toNat data.length = false ∨ port.val = 48) ∧ (inPkgArea addr.toNat data.length = false) := by decide +kernel

/-- Hypotheses of `ncData` in `FabricAccesses`. -/
theorem witness_ncData :
  let s : State := { (State.reset |>.put (.vz 44) F.VZ_STAT_STATE 8) with net := [⟨.ncData [1] false, 9, 58, 47, 6, 0⟩], reqs := [{ port := 47, txn := 6, line := 9, op := none }] }
  let port : Fin 50 := 47
  let txn : Fin 1024 := 6
  let a : Nat := 9
  let src : Nat := 58
  let bs : List Byte := [1]
  let p : Bool := false
  let rest : List Msg := []
  (s.net = ⟨.ncData bs p, a, src, port.val, txn.val, 0⟩ :: rest) ∧ (s.passes ⟨.ncData bs p, a, src, port.val, txn.val, 0⟩ = true) ∧ (s.clocks = []) ∧ ((s.reqs.any fun r => r.port == port.val && r.txn == txn.val) = true) := by decide +kernel

/-- Hypotheses of `ncAck` in `FabricAccesses`. -/
theorem witness_ncAck :
  let s : State := { (State.reset |>.put (.vz 44) F.VZ_STAT_STATE 8) with net := [⟨.ncAck, 9, 58, 47, 6, 0⟩], reqs := [{ port := 47, txn := 6, line := 9, op := none, nc := true }] }
  let port : Fin 50 := 47
  let txn : Fin 1024 := 6
  let a : Nat := 9
  let src : Nat := 58
  let rest : List Msg := []
  (s.net = ⟨.ncAck, a, src, port.val, txn.val, 0⟩ :: rest) ∧ (s.passes ⟨.ncAck, a, src, port.val, txn.val, 0⟩ = true) ∧ (s.clocks = []) ∧ ((s.reqs.any fun r => r.port == port.val && r.txn == txn.val) = true) := by decide +kernel

/-- Hypotheses of `requestTimeout` in `FabricAccesses`. -/
theorem witness_requestTimeout :
  let s : State := { State.reset with reqs := [{ port := 47, txn := 6, line := 9, op := some .rdOnce }] }
  let port : Fin 60 := 47
  let txn : Fin 1024 := 6
  let q : OReq := { port := 47, txn := 6, line := 9, op := some .rdOnce }
  (s.reqs.find? (fun r => r.port == port.val && r.txn == txn.val) = some q) ∧ (q.op = some .rdOnce ∨ q.op = some .wrFull ∨ q.op = some .wrPtl) := by decide +kernel

/-- Hypotheses of `requestTimeoutFatal` in `FabricAccesses`. -/
theorem witness_requestTimeoutFatal :
  let s : State := { State.reset with mode := .serve, reqs := [{ port := 37, txn := 6, line := 9, op := some .rdU }] }
  let port : Fin 60 := 37
  let txn : Fin 1024 := 6
  let q : OReq := { port := 37, txn := 6, line := 9, op := some .rdU }
  (s.reqs.find? (fun r => r.port == port.val && r.txn == txn.val) = some q) ∧ (q.op ≠ none) ∧ (q.op ≠ some .rdOnce) ∧ (q.op ≠ some .wrFull) ∧ (q.op ≠ some .wrPtl) ∧ (s.isOff = false) ∧ (s.mode ≠ .keep) := by decide +kernel

/-- Hypotheses of `requestTimeoutNone` in `FabricAccesses`. -/
theorem witness_requestTimeoutNone :
  let s : State := State.reset
  let port : Fin 60 := 47
  let txn : Fin 1024 := 6
  (s.reqs.find? (fun r => r.port == port.val && r.txn == txn.val) = none) := by decide +kernel

/-- Hypotheses of `registerWriteCsr` in `FabricAccesses`. -/
theorem witness_registerWriteCsr :
  let s : State := ((State.reset |>.put .cfg F.CFG_TMAP_VALID 1 1 |>.put .cfg F.CFG_TMAP_PHYS 1 1).setHart 9 { run := true, csr := [(0x340, 7)] })
  let a : At := ⟨9, 0x1000, false, 0⟩
  let h : Hart := { run := true, csr := [(0x340, 7)], pc := 0x1000 }
  let rd : Fin 32 := 3
  let v : BitVec 64 := 0x55
  (s.running a = some h) ∧ (h.priv = 3) ∧ (rd ≠ 0) := by decide +kernel

/-- Hypotheses of `registerWriteMem` in `FabricAccesses`. -/
theorem witness_registerWriteMem :
  let s : State := (State.reset |>.put .xbar F.UNIT_READY_READY 1)
  let addr : BitVec 52 := 0x00F000000000 + 40 * 0x100000000 + 33 * 0x10000 + 0x100
  let slot : Nat := 40
  let w : World := .normal
  let v : BitVec 64 := 0x55
  (s.busAt addr.toNat = .unit .xbar slot) ∧ (addr.toNat % 2 ^ 16 = 0x100) ∧ (v.toNat < 2 ^ 16) ∧ (s.unitReady .xbar = true) := by decide +kernel

/-- Hypotheses of `registerWriteDenied` in `FabricAccesses`. -/
theorem witness_registerWriteDenied :
  let s : State := (State.reset |>.put (.mc 1) F.UNIT_READY_READY 1)
  let addr : BitVec 52 := 0x00F000000000 + 40 * 0x100000000 + 25 * 0x10000 + 288
  let slot : Nat := 40
  let v : BitVec 64 := 0x55
  (s.busAt addr.toNat = .unit (.mc 1) slot) ∧ (addr.toNat % 2 ^ 16 = 288) ∧ (s.unitReady (.mc 1) = true) := by decide +kernel

/-- Hypotheses of `vzEnable` in `LinkTraining`. -/
theorem witness_vzEnable :
  let s : State := (State.reset |>.put (.vz 5) F.VZ_CTRL_EN 0)
  let n : Fin 45 := 5
  (s.on (.vz n) F.VZ_CTRL_EN = false) := by decide +kernel

/-- Hypotheses of `vzEnableSame` in `LinkTraining`. -/
theorem witness_vzEnableSame :
  let s : State := (State.reset |>.put (.vz 5) F.VZ_CTRL_EN 1)
  let n : Fin 45 := 5
  let en : Bool := true
  (s.on (.vz n) F.VZ_CTRL_EN = en) := by decide +kernel

/-- Hypotheses of `vzDisable` in `LinkTraining`. -/
theorem witness_vzDisable :
  let s : State := (State.reset |>.put (.vz 5) F.VZ_CTRL_EN 1)
  let n : Fin 45 := 5
  (s.on (.vz n) F.VZ_CTRL_EN = true) ∧ ((s.link n).wasUp = false) ∧ ((vzTwin n).all (fun m => !(s.link m).wasUp) = true) := by decide +kernel

/-- Hypotheses of `vzDetect` in `LinkTraining`. -/
theorem witness_vzDetect :
  let s : State := (State.reset |>.put (.vz 5) F.VZ_STAT_STATE 1)
  let n : Fin 45 := 5
  (s.get (.vz n) F.VZ_STAT_STATE = 1) := by decide +kernel

/-- Hypotheses of `vzDetectElse` in `LinkTraining`. -/
theorem witness_vzDetectElse :
  let s : State := (State.reset |>.put (.vz 5) F.VZ_STAT_STATE 2)
  let n : Fin 45 := 5
  (s.get (.vz n) F.VZ_STAT_STATE ≠ 1) := by decide +kernel

/-- Hypotheses of `vzStep2` in `LinkTraining`. -/
theorem witness_vzStep2 :
  let s : State := (State.reset |>.put (.vz 5) F.VZ_STAT_STATE 2)
  let n : Fin 45 := 5
  let o : VzObs := ⟨0x3FFFFFFFF, 0x3FFFFFFFF, 40⟩
  (s.get (.vz n) F.VZ_STAT_STATE = 2) := by decide +kernel

/-- Hypotheses of `vzStep4` in `LinkTraining`. -/
theorem witness_vzStep4 :
  let s : State := (State.reset |>.put (.vz 5) F.VZ_STAT_STATE 4)
  let n : Fin 45 := 5
  let o : VzObs := ⟨0x3FFFFFFFF, 0x3FFFFFFFF, 40⟩
  (s.get (.vz n) F.VZ_STAT_STATE = 4) := by decide +kernel

/-- Hypotheses of `vzStep3` in `LinkTraining`. -/
theorem witness_vzStep3 :
  let s : State := (State.reset |>.put (.vz 5) F.VZ_STAT_STATE 3)
  let n : Fin 45 := 5
  let o : VzObs := ⟨0x3FFFFFFFF, 0x3FFFFFFFF, 40⟩
  (s.get (.vz n) F.VZ_STAT_STATE = 3) ∧ (n.val ≠ 44) ∧ (s.get (.vz n) F.VZ_TX_FUSE = 0) ∧ (s.get (.vz n) F.VZ_RX_FUSE = 0) ∧ ((s.link n).hubFast = false) ∧ ((s.link n).dieFast = false) ∧ (o.tx = BitVec.allOnes 34) ∧ (o.rx = BitVec.allOnes 34) := by decide +kernel

/-- Hypotheses of `vzStep3Unusable` in `LinkTraining`. -/
theorem witness_vzStep3Unusable :
  let s : State := (State.reset |>.put (.vz 5) F.VZ_STAT_STATE 3)
  let n : Fin 45 := 5
  let o : VzObs := ⟨0, 0, 40⟩
  (s.get (.vz n) F.VZ_STAT_STATE = 3) ∧ (o.tx = 0) ∧ ((s.link n).wasUp = false) ∧ ((vzTwin n).all (fun m => !(s.link m).wasUp) = true) := by decide +kernel

/-- Hypotheses of `vzStep5` in `LinkTraining`. -/
theorem witness_vzStep5 :
  let s : State := (State.reset |>.put (.vz 5) F.VZ_STAT_STATE 5 |>.setLink 5 { good := (0xFFFFFFFF, 0xFFFFFFFF) })
  let n : Fin 45 := 5
  let o : VzObs := ⟨0x3FFFFFFFF, 0x3FFFFFFFF, 40⟩
  (s.get (.vz n) F.VZ_STAT_STATE = 5) ∧ ((s.link n).hubFast = false) ∧ ((s.link n).dieFast = false) := by decide +kernel

/-- Hypotheses of `vzStep5Mismatch` in `LinkTraining`. -/
theorem witness_vzStep5Mismatch :
  let s : State := (State.reset |>.put (.vz 5) F.VZ_STAT_STATE 5 |>.setLink 5 { good := (0xFFFFFFFF, 0xFFFFFFFF), hubFast := true, hubKept := some (0xF, 0xF) })
  let n : Fin 45 := 5
  let o : VzObs := ⟨0x3FFFFFFFF, 0x3FFFFFFFF, 40⟩
  let k : Nat × Nat := (0xF, 0xF)
  (s.get (.vz n) F.VZ_STAT_STATE = 5) ∧ ((s.link n).hubFast = true) ∧ ((s.link n).hubKept = some k) ∧ (k.1 &&& (s.link n).good.1 ≠ (s.link n).good.1) := by decide +kernel

/-- Hypotheses of `vzStep6` in `LinkTraining`. -/
theorem witness_vzStep6 :
  let s : State := (State.reset |>.put (.vz 5) F.VZ_STAT_STATE 6)
  let n : Fin 45 := 5
  let o : VzObs := ⟨0x3FFFFFFFF, 0x3FFFFFFFF, 40⟩
  (s.get (.vz n) F.VZ_STAT_STATE = 6) := by decide +kernel

/-- Hypotheses of `vzStep7` in `LinkTraining`. -/
theorem witness_vzStep7 :
  let s : State := (State.reset |>.put (.vz 5) F.VZ_STAT_STATE 7)
  let n : Fin 45 := 5
  let o : VzObs := ⟨0x3FFFFFFFF, 0x3FFFFFFFF, 40⟩
  (s.get (.vz n) F.VZ_STAT_STATE = 7) := by decide +kernel

/-- Hypotheses of `vzStepElse` in `LinkTraining`. -/
theorem witness_vzStepElse :
  let s : State := (State.reset |>.put (.vz 5) F.VZ_STAT_STATE 8)
  let n : Fin 45 := 5
  let o : VzObs := ⟨0x3FFFFFFFF, 0x3FFFFFFFF, 40⟩
  (s.get (.vz n) F.VZ_STAT_STATE = 1 ∨ 8 ≤ s.get (.vz n) F.VZ_STAT_STATE ∨ s.get (.vz n) F.VZ_STAT_STATE = 0) := by decide +kernel

/-- Hypotheses of `vzMismatchHoldEnd` in `LinkTraining`. -/
theorem witness_vzMismatchHoldEnd :
  let s : State := (State.reset |>.put (.vz 5) F.VZ_STAT_STATE 10 |>.setLink 5 { mism := 2 })
  let n : Fin 45 := 5
  (s.get (.vz n) F.VZ_STAT_STATE = 10) ∧ ((s.link n).mism < 3) := by decide +kernel

/-- Hypotheses of `vzMismatchThird` in `LinkTraining`. -/
theorem witness_vzMismatchThird :
  let s : State := (State.reset |>.put (.vz 5) F.VZ_STAT_STATE 10 |>.setLink 5 { mism := 3 })
  let n : Fin 45 := 5
  (s.get (.vz n) F.VZ_STAT_STATE = 10) ∧ (3 ≤ (s.link n).mism) ∧ ((s.link n).wasUp = false) ∧ ((vzTwin n).all (fun m => !(s.link m).wasUp) = true) := by decide +kernel

/-- Hypotheses of `vzMismatchElse` in `LinkTraining`. -/
theorem witness_vzMismatchElse :
  let s : State := (State.reset |>.put (.vz 5) F.VZ_STAT_STATE 8)
  let n : Fin 45 := 5
  (s.get (.vz n) F.VZ_STAT_STATE ≠ 10) := by decide +kernel

/-- Hypotheses of `vzStepTimeout` in `LinkTraining`. -/
theorem witness_vzStepTimeout :
  let s : State := (State.reset |>.put (.vz 5) F.VZ_STAT_STATE 4 |>.put (.vz 5) F.VZ_STAT_TRIES 2)
  let n : Fin 45 := 5
  (2 ≤ s.get (.vz n) F.VZ_STAT_STATE) ∧ (s.get (.vz n) F.VZ_STAT_STATE ≤ 7) ∧ (s.get (.vz n) F.VZ_STAT_TRIES < 3) := by decide +kernel

/-- Hypotheses of `vzStepTimeoutFourth` in `LinkTraining`. -/
theorem witness_vzStepTimeoutFourth :
  let s : State := (State.reset |>.put (.vz 5) F.VZ_STAT_STATE 4 |>.put (.vz 5) F.VZ_STAT_TRIES 3)
  let n : Fin 45 := 5
  (2 ≤ s.get (.vz n) F.VZ_STAT_STATE) ∧ (s.get (.vz n) F.VZ_STAT_STATE ≤ 7) ∧ (s.get (.vz n) F.VZ_STAT_TRIES = 3) ∧ ((s.link n).wasUp = false) ∧ ((vzTwin n).all (fun m => !(s.link m).wasUp) = true) := by decide +kernel

/-- Hypotheses of `vzStepTimeoutElse` in `LinkTraining`. -/
theorem witness_vzStepTimeoutElse :
  let s : State := (State.reset |>.put (.vz 5) F.VZ_STAT_STATE 8)
  let n : Fin 45 := 5
  (s.get (.vz n) F.VZ_STAT_STATE < 2 ∨ 7 < s.get (.vz n) F.VZ_STAT_STATE) := by decide +kernel

/-- Hypotheses of `vzRetrain` in `LinkTraining`. -/
theorem witness_vzRetrain :
  let s : State := (State.reset |>.put (.vz 5) F.VZ_STAT_STATE 8 |>.setLink 5 { hubKept := some (0xF, 0xF) })
  let n : Fin 45 := 5
  (s.get (.vz n) F.VZ_STAT_STATE = 8) ∧ ((s.link n).hubKept.isSome = true) := by decide +kernel

/-- Hypotheses of `vzRetrainFull` in `LinkTraining`. -/
theorem witness_vzRetrainFull :
  let s : State := (State.reset |>.put (.vz 5) F.VZ_STAT_STATE 8)
  let n : Fin 45 := 5
  (s.get (.vz n) F.VZ_STAT_STATE = 8) := by decide +kernel

/-- Hypotheses of `vzRetrainTraining` in `LinkTraining`. -/
theorem witness_vzRetrainTraining :
  let s : State := (State.reset |>.put (.vz 5) F.VZ_STAT_STATE 4 |>.put (.vz 5) F.VZ_STAT_TRIES 2)
  let n : Fin 45 := 5
  let full : Bool := false
  (s.get (.vz n) F.VZ_STAT_STATE ≠ 0) ∧ (s.get (.vz n) F.VZ_STAT_STATE ≠ 8) ∧ (s.get (.vz n) F.VZ_STAT_STATE ≠ 9) := by decide +kernel

/-- Hypotheses of `vzRetrainOff` in `LinkTraining`. -/
theorem witness_vzRetrainOff :
  let s : State := (State.reset |>.put (.vz 5) F.VZ_STAT_STATE 0)
  let n : Fin 45 := 5
  let full : Bool := false
  (s.get (.vz n) F.VZ_STAT_STATE = 0) := by decide +kernel

/-- Hypotheses of `flitReceived` in `LinkFlits`. -/
theorem witness_flitReceived :
  let s : State := (State.reset |>.put (.vz 5) F.VZ_STAT_STATE 8)
  let n : Fin 45 := 5
  let toHub : Bool := false
  let u : VzUnit := ⟨0, 3⟩
  (s.get (.vz n) F.VZ_STAT_STATE = 8) ∧ (s.vzClocked n (!toHub) = true) ∧ (s.vzClocked n toHub = true) ∧ ((s.vzEnd n toHub).culvert = []) ∧ ((s.vzEnd n toHub).replay = []) ∧ ((s.vzEnd n toHub).again = none) ∧ ((s.vzEnd n (!toHub)).seq = ((s.vzEnd n toHub).rx + 1) % 256) ∧ ((s.vzEnd n (!toHub)).again = none) ∧ ((s.vzEnd n (!toHub)).replay = []) ∧ ((s.vzEnd n (!toHub)).sent = [0, 0, 0, 0]) ∧ ((s.vzEnd n (!toHub)).seen = [0, 0, 0, 0]) ∧ ((s.vzEnd n (!toHub)).seq < 256) ∧ (u.net = 0) ∧ (1 ≤ unitOp u) ∧ (unitOp u ≤ 10) := by decide +kernel

/-- Hypotheses of `flitRests` in `LinkFlits`. -/
theorem witness_flitRests :
  let s : State := { (State.reset |>.put (.vz 5) F.VZ_STAT_STATE 8) with clocks := [.tile 5] }
  let n : Fin 45 := 5
  let toHub : Bool := false
  let u : VzUnit := ⟨0, 3⟩
  let noise : BitVec 2048 := 0
  (s.get (.vz n) F.VZ_STAT_STATE = 8) ∧ (s.vzClocked n (!toHub) = true) ∧ (s.vzClocked n toHub = false) ∧ ((s.vzEnd n toHub).culvert.length < 16) ∧ ((s.vzEnd n (!toHub)).again = none) ∧ ((s.vzEnd n (!toHub)).replay = []) ∧ ((s.vzEnd n (!toHub)).sent = [0, 0, 0, 0]) ∧ ((s.vzEnd n (!toHub)).seen = [0, 0, 0, 0]) ∧ ((s.vzEnd n (!toHub)).seq < 256) ∧ (u.net = 0) ∧ (1 ≤ unitOp u) ∧ (unitOp u ≤ 10) := by decide +kernel

/-- Hypotheses of `flitWaits` in `LinkFlits`. -/
theorem witness_flitWaits :
  let s : State := (State.reset |>.put (.vz 5) F.VZ_STAT_STATE 8 |>.setLink 5 { die := { culvert := List.replicate 16 ⟨⟨none, []⟩, 0, false, [], false⟩ } })
  let n : Fin 45 := 5
  let toHub : Bool := false
  let want : List VzUnit := []
  let noise : BitVec 2048 := 0
  (16 ≤ (s.vzEnd n toHub).culvert.length ∨ s.get (.vz n) F.VZ_STAT_STATE ≠ 8 ∨ s.vzClocked n (!toHub) = false) := by decide +kernel

/-- Hypotheses of `flitBad` in `LinkFlits`. -/
theorem witness_flitBad :
  let s : State := (State.reset |>.put (.vz 5) F.VZ_STAT_STATE 8)
  let n : Fin 45 := 5
  let want : List VzUnit := [⟨0, 3⟩]
  let noise : BitVec 2048 := 1
  let f := nextFlit n true (s.get (.vz n) F.VZ_STAT_VER) (s.link n).die want
  (s.get (.vz n) F.VZ_STAT_STATE = 8) ∧ (s.vzClocked n true = true) ∧ (s.vzClocked n false = true) ∧ ((s.link n).hub.culvert = []) ∧ ((readFlit (flitWord f.2 f.1.seq f.1.rx f.1.nak f.1.freed ^^^ noise.toNat)).bad = true) := by decide +kernel

/-- Hypotheses of `nak` in `LinkFlits`. -/
theorem witness_nak :
  let s : State := (State.reset |>.put (.vz 5) F.VZ_STAT_STATE 8 |>.setLink 5 { hub := { nakSeen := true, replay := [⟨3, 1, []⟩] } })
  let n : Fin 45 := 5
  let hubEnd : Bool := true
  ((s.vzEnd n hubEnd).nakSeen = true) ∧ ((s.vzEnd n hubEnd).replay ≠ []) := by decide +kernel

/-- Hypotheses of `nakNone` in `LinkFlits`. -/
theorem witness_nakNone :
  let s : State := (State.reset |>.put (.vz 5) F.VZ_STAT_STATE 8)
  let n : Fin 45 := 5
  let hubEnd : Bool := true
  ((s.vzEnd n hubEnd).nakSeen = false) := by decide +kernel

/-- Hypotheses of `fastRetrainStart` in `LinkFlits`. -/
theorem witness_fastRetrainStart :
  let s : State := (State.reset |>.put (.vz 5) F.VZ_STAT_STATE 8 |>.setLink 5 { hubKept := some (0xF, 0xF), hub := { replay := [⟨3, 99, []⟩] } })
  let n : Fin 45 := 5
  let hubEnd : Bool := true
  (s.get (.vz n) F.VZ_STAT_STATE = 8) ∧ ((s.link n).hubKept.isSome = true) ∧ ((s.vzEnd n hubEnd).replay.any (fun f => decide (max 2 (s.get (.vz n) F.VZ_TUNE_REPLAY_MAX) ≤ f.sends)) = true) := by decide +kernel

/-- Hypotheses of `fastRetrainCrc` in `LinkFlits`. -/
theorem witness_fastRetrainCrc :
  let s : State := (State.reset |>.put (.vz 5) F.VZ_STAT_STATE 8 |>.put (.vz 5) F.VZ_TUNE_CRC_THR 1 |>.setLink 5 { hubKept := some (0xF, 0xF), hub := { badAt := [0, 0, 0] } })
  let n : Fin 45 := 5
  let hubEnd : Bool := true
  (s.get (.vz n) F.VZ_STAT_STATE = 8) ∧ ((s.link n).hubKept.isSome = true) ∧ (max 1 (s.get (.vz n) F.VZ_TUNE_CRC_THR) < recentBad (s.vzEnd n hubEnd) (s.get .irq F.PKG_TIME)) := by decide +kernel

/-- Hypotheses of `fastRetrainElse` in `LinkFlits`. -/
theorem witness_fastRetrainElse :
  let s : State := (State.reset |>.put (.vz 5) F.VZ_STAT_STATE 4)
  let n : Fin 45 := 5
  (s.get (.vz n) F.VZ_STAT_STATE ≠ 8) := by decide +kernel

/-- Hypotheses of `isolatedLoss` in `LinkFlits`. -/
theorem witness_isolatedLoss :
  let s : State := (State.reset |>.put (.vz 5) F.VZ_STAT_STATE 8 |>.setLink 5 { wasUp := true })
  let n : Fin 45 := 5
  (s.get (.vz n) F.VZ_STAT_STATE = 8) ∧ (n.val < 36) := by decide +kernel

/-- Hypotheses of `linkLost` in `LinkFlits`. -/
theorem witness_linkLost :
  let s : State := { (State.reset |>.put (.vz 5) F.VZ_STAT_STATE 8 |>.put (.vz 5) F.VZ_CTRL_EN 1 |>.setLink 5 { wasUp := true }) with mode := .serve }
  let n : Fin 45 := 5
  (vzTwin n = none) ∧ (s.on (.vz n) F.VZ_CTRL_EN = true) ∧ ((s.link n).wasUp = true) ∧ (s.on (.vz n) F.VZ_CTRL_ISOLATE = false) ∧ (s.isOff = false) ∧ (s.mode ≠ .keep) := by decide +kernel

/-- Hypotheses of `linkMoves` in `LinkFlits`. -/
theorem witness_linkMoves :
  let s : State := (State.reset |>.put (.vz 36) F.VZ_STAT_STATE 8 |>.put (.vz 37) F.VZ_STAT_STATE 8 |>.put (.vz 36) F.VZ_CTRL_EN 1)
  let n : Fin 45 := 36
  let m : Fin 45 := 37
  (vzTwin n = some m) ∧ (s.get (.vz m) F.VZ_STAT_STATE = 8) ∧ (s.on (.vz n) F.VZ_CTRL_EN = true) := by decide +kernel

/-- Hypotheses of `halfIdleEnter` in `LinkFlits`. -/
theorem witness_halfIdleEnter :
  let s : State := (State.reset |>.put (.vz 5) F.VZ_STAT_STATE 8 |>.put (.vz 5) F.VZ_STAT_VER 2 |>.put (.vz 5) F.VZ_STAT_TXW 2 |>.put (.vz 5) F.VZ_STAT_RXW 2 |>.put (.vz 5) F.VZ_TUNE_IDLE_US 5)
  let n : Fin 45 := 5
  (s.get (.vz n) F.VZ_STAT_STATE = 8) ∧ (s.get (.vz n) F.VZ_STAT_VER = 2) ∧ (s.get (.vz n) F.VZ_STAT_TXW = 2) ∧ (s.get (.vz n) F.VZ_STAT_RXW = 2) ∧ (s.get (.vz n) F.VZ_TUNE_IDLE_US ≠ 0) := by decide +kernel

/-- Hypotheses of `halfIdleNot` in `LinkFlits`. -/
theorem witness_halfIdleNot :
  let s : State := (State.reset |>.put (.vz 5) F.VZ_STAT_STATE 8)
  let n : Fin 45 := 5
  (s.get (.vz n) F.VZ_STAT_STATE ≠ 8 ∨ s.get (.vz n) F.VZ_STAT_VER ≠ 2 ∨ s.get (.vz n) F.VZ_STAT_TXW ≠ 2 ∨ s.get (.vz n) F.VZ_STAT_RXW ≠ 2 ∨ s.get (.vz n) F.VZ_TUNE_IDLE_US = 0) := by decide +kernel

/-- Hypotheses of `loadingBegin` in `Loading`. -/
theorem witness_loadingBegin :
  let s : State := { State.reset with mode := .loading }
  let head : FlashHead := ⟨true, 0x50444653, [.r114], (let h := leBytes 4 0x4A484346 ++ leBytes 2 1 ++ [0, 0] ++ leBytes 4 268 ++ List.replicate 12 0 ++ leBytes 8 0x1234 ++ List.replicate 8 0 ++ leBytes 2 384 ++ List.replicate 210 0; h ++ leBytes 4 (crc32c h))⟩
  (s.mode = .loading) ∧ (s.fatalStop = false) ∧ (s.load.begun = false) ∧ (s.load.warm = false) ∧ (headCause head = 0) ∧ (headMapOk head.bytes = true) := by decide +kernel

/-- Hypotheses of `loadingBeginBad` in `Loading`. -/
theorem witness_loadingBeginBad :
  let s : State := { State.reset with mode := .loading }
  let head : FlashHead := ⟨true, 0, [], []⟩
  let c := (if headCause head ≠ 0 then headCause head else 6)
  (s.mode = .loading) ∧ (s.fatalStop = false) ∧ (s.load.begun = false) ∧ (s.load.warm = false) ∧ (headCause head ≠ 0 ∨ headMapOk head.bytes = false) := by decide +kernel

/-- Hypotheses of `loadingBeginWarm` in `Loading`. -/
theorem witness_loadingBeginWarm :
  let s : State := { State.reset with mode := .loading, load := { warm := true } }
  let head : FlashHead := ⟨true, 0x50444653, [.r114], (let h := leBytes 4 0x4A484346 ++ leBytes 2 1 ++ [0, 0] ++ leBytes 4 268 ++ List.replicate 12 0 ++ leBytes 8 0x1234 ++ List.replicate 8 0 ++ leBytes 2 384 ++ List.replicate 210 0; h ++ leBytes 4 (crc32c h))⟩
  (s.mode = .loading) ∧ (s.fatalStop = false) ∧ (s.load.begun = false) ∧ (s.load.warm = true) ∧ (headCause head = 0) := by decide +kernel

/-- Hypotheses of `loadingBeginElse` in `Loading`. -/
theorem witness_loadingBeginElse :
  let s : State := State.reset
  let head : FlashHead := ⟨true, 0, [], []⟩
  (s.mode ≠ .loading ∨ s.fatalStop = true ∨ s.load.begun = true) := by decide +kernel

/-- Hypotheses of `loadingFillDone` in `Loading`. -/
theorem witness_loadingFillDone :
  let s : State := { State.reset with mode := .loading, fill := some (0, dramSize - 1), dram := [(5000, 7)] }
  let lo : Nat := 0
  let hi : Nat := dramSize - 1
  let a : Nat := 5000
  (s.fill = some (lo, hi)) ∧ (s.mode = .loading) := by decide +kernel

/-- Hypotheses of `loadingImageEnd` in `Loading`. -/
theorem witness_loadingImageEnd :
  let s : State := { State.reset with mode := .loading, load := { begun := true, filled := true, len := 268, head := [1, 2, 3] } }
  let body : List Byte := (List.replicate 8 0 ++ leBytes 4 (crc32c ([1, 2, 3] ++ List.replicate 8 0)))
  let r : List ImgRec × Bool := recordsOf (s.memTop * 2 ^ 29) (body.length / 8 + 1) body
  (s.mode = .loading) ∧ (s.fatalStop = false) ∧ (s.load.begun = true) ∧ (s.load.judged = false) ∧ (s.load.warm = true ∨ s.load.filled = true) ∧ (body.length = s.load.len - 256) ∧ ((r.2 = true ∧ (heldRegs r.1).length ≤ 4096)) ∧ (leNat (body.drop (body.length - 4)) = crc32c (s.load.head ++ body.take (body.length - 4))) := by decide +kernel

/-- Hypotheses of `loadingImageBad` in `Loading`. -/
theorem witness_loadingImageBad :
  let s : State := { State.reset with mode := .loading, load := { begun := true, filled := true, len := 268, head := [1, 2, 3] } }
  let body : List Byte := []
  let answered : Bool := false
  (s.mode = .loading) ∧ (s.fatalStop = false) ∧ (s.load.begun = true) ∧ (s.load.judged = false) ∧ (s.load.warm = true ∨ s.load.filled = true) ∧ (answered = false ∨ body.length ≠ s.load.len - 256) := by decide +kernel

/-- Hypotheses of `loadingImageRecords` in `Loading`. -/
theorem witness_loadingImageRecords :
  let s : State := { State.reset with mode := .loading, load := { begun := true, filled := true, len := 268, head := [1, 2, 3] } }
  let body : List Byte := (List.replicate 12 9)
  let r : List ImgRec × Bool := recordsOf (s.memTop * 2 ^ 29) (body.length / 8 + 1) body
  (s.mode = .loading) ∧ (s.fatalStop = false) ∧ (s.load.begun = true) ∧ (s.load.judged = false) ∧ (s.load.warm = true ∨ s.load.filled = true) ∧ (body.length = s.load.len - 256) ∧ (¬(r.2 = true ∧ (heldRegs r.1).length ≤ 4096)) := by decide +kernel

/-- Hypotheses of `loadingImageCrc` in `Loading`. -/
theorem witness_loadingImageCrc :
  let s : State := { State.reset with mode := .loading, load := { begun := true, filled := true, len := 268, head := [1, 2, 3] } }
  let body : List Byte := (List.replicate 12 0)
  let r : List ImgRec × Bool := recordsOf (s.memTop * 2 ^ 29) (body.length / 8 + 1) body
  (s.mode = .loading) ∧ (s.fatalStop = false) ∧ (s.load.begun = true) ∧ (s.load.judged = false) ∧ (s.load.warm = true ∨ s.load.filled = true) ∧ (body.length = s.load.len - 256) ∧ ((r.2 = true ∧ (heldRegs r.1).length ≤ 4096)) ∧ (¬(leNat (body.drop (body.length - 4)) = crc32c (s.load.head ++ body.take (body.length - 4)))) := by decide +kernel

/-- Hypotheses of `loadingRegWrite` in `Loading`. -/
theorem witness_loadingRegWrite :
  let s : State := { State.reset with mode := .loading, load := { filled := true, regs := [⟨0x00F000000000 + 40 * 0x100000000 + 33 * 0x10000 + 0x100, 2 ^ 64 - 1, 77⟩] } }
  let r : RegRec := ⟨0x00F000000000 + 40 * 0x100000000 + 33 * 0x10000 + 0x100, 2 ^ 64 - 1, 77⟩
  let rest : List RegRec := []
  let w : State × NcAns := ({ s.clean with load := { s.load with regs := rest } }).ncWrite true 59 r.addr (leBytes 8 r.value)
  (s.mode = .loading) ∧ (s.fatalStop = false) ∧ (s.load.regs = r :: rest) ∧ (s.load.warm = true ∨ s.load.filled = true) ∧ (r.mask = 2 ^ 64 - 1) := by decide +kernel

/-- Hypotheses of `loadingRegMasked` in `Loading`. -/
theorem witness_loadingRegMasked :
  let s : State := { (State.reset |>.put .xbar F.UNIT_READY_READY 1) with mode := .loading, load := { filled := true, regs := [⟨0x00F000000000 + 40 * 0x100000000 + 33 * 0x10000 + 0x100, 15, 77⟩] } }
  let r : RegRec := ⟨0x00F000000000 + 40 * 0x100000000 + 33 * 0x10000 + 0x100, 15, 77⟩
  let rest : List RegRec := []
  let bs : List Byte := leBytes 8 ((State.reset.put .xbar F.UNIT_READY_READY 1 |>.ncRead true 59 (0x00F000000000 + 40 * 0x100000000 + 33 * 0x10000 + 0x100) 8).1.get .xbar F.XB_TMO_NC_US + 65536 * (State.reset.get .xbar F.XB_TMO_COH_MS))
  let p : Bool := false
  let o : State × NcAns := ({ s.clean with load := { s.load with regs := rest } }).ncRead true 59 r.addr 8
  let w : State × NcAns := o.1.ncWrite true 59 r.addr (leBytes 8 ((leNat bs &&& (2 ^ 64 - 1 - r.mask)) ||| (r.value &&& r.mask)))
  (s.mode = .loading) ∧ (s.fatalStop = false) ∧ (s.load.regs = r :: rest) ∧ (s.load.warm = true ∨ s.load.filled = true) ∧ (r.mask ≠ 2 ^ 64 - 1) ∧ (o.2 = .value bs p) := by decide +kernel

/-- Hypotheses of `loadingRegStart` in `Loading`. -/
theorem witness_loadingRegStart :
  let s : State := { (State.reset |>.put .cfg F.UNIT_READY_READY 1) with mode := .loading, load := { filled := true, regs := [⟨unitBase .cfg + F.START_PC.off, 2 ^ 64 - 1, 0x4000⟩] } }
  let v : Nat := 0x4000
  let rest : List RegRec := []
  (s.mode = .loading) ∧ (s.fatalStop = false) ∧ (s.load.regs = ⟨unitBase .cfg + F.START_PC.off, 2 ^ 64 - 1, v⟩ :: rest) ∧ (s.load.warm = true ∨ s.load.filled = true) ∧ (s.unitReady .cfg = true) := by decide +kernel

/-- Hypotheses of `loadingEnd` in `Loading`. -/
theorem witness_loadingEnd :
  let s : State := { State.reset with mode := .loading, load := { judged := true, filled := true } }
  let w : State × Bool := s.clean.swpAtLoad
  (s.mode = .loading) ∧ (s.fatalStop = false) ∧ (s.load.judged = true) ∧ (s.load.regs = []) ∧ (s.load.warm = false) ∧ (s.load.filled = true) ∧ (s.load.cause = 0) ∧ (w.2 = false) ∧ (w.1.fewTiles = false) ∧ (w.1.unitFailed = false) := by decide +kernel

/-- Hypotheses of `loadingEndFew` in `Loading`. -/
theorem witness_loadingEndFew :
  let s : State := { State.reset with mode := .loading, load := { judged := true, filled := true }, st := { ents := [(0, { init := 2 }), (1, { init := 2 }), (2, { init := 2 }), (3, { init := 2 }), (4, { init := 2 }), (5, { init := 2 }), (6, { init := 2 })] } }
  let w : State × Bool := s.clean.swpAtLoad
  (s.mode = .loading) ∧ (s.fatalStop = false) ∧ (s.load.judged = true) ∧ (s.load.regs = []) ∧ (s.load.warm = false) ∧ (s.load.filled = true) ∧ (s.load.cause = 0) ∧ (w.1.fewTiles = true) := by decide +kernel

/-- Hypotheses of `loadingEndUnit` in `Loading`. -/
theorem witness_loadingEndUnit :
  let s : State := { State.reset with mode := .loading, load := { judged := true, filled := true }, st := { ents := [(36, { init := 2 })] } }
  let w : State × Bool := s.clean.swpAtLoad
  (s.mode = .loading) ∧ (s.fatalStop = false) ∧ (s.load.judged = true) ∧ (s.load.regs = []) ∧ (s.load.warm = false) ∧ (s.load.filled = true) ∧ (s.load.cause = 0) ∧ (w.1.fewTiles = false) ∧ (w.1.unitFailed = true) := by decide +kernel

/-- Hypotheses of `loadingEndDefaulted` in `Loading`. -/
theorem witness_loadingEndDefaulted :
  let s : State := { State.reset with mode := .loading, load := { judged := true, filled := true, cause := 5 } }
  let w : State × Bool := s.clean.swpAtLoad
  (s.mode = .loading) ∧ (s.fatalStop = false) ∧ (s.load.judged = true) ∧ (s.load.regs = []) ∧ (s.load.warm = false) ∧ (s.load.filled = true) ∧ (s.load.cause ≠ 0) ∧ (w.1.recSegOk = none) := by decide +kernel

/-- Hypotheses of `loadingEndSegment` in `Loading`. -/
theorem witness_loadingEndSegment :
  let s : State := { State.reset with mode := .loading, load := { judged := true, filled := true, cause := 5 }, recSeg := some ⟨8, crc32c (List.replicate 8 0)⟩ }
  let bs : List Byte := List.replicate 8 0
  let w : State × Bool := s.clean.swpAtLoad
  (s.mode = .loading) ∧ (s.fatalStop = false) ∧ (s.load.judged = true) ∧ (s.load.regs = []) ∧ (s.load.warm = false) ∧ (s.load.filled = true) ∧ (s.load.cause ≠ 0) ∧ (w.1.recSegOk = some bs) := by decide +kernel

/-- Hypotheses of `tilePowerUp` in `Tiles`. -/
theorem witness_tilePowerUp :
  let s : State := { State.reset with powerQ := [[5, 6], [], [], []] }
  let q : Fin 4 := 0
  let p : Fin 36 := 5
  let ps : List Nat := [6]
  (s.powerQ.getD q.val [] = p.val :: ps) ∧ (q.val < s.powerQ.length) := by decide +kernel

/-- Hypotheses of `tilePowerNone` in `Tiles`. -/
theorem witness_tilePowerNone :
  let s : State := State.reset
  let q : Fin 4 := 0
  (s.powerQ.getD q.val [] = []) := by decide +kernel

/-- Hypotheses of `unitReadyRise` in `Tiles`. -/
theorem witness_unitReadyRise :
  let s : State := { State.reset with mode := .serve }
  let k : Fin 8 := 1
  (s.powered (.mc k) = true) := by decide +kernel

/-- Hypotheses of `unitReadyNot` in `Tiles`. -/
theorem witness_unitReadyNot :
  let s : State := State.reset
  let u : UnitId := .tile 1
  (s.powered u = false ∨ s.on u F.UNIT_READY_READY = true) := by decide +kernel

set_option maxRecDepth 20000 in
/-- Hypotheses of `tileReadyRise` in `Tiles`. -/
theorem witness_tileReadyRise :
  let s : State := { (State.reset |>.put .cfg F.CFG_TMAP_VALID 1 1 |>.put .cfg F.CFG_TMAP_PHYS 1 1 |>.put .pwr F.PWR_DOM_STATE 0 1 |>.put (.vz 1) F.VZ_STAT_STATE 8) with mode := .twelve, boot := some ⟨0x4000, 0⟩ }
  let p : Fin 36 := 1
  let t8 : Fin 32 := 1
  let b : BootAt := ⟨0x4000, 0⟩
  (s.powered (.tile p) = true) ∧ (s.on (.tile p) F.UNIT_READY_READY = false) ∧ (s.mode = .twelve) ∧ (s.logTile p.val = some t8.val) ∧ (s.physTile t8.val = some p) ∧ (twelveTile t8.val = true) ∧ (s.boot = some b) ∧ (s.get .cfg F.CFG_TMAP_RUN t8.val = 0) := by decide +kernel

/-- Hypotheses of `cfgStart` in `Tiles`. -/
theorem witness_cfgStart :
  let s : State := (State.reset |>.put .cfg F.CFG_TMAP_VALID 1 1 |>.put .cfg F.CFG_TMAP_PHYS 1 1 |>.put (.tile 1) F.UNIT_READY_READY 1 |>.put .cfg F.START_PC 0x400)
  let tile : Fin 32 := 1
  (s.tileReady tile.val = true) ∧ (s.get .cfg F.CFG_TMAP_RUN tile.val = 0) ∧ (s.underTileCmd tile.val = false) := by decide +kernel

/-- Hypotheses of `cfgStartRefused` in `Tiles`. -/
theorem witness_cfgStartRefused :
  let s : State := State.reset
  let tile : Fin 32 := 1
  (s.tileReady tile.val = false ∨ s.get .cfg F.CFG_TMAP_RUN tile.val ≠ 0 ∨ s.underTileCmd tile.val = true) := by decide +kernel

/-- Hypotheses of `tileRetire` in `Tiles`. -/
theorem witness_tileRetire :
  let s : State := (State.reset |>.put .cfg F.CFG_TMAP_VALID 1 3 |>.put .cfg F.CFG_TMAP_PHYS 3 3 |>.put .cfg F.CFG_PTILE_STATE 1 8 |>.put .cfg F.CFG_TMAP_RUN 1 1 |>.put .cfg F.CFG_TMAP_VALID 1 1 |>.put .cfg F.CFG_TMAP_PHYS 1 1)
  let tile : Fin 32 := 3
  (s.tileOp = none) ∧ (s.absent tile.val = false) ∧ (twelveTile tile.val = false) ∧ (s.runningTiles (tile.val / 8) ≠ [tile.val]) := by decide +kernel

/-- Hypotheses of `tileRetireRefused` in `Tiles`. -/
theorem witness_tileRetireRefused :
  let s : State := (State.reset |>.put .cfg F.CFG_TMAP_VALID 1 3 |>.put .cfg F.CFG_TMAP_PHYS 3 3 |>.put .cfg F.CFG_PTILE_STATE 1 8 |>.put .cfg F.CFG_TMAP_RUN 1 1 |>.put .cfg F.CFG_TMAP_VALID 1 1 |>.put .cfg F.CFG_TMAP_PHYS 1 1)
  let tile : Fin 32 := 1
  (s.absent tile.val = true ∨ twelveTile tile.val = true ∨ s.runningTiles (tile.val / 8) = [tile.val] ∨ s.tileOp.isSome = true) := by decide +kernel

/-- Hypotheses of `tileAdd` in `Tiles`. -/
theorem witness_tileAdd :
  let s : State := (State.reset |>.put .cfg F.CFG_TMAP_VALID 1 3 |>.put .cfg F.CFG_TMAP_PHYS 3 3 |>.put .cfg F.CFG_PTILE_STATE 1 8 |>.put .cfg F.CFG_TMAP_RUN 1 1 |>.put .cfg F.CFG_TMAP_VALID 1 1 |>.put .cfg F.CFG_TMAP_PHYS 1 1)
  let tile : Fin 32 := 4
  (s.tileOp = none) ∧ (s.absent tile.val = true) ∧ ((s.spareOf (tile.val / 8)).isSome = true) := by decide +kernel

/-- Hypotheses of `tileAddRefused` in `Tiles`. -/
theorem witness_tileAddRefused :
  let s : State := (State.reset |>.put .cfg F.CFG_TMAP_VALID 1 3 |>.put .cfg F.CFG_TMAP_PHYS 3 3 |>.put .cfg F.CFG_PTILE_STATE 1 8 |>.put .cfg F.CFG_TMAP_RUN 1 1 |>.put .cfg F.CFG_TMAP_VALID 1 1 |>.put .cfg F.CFG_TMAP_PHYS 1 1)
  let tile : Fin 32 := 3
  (s.absent tile.val = false ∨ s.spareOf (tile.val / 8) = none ∨ s.tileOp.isSome = true) := by decide +kernel

/-- Hypotheses of `tileSwap` in `Tiles`. -/
theorem witness_tileSwap :
  let s : State := (State.reset |>.put .cfg F.CFG_TMAP_VALID 1 3 |>.put .cfg F.CFG_TMAP_PHYS 3 3 |>.put .cfg F.CFG_PTILE_STATE 1 8 |>.put .cfg F.CFG_TMAP_RUN 1 1 |>.put .cfg F.CFG_TMAP_VALID 1 1 |>.put .cfg F.CFG_TMAP_PHYS 1 1)
  let tile : Fin 32 := 3
  (s.tileOp = none) ∧ (s.absent tile.val = false) ∧ ((s.spareOf (tile.val / 8)).isSome = true) := by decide +kernel

/-- Hypotheses of `tileSwapRefused` in `Tiles`. -/
theorem witness_tileSwapRefused :
  let s : State := (State.reset |>.put .cfg F.CFG_TMAP_VALID 1 3 |>.put .cfg F.CFG_TMAP_PHYS 3 3 |>.put .cfg F.CFG_PTILE_STATE 1 8 |>.put .cfg F.CFG_TMAP_RUN 1 1 |>.put .cfg F.CFG_TMAP_VALID 1 1 |>.put .cfg F.CFG_TMAP_PHYS 1 1)
  let tile : Fin 32 := 4
  (s.absent tile.val = true ∨ s.spareOf (tile.val / 8) = none ∨ s.tileOp.isSome = true) := by decide +kernel

/-- Hypotheses of `tileOpStepDone` in `Tiles`. -/
theorem witness_tileOpStepDone :
  let s : State := { (State.reset |>.put .cfg F.CFG_TILE_STAT_STEP 1) with tileOp := some ⟨1, 3, 3, 8⟩ }
  let o : TileOpS := ⟨1, 3, 3, 8⟩
  (s.tileOp = some o) ∧ (s.get .cfg F.CFG_TILE_STAT_STEP = 1) := by decide +kernel

/-- Hypotheses of `tileOpWaits` in `Tiles`. -/
theorem witness_tileOpWaits :
  let s : State := { (State.reset |>.put .cfg F.CFG_TILE_STAT_STEP 6) with tileOp := some ⟨2, 3, 3, 8⟩ }
  let o : TileOpS := ⟨2, 3, 3, 8⟩
  (s.tileOp = some o) ∧ (s.tileStepOver o (s.get .cfg F.CFG_TILE_STAT_STEP) = false) := by decide +kernel

/-- Hypotheses of `tileOpRetired` in `Tiles`. -/
theorem witness_tileOpRetired :
  let s : State := { (State.reset |>.put .cfg F.CFG_TILE_STAT_STEP 5) with tileOp := some ⟨1, 3, 3, 8⟩ }
  let o : TileOpS := ⟨1, 3, 3, 8⟩
  (s.tileOp = some o) ∧ (s.get .cfg F.CFG_TILE_STAT_STEP = 5) ∧ (o.op = 1) ∧ (o.out < 36) ∧ (o.tile < 32) ∧ (s.pwrNext = none) := by decide +kernel

set_option maxRecDepth 20000 in
/-- Hypotheses of `provision` in `Lifecycle`. -/
theorem witness_provision :
  let s : State := (State.reset |>.put .cfg F.CFG_STAT_LCS 0 |>.put .cfg F.CFG_STAT_PRES 1)
  (s.lc = none) ∧ (lcFrom 1 (s.get .cfg F.CFG_STAT_LCS) = true) ∧ (s.lcPresence 1 = true) ∧ (s.lcOther 1 = 0) := by decide +kernel

set_option maxRecDepth 20000 in
/-- Hypotheses of `deploy` in `Lifecycle`. -/
theorem witness_deploy :
  let s : State := (State.reset |>.put .cfg F.CFG_STAT_LCS 1 |>.put .cfg F.CFG_STAT_PRES 1)
  (s.lc = none) ∧ (lcFrom 2 (s.get .cfg F.CFG_STAT_LCS) = true) ∧ (s.lcPresence 2 = true) ∧ (s.lcOther 2 = 0) := by decide +kernel

set_option maxRecDepth 20000 in
/-- Hypotheses of `diag` in `Lifecycle`. -/
theorem witness_diag :
  let s : State := (State.reset |>.put .cfg F.CFG_STAT_LCS 2 |>.put .cfg F.CFG_STAT_PRES 1)
  (s.lc = none) ∧ (lcFrom 3 (s.get .cfg F.CFG_STAT_LCS) = true) ∧ (s.lcPresence 3 = true) ∧ (s.lcOther 3 = 0) := by decide +kernel

set_option maxRecDepth 20000 in
/-- Hypotheses of `undiag` in `Lifecycle`. -/
theorem witness_undiag :
  let s : State := { (State.reset |>.put .cfg F.CFG_STAT_LCS 3 |>.put .cfg F.CFG_STAT_PRES 1) with mode := .twelve }
  (s.lc = none) ∧ (lcFrom 4 (s.get .cfg F.CFG_STAT_LCS) = true) ∧ (s.lcPresence 4 = true) ∧ (s.lcOther 4 = 0) := by decide +kernel

set_option maxRecDepth 20000 in
/-- Hypotheses of `retire` in `Lifecycle`. -/
theorem witness_retire :
  let s : State := (State.reset |>.put .cfg F.CFG_STAT_LCS 1 |>.put .cfg F.CFG_STAT_PRES 1)
  (s.lc = none) ∧ (lcFrom 5 (s.get .cfg F.CFG_STAT_LCS) = true) ∧ (s.lcPresence 5 = true) ∧ (s.lcOther 5 = 0) := by decide +kernel

set_option maxRecDepth 20000 in
/-- Hypotheses of `diagMode` in `Lifecycle`. -/
theorem witness_diagMode :
  let s : State := { (State.reset |>.put .cfg F.CFG_STAT_LCS 1 |>.put .cfg F.CFG_STAT_PRES 1) with mode := .twelve }
  (s.lc = none) ∧ (lcFrom 6 (s.get .cfg F.CFG_STAT_LCS) = true) ∧ (s.lcPresence 6 = true) ∧ (s.lcOther 6 = 0) := by decide +kernel

set_option maxRecDepth 20000 in
/-- Hypotheses of `storeRec` in `Lifecycle`. -/
theorem witness_storeRec :
  let s : State := (State.reset |>.put .cfg F.CFG_STAT_LCS 1 |>.put .cfg F.CFG_STAT_PRES 1 |>.put .cfg F.LC_LEN 64)
  (s.lc = none) ∧ (lcFrom 7 (s.get .cfg F.CFG_STAT_LCS) = true) ∧ (s.lcPresence 7 = true) ∧ (s.lcOther 7 = 0) := by decide +kernel

set_option maxRecDepth 20000 in
/-- Hypotheses of `provisionWrong` in `Lifecycle`. -/
theorem witness_provisionWrong :
  let s : State := (State.reset |>.put .cfg F.CFG_STAT_LCS 1 |>.put .cfg F.CFG_STAT_PRES 1)
  (s.lc = none) ∧ (lcFrom 1 (s.get .cfg F.CFG_STAT_LCS) = false) := by decide +kernel

set_option maxRecDepth 20000 in
/-- Hypotheses of `deployWrong` in `Lifecycle`. -/
theorem witness_deployWrong :
  let s : State := (State.reset |>.put .cfg F.CFG_STAT_LCS 0 |>.put .cfg F.CFG_STAT_PRES 1)
  (s.lc = none) ∧ (lcFrom 2 (s.get .cfg F.CFG_STAT_LCS) = false) := by decide +kernel

set_option maxRecDepth 20000 in
/-- Hypotheses of `diagWrong` in `Lifecycle`. -/
theorem witness_diagWrong :
  let s : State := (State.reset |>.put .cfg F.CFG_STAT_LCS 0 |>.put .cfg F.CFG_STAT_PRES 1)
  (s.lc = none) ∧ (lcFrom 3 (s.get .cfg F.CFG_STAT_LCS) = false) := by decide +kernel

set_option maxRecDepth 20000 in
/-- Hypotheses of `undiagWrong` in `Lifecycle`. -/
theorem witness_undiagWrong :
  let s : State := (State.reset |>.put .cfg F.CFG_STAT_LCS 0 |>.put .cfg F.CFG_STAT_PRES 1)
  (s.lc = none) ∧ (lcFrom 4 (s.get .cfg F.CFG_STAT_LCS) = false) := by decide +kernel

set_option maxRecDepth 20000 in
/-- Hypotheses of `retireWrong` in `Lifecycle`. -/
theorem witness_retireWrong :
  let s : State := (State.reset |>.put .cfg F.CFG_STAT_LCS 0 |>.put .cfg F.CFG_STAT_PRES 1)
  (s.lc = none) ∧ (lcFrom 5 (s.get .cfg F.CFG_STAT_LCS) = false) := by decide +kernel

set_option maxRecDepth 20000 in
/-- Hypotheses of `diagModeWrong` in `Lifecycle`. -/
theorem witness_diagModeWrong :
  let s : State := (State.reset |>.put .cfg F.CFG_STAT_LCS 0 |>.put .cfg F.CFG_STAT_PRES 1)
  (s.lc = none) ∧ (lcFrom 6 (s.get .cfg F.CFG_STAT_LCS) = false) := by decide +kernel

set_option maxRecDepth 20000 in
/-- Hypotheses of `storeRecWrong` in `Lifecycle`. -/
theorem witness_storeRecWrong :
  let s : State := (State.reset |>.put .cfg F.CFG_STAT_LCS 0 |>.put .cfg F.CFG_STAT_PRES 1)
  (s.lc = none) ∧ (lcFrom 7 (s.get .cfg F.CFG_STAT_LCS) = false) := by decide +kernel

/-- Hypotheses of `deployNoPresence` in `Lifecycle`. -/
theorem witness_deployNoPresence :
  let s : State := (State.reset |>.put .cfg F.CFG_STAT_LCS 1)
  (s.lc = none) ∧ (s.get .cfg F.CFG_STAT_LCS = 1) ∧ (s.get .cfg F.CFG_STAT_PRES = 0) := by decide +kernel

set_option maxRecDepth 20000 in
/-- Hypotheses of `diagLiveKeys` in `Lifecycle`. -/
theorem witness_diagLiveKeys :
  let s : State := (State.reset |>.put .cfg F.CFG_STAT_LCS 2 |>.put .cfg F.CFG_STAT_PRES 1 |>.put .key F.KEY_SLOT_STATE 1 3)
  let k : Fin 4096 := 3
  (s.lc = none) ∧ (s.get .cfg F.CFG_STAT_LCS = 2) ∧ (s.get .cfg F.CFG_STAT_PRES = 1) ∧ (s.get .key F.KEY_SLOT_STATE k.val = 1) := by decide +kernel

/-- Hypotheses of `deployWhileBusy` in `Lifecycle`. -/
theorem witness_deployWhileBusy :
  let s : State := { State.reset with lc := some ⟨1⟩ }
  (s.lc.isSome = true) := by decide +kernel

/-- Hypotheses of `lcCmdReserved` in `Lifecycle`. -/
theorem witness_lcCmdReserved :
  let s : State := State.reset
  let op : Fin 16 := 9
  (s.lc = none) ∧ (op.val = 0 ∨ 8 ≤ op.val) := by decide +kernel

/-- Hypotheses of `provisionDone` in `Lifecycle`. -/
theorem witness_provisionDone :
  let s : State := { State.reset with lc := some ⟨1⟩ }
  (s.lc = some ⟨1⟩) := by decide +kernel

/-- Hypotheses of `deployDone` in `Lifecycle`. -/
theorem witness_deployDone :
  let s : State := { State.reset with lc := some ⟨2⟩ }
  (s.lc = some ⟨2⟩) := by decide +kernel

/-- Hypotheses of `diagDone` in `Lifecycle`. -/
theorem witness_diagDone :
  let s : State := { State.reset with lc := some ⟨3⟩ }
  (s.lc = some ⟨3⟩) := by decide +kernel

/-- Hypotheses of `undiagDone` in `Lifecycle`. -/
theorem witness_undiagDone :
  let s : State := { State.reset with lc := some ⟨4⟩ }
  (s.lc = some ⟨4⟩) := by decide +kernel

/-- Hypotheses of `retireDone` in `Lifecycle`. -/
theorem witness_retireDone :
  let s : State := { State.reset with lc := some ⟨5⟩ }
  (s.lc = some ⟨5⟩) := by decide +kernel

/-- Hypotheses of `diagModeDone` in `Lifecycle`. -/
theorem witness_diagModeDone :
  let s : State := { State.reset with lc := some ⟨6⟩, mode := .twelve }
  (s.lc = some ⟨6⟩) ∧ (s.mode = .twelve) := by decide +kernel

/-- Hypotheses of `storeRecDone` in `Lifecycle`. -/
theorem witness_storeRecDone :
  let s : State := { (State.reset |>.put .cfg F.LC_LEN 8) with lc := some ⟨7⟩ }
  let bs : List Byte := List.replicate 8 0
  let w : State × MemAns := ({ s.clean with lc := none }).masterRead 12 .cfg (s.get .cfg F.LC_SRC) (s.get .cfg F.LC_LEN)
  (s.lc = some ⟨7⟩) ∧ (w.2 = .bytes bs) := by decide +kernel

/-- Hypotheses of `stClassDone` in `SelfTest`. -/
theorem witness_stClassDone :
  let s : State := { State.reset with st := { active := some ⟨none, 7, [(5, [.ana, .init])]⟩ } }
  let unit : Fin 64 := 5
  let obs : ClassObs := ⟨true, 0, [], 0⟩
  let r : TestRun := ⟨none, 7, [(5, [.ana, .init])]⟩
  let cs : List TestClass := [.init]
  (s.st.active = some r) ∧ (mayRun r unit.val = true) ∧ ((r.todo.find? fun e => e.1 == unit.val) = some (unit.val, .ana :: cs)) ∧ (cs ≠ []) := by decide +kernel

/-- Hypotheses of `stClassLog` in `SelfTest`. -/
theorem witness_stClassLog :
  let s : State := { State.reset with st := { active := some ⟨some 3, 7, [(5, [.log, .init])]⟩ } }
  let unit : Fin 64 := 5
  let obs : ClassObs := ⟨true, 0, [], 0⟩
  let r : TestRun := ⟨some 3, 7, [(5, [.log, .init])]⟩
  let cs : List TestClass := [.init]
  (s.st.active = some r) ∧ (mayRun r unit.val = true) ∧ (r.prog.isSome = true) ∧ ((r.todo.find? fun e => e.1 == unit.val) = some (unit.val, .log :: cs)) ∧ (cs ≠ []) := by decide +kernel

/-- Hypotheses of `stClassRepair` in `SelfTest`. -/
theorem witness_stClassRepair :
  let s : State := { State.reset with st := { active := some ⟨none, 7, [(41, [.arr, .init])]⟩ } }
  let unit : Fin 64 := 41
  let obs : ClassObs := ⟨true, 0, [⟨3, true, 9, true, none⟩], 0⟩
  let r : TestRun := ⟨none, 7, [(41, [.arr, .init])]⟩
  let cs : List TestClass := [.init]
  let cell : CellFail := ⟨3, true, 9, true, none⟩
  let e : Nat := repairEntry 3 2 9
  (s.st.active = some r) ∧ (mayRun r unit.val = true) ∧ ((r.todo.find? fun e => e.1 == unit.val) = some (unit.val, .arr :: cs)) ∧ (cs ≠ []) ∧ (obs.cells = [cell]) ∧ (obs.pass = true) ∧ (cellRepair cell = some e) ∧ ((s.softMap unit.val).length < 64) := by decide +kernel

/-- Hypotheses of `stClassExhaust` in `SelfTest`. -/
theorem witness_stClassExhaust :
  let s : State := { State.reset with st := { active := some ⟨none, 7, [(41, [.arr, .init])]⟩ } }
  let unit : Fin 64 := 41
  let obs : ClassObs := ⟨true, 0, [⟨3, true, 9, false, none⟩], 0⟩
  let r : TestRun := ⟨none, 7, [(41, [.arr, .init])]⟩
  let cs : List TestClass := [.init]
  let cell : CellFail := ⟨3, true, 9, false, none⟩
  (s.st.active = some r) ∧ (mayRun r unit.val = true) ∧ ((r.todo.find? fun e => e.1 == unit.val) = some (unit.val, .arr :: cs)) ∧ (cs ≠ []) ∧ (obs.cells = [cell]) ∧ (cellRepair cell = none ∨ 64 ≤ (s.softMap unit.val).length) := by decide +kernel

/-- Hypotheses of `stClassInit` in `SelfTest`. -/
theorem witness_stClassInit :
  let s : State := { State.reset with st := { active := some ⟨some 1, 7, [(5, [.init]), (6, [.ana])]⟩, arrPend := [5] } }
  let unit : Fin 64 := 5
  let obs : ClassObs := ⟨true, 0, [], 0⟩
  let r : TestRun := ⟨some 1, 7, [(5, [.init]), (6, [.ana])]⟩
  (s.st.active = some r) ∧ (mayRun r unit.val = true) ∧ (unit.val < 36) ∧ ((r.todo.find? fun e => e.1 == unit.val) = some (unit.val, [.init])) := by decide +kernel

/-- Hypotheses of `stClassNone` in `SelfTest`. -/
theorem witness_stClassNone :
  let s : State := State.reset
  let unit : Fin 64 := 5
  let obs : ClassObs := ⟨true, 0, [], 0⟩
  (s.st.active = none) := by decide +kernel

/-- Hypotheses of `test` in `SelfTest`. -/
theorem witness_test :
  let s : State := { (State.reset |>.put .cfg F.CFG_STAT_LCS 3 |>.put .cfg F.CFG_STAT_PRES 1) with mode := .diagnostic }
  let unit : Fin 64 := 5
  let classes : Fin 16 := 3
  (s.testing = false) ∧ (s.get .cfg F.CFG_STAT_LCS = 3 ∨ s.get .cfg F.CFG_STAT_LCS = 1) ∧ (s.mayTest unit.val = true) := by decide +kernel

/-- Hypotheses of `testRefused` in `SelfTest`. -/
theorem witness_testRefused :
  let s : State := { (State.reset |>.put .cfg F.CFG_STAT_LCS 3 |>.put .cfg F.CFG_STAT_PRES 1) with mode := .serve }
  let unit : Fin 64 := 5
  let classes : Fin 16 := 3
  (s.testing = false) ∧ (s.get .cfg F.CFG_STAT_LCS = 3 ∨ s.get .cfg F.CFG_STAT_LCS = 1) ∧ (s.mayTest unit.val = false) := by decide +kernel

/-- Hypotheses of `fuse` in `SelfTest`. -/
theorem witness_fuse :
  let s : State := { (State.reset |>.put .cfg F.CFG_STAT_LCS 3 |>.put .cfg F.CFG_STAT_PRES 1) with st := { soft := [(5, [77])] } }
  let unit : Fin 64 := 5
  (s.testing = false) ∧ (s.get .cfg F.CFG_STAT_LCS = 3 ∨ s.get .cfg F.CFG_STAT_LCS = 1) ∧ (unit.val < 59) ∧ (s.present = true) ∧ ((s.softMap unit.val) ≠ []) ∧ ((s.fuseBank unit.val).length + (s.softMap unit.val).length ≤ fuseRoom) := by decide +kernel

/-- Hypotheses of `fuseFull` in `SelfTest`. -/
theorem witness_fuseFull :
  let s : State := { (State.reset |>.put .cfg F.CFG_STAT_LCS 3 |>.put .cfg F.CFG_STAT_PRES 1) with st := { soft := [(5, [77])], fuses := [(5, List.replicate 32 1)] } }
  let unit : Fin 64 := 5
  (s.testing = false) ∧ (s.get .cfg F.CFG_STAT_LCS = 3 ∨ s.get .cfg F.CFG_STAT_LCS = 1) ∧ (unit.val < 59) ∧ (s.present = true) ∧ ((s.softMap unit.val) ≠ []) ∧ (fuseRoom < (s.fuseBank unit.val).length + (s.softMap unit.val).length) := by decide +kernel

/-- Hypotheses of `fuseNothing` in `SelfTest`. -/
theorem witness_fuseNothing :
  let s : State := (State.reset |>.put .cfg F.CFG_STAT_LCS 3 |>.put .cfg F.CFG_STAT_PRES 1)
  let unit : Fin 64 := 5
  (s.testing = false) ∧ (s.get .cfg F.CFG_STAT_LCS = 3 ∨ s.get .cfg F.CFG_STAT_LCS = 1) ∧ (unit.val < 59) ∧ (s.present = true) ∧ (s.softMap unit.val = []) := by decide +kernel

/-- Hypotheses of `clearSoft` in `SelfTest`. -/
theorem witness_clearSoft :
  let s : State := { (State.reset |>.put .cfg F.CFG_STAT_LCS 3 |>.put .cfg F.CFG_STAT_PRES 1) with st := { soft := [(5, [77])] } }
  let unit : Fin 64 := 5
  (s.testing = false) ∧ (s.get .cfg F.CFG_STAT_LCS = 3 ∨ s.get .cfg F.CFG_STAT_LCS = 1) ∧ (unit.val < 59) ∧ (s.present = true) := by decide +kernel

/-- Hypotheses of `fuseAbsent` in `SelfTest`. -/
theorem witness_fuseAbsent :
  let s : State := (State.reset |>.put .cfg F.CFG_STAT_LCS 3)
  let unit : Fin 64 := 5
  (s.testing = false) ∧ (s.get .cfg F.CFG_STAT_LCS = 3 ∨ s.get .cfg F.CFG_STAT_LCS = 1) ∧ (unit.val < 59) ∧ (s.present = false) := by decide +kernel

/-- Hypotheses of `clearSoftAbsent` in `SelfTest`. -/
theorem witness_clearSoftAbsent :
  let s : State := (State.reset |>.put .cfg F.CFG_STAT_LCS 3)
  let unit : Fin 64 := 5
  (s.testing = false) ∧ (s.get .cfg F.CFG_STAT_LCS = 3 ∨ s.get .cfg F.CFG_STAT_LCS = 1) ∧ (unit.val < 59) ∧ (s.present = false) := by decide +kernel

/-- Hypotheses of `testState` in `SelfTest`. -/
theorem witness_testState :
  let s : State := (State.reset |>.put .cfg F.CFG_STAT_LCS 2)
  let unit : Fin 64 := 5
  let classes : Fin 16 := 3
  (s.testing = false) ∧ (s.get .cfg F.CFG_STAT_LCS ≠ 3) ∧ (s.get .cfg F.CFG_STAT_LCS ≠ 1) := by decide +kernel

/-- Hypotheses of `fuseState` in `SelfTest`. -/
theorem witness_fuseState :
  let s : State := (State.reset |>.put .cfg F.CFG_STAT_LCS 2)
  let unit : Fin 64 := 5
  (s.testing = false) ∧ (s.get .cfg F.CFG_STAT_LCS ≠ 3) ∧ (s.get .cfg F.CFG_STAT_LCS ≠ 1) := by decide +kernel

/-- Hypotheses of `clearSoftState` in `SelfTest`. -/
theorem witness_clearSoftState :
  let s : State := (State.reset |>.put .cfg F.CFG_STAT_LCS 2)
  let unit : Fin 64 := 5
  (s.testing = false) ∧ (s.get .cfg F.CFG_STAT_LCS ≠ 3) ∧ (s.get .cfg F.CFG_STAT_LCS ≠ 1) := by decide +kernel

/-- Hypotheses of `stCmdReserved` in `SelfTest`. -/
theorem witness_stCmdReserved :
  let s : State := State.reset
  let op : Fin 16 := 7
  (s.testing = false) ∧ (op.val = 0 ∨ 4 ≤ op.val) := by decide +kernel

/-- Hypotheses of `stCmdDone` in `SelfTest`. -/
theorem witness_stCmdDone :
  let s : State := { State.reset with st := { soft := [(5, [77])], fuse := some 5 } }
  let u : Nat := 5
  (s.st.fuse = some u) ∧ (s.pwrNext = none) := by decide +kernel

/-- Hypotheses of `testDone` in `SelfTest`. -/
theorem witness_testDone :
  let s : State := { State.reset with st := { active := some ⟨none, 7, []⟩ } }
  let run : Nat := 7
  (s.st.fuse = none) ∧ (s.st.active = some ⟨none, run, []⟩) ∧ (s.pwrNext = none) := by decide +kernel

/-- Hypotheses of `packageFatal` in `ErrorsAndDebug`. -/
theorem witness_packageFatal :
  let s : State := { State.reset with mode := .serve }
  let cause : Fin 256 := 3
  let u : UnitId := .hub
  let addr : BitVec 52 := 64
  let info : BitVec 64 := 0
  (1 ≤ cause.val) ∧ (cause.val ≤ 9) ∧ (s.isOff = false) ∧ (s.mode ≠ .keep) := by decide +kernel

/-- Hypotheses of `packageFatalNot` in `ErrorsAndDebug`. -/
theorem witness_packageFatalNot :
  let s : State := { State.reset with mode := .serve }
  let cause : Fin 256 := 0
  let u : UnitId := .hub
  let addr : BitVec 52 := 64
  let info : BitVec 64 := 0
  (cause.val = 0 ∨ 9 < cause.val ∨ s.isOff = true ∨ s.mode = .keep) := by decide +kernel

/-- Hypotheses of `force` in `ErrorsAndDebug`. -/
theorem witness_force :
  let s : State := { State.reset with mode := .serve }
  (s.isOff = false) ∧ (s.mode ≠ .keep) := by decide +kernel

/-- Hypotheses of `forceOff` in `ErrorsAndDebug`. -/
theorem witness_forceOff :
  let s : State := State.reset
  (s.isOff = true ∨ s.mode = .keep) := by decide +kernel

/-- Hypotheses of `fatalWarmReset` in `ErrorsAndDebug`. -/
theorem witness_fatalWarmReset :
  let s : State := { State.reset with mode := .serve, fatal := [.hub] }
  (s.fatal ≠ []) ∧ (s.isOff = false) ∧ (s.mode ≠ .keep) := by decide +kernel

/-- Hypotheses of `fatalWarmNone` in `ErrorsAndDebug`. -/
theorem witness_fatalWarmNone :
  let s : State := State.reset
  (s.fatal = []) := by decide +kernel

/-- Hypotheses of `counterWrite` in `ErrorsAndDebug`. -/
theorem witness_counterWrite :
  let s : State := State.reset
  let n : Fin 16 := 3
  let v : BitVec 32 := 99
  let events : Fin 16 := 0
  (events.val = 0 ∨ s.on .pmu F.PMU_CTRL_FREEZE = true ∨ s.on .pmu F.PMU_EN n.val = false) := by decide +kernel

/-- Hypotheses of `counterWriteAdds` in `ErrorsAndDebug`. -/
theorem witness_counterWriteAdds :
  let s : State := (State.reset |>.put .pmu F.PMU_EN 1 3)
  let n : Fin 16 := 3
  let v : BitVec 32 := 99
  let events : Fin 16 := 2
  (s.on .pmu F.PMU_CTRL_FREEZE = false) ∧ (s.on .pmu F.PMU_EN n.val = true) ∧ (v.toNat + events.val < 2 ^ 32) := by decide +kernel

/-- Hypotheses of `trcMark` in `ErrorsAndDebug`. -/
theorem witness_trcMark :
  let s : State := (State.reset |>.put .trace F.TRC_CTRL_EN 1 |>.put .trace F.TRC_CTRL_SRCMASK 0x3F |>.put .trace F.TRC_CTRL_SEC 1)
  let v : BitVec 32 := 0x1234
  (s.on .trace F.TRC_CTRL_EN = true) ∧ (s.get .trace F.TRC_CTRL_SRCMASK / 2 ^ 5 % 2 = 1) ∧ (secureUnit .trace = false ∨ s.on .trace F.TRC_CTRL_SEC = true) ∧ (s.on .trace F.TRC_CTRL_STOP = false ∨ s.get .trace F.TRC_IDX < 4096) := by decide +kernel

/-- Hypotheses of `trcMarkFull` in `ErrorsAndDebug`. -/
theorem witness_trcMarkFull :
  let s : State := (State.reset |>.put .trace F.TRC_CTRL_EN 1 |>.put .trace F.TRC_CTRL_SRCMASK 0x3F |>.put .trace F.TRC_CTRL_SEC 1 |>.put .trace F.TRC_CTRL_STOP 1 |>.put .trace F.TRC_IDX 4096)
  let v : BitVec 32 := 0x1234
  (s.on .trace F.TRC_CTRL_EN = true) ∧ (s.get .trace F.TRC_CTRL_SRCMASK / 2 ^ 5 % 2 = 1) ∧ (secureUnit .trace = false ∨ s.on .trace F.TRC_CTRL_SEC = true) ∧ (s.on .trace F.TRC_CTRL_STOP = true) ∧ (4096 ≤ s.get .trace F.TRC_IDX) := by decide +kernel

/-- Hypotheses of `trcMarkOff` in `ErrorsAndDebug`. -/
theorem witness_trcMarkOff :
  let s : State := State.reset
  let v : BitVec 32 := 0x1234
  (s.on .trace F.TRC_CTRL_EN = false ∨ s.get .trace F.TRC_CTRL_SRCMASK / 2 ^ 5 % 2 = 0) := by decide +kernel

/-- Hypotheses of `dmiClosed` in `ErrorsAndDebug`. -/
theorem witness_dmiClosed :
  let s : State := { State.reset with mode := .serve, life := { deploy := true } }
  let addr : Fin 128 := 0x10
  let v : BitVec 32 := 0
  let op : DmiOp := .read
  (s.isOff = false) ∧ (s.mode ≠ .keep) ∧ (s.debugOpen = false) ∧ (op = .read ∨ op = .write v) := by decide +kernel

/-- Hypotheses of `dmiAccess` in `ErrorsAndDebug`. -/
theorem witness_dmiAccess :
  let s : State := { State.reset with mode := .serve, dbg := { active := true } }
  let v : BitVec 32 := 77
  (s.isOff = false) ∧ (s.mode ≠ .keep) ∧ (s.debugOpen = true) ∧ (s.dbg.active = true) ∧ (s.dbg.autoexec % 2 = 0) := by decide +kernel

set_option maxRecDepth 20000 in
/-- Hypotheses of `dmiRead` in `ErrorsAndDebug`. -/
theorem witness_dmiRead :
  let s : State := { State.reset with mode := .serve, dbg := { active := true } }
  let addr : Fin 128 := 0x11
  (s.isOff = false) ∧ (s.mode ≠ .keep) ∧ (s.debugOpen = true) ∧ (s.dbg.active = true) ∧ (addr.val = 0x11) := by decide +kernel

/-- Hypotheses of `dmiId` in `ErrorsAndDebug`. -/
theorem witness_dmiId :
  let s : State := { State.reset with mode := .serve }
  let addr : Fin 128 := 0
  (s.isOff = false) ∧ (s.mode ≠ .keep) := by decide +kernel

/-- Hypotheses of `dmiDtmcs` in `ErrorsAndDebug`. -/
theorem witness_dmiDtmcs :
  let s : State := { State.reset with mode := .serve }
  let addr : Fin 128 := 0
  (s.isOff = false) ∧ (s.mode ≠ .keep) := by decide +kernel

/-- Hypotheses of `dmiOff` in `ErrorsAndDebug`. -/
theorem witness_dmiOff :
  let s : State := State.reset
  let addr : Fin 128 := 0
  let op : DmiOp := .read
  (s.isOff = true ∨ s.mode = .keep) := by decide +kernel

/-- Hypothesis of the idle clause of `StepRunsFront`. -/
theorem witness_idle : State.reset.pending = [] := by decide

/-- Hypotheses of `StepKeepsInv`. -/
theorem witness_StepKeepsInv : State.reset.Inv ∧ ∃ t, step State.reset = .next t := ⟨⟨by decide, by decide⟩, _, rfl⟩

/-- Hypotheses of the clauses of `StackMapping`, at the last block below 192 GiB. -/
theorem witness_StackMapping : 192 * 2 ^ 30 - 1 < 192 * 2 ^ 30 ∧ 6291455 * 2 ^ 15 < 192 * 2 ^ 30 ∧ (6291455 + 1) * 2 ^ 15 ≤ 192 * 2 ^ 30 := by
  decide

/-- Hypotheses of the clause of `StrongCode` on uncorrectable syndromes, at 0x19. -/
theorem witness_StrongCode : 0x19 ≠ 3 ∧ 0x19 ≠ 0 ∧ ∀ k : Fin 13, 0x19 ≠ syndromeOf (2 ^ k.val) := by decide

/-- Hypotheses of `pcieEnableUnlocked` in `PortNeedsLock`. -/
theorem witness_pcieEnableUnlocked :
  let s : State := State.reset
  let k : Fin 2 := 1
  (s.on .fnmgr F.FNM_CTRL_LOCK = false) := by decide


end Sys2Proof.Machine
end

section
/-! The error summary of a unit and the enable bit of a PCIe port (R226, R513). -/

namespace Sys2Proof.Machine

open Sys2Proof

/-! ## Fields under `clean` and under a denied access -/

/-- Starting a command leaves every register field. -/
@[simp] theorem State.get_clean (s : State) (u : UnitId) (f : Fld) (i j : Nat) : s.clean.get u f i j = s.get u f i j :=
  State.get_congr rfl rfl u f i j

@[simp] theorem State.on_clean (s : State) (u : UnitId) (f : Fld) (i : Nat) : s.clean.on u f i = s.on u f i := rfl

/-- The first copies of two fields of one unit have different keys where their places in the page differ. -/
theorem fldKey_ne_of_place_ne (u : UnitId) {f f' : Fld} (h : 8 * f'.off + f'.lo ≠ 8 * f.off + f.lo) :
    fldKey u f' 0 0 ≠ fldKey u f 0 0 := by
  simp only [fldKey, Nat.zero_mod, Nat.mul_zero, Nat.add_zero]
  omega

/-- A denied access writes FIRST, DENIED and CNT of the unit's error summary, and no other field (R513). -/
theorem State.get_denied_ne (s : State) {u u' : UnitId} {f : Fld} {i j : Nat}
    (hfirst : fldKey u' f i j ≠ fldKey u F.UNIT_ERR_FIRST 0 0) (hdenied : fldKey u' f i j ≠ fldKey u F.UNIT_ERR_DENIED 0 0)
    (hcnt : fldKey u' f i j ≠ fldKey u F.UNIT_ERR_CNT 0 0) : (s.denied u).get u' f i j = s.get u' f i j := by
  simp only [State.denied, State.record, State.count, State.raise, errBit, State.get_put_ne _ _ hcnt,
    State.get_put_ne _ _ hdenied]
  split
  · exact State.get_put_ne _ _ hfirst
  · rfl

/-- A denied access is recorded in the unit's error summary: DENIED reads 1 (R513). -/
theorem State.on_denied_same (s : State) (u : UnitId) : (s.denied u).on u F.UNIT_ERR_DENIED = true := by
  have hcnt : fldKey u F.UNIT_ERR_DENIED 0 0 ≠ fldKey u F.UNIT_ERR_CNT 0 0 := fldKey_ne_of_place_ne u (by decide)
  simp only [State.denied, State.record, State.count, State.on, State.get_put_ne _ _ hcnt]
  exact State.on_raise_same _ u F.UNIT_ERR_DENIED 0 rfl

/-! ## PCIE_ENABLE -/

/-- While LOCK is 0, enabling a port is a denied access and nothing else (R226). -/
theorem exec_pcieEnable_of_unlocked {s : State} (k : Fin 2) (h : s.on .fnmgr F.FNM_CTRL_LOCK = false) :
    exec (.pcieEnable k) s = .next (s.clean.denied (.pcie k)) := by
  change execPcieEnable k s = _
  simp [execPcieEnable, h]

/-- A denied access at a port keeps the port's EN: PCIE_CTRL lies apart from the error summary. -/
theorem State.get_pcieEn_denied (s : State) (k : Fin 2) :
    (s.denied (.pcie k)).get (.pcie k) F.PCIE_CTRL_EN = s.get (.pcie k) F.PCIE_CTRL_EN :=
  s.get_denied_ne (fldKey_ne_of_place_ne _ (by decide)) (fldKey_ne_of_place_ne _ (by decide))
    (fldKey_ne_of_place_ne _ (by decide))

/-- Settles O60: the only effect is the denied access, which writes the error summary and not PCIE_CTRL. -/
theorem portNeedsLock : Obligations.PortNeedsLock := by
  unfold Obligations.PortNeedsLock
  intro s k hlock
  refine ⟨s.clean.denied (.pcie k), exec_pcieEnable_of_unlocked k hlock, rfl, ?_, State.on_denied_same _ _⟩
  rw [State.get_pcieEn_denied, State.get_clean]

end Sys2Proof.Machine
end

section
/-! The stack and the local offset of a DRAM address (R363). -/

namespace Sys2Proof.Machine

open Sys2Proof

/-! ## The exclusive or of groups of three bits -/

/-- One more group of three bits at the low end. -/
theorem xor3_succ_low (n h q : Nat) (hq : q < 8) : xor3 (n + 1) (h * 8 + q) = q ^^^ xor3 n h := by
  have hmod : (h * 8 + q) % 8 = q := by omega
  have hdiv : (h * 8 + q) / 8 = h := by omega
  rw [xor3, hmod, hdiv]

/-- The exclusive or of groups of three bits has three bits. -/
theorem xor3_lt (n x : Nat) : xor3 n x < 8 := by
  induction n generalizing x with
  | zero => exact Nat.zero_lt_succ 7
  | succ n ih => exact Nat.xor_lt_two_pow (n := 3) (Nat.mod_lt _ (by decide)) (ih _)

/-- A second exclusive or with the same number undoes the first. -/
theorem xor_xor_same (x c : Nat) : x ^^^ c ^^^ c = x := by rw [Nat.xor_assoc, Nat.xor_self, Nat.xor_zero]

/-- The order of two exclusive ors does not matter. -/
theorem xor_swap (x y z : Nat) : x ^^^ y ^^^ z = x ^^^ z ^^^ y := by
  rw [Nat.xor_assoc, Nat.xor_comm y z, ← Nat.xor_assoc]

/-! ## An address as a block, a page of the block and an offset in the page -/

/-- The address of offset `x` in page `q` of the 32 KiB block `h`. -/
def pageAddr (h q x : Nat) : Nat := h * 2 ^ 15 + q * 4096 + x

/-- The page of a block that lies in stack `k`. -/
def pageIn (h : Nat) (k : Fin 8) : Fin 8 := k ^^^ ⟨xor3 8 h, xor3_lt 8 h⟩

section
variable {h q x : Nat} (hq : q < 8) (hx : x < 4096)
include hq hx

/-- An address lies at or above a block exactly if its own block does. -/
theorem le_pageAddr_iff (b : Nat) : b * 2 ^ 15 ≤ pageAddr h q x ↔ b ≤ h := by
  unfold pageAddr
  omega

/-- An address lies below a block exactly if its own block does. -/
theorem pageAddr_lt_iff (b : Nat) : pageAddr h q x < b * 2 ^ 15 ↔ h < b := by
  unfold pageAddr
  omega

variable (hh : h < 2 ^ 23)
include hh

/-- The stack is the page's number exclusive or the groups of the block's number (R363). -/
theorem stackOf_pageAddr : (stackOf (pageAddr h q x)).val = q ^^^ xor3 8 h := by
  have hpages : pageAddr h q x % 2 ^ 38 / 4096 = h * 8 + q := by
    unfold pageAddr
    omega
  have hlt : q ^^^ xor3 8 h < 8 := Nat.xor_lt_two_pow (n := 3) hq (xor3_lt 8 h)
  simp only [stackOf, hpages, xor3_succ_low 8 h q hq, Nat.mod_eq_of_lt hlt]

/-- The local offset leaves out the page's number (R363). -/
theorem localOf_pageAddr : localOf (pageAddr h q x) = h * 4096 + x := by
  unfold localOf pageAddr
  omega

/-- A page lies in stack `k` exactly if it is the block's page in `k`. -/
theorem stackOf_pageAddr_eq_iff (k : Fin 8) : stackOf (pageAddr h q x) = k ↔ q = (pageIn h k).val := by
  have hin : (pageIn h k).val = k.val ^^^ xor3 8 h :=
    Nat.mod_eq_of_lt (Nat.xor_lt_two_pow (n := 3) k.isLt (xor3_lt 8 h))
  rw [Fin.ext_iff, stackOf_pageAddr hq hx hh, hin]
  exact ⟨fun heq => by rw [← heq, xor_xor_same], fun heq => by rw [heq, xor_xor_same]⟩

end

/-- Every block has a page in stack `k`. -/
theorem exists_page_in_stack {h x : Nat} (hh : h < 2 ^ 23) (hx : x < 4096) (k : Fin 8) :
    ∃ q < 8, stackOf (pageAddr h q x) = k :=
  ⟨pageIn h k, (pageIn h k).isLt, (stackOf_pageAddr_eq_iff (pageIn h k).isLt hx hh k).mpr rfl⟩

/-! ## The parts of the statement -/

/-- The stack is the exclusive or of the nine groups of address bits. -/
theorem stackOf_eq_xor_bits {a : Nat} (ha : a < 2 ^ 38) :
    (stackOf a).val = bitsOf a 12 3 ^^^ bitsOf a 15 3 ^^^ bitsOf a 18 3 ^^^ bitsOf a 21 3 ^^^ bitsOf a 24 3 ^^^
      bitsOf a 27 3 ^^^ bitsOf a 30 3 ^^^ bitsOf a 33 3 ^^^ bitsOf a 36 2 := by
  have hlast : bitsOf a 36 2 = bitsOf a 36 3 := by
    unfold bitsOf
    omega
  have hstack : (stackOf a).val = xor3 9 (a / 4096) := by
    simp only [stackOf, Nat.mod_eq_of_lt ha, Nat.mod_eq_of_lt (xor3_lt 9 _)]
  rw [hlast, hstack]
  simp only [xor3, bitsOf, Nat.div_div_eq_div_mul, Nat.xor_assoc, Nat.xor_zero, Nat.reduceMul, Nat.reducePow]

/-- The local offset joins bits 37 to 15 and bits 11 to 0. -/
theorem localOf_eq_bits (a : Nat) : localOf a = bitsOf a 15 23 * 4096 + bitsOf a 0 12 := by
  unfold localOf bitsOf
  omega

/-- An eighth of a block is a page. -/
theorem block_div_eight (b : Nat) : b * 2 ^ 15 / 8 = b * 4096 := by omega

/-- The blocks from `b` to `b + n` hold in every stack the local offsets from `b * 4096` to `(b + n) * 4096`: offset
`o` lies in block `o / 4096`, at offset `o % 4096` of the block's page in the stack. -/
theorem exists_addr_iff_localOf_range {b n : Nat} (hbn : b + n ≤ 2 ^ 23) (o : Nat) (k : Fin 8) :
    (∃ a, b * 2 ^ 15 ≤ a ∧ a < (b + n) * 2 ^ 15 ∧ stackOf a = k ∧ localOf a = o) ↔
      b * 4096 ≤ o ∧ o < (b + n) * 4096 := by
  constructor
  · rintro ⟨a, hlo, hhi, -, rfl⟩
    unfold localOf
    omega
  · rintro ⟨hlo, hhi⟩
    have hfirst : b ≤ o / 4096 := by omega
    have hlast : o / 4096 < b + n := by omega
    have hpage : o / 4096 < 2 ^ 23 := Nat.lt_of_lt_of_le hlast hbn
    have hoff : o % 4096 < 4096 := Nat.mod_lt _ (by decide)
    obtain ⟨q, hq, hstack⟩ := exists_page_in_stack hpage hoff k
    refine ⟨pageAddr (o / 4096) q (o % 4096), (le_pageAddr_iff hq hoff b).mpr hfirst,
      (pageAddr_lt_iff hq hoff (b + n)).mpr hlast, hstack, ?_⟩
    rw [localOf_pageAddr hq hoff hpage, Nat.div_add_mod']

/-- Settles O58: in each block the page in stack `k` is `k` exclusive or the groups of the block's number, so the local
offsets of a range of blocks in `k` are those of its pages. -/
theorem stackMapping : Obligations.StackMapping := by
  unfold Obligations.StackMapping
  refine ⟨fun a ha => ⟨stackOf_eq_xor_bits (by omega), localOf_eq_bits a⟩, fun b k hb => ⟨pageIn b k, fun q x => ?_⟩,
    fun b n o k hbn => ?_⟩
  · exact (stackOf_pageAddr_eq_iff q.isLt x.isLt (by omega) k).trans Fin.ext_iff.symm
  · rw [← Nat.add_mul, block_div_eight, block_div_eight]
    exact (exists_addr_iff_localOf_range (by omega) o k).symm

end Sys2Proof.Machine
end

section
/-! The strong code of a byte: its columns, its check bits and what it makes of a syndrome (R365, R367). -/

namespace Sys2Proof.Machine

open Sys2Proof

/-! ## Check bits and syndromes are linear -/

/-- A bit of a mask is the bit of the number. -/
theorem inMask_eq_testBit (m i : Nat) : inMask m i = m.testBit i := by
  rw [inMask, Nat.testBit_eq_decide_div_mod_eq]
  rfl

/-- The exclusive or of the columns that a mask names, over any list of bits, is linear in the mask. -/
theorem foldl_cols_xor (col : Nat → Nat) (f g : Nat) (js : List Nat) (x y : Nat) :
    js.foldl (fun x j => if inMask (f ^^^ g) j then x ^^^ col j else x) (x ^^^ y) =
      js.foldl (fun x j => if inMask f j then x ^^^ col j else x) x ^^^
        js.foldl (fun x j => if inMask g j then x ^^^ col j else x) y := by
  induction js generalizing x y with
  | nil => rfl
  | cons j js ih =>
    simp only [List.foldl_cons, ← ih]
    congr 1
    simp only [inMask_eq_testBit, Nat.testBit_xor]
    cases f.testBit j <;> cases g.testBit j
    · rfl
    · exact Nat.xor_assoc x y _
    · exact xor_swap x y _
    · calc x ^^^ y = x ^^^ y ^^^ col j ^^^ col j := (xor_xor_same _ _).symm
        _ = x ^^^ col j ^^^ (y ^^^ col j) := by rw [xor_swap x y, Nat.xor_assoc (x ^^^ col j)]

/-- The check bits of an exclusive or (R365). -/
theorem checkBits_xor (b c : Nat) : checkBits (b ^^^ c) = checkBits b ^^^ checkBits c :=
  foldl_cols_xor _ b c _ 0 0

/-- The syndrome of an exclusive or (R365). -/
theorem syndromeOf_xor (f g : Nat) : syndromeOf (f ^^^ g) = syndromeOf f ^^^ syndromeOf g :=
  foldl_cols_xor _ f g _ 0 0

/-- Wrong data bits have the syndrome of their check bits: no column of a check bit joins in. -/
theorem syndromeOf_data {d : Nat} (hd : d < 256) : syndromeOf d = checkBits d := by
  have hcheck : ∀ i, inMask d (8 + i) = false := fun i => by
    rw [inMask_eq_testBit]
    exact Nat.testBit_lt_two_pow (Nat.lt_of_lt_of_le hd (Nat.pow_le_pow_right (n := 2) (by decide) (Nat.le_add_right 8 i)))
  have hrange : List.range 13 = List.range 8 ++ [8 + 0, 8 + 1, 8 + 2, 8 + 3, 8 + 4] := rfl
  rw [syndromeOf, hrange, List.foldl_append]
  simp only [List.foldl_cons, List.foldl_nil, hcheck, Bool.false_eq_true, if_false]
  rfl

/-- Wrong check bits are their own syndrome. -/
theorem syndromeOf_check : ∀ c : Fin 32, syndromeOf (c.val * 256) = c.val := by decide

/-- The syndrome of a byte's wrong bits: the check bits of the data bits among them, exclusive or the check bits
among them. -/
theorem syndromeOf_eq_checkBits_xor {f : Nat} (hf : f < 8192) : syndromeOf f = checkBits (f % 256) ^^^ f / 256 := by
  have hsplit : f % 256 ^^^ f / 256 * 256 = f := by
    refine Nat.eq_of_testBit_eq fun i => ?_
    change (f % 2 ^ 8 ^^^ f / 2 ^ 8 * 2 ^ 8).testBit i = f.testBit i
    rw [Nat.testBit_xor, Nat.testBit_mod_two_pow, Nat.testBit_mul_two_pow, Nat.testBit_div_two_pow]
    by_cases hi : i < 8
    · simp [hi, Nat.not_le.mpr hi]
    · simp [hi, Nat.not_lt.mp hi]
  calc syndromeOf f = syndromeOf (f % 256 ^^^ f / 256 * 256) := by rw [hsplit]
    _ = syndromeOf (f % 256) ^^^ syndromeOf (f / 256 * 256) := syndromeOf_xor _ _
    _ = checkBits (f % 256) ^^^ f / 256 := by
      rw [syndromeOf_data (Nat.mod_lt f (by decide)), syndromeOf_check ⟨f / 256, by omega⟩]

/-- The syndrome is the stored check bits exclusive or those recomputed from the data read (R365). -/
theorem syndromeOf_eq_stored_xor_recomputed (b : Nat) {f : Nat} (hf : f < 8192) :
    syndromeOf f = (checkBits b ^^^ f / 256) ^^^ checkBits (b ^^^ f % 256) := by
  rw [syndromeOf_eq_checkBits_xor hf, checkBits_xor, xor_swap, ← Nat.xor_assoc, Nat.xor_self, Nat.zero_xor]

/-- A field of one bit is that bit of the number. -/
theorem bitsOf_one (n i : Nat) : bitsOf n i 1 = (inMask n i).toNat := by
  rcases Nat.mod_two_eq_zero_or_one (n / 2 ^ i) with h | h <;> simp [bitsOf, inMask, h]

/-- The check bits of a byte are those of the equations (R365). -/
theorem checkBits_eq_equations (b : Nat) : checkBits b =
    (bitsOf b 0 1 ^^^ bitsOf b 1 1 ^^^ bitsOf b 2 1 ^^^ bitsOf b 3 1 ^^^ bitsOf b 4 1) +
    2 * (bitsOf b 0 1 ^^^ bitsOf b 1 1 ^^^ bitsOf b 2 1 ^^^ bitsOf b 5 1 ^^^ bitsOf b 6 1 ^^^ bitsOf b 7 1) +
    4 * (bitsOf b 0 1 ^^^ bitsOf b 3 1 ^^^ bitsOf b 4 1 ^^^ bitsOf b 5 1 ^^^ bitsOf b 6 1) +
    8 * (bitsOf b 1 1 ^^^ bitsOf b 3 1 ^^^ bitsOf b 5 1 ^^^ bitsOf b 7 1) +
    16 * (bitsOf b 2 1 ^^^ bitsOf b 4 1 ^^^ bitsOf b 6 1 ^^^ bitsOf b 7 1) := by
  have hrange : List.range 8 = [0, 1, 2, 3, 4, 5, 6, 7] := rfl
  simp only [bitsOf_one, checkBits, hrange, List.foldl_cons, List.foldl_nil]
  -- Both sides read only the eight bits of the byte.
  generalize inMask b 0 = d0, inMask b 1 = d1, inMask b 2 = d2, inMask b 3 = d3, inMask b 4 = d4, inMask b 5 = d5,
    inMask b 6 = d6, inMask b 7 = d7
  revert d0 d1 d2 d3 d4 d5 d6 d7
  decide

/-! ## Judging a syndrome -/

/-- One wrong bit has the syndrome of its column. -/
theorem syndromeOf_two_pow : ∀ k : Fin 13, syndromeOf (2 ^ k.val) = checkCols.getD k.val 0 := by decide

/-- A column is found at its own bit, and is neither 0 nor the stored-poison syndrome. -/
theorem find_col : ∀ k : Fin 13,
    (List.range 13).find? (fun j => checkCols.getD j 0 == syndromeOf (2 ^ k.val)) = some k.val ∧
      syndromeOf (2 ^ k.val) ≠ 0 ∧ syndromeOf (2 ^ k.val) ≠ 3 := by
  decide

/-- The strong code corrects a single wrong bit: a data bit in the byte, a check bit without changing it (R367). -/
theorem judgeByte_syndromeOf_two_pow (v : Nat) (k : Fin 13) :
    judgeByte true v (syndromeOf (2 ^ k.val)) = .corrected (if k.val < 8 then v ^^^ 2 ^ k.val else v) := by
  obtain ⟨hfind, hzero, hpoison⟩ := find_col k
  simp only [judgeByte, if_true, if_neg hzero, if_neg hpoison, hfind]

/-- A syndrome that is neither good nor poison and matches no column is an uncorrectable error (R367). -/
theorem judgeByte_of_no_col (v : Nat) {y : Nat} (hpoison : y ≠ 3) (hzero : y ≠ 0)
    (hcol : ∀ k : Fin 13, y ≠ syndromeOf (2 ^ k.val)) : judgeByte true v y = .bad := by
  have hnone : (List.range 13).find? (fun j => checkCols.getD j 0 == y) = none := by
    rw [List.find?_eq_none]
    intro j hj hbeq
    have hk := hcol ⟨j, List.mem_range.mp hj⟩
    rw [syndromeOf_two_pow] at hk
    exact hk (beq_iff_eq.mp hbeq).symm
  simp only [judgeByte, if_true, if_neg hzero, if_neg hpoison, hnone]

/-- The syndrome of one wrong check bit has that bit alone. -/
theorem syndromeOf_check_bit : ∀ k : Fin 5, syndromeOf (2 ^ (8 + k.val)) = 2 ^ k.val := by decide

/-- Settles O59: the syndrome is linear in the wrong bits, and the judgement looks the syndrome up among the columns. -/
theorem strongCode : Obligations.StrongCode := by
  unfold Obligations.StrongCode
  refine ⟨by decide, by decide, by decide, fun _ => rfl, fun v k => ?_, fun v k => ?_,
    fun v y hpoison hzero hcol => judgeByte_of_no_col v hpoison hzero hcol, fun b => checkBits_eq_equations b.val,
    fun b f => syndromeOf_eq_stored_xor_recomputed b.val f.isLt⟩
  · have hjudge := judgeByte_syndromeOf_two_pow v ⟨8 + k.val, by omega⟩
    rwa [syndromeOf_check_bit, if_neg (by simp)] at hjudge
  · have hjudge := judgeByte_syndromeOf_two_pow v ⟨k.val, by omega⟩
    rwa [if_pos k.isLt] at hjudge

end Sys2Proof.Machine
end
